-- ==== Sys2Proof/Word.lean ====
section
/-! DEFINITION. The word types of the model and their plainest arithmetic (00_scope.md R3, R6). -/

namespace Sys2Proof

/-- One byte. -/
abbrev Byte := BitVec 8

/-- One 32-bit register word (R6). -/
abbrev Word := BitVec 32

/-- One 64-bit value, in memory or carried by the mailbox. -/
abbrev DWord := BitVec 64

/-- A context number, 0 to 255 (05_commands.md R127). -/
abbrev CtxId := Fin 256

/-- A function of port 0: 0 is PF0, 1 to 63 are VF1 to VF63 (05_commands.md R126). -/
abbrev FnId := Fin 64

/-- A Seam die, or the array above it (01_module.md R13). -/
abbrev DieId := Fin 24

/-- A quad (R14). -/
abbrev QuadId := Fin 6

/-- A Poskaron link (R14). -/
abbrev LinkId := Fin 24

/-- A collective group slot (10_collectives.md R261). -/
abbrev GroupId := Fin 64

/-- A training unit (07_training.md R190). -/
abbrev UnitId := Fin 64

/-- A snapshot slot (11_snapshots.md R293). -/
abbrev SnapId := Fin 8

/-- An event ring (12_host_attachment.md R349). -/
abbrev RingId := Fin 4

end Sys2Proof
end

