-- ==== Sys2Proof/Syntax.lean ====
section
/-! DEFINITION. The commands of the block: one constructor of `Instr` for each row of
spec/opcode_table.json. The operands of a command are what the world outside the module supplies with it: the value a
host writes, the bytes a host memory read answers, the timestamps of a partner, the errors the DRAM shows, the
number of the context, link or group in which the event happens (log entry 4). -/

namespace Sys2Proof

/-- The memory BARs (12_host_attachment.md Table 12.2). -/
inductive Bar where
  | bar0 | bar2 | bar4
deriving DecidableEq, Repr

/-- The posted register blocks (00_scope.md R8, 12_host_attachment.md R321). -/
inductive PBlock where
  | seam | fld | tkp | rst | hlt | sec | cal | pwr | svc
deriving DecidableEq, Repr

/-- A codeword of Seam that reads with bad symbols (04_seam_hoist.md R88): its Seam page, as die × 12,288 + page, and how many
of its 8-bit symbols are bad. -/
structure SeamHit where
  page    : Nat
  symbols : Nat
deriving DecidableEq, Repr

/-- The result of a quad self-test (02_field.md R58). -/
inductive QuadTest where
  | pass | failArray | failSeam
deriving DecidableEq, Repr

/-- A function of either host port (12_host_attachment.md Table 12.2). -/
inductive PortFn where
  | port0 (fn : FnId)
  | data
deriving DecidableEq, Repr

/-- The work a timed-out read served (12_host_attachment.md R341). -/
inductive TimedWork where
  | ringFetch (ctx : CtxId)
  | flagRead (ctx : CtxId) (work : TimedWork)
  | load (ctx : CtxId)
  | farslotAdd (ctx : CtxId)
  | transfer (ctx : CtxId) (desc : List Byte)
  | paging (ctx : CtxId) (vpn : Nat)
  | snapshot (slot : SnapId)
  | mailbox
  | other
deriving DecidableEq, Repr

/-- The binary tree over the contributions that a FREE reduction forms, by rank (10_collectives.md R282). -/
inductive RedTree where
  | leaf (rank : Nat)
  | node (left right : RedTree)
deriving DecidableEq, Repr
/-- What befell port 1's data function (12_host_attachment.md R340). -/
inductive P1Event where
  | hotReset | dlDown | flr
deriving DecidableEq, Repr

/-- A domain that a fence closes and whose drain is timed (13_reset_health.md R357). -/
inductive FenceDomain where
  | quad (q : QuadId)
  | link (l : LinkId)
  | host
deriving DecidableEq, Repr

/-- A Canary and what it watches (13_reset_health.md Table 13.5). -/
inductive CanaryOf where
  | commandWait (ctx : CtxId)
  | commandRun (ctx : CtxId)
  | step (ctx : CtxId)
  | collective (group : GroupId)
  | snapshotWait (slot : SnapId)
  | fieldProgress
  | drain (domain : FenceDomain) (works : List TimedWork)
  | mailbox
  | overseer (hub : Fin 4)
deriving DecidableEq, Repr

/-- A limit register with a parity bit (13_reset_health.md R363). -/
inductive LimitReg where
  | waitLimit
  | runLimit
  | stepMax (ctx : CtxId)
  | colCanary
  | snapWait
  | fieldProgress
  | drain
  | overseer
  | guard
  | holdover
deriving DecidableEq, Repr

/-- What the island's sensors read (15_power_bringup.md R404 to R408): the die temperatures before correction in 1/64 °C in the
order of Table 14.1, power in W averaged over 1 ms and over 10 ms, voltages in 10 mV, currents in 100 mA, the auxiliary in mV. -/
structure Readings where
  temps : List Int
  watts : Nat
  watts10 : Nat
  va : Nat
  vb : Nat
  ia : Nat
  ib : Nat
  auxMv : Nat
deriving DecidableEq, Repr


/-- The commands; each docstring gives the row's mnemonic, the rule it follows and what it stands for. -/
inductive Instr where
  /-- REGISTER_WRITE (R8): A host write to a register field that has no row of its own; posted fields set BUSY, and writes to fields without a writable bit have no effect. -/
  | registerWrite (fn : FnId) (bar : Bar) (offset : Nat) (be : BitVec 4) (value : Word) (second : Option (BitVec 4 × Word))
  /-- BUS_ERROR_ACCESS (R319): An access to a reserved or unimplemented offset of any BAR ends in a bus error: a read completes with Unsupported Request, a write is dropped, and both are logged in AER. -/
  | busErrorAccess (fn : FnId) (bar : Bar) (offset : Nat) (write : Bool) (dwords : Nat)
  /-- POSTED_WRITE_EFFECT (R321): A posted write takes effect and its block's BUSY bit clears. -/
  | postedWriteEffect (block : PBlock)
  /-- HUB_PROFILE_WRITE (R20): A write to HUB_PROFILE changes envelope, clocking, determinism, Seam ECC request or fabric mode; a write with a reserved encoding is ignored as a whole. -/
  | hubProfileWrite (value : Word)
  /-- CLOCK_CHANGE_EFFECT (R21): A pending ENVELOPE or CLOCKING change takes effect within 100 µs of the latest write, and CLOCK_PENDING clears. -/
  | clockChangeEffect
  /-- MATMUL (R28): A matrix-product Field operation is fetched, checked and run across the logical arrays, followed by the epilogue. -/
  | matmul (hits : List SeamHit)
  /-- BMATMUL (R39): A batched matrix-product Field operation runs BATCH independent MATMULs. -/
  | bmatmul (hits : List SeamHit)
  /-- CONV (R40): A convolution Field operation runs as an implicit matrix product. -/
  | conv (hits : List SeamHit)
  /-- DWCONV (R41): A depthwise convolution Field operation runs in depthwise mode, one channel per cell column. -/
  | dwconv (hits : List SeamHit)
  /-- ATTEND (R42): A block-streamed attention Field operation runs in FULL, PARTIAL or MERGE mode. -/
  | attend (hits : List SeamHit)
  /-- ELEM (R44): An elementwise Rim operation applies a binary operation and the Rim function. -/
  | elem (hits : List SeamHit)
  /-- REDUCE (R44): A Rim operation reduces each row of A to one element in the fixed lane-and-tree order. -/
  | reduce (hits : List SeamHit)
  /-- NORM (R44): A Rim operation applies layer, RMS or group normalisation along N. -/
  | norm (hits : List SeamHit)
  /-- REPACK (R44): A Rim operation copies A to OUT with a change of format and row strides. -/
  | repack (hits : List SeamHit)
  /-- GATHER (R45): A Rim operation writes rows of A chosen by an index vector to OUT. -/
  | gather (hits : List SeamHit)
  /-- SCATTER (R45): A Rim operation writes or adds rows of A into the OUT rows named by an index vector. -/
  | scatter (hits : List SeamHit)
  /-- OPTSTEP (R205): An optimizer-step operation updates master weights and moments under AdamW, SGDM or Lion, governed by the command's norm decision. -/
  | optstep (hits : List SeamHit)
  /-- SUMSQ (R193): A STATS operation writes the sum of squares of A in the fixed reduction order. -/
  | sumsq (hits : List SeamHit)
  /-- SUMSQ2 (R193): A STATS operation writes the sums of squares of A and B. -/
  | sumsq2 (hits : List SeamHit)
  /-- CHECK (R194): A STATS operation reads S, computes the global norm and fixes the command's norm decision. -/
  | check (hits : List SeamHit)
  /-- NOISE (R210): A STATS operation computes gradient-noise estimates, to be applied when the update command ends. -/
  | noise (hits : List SeamHit)
  /-- PAGE_IN_DONE (R113): A page-in completes, the page becomes RESIDENT, and a stalled operation or waiting dispatch resumes. -/
  | pageInDone (ctx : CtxId) (vpn : Nat)
  /-- QUAD_FENCE_REQUEST (R53): A write of a FENCE bit to 1 requests a fence of that quad and sets PENDING. -/
  | quadFenceRequest (quad : QuadId)
  /-- QUAD_FENCE_EFFECT (R53): Once the quad holds no pages and no running command uses its arrays, the fence takes effect. -/
  | quadFenceEffect (quad : QuadId)
  /-- QUAD_UNFENCE_REQUEST (R57): A write of a FENCE bit to 0 requests an unfence, which waits for any self-test result. -/
  | quadUnfenceRequest (quad : QuadId)
  /-- QUAD_UNFENCE_EFFECT (R57): The returning quad's Seam is zero-filled, every page cache is flushed, the module epoch is incremented and the unfence takes effect. -/
  | quadUnfenceEffect (quad : QuadId)
  /-- QUAD_TEST_START (R55): FLD_QTEST.START starts a self-test of a fenced quad, or records NOT_FENCED or BUSY. -/
  | quadTestStart (quad : BitVec 3)
  /-- QUAD_TEST_DONE (R58): A quad self-test records PASS, FAIL_ARRAY or FAIL_SEAM and raises a QUAD_TEST event. -/
  | quadTestDone (quad : QuadId) (result : QuadTest)
  /-- MAINT (R59): A write of FLD_CTRL.MAINT enters maintenance state when no command is fetched, or ends it. -/
  | maint (on : Bool)
  /-- FREEZE (R59): FLD_CTRL.FREEZE stops the Field within 20 µs, keeps its state for capture, and kills the holding command without re-run. -/
  | freeze
  /-- FIELD_CAPTURE (R60): FLD_CAPT.START begins a capture of the whole Field state into a window slot, or is refused. -/
  | fieldCapture (ctx : Byte) (slot : BitVec 16) (flag : List Byte)
  /-- CAPTURE_DONE (R61): A capture image is complete, the slot is handed back with LEN 832,049,152 and STATE reads done. -/
  | captureDone
  /-- SEAM_REFRESH (R90): A bank refresh falls due every 32 ms, or 16 ms above 85 °C. -/
  | seamRefresh (die : DieId)
  /-- SEAM_SCRUB (R90): The patrol scrub reads and corrects codewords once per SEAM_SCRUB period. -/
  | seamScrub (hits : List SeamHit)
  /-- SEAM_ARB_GRANT (R119): When a Seam port frees, the arbiter grants a waiting requester class by wait counters and order. -/
  | seamArbGrant (die : DieId) (waiting : BitVec 5) (waitedNs : Nat)
  /-- ALLOC (R100): A Hoist request allocates a new handle of zeroed pages placed per PLACE. -/
  | alloc (ctx : CtxId)
  /-- FREE (R101): A Hoist request unmaps a handle for later-dispatched commands. -/
  | freeHandle (ctx : CtxId)
  /-- HANDLE_RELEASE (R101): A freed handle's pages and number are released once no dispatched command references them. -/
  | handleRelease (ctx : CtxId) (handle : Nat)
  /-- PLACE (R100): A Hoist request moves a handle's non-poisoned pages per PLACE without changing contents. -/
  | place (ctx : CtxId) (hits : List SeamHit)
  /-- LOAD (R102): A Hoist request copies bytes from a device-owned window slot into a handle, optionally checking the slot CRC. -/
  | load (ctx : CtxId) (flag : List Byte) (data : List Byte) (portFault : Bool)
  /-- FARSLOT_ADD (R112): A Hoist request gives a device-owned window slot to the context's far pool. -/
  | farslotAdd (ctx : CtxId) (flag : List Byte)
  /-- FARSLOT_RELEASE (R112): A Hoist request takes a slot out of the far pool and hands it back, or fails with NO_ROOM while FAR pages remain. -/
  | farslotRelease (ctx : CtxId)
  /-- SETFLAGS (R98): A Hoist request sets PIN and RO on every page of a handle. -/
  | setflags (ctx : CtxId)
  /-- DIRECT_TABLE_WRITE (R109): HST_DTW_CTRL.START writes one PTE directly, or is ignored and sets DTW_ERR. -/
  | directTableWrite (ctx : Byte)
  /-- TABLE_READ (R110): The mailbox request returns the 64-bit PTE of a context's virtual page. -/
  | tableRead
  /-- INVALIDATE (R111): HST_INVALIDATE.START invalidates the page-cache entries of one or all contexts. -/
  | invalidate (ctx : Byte) (all : Bool)
  /-- INVALIDATE_DONE (R111): An invalidation completes within 2 µs and INV_BUSY clears. -/
  | invalidateDone
  /-- EVACUATE (R116): HST_EVAC.START begins moving every non-poisoned page out of a quad's Seam dies. -/
  | evacuate (quad : BitVec 3) (hits : List SeamHit)
  /-- EVACUATION_DONE (R116): An evacuation ends with EVAC_STATE done, or stops with NO_ROOM. -/
  | evacuationDone
  /-- CTX_CREATE (R127): The mailbox request creates a context with its rings, share and slot, or refuses. -/
  | ctxCreate
  /-- CTX_DESTROY (R129): The mailbox request stops fetch, kills dispatched commands, drops fetched ones, frees handles and releases the context. -/
  | ctxDestroy
  /-- SQ_DB (R131): A doorbell write of a new SQ_TAIL is accepted or ignored with DB_BAD counted. -/
  | sqDb (fn : FnId) (slot : Fin 32) (value : Word)
  /-- COMMAND_FETCH (R133): The device fetches and checks a command descriptor, reserving a completion-ring entry, when fetch room allows. -/
  | commandFetch (ctx : CtxId) (desc : List Byte)
  /-- COMMAND_DISPATCH (R139): A fetched command is dispatched: footprint checked, width checked, shadows reserved and FAR pages paged in. -/
  | commandDispatch (ctx : CtxId) (hits : List SeamHit)
  /-- MARKER (R140): A MARKER command does no work and completes with OK once its barrier lets it dispatch. -/
  | marker (ctx : CtxId)
  /-- CQ_HEAD_WRITE (R134): A write of CTX_CQ_HEAD is accepted or ignored with DB_BAD counted. -/
  | cqHeadWrite (ctx : CtxId) (value : Word)
  /-- STOP (R135): A write of CTX_CTRL.STOP stops or resumes fetch for the context. -/
  | stopFetch (ctx : CtxId) (on : Bool)
  /-- KILL_ONE (R148): CTX_CTRL.KILL_ONE kills the fetched command whose SEQ equals CTX_KILL_SEQ, without re-run. -/
  | killOne (ctx : CtxId)
  /-- KILL_ALL (R148): CTX_CTRL.KILL_ALL kills every fetched command of the context, without re-run. -/
  | killAll (ctx : CtxId)
  /-- KILL_COMPLETE (R148): A kill completes: the Field is free, shadows discarded, and the command re-queued or given a KILLED record. -/
  | killComplete (ctx : CtxId) (seq : Word)
  /-- COMMAND_END (R146): A command ends with its status; it commits if OK or CLIPPED, charges its Field time, and its completion record is written. -/
  | commandEnd (ctx : CtxId) (seq : Word)
  /-- WAIT_LIMIT_EXPIRY (R143): A parked command whose wait reaches CFE_WAIT_LIMIT ends with TIMEOUT unless its tag is DONE with OK. -/
  | waitLimitExpiry (ctx : CtxId) (seq : Word)
  /-- RUN_LIMIT_EXPIRY (R143): A command whose Field time reaches CFE_RUN_LIMIT ends with TIMEOUT. -/
  | runLimitExpiry
  /-- TENURE_EXPIRY (R163): A job's Field time since its tenure began reaches SCH_TENURE and the tenure ends. -/
  | tenureExpiry
  /-- STEP (R173): A SERVE STEP command is fetched and checked as a FIELD command. -/
  | stepFetch (ctx : CtxId) (desc : List Byte)
  /-- STEP_READY (R173): A STEP becomes ready once HT_START is reached and no other STEP of its context runs, ending any tenure. -/
  | stepReady (ctx : CtxId)
  /-- WORK_LIST_BUILD (R174): The Stream Table builds a STEP's work list and the Scheduler fixes its estimate and kill point. -/
  | workListBuild (ctx : CtxId)
  /-- DEADLINE_KILL (R178): At the kill point, an eligible command holding the Field is killed for the serving step. -/
  | deadlineKill (ctx : CtxId)
  /-- STEP_INVOCATION (R175): A model invocation writes its index vector, loads its Plate image and runs its operation list. -/
  | stepInvocation (ctx : CtxId)
  /-- STEP_MAX_EXPIRY (R173): A STEP whose Field time reaches STEP_MAX ends with TIMEOUT. -/
  | stepMaxExpiry (ctx : CtxId)
  /-- ADMIT (R171): A SERVE table operation admits one stream into the lowest free entry, or refuses. -/
  | admitStream (ctx : CtxId)
  /-- RELEASE (R172): A SERVE table operation frees the context's entry with the given model and row. -/
  | releaseStream (ctx : CtxId)
  /-- MODEL_SET (R167): A SERVE table operation creates, replaces or clears a model. -/
  | modelSet (ctx : CtxId)
  /-- BUDGET_WINDOW_RESET (R179): At every hall time that is a multiple of SCH_BUDGET_WIN, SCH_KILL_USED returns to 0. -/
  | budgetWindowReset
  /-- TALLY_INTERVAL (R184): Every 10 µs of hall time, measured energy is divided among the contexts that held the Field. -/
  | tallyInterval (nanojoules : Nat)
  /-- TALLY_PERIOD (R185): Every SCH_TALLY_PERIOD seconds each context's Tally record is written as a TALLY event. -/
  | tallyPeriod
  /-- VTIME_READ (R189): The mailbox request returns a context's VT and REM. -/
  | vtimeRead
  /-- TALLY_READ (R189): The mailbox request returns a context's 48-byte Tally record. -/
  | tallyRead
  /-- STB_READ (R189): The mailbox request returns half of a stream table entry. -/
  | stbRead
  /-- OPEN (R201): OPT_OPEN.START opens a step of a training unit: checks the patch list, fixes OPEN_LSE and E_CUR, and writes the patch words. -/
  | openStep (unit : UnitId)
  /-- OPEN_COMPLETE (R202): An open completes and OPEN_BUSY returns to 0. -/
  | openComplete
  /-- OPT_TRACK (R198): The mailbox request enables FP8 scale tracking for a tensor of a unit. -/
  | optTrack
  /-- OPT_UNTRACK (R217): The mailbox request stops tracking a tensor. -/
  | optUntrack
  /-- OPT_HIST_READ (R217): The mailbox request returns a tracked tensor's history record. -/
  | optHistRead
  /-- OPT_HIST_WRITE (R217): The mailbox request writes a tracked tensor's history record. -/
  | optHistWrite
  /-- OPT_NOISE_READ (R217): The mailbox request returns a unit's noise averages and sample count. -/
  | optNoiseRead
  /-- OPT_NOISE_WRITE (R217): The mailbox request writes a unit's noise averages and sample count. -/
  | optNoiseWrite
  /-- TIME_CODE_FRAME (R220): A rack time-code frame is received and accepted or rejected, and may initialise the counter from SECONDS. -/
  | timeCodeFrame (frame : BitVec 72) (since : Nat)
  /-- RCK_LOSS (R221): No reference edge for 1 µs sets RCK_LOSS and TCLK holds its frequency. -/
  | rckLoss
  /-- RCK_LOSS_CLEAR (R221): RCK_LOSS clears 1 ms after reference edges return. -/
  | rckLossClear
  /-- FRAME_BOUNDARY (R228): A 10 µs frame begins; verification, plan choice and profile, role and slice changes apply. -/
  | frameBoundary
  /-- TIME_EXCHANGE (R225): A time symbol exchange in the frame gap yields θ and δ, and the follower steers, steps or locks. -/
  | timeExchange (link : LinkId) (t1 t2 t3 t4 : Int) (asA partnerOk partnerLocked partnerParent : Bool)
  /-- HOLDOVER_EXPIRY (R223): A follower in HOLDOVER for TKP_HOLDOVER may no longer transmit scheduled traffic. -/
  | holdoverExpiry
  /-- COUNTER_PARITY_ERROR (R223): A parity error on the hall-time counter returns a follower to ACQUIRE and a master to RACK. -/
  | counterParityError
  /-- SLOT_CMP_FAULT (R232): The two slot comparators disagree; scheduled transmission stops and CMP_FAULT is set. -/
  | slotCmpFault
  /-- CMP_CLEAR (R232): A write of TKP_CTRL.CMP_CLEAR clears CMP_FAULT after a full frame of comparator agreement. -/
  | cmpClear
  /-- HT_READ (R237): The mailbox request returns the packed hall time. -/
  | htRead
  /-- LATE_READ (R237): The mailbox request returns the 16 lateness bins, optionally clearing them. -/
  | lateRead
  /-- CODEWORD_RECEIVE (R241): A link codeword is decoded, corrected or found uncorrectable. -/
  | codewordReceive (link : LinkId) (lseq : BitVec 12) (lanes : List (Fin 16)) (sched : Bool)
  /-- REPLAY_REQUEST (R241): A CONTROL replay request makes the sender replay codewords from an LSEQ, or retrain if they have left the buffer. -/
  | replayRequest (link : LinkId) (codeword : Nat)
  /-- BE_FLIT_RECEIVE (R252): A best-effort flit is checked, delivered, forwarded cut-through or dropped. -/
  | beFlitReceive (link : LinkId) (flit : List Byte)
  /-- SCHED_FLIT_RECEIVE (R277): A scheduled flit of a group is checked for generation and delivered to its stream. -/
  | schedFlitReceive (link : LinkId) (flit : List Byte) (bad : Bool)
  /-- STALE_FLIT_RECEIVE (R249): A STALE flit completes the source's refused transfer with STALE_EPOCH. -/
  | staleFlitReceive (link : LinkId) (flit : List Byte)
  /-- DISCOVER_FLIT_RECEIVE (R247): A discovery payload is received and the link is evaluated into UP, DEGRADED, DISABLED, MISMATCH, RETIRED or DISCOVER. -/
  | discoverFlitReceive (link : LinkId) (payload : List Byte)
  /-- DISCOVER_PERIOD (R245): Every 1 ms a link in DISCOVER, UP, DEGRADED or MISMATCH sends a DISCOVER flit. -/
  | discoverPeriod (link : LinkId)
  /-- LIGHT_DETECTED (R244): Light arrives from a partner and the link starts training. -/
  | lightDetected (link : LinkId)
  /-- TRAINING_COMPLETE (R244): Link training ends in DISCOVER with 16 or 15 lanes, or in FAILED. -/
  | trainingComplete (link : LinkId) (lanes : BitVec 16) (light : Bool)
  /-- AUTO_RETRAIN (R244): A FAILED link is retrained automatically 1 s and 2 s after failure. -/
  | autoRetrain (link : LinkId)
  /-- RETRAIN (R244): LNK_LCTRL.RETRAIN retrains the link. -/
  | retrain (link : LinkId)
  /-- TOPO_LATCH (R246): LNK_CTRL.TOPO_LATCH latches coordinates, shape and direction map, incrementing GEN, or is refused. -/
  | topoLatch
  /-- LANE_LOSS_OF_LOCK (R250): A lane's receiver loses lock; the lane is dropped or the link fails. -/
  | laneLossOfLock (link : LinkId) (lanes : BitVec 16) (light : Bool)
  /-- LANE_ERROR_INTERVAL (R250): At the end of each 1 ms interval a lane whose corrected errors exceed LNK_DROP_THR is dropped. -/
  | laneErrorInterval (link : LinkId)
  /-- LANE_MAP (R250): A lane-map CONTROL flit is received; the partner stops SCHED and acknowledges. -/
  | laneMap (link : LinkId) (lane : BitVec 4)
  /-- LANE_MAP_ACK (R250): The lane-map acknowledgement is received, leading to re-striping at a frame boundary. -/
  | laneMapAck (link : LinkId)
  /-- RESTRIPE (R250): Both sides re-stripe to 15 lanes at a frame boundary and SCHED resumes. -/
  | restripe (link : LinkId)
  /-- LANE_MAP_TIMEOUT (R251): A lane-map exchange not acknowledged within 10 µs fails the link. -/
  | laneMapTimeout (link : LinkId)
  /-- FIBRE_UNPLUG (R257): A fibre cable is unplugged, failing each of the port's four links. -/
  | fibreUnplug (port : Fin 6)
  /-- BE_HOLD_EXPIRY (R252): A BE flit that has waited HOLD_US is dropped and counted. -/
  | beHoldExpiry (link : Option LinkId)
  /-- SLEEP (R255): A write of LNK_LCTRL.SLEEP = 1 requests link sleep, which is accepted or refused. -/
  | sleep (link : LinkId)
  /-- WAKE (R255): A write of SLEEP = 0 starts a wake tone and the link retrains into UP or DEGRADED. -/
  | wake (link : LinkId)
  /-- WAKE_TONE (R255): A wake tone received on lane 0 brings the sleeping side into WAKING. -/
  | wakeTone (link : LinkId)
  /-- LOOP_START (R256): LNK_LCTRL.LOOP_START begins a near-end or far-end loop test, or records REFUSED. -/
  | loopStart (link : LinkId)
  /-- LOOP_TEST_END (R256): After LOOP_MS the loop test records PASS or FAIL and the link retrains. -/
  | loopTestEnd (link : LinkId) (errors : List Nat)
  /-- LINK_PARTNER_READ (R260): The mailbox request returns the last discovery payload received on a link. -/
  | linkPartnerRead
  /-- GROUP_LAUNCH (R263): The mailbox request creates a collective group with its plan image and rings, or refuses. -/
  | groupLaunch
  /-- GROUP_END (R265): The mailbox request ends a group, completing its collectives with FENCED. -/
  | groupEnd
  /-- GROUP_READ (R292): The mailbox request returns a group's arguments, recorded generations and completed count. -/
  | groupRead
  /-- COL_G_LDB (R271): A launch doorbell write is accepted or ignored with COL_DB_BAD counted. -/
  | colGLdb (group : GroupId) (value : Word)
  /-- COLLECTIVE_ACCEPT (R271): A fetched collective descriptor has its tag set PENDING, is checked, has FAR pages paged in, and is accepted with lateness recorded. -/
  | collectiveAccept (group : GroupId) (desc : List Byte)
  /-- ALLREDUCE (R273): A collective reduces N elements across the group and writes the result on every rank. -/
  | allreduce (group : GroupId) (trees : List RedTree) (contribs : List (Nat × List Byte)) (hits : List SeamHit)
  /-- REDUCE_SCATTER (R273): A collective reduces N elements and writes segment r on rank r. -/
  | reduceScatter (group : GroupId) (trees : List RedTree) (contribs : List (Nat × List Byte)) (hits : List SeamHit)
  /-- ALLGATHER (R273): A collective gathers COUNT bytes from every rank in rank order. -/
  | allgather (group : GroupId) (contribs : List (Nat × List Byte)) (hits : List SeamHit)
  /-- ALLGATHERV (R273): A collective gathers per-member byte counts in rank order. -/
  | allgatherv (group : GroupId) (contribs : List (Nat × List Byte)) (hits : List SeamHit)
  /-- BROADCAST (R273): A collective copies ROOT's bytes to every rank. -/
  | broadcast (group : GroupId) (contribs : List (Nat × List Byte)) (hits : List SeamHit)
  /-- ALLTOALL (R273): A collective exchanges one block of COUNT bytes between every pair of ranks. -/
  | alltoall (group : GroupId) (contribs : List (Nat × List Byte)) (hits : List SeamHit)
  /-- ALLTOALLV (R273): A collective exchanges per-destination byte counts between every pair of ranks. -/
  | alltoallv (group : GroupId) (contribs : List (Nat × List Byte)) (hits : List SeamHit)
  /-- READINESS_ENTRY (R275): A readiness entry is received and forwarded; with all P entries the member decides the collective's fate. -/
  | readinessEntry (group : GroupId) (num : Byte) (dir : BitVec 3) (entry : List Byte)
  /-- DATA_PHASE_START (R276): The data phase begins at the first frame boundary after all entries, every START_HT and the previous collective. -/
  | dataPhaseStart (group : GroupId) (sends : List (BitVec 3 × List Byte))
  /-- STREAM_ACK (R278): A stream acknowledgement is received; acknowledged flits are released and missing ones resent. -/
  | streamAck (group : GroupId) (dir : BitVec 3) (seq : Word) (missing : BitVec 64)
  /-- COLLECTIVE_COMPLETE (R287): A collective completes, writes its record and sets its tag DONE. -/
  | collectiveComplete (group : GroupId)
  /-- COLLECTIVE_CANARY_EXPIRY (R287): A collective not completed within COL_CANARY ends with TIMEOUT and may raise the beacon. -/
  | collectiveCanaryExpiry (group : GroupId)
  /-- COL_G_CHEAD_WRITE (R287): A write of a group's completion-ring head is accepted or ignored under R134. -/
  | colGCheadWrite (group : GroupId) (value : Word)
  /-- ABORT (R288): COL_CTRL.ABORT raises the abort beacon with cause SOFTWARE. -/
  | abort
  /-- BEACON_RECEIVE (R289): A BEACON flit is dropped or forwarded and acted on, aborting collectives and commands of bound contexts. -/
  | beaconReceive (link : LinkId) (payload : List Byte)
  /-- SNAP_BEGIN (R296): The mailbox request reads a shard list and begins a snapshot, or refuses. -/
  | snapBegin (flag : List Byte)
  /-- SNAPSHOT_FREEZE (R297): When no commit or OPEN of the context is in progress, the snapshot's pages are held at the freeze instant. -/
  | snapshotFreeze (slot : SnapId)
  /-- SHARD_PROCESS (R301): A shard is written, digested, handed back and recorded once its slot is device-owned. -/
  | shardProcess (slot : SnapId) (flag : List Byte) (hits : List SeamHit)
  /-- SNAPSHOT_WAIT_EXPIRY (R302): A snapshot waiting WAIT_MS for a slot ends with TIMEOUT. -/
  | snapshotWaitExpiry (slot : SnapId)
  /-- CANCEL (R304): SNP_S_CTRL.CANCEL ends a snapshot with KILLED, releases held pages and hands slots back. -/
  | cancel (slot : SnapId)
  /-- SNAPSHOT_RELEASE (R304): SNP_S_CTRL.RELEASE frees an ended snapshot slot. -/
  | snapshotRelease (slot : SnapId)
  /-- SNAP_READ (R313): The mailbox request returns a snapshot slot's freeze time, byte counts and end time. -/
  | snapRead
  /-- DIGEST_SLOT (R313): The mailbox request returns the SHA-384 of a window slot range. -/
  | digestSlot (flag : List Byte) (data : List Byte) (portFault : Bool)
  /-- SLOT_FLAG_POLL (R330): Every 10 µs a waiting snapshot re-reads a slot's flag word. -/
  | slotFlagPoll (slot : SnapId) (flag : List Byte)
  /-- MBX_ACK (R324): HUB_MBX_CTRL.ACK clears VALID. -/
  | mbxAck
  /-- MBX_RESERVED_CODE (R324): A mailbox GO with a reserved or unknown code completes with BAD_DESCRIPTOR and LEN 0. -/
  | mbxReservedCode
  /-- WIN_CFG (R327): The mailbox request creates a context's window. -/
  | winCfg
  /-- WIN_SLOT (R328): The mailbox request defines or removes a window slot. -/
  | winSlot
  /-- WIN_RECLAIM (R332): The mailbox request hands a device-held slot back with LEN 0. -/
  | winReclaim
  /-- WX_DB (R336): A window-transfer doorbell write is accepted or ignored. -/
  | wxDb (fn : FnId) (slot : Fin 32) (value : Word)
  /-- WX_CHEAD_WRITE (R336): A write of a window-transfer completion head is accepted or ignored. -/
  | wxCheadWrite (fn : FnId) (slot : Fin 32) (value : Word)
  /-- STORE (R337): A window transfer copies bytes from device memory into a window slot. -/
  | store (ctx : CtxId) (desc : List Byte) (flag : List Byte) (hits : List SeamHit) (portFault : Bool)
  /-- WX_COMPLETE (R338): A window transfer writes its completion record with its status. -/
  | wxComplete (ctx : CtxId)
  /-- P1_FENCE (R340): A write of HUB_PORT_CTRL.P1_FENCE fences port 1 when 1, or allows its return when 0. -/
  | p1Fence (on : Bool)
  /-- HP1_PERST_N (R340): PERST_N asserted on HP1 fences port 1. -/
  | hp1PerstN
  /-- PORT1_HOT_RESET (R340): A Hot Reset, DL_Down or function level reset on port 1 fences port 1. -/
  | port1HotReset (what : P1Event)
  /-- PORT1_FENCE_DRAINED (R340): Requests outstanding on port 1 are abandoned, work resolves per Table 12.12 and a PORT_FENCE event is queued. -/
  | port1FenceDrained
  /-- COMPLETION_TIMEOUT (R341): A non-posted request without completion in 50 ms fences port 1, or is retried and then ends its work with TIMEOUT on port 0. -/
  | completionTimeout (port1 : Bool) (second : Bool) (work : TimedWork)
  /-- STRAY_COMPLETION (R341): A completion with no outstanding request is discarded and counted. -/
  | strayCompletion (fn : PortFn)
  /-- BUS_MASTER_DISABLE (R316): Bus Master Enable 0 or D3hot stops requests for the function, and fences port 1 for the data function. -/
  | busMasterDisable (fn : PortFn) (d3hot : Bool)
  /-- VF_FLR (R316): A function level reset of a VF destroys its contexts. -/
  | vfFlr (vf : FnId)
  /-- PF0_FLR (R316): A function level reset of PF0 removes every VF, destroys PF0's contexts, disables event rings and abandons the mailbox. -/
  | pf0Flr
  /-- IRQ_COALESCE_TIMER (R343): US µs after a source's first event, its pending bit is set. -/
  | irqCoalesceTimer (src : BitVec 9)
  /-- MSIX_HELD_SEND (R344): A held MSI-X message is sent once the vector is unmasked and enabled, claiming the source. -/
  | msixHeldSend (src : BitVec 9)
  /-- IRQ_CLAIM (R344): IRQ_CLAIM.GO clears a source's pending bit atomically. -/
  | irqClaim (src : BitVec 9)
  /-- EVENT_RING_ENABLE (R349): Setting EVR_CFG.EN resets the ring's counts, FIFO and phase. -/
  | eventRingEnable (ring : RingId)
  /-- EVENT_RING_DISABLE (R349): Clearing EVR_CFG.EN discards waiting events and counts them as drops. -/
  | eventRingDisable (ring : RingId)
  /-- EVR_HEAD_WRITE (R349): A write of EVR_HEAD is accepted or ignored with HUB_REG_VIOL counted. -/
  | evrHeadWrite (ring : RingId) (value : Word)
  /-- EVENT_RECORD_WRITE (R351): A queued event is written to its ring when room exists. -/
  | eventRecordWrite (ring : RingId)
  /-- OVERFLOW_RECORD (R351): The overflow marker is written as an OVERFLOW record once the events ahead of it are written and room exists. -/
  | overflowRecord (ring : RingId)
  /-- CORE_RESET (R354): A core reset stops fetch, raises the beacon if groups were active, stops the Field and discards core-domain state. -/
  | coreReset (counted : Bool)
  /-- CORE_RESET_COMPLETE (R354): Seam zero-fill ends, core domains become usable, RST_EPOCH increments and a CORE_RESET event is queued. -/
  | coreResetComplete
  /-- SYSTEM_RESET (R354): A system reset resets host ports, retrains links, increments GEN and zero-fills Seam, applying escalation. -/
  | systemReset (counted : Bool)
  /-- SYSTEM_RESET_READY (R354): After a system reset, HUB_STATUS.READY reads 1. -/
  | systemResetReady
  /-- PERST_N (R355): PERST_N asserted on HP0 or the MGMT sideband starts a system reset. -/
  | perstN
  /-- PERST_N_DEASSERT (R412): PERST_N is deasserted and the host port begins link training. -/
  | perstNDeassert
  /-- HOT_RESET_P0 (R339): A Hot Reset received on port 0 starts a system reset. -/
  | hotResetP0
  /-- DL_DOWN_P0 (R339): DL_Down on port 0 starts a system reset. -/
  | dlDownP0
  /-- HOST_FENCE (R371): RST_CTRL.HOST_FENCE fences the host interface until a system reset. -/
  | hostFence
  /-- RST_LFENCE (R358): A write of an RST_LFENCE bit fences a link at the next frame boundary, or unfences and retrains it. -/
  | rstLfence (link : LinkId) (on : Bool)
  /-- DRAIN_EXPIRY (R357): Requests still outstanding RST_DRAIN µs after a fence are answered TIMEOUT and DRAIN_TIMEOUT is raised. -/
  | drainExpiry (domain : FenceDomain) (works : List TimedWork)
  /-- BLOCK_RESET (R359): RST_BLK_RESET.START resets one quad or one link. -/
  | blockReset (target : BitVec 5) (isLink : Bool)
  /-- BLOCK_RESET_DONE (R359): A block reset completes and RESET_BUSY clears. -/
  | blockResetDone
  /-- FIELD_PROGRESS_EXPIRY (R361): No array completes a tile within RST_CANARY_FLD; the Field freezes and the running command ends TIMEOUT. -/
  | fieldProgressExpiry
  /-- MAILBOX_CANARY_EXPIRY (R361): A mailbox request exceeds four times its bound and ends TIMEOUT with LEN 0. -/
  | mailboxCanaryExpiry
  /-- OVERSEER_CANARY_EXPIRY (R361): A hub overseer heartbeat is missing for RST_CANARY_HUB and a WATCHDOG system reset follows. -/
  | overseerCanaryExpiry (hub : Fin 4)
  /-- CANARY_SELF_FAULT (R362): A Canary's two comparators disagree and the watched unit is fenced. -/
  | canarySelfFault (canary : CanaryOf)
  /-- PARITY_FAULT (R363): A limit register's bad parity makes every use count as an expiry. -/
  | parityFault (limit : LimitReg)
  /-- ATTN_LONG_PRESS (R366): ATTN held 8 s fences the host interface and retires the module. -/
  | attnLongPress
  /-- ATTN_SHORT_PRESS (R389): A short ATTN press opens the presence window and sets or clears a service request. -/
  | attnShortPress
  /-- PRESENCE_WINDOW_EXPIRY (R389): The presence window closes 30 s after a short press. -/
  | presenceWindowExpiry
  /-- HEALTH_UPDATE (R367): Once per island second each health score decays and adds weighted counter increases, setting or clearing OVER. -/
  | healthUpdate (p0 p1 : Nat)
  /-- HEALTH_READ (R376): The mailbox request returns all health scores and OVER flags. -/
  | healthRead
  /-- ESC_READ (R376): The mailbox request returns the escalation configuration and record. -/
  | escRead
  /-- ESC_CLEAR (R376): The mailbox request empties the escalation record. -/
  | escClear
  /-- CERT_READ (R399): The mailbox request returns certificate chain bytes. -/
  | certRead
  /-- IDENTITY_READ (R399): The mailbox request returns the identity record. -/
  | identityRead
  /-- FW_STAGE (R381): The mailbox request copies a firmware package into the non-running bank and verifies it. -/
  | fwStage (flag : List Byte) (package : List Byte) (verified : Bool) (svn : BitVec 16) (portFault : Bool)
  /-- FW_ACTIVATE (R381): The mailbox request selects the staged bank for the next system reset, optionally raising SVN_MIN. -/
  | fwActivate
  /-- CAL_EXPORT (R386): The mailbox request copies the calibration image to a window slot. -/
  | calExport (flag : List Byte) (portFault : Bool)
  /-- CAL_WRITE (R387): The mailbox request supplies a calibration image from a window slot for checking and writing. -/
  | calWrite (flag : List Byte) (data : List Byte) (portFault : Bool)
  /-- CAL_IMAGE_WRITTEN (R387): An accepted calibration image is written and a CAL_WRITTEN event is raised. -/
  | calImageWritten
  /-- GET_VERSION (R382): An SPDM request returns version 1.3. -/
  | getVersion (mgmt : Bool)
  /-- GET_CAPABILITIES (R382): An SPDM request returns the supported capabilities. -/
  | getCapabilities (mgmt : Bool)
  /-- NEGOTIATE_ALGORITHMS (R382): An SPDM request negotiates ECDSA P-384 and SHA-384. -/
  | negotiateAlgorithms (mgmt : Bool)
  /-- GET_DIGESTS (R382): An SPDM request returns certificate chain digests. -/
  | getDigests (mgmt : Bool)
  /-- GET_CERTIFICATE (R382): An SPDM request returns the certificate chain of slot 0 or 1. -/
  | getCertificate (mgmt : Bool) (slot offset length : Nat)
  /-- CHALLENGE (R382): An SPDM request is answered signed by the device key or the attestation key. -/
  | challenge (mgmt : Bool) (slot : Nat)
  /-- GET_MEASUREMENTS (R383): An SPDM request returns measurements signed with the attestation key. -/
  | getMeasurements (mgmt : Bool) (indices : List Nat)
  /-- SPDM_UNSUPPORTED (R382): Any other SPDM request receives ERROR UnsupportedRequest. -/
  | spdmUnsupported (mgmt : Bool)
  /-- GET_LAST (R392): An SVC request returns the status of the last OUT request. -/
  | getLast
  /-- GET_IDENTITY (R392): An SVC request returns the identity record. -/
  | getIdentity
  /-- GET_CERT (R392): An SVC request returns certificate chain bytes. -/
  | getCert (slot offset length : Nat)
  /-- GET_HEALTH (R392): An SVC request returns the health-read result. -/
  | getHealth
  /-- GET_ESC (R392): An SVC request returns the escalation-read result. -/
  | getEsc
  /-- STREAM (R392): An SVC request starts a bulk IN stream of the island log or the calibration image. -/
  | streamOut (value : BitVec 16)
  /-- LOCATE (R392): An SVC request sets LOCATE. -/
  | locate (value : BitVec 16)
  /-- SVC_SYSTEM_RESET (R392): An SVC request with key performs a system reset with cause SVC_CMD. -/
  | svcSystemReset (value : BitVec 16)
  /-- SVC_POWER_ON (R392): An SVC request with key asks the board management controller to enable 54 V. -/
  | svcPowerOn (value : BitVec 16)
  /-- CLEAR_RETIREMENT (R394): An SVC request clears retirement when retired and the presence window is open. -/
  | clearRetirement (value : BitVec 16)
  /-- SVC_ESC_CLEAR (R392): An SVC request with key empties the escalation record. -/
  | svcEscClear (value : BitVec 16)
  /-- CAL_CHUNK (R392): An SVC request stores 4,096 bytes of a calibration image in the chunk buffer. -/
  | calChunk (chunk : BitVec 16) (data : List Byte)
  /-- CAL_COMMIT (R392): An SVC request with key writes the buffered image under the calibration checks. -/
  | calCommit (value : BitVec 16)
  /-- USB_BUS_RESET (R393): A USB bus reset discards staged OUT effects, empties the chunk buffer and ends streams. -/
  | usbBusReset
  /-- USB_ATTACH (R392): SVC is attached or detached, detected by VBUS, and an SVC_ATTACH event is raised. -/
  | usbAttach (on : Bool)
  /-- DRAINED (R390): A write of SVC_CTRL.DRAINED is accepted when no contexts, groups or snapshots exist, or sets DRAIN_REFUSED. -/
  | drained
  /-- CANCEL_REQUEST (R389): SVC_CTRL.CANCEL_REQUEST clears the service request. -/
  | cancelRequest
  /-- MGMT_VENDOR_REQUEST (R395): A vendor-defined MCTP message on MGMT carries an SVC request code and returns status and data. -/
  | mgmtVendorRequest (code value index : BitVec 16) (va vb : Nat)
  /-- MGMT_POWER_ON (R402): A power-on request over MGMT ends a hold once both clips are in range, or performs a system reset. -/
  | mgmtPowerOn (va vb : Nat)
  /-- MCTP_CONTROL (R395): An MCTP control message on MGMT is answered. -/
  | mctpControl
  /-- PLDM_SENSOR_READ (R413): A PLDM monitoring request on MGMT returns sensor readings. -/
  | pldmSensorRead (sensor : Nat)
  /-- RAIL_WARNING (R401): A clip leaves 50–58 V for 1 ms and RAIL_WARN is set or cleared. -/
  | railWarning (clipB : Bool) (volts : Nat)
  /-- RAIL_FAULT (R402): A rail fault fences the host, raises the beacon, opens the input switch and holds the module. -/
  | railFault (clipB : Bool) (volts : Nat)
  /-- AUX_LOSS (R403): The 12 V auxiliary falls below 10.8 V for 1 ms and the whole module goes off. -/
  | auxLoss
  /-- POWER_ON (R411): The 12 V auxiliary is applied; the island boots from ROM with a power-on reset. -/
  | powerOn
  /-- AUX_READY (R411): Calibration is loaded and firmware banks are verified; STAGE reads AUX_READY. -/
  | auxReady
  /-- MAIN_POWER_IN_RANGE (R411): 54 V is in range at both clips after AUX_READY; the input switch closes and dies power up. -/
  | mainPowerInRange (va vb : Nat)
  /-- STARTUP_READY (R411): Start-up completes, HUB_STATUS.READY reads 1 and STAGE reads RUN. -/
  | startupReady
  /-- FCLK_CONTROL_TEST (R405): Every 100 µs the FCLK rules are tested and the Field clock is set. -/
  | fclkControlTest (r : Readings)
  /-- THERMAL_TRIP (R406): A die at 110 °C trips: host fenced, beacon THERMAL, Field and Seam power removed. -/
  | thermalTrip (temps : List Int)
  /-- THERMAL_RELEASE (R406): Every die below 70 °C releases the trip with a system reset of cause THERMAL. -/
  | thermalRelease (temps : List Int)
  /-- COOLING_UPDATE (R408): Once per second the flow estimate is updated and COOL_WARN is evaluated. -/
  | coolingUpdate (inlet outlet : Int) (watts : Nat)
  /-- TEMP_READ (R416): The mailbox request returns all die and coolant temperatures. -/
  | tempRead
  /-- ENERGY_READ (R416): The mailbox request returns module energy since power-on and the hall time of the sample. -/
  | energyRead
  /-- MASK_MAX_EXPIRY (R120): MASK_MAX µs after a serving step began, the SBMASK_AUTO mask on HOIST, WDMA and SNAP ends although the step still runs. -/
  | maskMaxExpiry
  /-- SLOT_START (R232): At each 64 ns slot start the two comparators decide the start and a planned run, or the best-effort window, begins transmitting after the guard time. -/
  | slotStart
  /-- PCIE_LINK_UP (R322): A host port's PCIe link finishes training and comes up, setting P0_UP or P1_UP and enabling access and port 1's return to window traffic. -/
  | pcieLinkUp (port1 : Bool) (gen : BitVec 3) (width : BitVec 5)
  /-- BUS_MASTER_ENABLE (R316): A function's Bus Master Enable is set to 1 or it returns from D3hot, so its waiting ring fetches, records and window transfers resume and port 1 may return. -/
  | busMasterEnable (fn : PortFn) (d3hot : Bool)
  /-- SLEEP_REQUEST_RECEIVE (R255): A link partner receives a sleep request, replies accepting or declining, and on acceptance reroutes BE traffic and enters SLEEP. -/
  | sleepRequestReceive (link : LinkId)
  /-- SLEEP_REPLY_RECEIVE (R255): The requesting side receives the partner's sleep reply and enters SLEEP, or refuses with SLEEP_REFUSED. -/
  | sleepReplyReceive (link : LinkId) (accept : Bool)
  /-- FAR_LOOP_REQUEST_RECEIVE (R256): For a far-end loop test the partner receives the request, loops its received lanes back and its link enters LOOPTEST. -/
  | farLoopRequestReceive (link : LinkId)
  /-- USB_CONFIGURED (R400): A USB host configures SVC, setting USB_CONFIGURED and raising SVC_ATTACH with 1 configured. -/
  | usbConfigured
deriving DecidableEq, Repr

end Sys2Proof
end

