-- ==== Sys2Proof/Decode.lean ====
section
/-! DEFINITION. The commands a word spells. spec/opcode_table.json gives none of its rows bits: a command is an
event at the module's ports, so no word spells one. -/

namespace Sys2Proof

/-- No row of the table has bits, so no word of any length spells a command (log entry 4). -/
def decodeTableWord (_nbits _w : Nat) : Option Instr := none

end Sys2Proof
end

