-- ==== Sys2Proof/Config.lean ====
section
/-! DEFINITION. What the spec leaves open or leaves to one part of the product: constants with no body, so that
no proof can see a value of them. -/

namespace Sys2Proof.Config

/-- A byte whose value the spec leaves open, by the number of the free value and its place in it (log entry 6). -/
opaque freeByte : Nat → Nat → Byte

/-- A 32-bit value the spec leaves open, by the number of the free value (log entry 6). -/
opaque freeWord : Nat → Word

/-- A choice the spec leaves open, by the number of the free value and the place of the choice (log entry 6). -/
opaque freeChoice : Nat → Nat → Bool

/-- A byte of a BX block whose exponent code would pass 254 (03_formats.md R74), by the format, SAT, the draws of
stochastic rounding, the 32 values as sign, magnitude and power of two, and the byte's place (log entry 21). -/
opaque wideBlock : Nat → Bool → List (Option Nat) → List (Bool × Nat × Int) → Nat → Byte

/-- The FP32 result of a REDUCE of a row of no element, by ROP (02_field.md R44; log entry 21). -/
opaque emptyReduce : Nat → Word

/-- A byte of a live tile's row that the operation gives no value, by its descriptor, the row and the byte's place
(02_field.md R45, R49; log entry 21). -/
opaque unnamedRow : List Byte → Nat → Nat → Byte

/-- Which of several free pages is taken, where the spec fixes only their die or pool: by the number of the free
value, the die (24 for a far pool) and the pages in use (log entry 9). -/
opaque freePage : Nat → Nat → List Nat → Nat

/-- A byte that a self-test leaves in a quad's Seam, by the number of the free value and its place (02_field.md R55; log
entry 12). -/
opaque testByte : Nat → Nat → Byte

/-- A byte of the lane registers of the Rim, by the number of the open values they hold and its place in a capture image
(02_field.md R60; log entry 12). -/
opaque rimByte : Nat → Nat → Byte

/-- A signature of the device's keys, by the digest of what is signed, the instant it is made and the place (log entry 34). -/
opaque signByte : List Byte → Nat → Nat → Byte

/-- A byte of host memory the device has left undefined, by its address (log entry 8). -/
opaque hostByte : Nat → Byte

/-- The module's serial number, from its device certificate (09_links.md Table 9.4; log entry 13). -/
opaque serial : BitVec 64

/-- Casyen's Vendor ID (12_host_attachment.md R315; log entry 13). -/
opaque vendorId : BitVec 16

/-- HUB_VERSION: stepping and overseer firmware version (12_host_attachment.md Table 12.4; log entry 13). -/
opaque stepping : BitVec 8
opaque fwMinor : BitVec 8
opaque fwMajor : BitVec 8

/-- A byte of the calibration image as manufactured, beyond what R384 fixes (14_identity_service.md; log entry 13). -/
opaque factoryByte : Nat → Byte

/-- A byte of the built-in nominal calibration values, laid out as an image (14_identity_service.md R385; log entry 13). -/
opaque nominalByte : Nat → Byte

/-- A certificate's bytes around the contents that the specification fixes, which its key and its signature move: the length
of each stretch by level, key number and place in the certificate, and its bytes by level, key number, those contents, stretch
and place (14_identity_service.md R378, R379; log entry 85). -/
opaque certGapLength : Nat → Nat → Nat → Nat
opaque certGapByte : Nat → Nat → List Byte → Nat → Nat → Byte

/-- A byte of a die's identity in the device certificate (14_identity_service.md Table 14.1; log entry 85). -/
opaque dieIdByte : Nat → Nat → Byte

/-- The measurements 1 to 7 that are no digest of modelled bytes, 48 bytes each: by the index, what is measured (the running
bank and the package staged into it, where one was) and the place (14_identity_service.md R383; log entry 13). -/
opaque measurementByte : Nat → Option (Bool × Option (List Byte)) → Nat → Byte

/-- A signature of an attestation key, by the key's number, the digest of what is signed, the instant and the place (log
entry 34). -/
opaque attestSignByte : Nat → List Byte → Nat → Nat → Byte

/-- A byte of the island log as it is streamed, by the number of the free value and its place (log entry 54). -/
opaque logByte : Nat → Nat → Byte

/-- The payload of a link's CONTROL flits but the stream acknowledgement, whose form the specification does not give: its
length, and its bytes by what it asks, the number it carries and the place (09_links.md R241, R250, R255, R256; log entry 79). -/
opaque controlLength : Nat → Nat
opaque controlByte : Nat → Nat → Nat → Byte

end Sys2Proof.Config
end

