-- ==== Sys2Proof/Machine/Bits.lean ====
section
/-! DEFINITION. Bit fields, little-endian byte order (00_scope.md R3), canonical association lists,
byte memories and CRC-32C (12_host_attachment.md R329). -/

namespace Sys2Proof.Machine

/-! ## Little-endian bytes (R3) -/

/-- The `n` low bytes of `x`, least significant first. -/
def leBytes : Nat → Nat → List Byte
  | 0, _ => []
  | n + 1, x => BitVec.ofNat 8 x :: leBytes n (x / 256)

/-- The number a little-endian byte list spells. -/
def leNat : List Byte → Nat
  | [] => 0
  | b :: bs => b.toNat + 256 * leNat bs

/-- The bytes `off` to `off + len - 1`; bytes past the end of the list read 0. -/
def slice (l : List Byte) (off len : Nat) : List Byte :=
  let t := (l.drop off).take len
  t ++ List.replicate (len - t.length) 0

/-- The little-endian number in the `len` bytes at `off`. -/
def fieldAt (l : List Byte) (off len : Nat) : Nat := leNat (slice l off len)

/-- Bits `hi` down to `lo` of a number. -/
def bits (x hi lo : Nat) : Nat := (x / 2 ^ lo) % 2 ^ (hi + 1 - lo)

/-- Bit `i` of a number. -/
def bit (x i : Nat) : Bool := (x / 2 ^ i) % 2 = 1

/-- A Boolean as a bit. -/
def b2n (b : Bool) : Nat := if b then 1 else 0

/-- The 32-bit word in which the Boolean is bit `i`. -/
def bitAt (b : Bool) (i : Nat) : Word := if b then BitVec.ofNat 32 (2 ^ i) else 0

/-- The 32-bit word in which `x` stands with its bit 0 at bit `i`. -/
def atBit {n : Nat} (x : BitVec n) (i : Nat) : Word := BitVec.ofNat 32 (x.toNat * 2 ^ i)

/-- Bits `lo` and up of a register word, as many as the field has. -/
def wfield {n : Nat} (w : Word) (lo : Nat) : BitVec n := BitVec.ofNat n (w.toNat / 2 ^ lo)

/-- Bit `i` of a register word. -/
def wbit (w : Word) (i : Nat) : Bool := bit w.toNat i

/-- A counter that holds at its greatest value (the "holds at 0xFFFF_FFFF" of the register tables). -/
def satAdd {n : Nat} (x : BitVec n) (k : Nat) : BitVec n :=
  if x.toNat + k < 2 ^ n then BitVec.ofNat n (x.toNat + k) else BitVec.allOnes n

/-- One more, holding at the greatest value. -/
def satInc {n : Nat} (x : BitVec n) : BitVec n := satAdd x 1

/-- A number cut to `n` bits by saturation. -/
def satNat (n x : Nat) : BitVec n := if x < 2 ^ n then BitVec.ofNat n x else BitVec.allOnes n

/-- The signed difference of two 64-bit values (06_scheduling_streams.md R160). -/
def signedLt (a b : DWord) : Bool := (a - b).toInt < 0

/-! ## Canonical association lists, keyed by numbers in rising order -/

/-- A sparse table: keys strictly rising, absent keys hold the table's default. -/
abbrev Assoc (α : Type) := List (Nat × α)

variable {α β : Type}

def Assoc.get? : Assoc α → Nat → Option α
  | [], _ => none
  | (k, v) :: r, i => if k = i then some v else Assoc.get? r i

def Assoc.put : Assoc α → Nat → α → Assoc α
  | [], i, v => [(i, v)]
  | (k, w) :: r, i, v =>
    if i < k then (i, v) :: (k, w) :: r
    else if i = k then (i, v) :: r
    else (k, w) :: Assoc.put r i v

def Assoc.del (m : Assoc α) (i : Nat) : Assoc α := m.filter (fun e => e.1 != i)

def Assoc.getD (m : Assoc α) (i : Nat) (d : α) : α := (m.get? i).getD d

def Assoc.has (m : Assoc α) (i : Nat) : Bool := (m.get? i).isSome

def Assoc.modify (m : Assoc α) (i : Nat) (f : α → α) : Assoc α :=
  m.map (fun e => if e.1 = i then (e.1, f e.2) else e)

def Assoc.keys (m : Assoc α) : List Nat := m.map (·.1)

def Assoc.vals (m : Assoc α) : List α := m.map (·.2)

/-- Keys strictly rising. -/
def Assoc.wf : Assoc α → Bool
  | [] => true
  | [_] => true
  | (a, _) :: (b, w) :: r => decide (a < b) && Assoc.wf ((b, w) :: r)


/-- The lowest number from `i` up, at most `n` of them, that `p` accepts. -/
def lowestFrom (p : Nat → Bool) : Nat → Nat → Option Nat
  | 0, _ => none
  | n + 1, i => if p i then some i else lowestFrom p n (i + 1)

/-- The lowest number below `n` that is no key of a sorted table: walks the keys once. -/
def lowestFreeKey {α : Type} : Assoc α → Nat → Nat
  | [], i => i
  | (k, _) :: r, i => if i < k then i else lowestFreeKey r (k + 1)

/-! ## Byte memories -/

/-- A byte memory: addresses strictly rising, no listed byte 0; an unlisted address reads 0. -/
abbrev Cells := List Host.Cell


def Cells.read : Cells → Nat → Byte
  | [], _ => 0
  | (k, v) :: r, a => if k = a then v else Cells.read r a

def Cells.write : Cells → Nat → Byte → Cells
  | [], a, b => if b = 0 then [] else [(a, b)]
  | (k, v) :: r, a, b =>
    if a < k then (if b = 0 then (k, v) :: r else (a, b) :: (k, v) :: r)
    else if a = k then (if b = 0 then r else (a, b) :: r)
    else (k, v) :: Cells.write r a b

def Cells.writeBytes : Cells → Nat → List Byte → Cells
  | m, _, [] => m
  | m, a, b :: bs => Cells.writeBytes (m.write a b) (a + 1) bs

def Cells.readBytes (m : Cells) : Nat → Nat → List Byte
  | _, 0 => []
  | a, n + 1 => m.read a :: Cells.readBytes m (a + 1) n

/-- The cells with addresses in `[a, a + n)` removed: those bytes read 0. -/
def Cells.clear (m : Cells) (a n : Nat) : Cells := m.filter (fun e => e.1 < a || a + n ≤ e.1)

/-- The cells of `[a, a + n)`, moved so that `a` stands at `d`. -/
def Cells.extract (m : Cells) (a n d : Nat) : Cells :=
  (m.filter (fun e => a ≤ e.1 && e.1 < a + n)).map (fun e => (e.1 - a + d, e.2))

/-- Two canonical memories joined; where both list an address the first wins. -/
def Cells.overlay (top base : Cells) : Cells := top.foldl (fun m e => m.write e.1 e.2) base

/-- The `n` bytes at `a` copied to `d`; whatever stood there is gone. -/
def Cells.copy (m : Cells) (a n d : Nat) : Cells := Cells.overlay (m.extract a n d) (m.clear d n)

/-- The canonical form: addresses strictly rising and no listed byte 0. -/
def Cells.wf : Cells → Bool
  | [] => true
  | [(_, v)] => v != 0
  | (a, v) :: (b, w) :: r => v != 0 && decide (a < b) && Cells.wf ((b, w) :: r)


/-! ## CRC-32C (R329): polynomial 0x1EDC_6F41 reflected, initial value and final exclusive-or all ones -/

def crcStep : Nat → BitVec 32 → BitVec 32
  | 0, c => c
  | n + 1, c => crcStep n (if c.getLsbD 0 then (c >>> 1) ^^^ 0x82F63B78#32 else c >>> 1)

def crcByte (c : BitVec 32) (b : Byte) : BitVec 32 := crcStep 8 (c ^^^ b.setWidth 32)

/-- CRC-32C of a byte list; the CRC of no byte is 0. -/
def crc32c (bs : List Byte) : BitVec 32 := bs.foldl crcByte (BitVec.allOnes 32) ^^^ BitVec.allOnes 32

end Sys2Proof.Machine
end

