-- ==== Sys2Proof/Machine/Parts.lean ====
section
/-! DEFINITION. The parts of the state: every register, counter, table and buffer the spec gives the module,
subsystem by subsystem, as plain data. -/

namespace Sys2Proof.Machine

/-! ## Host attachment (12_host_attachment.md) and the operating profile (01_module.md) -/

/-- HUB_PROFILE (01_module.md Table 1.5): the fields as written, and the ENVELOPE and CLOCKING in effect. -/
structure Profile where
  envelope      : BitVec 2
  clocking      : Bool
  determinism   : BitVec 2
  seamEcc       : Bool
  seamEccActive : Bool
  fabric        : Bool
  clockPending  : Bool
  envelopeEff   : BitVec 2
  clockingEff   : Bool
  fabricEff     : Bool
deriving DecidableEq, Repr

/-- HUB common registers (12_host_attachment.md Table 12.4), and the widths of the ports' links, 0 while down (Table 12.1). -/
structure Hub where
  ready      : Bool
  p0Up       : Bool
  p1Up       : Bool
  p1Fenced   : Bool
  p0Gen      : BitVec 3
  p1Gen      : BitVec 3
  p0Width    : BitVec 5
  p1Width    : BitVec 5
  p1FenceReg : Bool
  winChunk   : BitVec 3
  regViol    : Word
  strayCpl   : Word
  cplTimeout : Word
  postedDrop : Word
deriving DecidableEq, Repr

/-- The mailbox (Table 12.5, R324): `running` is the code of the request in progress, `htGo` and `stGo` the hall time in
sixteenths and the Time Keeper's state when it was accepted (08_hall_time.md Table 8.10). -/
structure Mailbox where
  code    : BitVec 16
  busy    : Bool
  valid   : Bool
  status  : Byte
  len     : BitVec 10
  data    : Vector Word 128
  running : BitVec 16
  fenced  : Bool
  htGo    : Nat
  stGo    : BitVec 3
deriving DecidableEq, Repr

/-- An event waiting in a ring's FIFO, or its overflow marker's contents (R350, R351). -/
structure Event where
  code    : Byte
  subject : BitVec 16
  ht      : DWord
  payload : List Byte
deriving DecidableEq, Repr

/-- The overflow marker of a FIFO (R351): `ahead` events still stand before it. -/
structure Marker where
  ahead   : Nat
  firstHt : DWord
  lastHt  : DWord
  count   : Word
deriving DecidableEq, Repr

/-- One event ring (Table 12.6, R349 to R351). -/
structure EventRing where
  baseLo : Word
  baseHi : Word
  log2   : BitVec 5
  en     : Bool
  tail   : Word
  head   : Word
  drops  : Word
  fifo   : List Event
  marker : Option Marker
deriving DecidableEq, Repr

/-- A Sieve source's configuration (IRQ_SRC_CFG). -/
structure SrcCfg where
  func : BitVec 6
  vec  : BitVec 5
  cnt  : BitVec 5
  us   : BitVec 10
deriving DecidableEq, Repr

/-- The Sieve (R342 to R346): a bit or an entry for each of its 512 sources. `ev` counts the events since
the last claim, `first` holds the instant of the first of them, from which the timer runs, and `fired` says that the pending
bit has been set since (R343). -/
structure Irq where
  pending     : BitVec 512
  enable      : BitVec 512
  mask        : BitVec 512
  cfg         : Vector SrcCfg 512
  ev          : Vector Nat 512
  first       : Vector (Option Nat) 512
  fired       : BitVec 512
  claimSrc    : BitVec 9
  emptyClaims : Word
  msgs        : Word
deriving DecidableEq, Repr

/-- One MSI-X table entry (R348). -/
structure MsixEntry where
  addr   : DWord
  data   : Word
  masked : Bool
deriving DecidableEq, Repr

/-- A function of port 0 (R314 to R316): its configuration bits and MSI-X table. -/
structure Func where
  enabled      : Bool
  busMaster    : Bool
  d3hot        : Bool
  msixEnable   : Bool
  msix         : Vector MsixEntry 32
  aerUnsupported : Bool
  aerUnexpected  : Bool
deriving DecidableEq, Repr

/-- The data function of port 1 (R316, R340): `draining` holds the cause of a fence whose outstanding
requests are not yet abandoned, `lastCause` that of the latest fence. -/
structure Port1 where
  busMaster : Bool
  d3hot     : Bool
  draining  : Option (BitVec 4)
  lastCause : BitVec 4
  aerUnexpected : Bool
deriving DecidableEq, Repr

/-- A posted write not yet in effect: the register's BAR0 offset and the value written (R321). -/
structure PostedWrite where
  offset : Nat
  value  : Word
deriving DecidableEq, Repr

/-- For each posted block the write in progress; BUSY reads 1 while there is one (R321). -/
structure Posted where
  seam : Option PostedWrite
  fld  : Option PostedWrite
  tkp  : Option PostedWrite
  rst  : Option PostedWrite
  hlt  : Option PostedWrite
  sec  : Option PostedWrite
  cal  : Option PostedWrite
  pwr  : Option PostedWrite
  svc  : Option PostedWrite
deriving DecidableEq, Repr

/-- A window slot (R328 to R331): `held` is the SEQ recorded at acquisition while the slot is device-held,
with the LEN and CRC its flag word had then; `busy` that a request reads or writes it. -/
structure WinSlot where
  log2 : Nat
  p2p  : Bool
  addr : DWord
  held : Option (BitVec 31)
  flagLen : Nat
  flagCrc : Word
  busy : Bool
deriving DecidableEq, Repr

/-- A fetched window transfer (R336 to R338): `status` is set once it has run. -/
structure Transfer where
  seq     : Word
  desc    : List Byte
  status  : Option Byte
  written : Nat
deriving DecidableEq, Repr

/-- A context's window (R327, R336). -/
structure Window where
  nslots   : Nat
  wxLog2   : Nat
  flagBase : DWord
  wxBase   : DWord
  wxcBase  : DWord
  slots    : Assoc WinSlot
  tail     : Word
  head     : Word
  ctail    : Word
  chead    : Word
  transfers : List Transfer
deriving DecidableEq, Repr

/-! ## Seam memory and the Hoist (04_seam_hoist.md) -/

/-- What a Seam page is used for. `replaced` pages are versions a commit has replaced (R105), `freed` pages
those of a handle FREE has unmapped (R101), `withheld` pages those kept from reallocation (R89, R116). -/
inductive FrameUse where
  | page | table | shadow | replaced | freed | scratch | withheld
deriving DecidableEq, Repr

/-- One Seam page in use: what for, the function it is charged to (R96), its instant of last use (R114), and
the far page that still holds its contents, while nothing has been committed since it was paged in. -/
structure Frame where
  use     : FrameUse
  charge  : Option FnId
  lastUse : Nat
  far     : Option (Nat × Nat)
deriving DecidableEq, Repr

/-- A page-in in progress (R113): the page stands IN_TRANSIT, its far copy is at the slot and page given and
it will stand in `frame`. -/
structure PageIn where
  ctx   : CtxId
  vpn   : Nat
  slot  : Nat
  page  : Nat
  frame : Nat
deriving DecidableEq, Repr

/-- HST registers (Tables 4.7 to 4.12) and the Hoist's work in progress. -/
structure Hst where
  invCtx     : Byte
  invAll     : Bool
  invBusy    : Option (Bool × Byte)
  dtwVpn     : BitVec 27
  dtwLo      : Word
  dtwHi      : Word
  dtwCtx     : Byte
  dtwErr     : Bool
  evacQuad   : BitVec 3
  evacBusy   : Bool
  evacState  : BitVec 2
  evacFull   : Bool
  violCount  : Word
  violCtx    : Byte
  violWrite  : Bool
  pageins    : Word
  evicts     : Word
  quotaSeam  : Vector (BitVec 19) 64
  quotaFar   : Vector (BitVec 19) 64
  pageIns    : List PageIn
deriving DecidableEq, Repr

/-- One die's port arbiter and counters (Table 4.14, R119): wait counters and longest waits in the order
LOCAL, GALLERY, HOIST, WDMA, SNAP. -/
structure SeamDie where
  ceCount : Word
  ueCount : Word
  starve  : Word
  waitObs : Vector (BitVec 16) 5
  waits   : Vector Nat 5
deriving DecidableEq, Repr

/-- SEAM registers (Tables 4.13 and 4.14); `autoMask` holds the serving steps that run, by context and SEQ, in the order they
began, and whether SBMASK_AUTO masks HOIST, WDMA and SNAP for them: until MASK_MAX has passed (R120). -/
structure Seam where
  zeroing  : Bool
  sbmask   : BitVec 3
  autoEn   : Bool
  maskMax  : Byte
  burst    : Vector (BitVec 4) 5
  waitMax  : Vector Byte 4
  scrubH   : Byte
  autoMask : List (CtxId × Word × Bool)
  dies     : Vector SeamDie 24
  refreshes : Nat
deriving DecidableEq, Repr

/-- A handle (R97): its first page and page count; `freed` once FREE has unmapped it, with the entries it
held, until no dispatched command references them (R101). -/
structure Handle where
  vpn   : Nat
  pages : Nat
  freed : Bool
  held  : Assoc DWord
deriving DecidableEq, Repr

/-- A page-table entry whose direct replacement no invalidation has followed, with the entries replaced, earliest first
(R111). -/
structure Stale where
  vpn : Nat
  old : List DWord
  new : DWord
deriving DecidableEq, Repr

/-! ## Commands and contexts (05_commands.md, 06_scheduling_streams.md) -/

/-- A tag's state (R141); an unlisted tag is IDLE. -/
inductive TagState where
  | pending
  | done (status : Byte)
deriving DecidableEq, Repr

/-- Where a fetched command stands (05_commands.md, "From fetch to completion"). -/
inductive Phase where
  | fetched
  | running
  | parked
deriving DecidableEq, Repr

/-- Why a command is being killed (Table 5.6); a deadline kill names the serving context. -/
inductive KillCause where
  | deadline (server : CtxId)
  | fence
  | software
  | destroy
  | freeze
deriving DecidableEq, Repr

/-- One served stream of a work list (R174). -/
structure Served where
  entry : Nat
  row   : Word
  frame : Word
  model : Nat
deriving DecidableEq, Repr

/-- What a STEP has fixed since its work list was built (R174 to R178). `invs` are the invocations not yet
begun; `current` is the model whose operation list runs and its opIdx stands in the command. -/
structure StepRun where
  built    : Bool
  served   : List Served
  deferred : Nat
  missed   : List (Nat × Nat × Nat)
  invs     : List (Nat × List Served)
  current  : Option Nat
  killAt   : Int
  estNs    : Nat
  opsTotal : Nat
deriving DecidableEq, Repr

/-- A maximum a command contributes to a tracked tensor (R83, R199). -/
structure AmaxContrib where
  tensor : Nat
  value  : Word
deriving DecidableEq, Repr

/-- What CHECK fixed for the command (R194). -/
inductive NormDecision where
  | apply | clip | skip
deriving DecidableEq, Repr

/-- What a NOISE operation found, to be applied when its command ends (R210, R211). -/
structure NoiseResult where
  g2   : Word
  t    : Word
  bq   : Nat
  qmax : Nat
deriving DecidableEq, Repr

/-- A fetched command. `versions` are the page-table entries it captured at dispatch (R103), `shadows` the
Seam pages it has written, `reserved` the shadows reserved for its declared writes (R104), `touched` the
pages it references (R114). `ending` is the status it has reached, to be recorded at
its end; `finished` that its commit or discard is done and only its record waits. `prevOp` is the descriptor of its
last operation and `liveTile` the bytes of live tile each physical array's Plate holds (R49). -/
structure Cmd where
  seq       : Word
  stamp     : Nat
  desc      : List Byte
  bad       : Bool
  kills     : Nat
  phase     : Phase
  opIdx     : Nat
  versions  : Assoc DWord
  shadows   : Assoc Nat
  reserved  : Assoc Nat
  touched   : List Nat
  arrays    : List Nat
  runNs     : Nat
  parkedAt  : Nat
  tag       : Nat
  passedWait : Bool
  ending    : Option Byte
  endIdx    : Nat
  handle    : Nat
  killing   : Option KillCause
  unit      : Option Nat
  decision  : Option NormDecision
  normG     : Word
  multiplier : Word
  tLatch    : Word
  noise     : Option NoiseResult
  amax      : List AmaxContrib
  liveTile  : List (Nat × Nat)
  prevOp    : List Byte
  stalled   : List Nat
  seamBytes : Nat
  finished  : Bool
  step      : Option StepRun
deriving DecidableEq, Repr

/-- A context's Tally (R183, R184); `energyRem` is the remainder below 1 mJ, in units of
10^-10 mJ (one nanojoule over the 10,000 ns of an interval). -/
structure Tally where
  jobs        : DWord
  fieldNs     : DWord
  seamBytes   : DWord
  hostBytes   : DWord
  fabricBytes : DWord
  energyMj    : DWord
  energyRem   : Nat
deriving DecidableEq, Repr

/-- A context (R126 to R135, R141, R159, R160); `ends` are the finished commands whose records wait, in the order they ended
(R139); `released` the Seam pages, by virtual page, from which evacuation has released a POISONED page (04_seam_hoist.md R116);
`fenced` once a Canary of it has self-faulted (R361, R362). -/
structure Context where
  fn         : FnId
  slot       : Fin 32
  job        : BitVec 16
  det        : BitVec 2
  sqLog      : Nat
  cqLog      : Nat
  sqBase     : DWord
  cqBase     : DWord
  sqHead     : Word
  sqTail     : Word
  cqHead     : Word
  cqTail     : Word
  stop       : Bool
  killSeq    : Word
  dbBad      : Word
  share      : Nat
  nokillOk   : Bool
  stepMax    : BitVec 14
  killBudget : BitVec 24
  killUsed   : BitVec 24
  vt         : DWord
  rem        : Nat
  wasReady   : Bool
  destroying : Bool
  fenced     : Bool
  tags       : Assoc TagState
  cmds       : List Cmd
  ends       : List Word
  pt         : Assoc DWord
  tables     : Assoc Nat
  handles    : Assoc Handle
  farPool    : List Nat
  farUsed    : List Nat
  stale      : List Stale
  released   : Assoc Nat
  window     : Option Window
  cqIrqs     : List Word
  wxIrqs     : List Word
  tally      : Tally
deriving DecidableEq, Repr

/-- CFE registers (Table 5.11) and the counter that stamps fetches. -/
structure Cfe where
  ctxSel    : Byte
  rerunMax  : Byte
  waitLimit : BitVec 16
  runLimit  : BitVec 16
  kills     : Word
  dbBad     : Word
  stamp     : Nat
deriving DecidableEq, Repr

/-- The command that holds the Field and the hall time at which its holding interval began (R158). Energy is credited when
the interval ends (R161, R184): `energy` is what earlier 10 µs intervals gave, `mark` where the present share begins. -/
structure Holder where
  ctx   : CtxId
  seq   : Word
  since : Nat
  mark  : Nat
  energy : Nat
deriving DecidableEq, Repr

/-- The tenure of a job (R163). -/
structure Tenure where
  fn      : FnId
  job     : BitVec 16
  charged : Nat
deriving DecidableEq, Repr

/-- SCH registers (Table 6.11), the Field's holder, the tenure, and the Field time of the present 10 µs
energy interval by context (R184). -/
structure Sch where
  tallyC2     : Bool
  tallyC2Eff  : Bool
  tenureUs    : BitVec 16
  budgetWin   : BitVec 16
  holdoff     : BitVec 16
  tallyPeriod : BitVec 16
  deadlineKills : Word
  lateSteps   : Word
  unattrib    : Word
  unattribRem : Nat
  holder      : Option Holder
  tenure      : Option Tenure
  intervalNs  : Assoc Nat
deriving DecidableEq, Repr

/-- A model (Table 6.1). -/
structure Model where
  ctx     : CtxId
  number  : Nat
  mwidth  : BitVec 2
  opcount : Nat
  batch   : Nat
  oplist  : Nat
  index   : Nat
  img     : Nat
  imgPages : Nat
deriving DecidableEq, Repr

/-- A valid stream entry (Table 6.3); its DEADLINE is D_FRAME (R170). -/
structure Stream where
  model   : Byte
  ctx     : CtxId
  row     : Word
  t0      : DWord
  rateNum : BitVec 16
  rateDen : BitVec 16
  frame   : Word
  served  : Word
  missed  : Word
  late    : Word
  userTag : DWord
  lastHt  : DWord
deriving DecidableEq, Repr

/-- STB registers (Table 6.13), the models and the stream table. -/
structure Stb where
  noRoom   : Word
  missed   : Word
  deferred : Word
  late     : Word
  quota    : Vector (BitVec 16) 64
  models   : List Model
  entries  : Assoc Stream
deriving DecidableEq, Repr

/-! ## The Field (02_field.md) -/

/-- A model image in Plate (06_scheduling_streams.md R168): the STEP that loaded it, the model, the range of memory it was
copied from, and the arrays whose Plate holds it from offset 24 MiB on. -/
structure PlateImage where
  ctx    : CtxId
  seq    : Word
  model  : Nat
  va     : Nat
  arrays : List Nat
  len    : Nat
deriving DecidableEq, Repr

/-- FLD registers (Tables 2.11 to 2.17) and the Field's fences, self-tests, capture and Plate. `fenced` are the quads
whose fence is in effect, which FENCE reads, `pend` those with a request not yet in effect (Table 2.12), `capAsk` a triggered FLD_CAPT.START whose slot's
flag word is being read, `capRun` the context and slot of a capture in progress. `plate` holds Plate by array × 2^25 +
byte, and `tiles` the ranges of it in which live tiles stand (R49); `image` the model whose image Plate holds (06_scheduling_streams.md R168);
`accs` the accumulators by (array × 65,536 + cell) × 4 + index (R26), those of no listed number being open; `rim` names the
open values that the Rim's lane registers hold, which no rule gives (log entry 12). -/
structure Fld where
  fenced    : BitVec 6
  pend      : BitVec 6
  testQuad  : BitVec 3
  testing   : BitVec 6
  results   : Vector (BitVec 4) 6
  maint     : Bool
  frozen    : Bool
  capSlot   : BitVec 16
  capCtx    : Byte
  capState  : BitVec 2
  capAsk    : Bool
  capRun    : Option (Byte × BitVec 16)
  frozenOp  : Option Word
  opsDone   : Word
  intSat    : Word
  fenceKills : Word
  plate     : Cells
  tiles     : List (Nat × Nat)
  image     : Option PlateImage
  accs      : Assoc Word
  rim       : Nat
deriving DecidableEq, Repr

/-! ## Training Support (07_training.md) -/

/-- A training unit (Tables 7.1 and 7.9). -/
structure TrainUnit where
  ctx         : Byte
  valid       : Bool
  normMode    : Bool
  cleanTarget : BitVec 16
  limit       : Word
  lse         : BitVec 6
  clean       : BitVec 16
  openStep    : Word
  openLse     : BitVec 6
  applied     : Word
  stepDone    : Word
  decision    : BitVec 3
  skips       : BitVec 16
  norm        : Word
  alpha       : Word
  bsimple     : Word
  batch       : Word
  g2e         : Word
  se          : Word
  ncount      : Word
deriving DecidableEq, Repr

/-- A tracked tensor (R198 to R200, Table 7.11); `hist` has the most recent entry first. -/
structure Tracked where
  unit     : UnitId
  tensorId : Word
  e5m2     : Bool
  h        : Nat
  margin   : Nat
  hist     : List Word
  eCur     : BitVec 8
  pendValid : Bool
  pendNonfinite : Bool
  pstep    : Word
  pend     : Word
  lastStep : Word
deriving DecidableEq, Repr

/-- OPT registers (Table 7.8), units and tracked tensors. -/
structure Opt where
  openBusy   : Bool
  openErr    : Bool
  openTu     : BitVec 6
  openStep   : Word
  pvaLo      : Word
  pvaHi      : BitVec 16
  pcount     : BitVec 13
  amaxLate   : Word
  amaxNonfinite : Word
  amaxLast   : BitVec 12
  noiseBad   : Word
  units      : Vector TrainUnit 64
  tracked    : Assoc Tracked
  openNow    : BitVec 6
  owed       : List (CtxId × Nat × Word)
deriving DecidableEq, Repr

/-! ## Hall time (08_hall_time.md) -/

/-- What a link's time exchanges have shown (Table 8.9, R225, R230): twice θ of the partner in sixteenths of a ns, θ as
TKP_LINK_OFS shows it, the frame boundaries since the last valid exchange (none yet: `none`), and whether the partner and this
module might keep scheduled traffic when they exchanged. -/
structure LinkTime where
  theta2     : Int
  theta      : Int
  verified   : Bool
  sinceValid : Option Nat
  partnerOk  : Bool
  ownOk      : Bool
deriving DecidableEq, Repr

/-- TKP registers (Tables 8.7 to 8.9) and the hall-time counter, in sixteenths of a nanosecond (R5, R222). `owed` is what
the counter still has to give back by slewing, `stepBy` a step that the next frame makes (R226), `toAcquire` that a former master waits for its parent link (R223), `goodRow` the exchanges in a row within 2 ns (R223), `cmpWait` the frames a CMP_CLEAR still waits (R232), `recent` the bins of the latest
launches (R234), `frameAt` and `slotAt` the hall times of the last frame boundary and slot start (R228). -/
structure Tkp where
  state      : BitVec 3
  ht         : Nat
  rckLoss    : Bool
  codeBad    : Bool
  cmpFault   : Bool
  straggler  : Bool
  parentUsed : BitVec 5
  role       : Bool
  roleEff    : Bool
  parent     : BitVec 5
  altParent  : BitVec 5
  altEn      : Bool
  guard      : BitVec 6
  guardEff   : Nat
  holdover   : BitVec 16
  rckDelay   : BitVec 12
  lateBin    : BitVec 4
  latePct    : BitVec 7
  window     : BitVec 16
  steps      : Word
  relocks    : Word
  cmpFaults  : Word
  links      : Vector LinkTime 24
  badFrames  : Nat
  goodRow    : Nat
  owed       : Nat
  stepBy     : Option Int
  toAcquire  : Bool
  holdoverOver : Bool
  cmpWait    : Nat
  frameAt    : Option Nat
  slotAt     : Option Nat
  bins       : Vector Word 16
  recent     : List Nat
deriving DecidableEq, Repr

/-! ## Links (09_links.md) -/

/-- A flit: its 32-byte header and the payload bytes it uses (R240, Table 9.2). -/
abbrev Flit := List Byte

/-- One link (Table 9.8) and what stands behind its registers. `light` says that light arrives, `seen` that a discovery
payload has come since training, `payload` is the last one received and `sent` the last one sent; `reason` is the last
LINK_MISMATCH reason, `beOnly` R247 rule 5's exclusion; `dropping` the lane of a lane-map exchange and `ackHt` the hall time
it was acknowledged (R250); `retries` the automatic retries made (R244); `laneNow` the symbol errors of the present 1 ms;
`control` the queue of CONTROL, DISCOVER and STALE flits, `queues` the egress queues SYSTEM, COLLECTIVE, BULK and TRANSIT, each
flit with the time it came to wait, with their deficits and whose turn it is (R253); `drops` the lane drops (R250). `cwNext`
counts the codewords sent since the link last began to carry flits: its low 12 bits are the next LSEQ; `codewords` is the
replay buffer, the flits of the last 4,096 codewords by number, IDLE ones unlisted; `replayLeft` the codewords still to be
sent again, `awaited` the LSEQ from which the partner was asked to replay (R240, R241). -/
structure Link where
  state       : BitVec 4
  laneDropped : Bool
  droppedLane : BitVec 4
  sleepRefused : Bool
  lanesLive   : BitVec 16
  sleep       : Bool
  loopFar     : Bool
  loopMs      : BitVec 16
  plink       : BitVec 5
  pdir        : BitVec 3
  px          : BitVec 5
  py          : BitVec 4
  pz          : BitVec 4
  partnerGen  : Word
  fecCorr     : Word
  fecUncorr   : Word
  retry       : Word
  retrains    : Word
  loopResult  : BitVec 3
  failLanes   : BitVec 16
  laneErr     : Vector Word 16
  light       : Bool
  seen        : Bool
  payload     : List Byte
  sent        : List Byte
  reason      : Nat
  beOnly      : Bool
  dropping    : Option (BitVec 4)
  ackHt       : Option Nat
  retries     : Nat
  sleepAsked  : Bool
  loopPend    : Bool
  loopOwn     : Bool
  laneNow     : Vector Nat 16
  control     : List Flit
  queues      : Vector (List (Nat × Flit)) 4
  deficits    : Vector Nat 4
  turn        : Nat
  drops       : Nat
  cwNext      : Nat
  codewords   : List (Nat × Flit)
  replayLeft  : Nat
  awaited     : Option (BitVec 12)
deriving DecidableEq, Repr

/-- The latched topology (R246): coordinates, shape and the direction of each link. -/
structure Topo where
  x : Nat
  y : Nat
  z : Nat
  sx : Nat
  sy : Nat
  sz : Nat
  dirs : Vector (BitVec 3) 24
deriving DecidableEq, Repr

/-- LNK common registers (Table 9.7), the links, the latched topology, the LNK_SLICE_EN and BE_START in effect, the BE and
STALE flits that wait for a usable link with the time they came to wait (R252), the sequence number of the next flit this
module originates, the links in the order their partners were last discovered, latest first (R264), and the BE flits
delivered here that belong to no stream, each source's in SEQ order (R252). -/
structure Lnk where
  latchErr  : Bool
  x         : BitVec 5
  y         : BitVec 4
  z         : BitVec 4
  sx        : BitVec 6
  sy        : BitVec 5
  sz        : BitVec 5
  dirmap    : Vector (BitVec 3) 24
  gen       : Word
  sliceId   : BitVec 16
  sliceEn   : BitVec 24
  beStart   : Byte
  holdUs    : BitVec 16
  arbW      : Vector Byte 4
  dropThr   : BitVec 24
  stale     : Word
  beDrop    : Word
  links     : Vector Link 24
  topo      : Option Topo
  sliceEff  : BitVec 24
  beEff     : Nat
  waiting   : List (Nat × Flit)
  beSeq     : Word
  heard     : List Nat
  arrived   : List Flit
deriving DecidableEq, Repr

/-! ## Collectives (10_collectives.md) -/

/-- A slot plan entry (Table 10.5). -/
structure PlanEntry where
  link   : Nat
  slot   : Nat
  run    : Nat
  shared : Bool
deriving DecidableEq, Repr

/-- A plan of an image: the links it treats as unusable, and its entries (Table 10.4). -/
structure Plan where
  key     : Nat
  entries : List PlanEntry
deriving DecidableEq, Repr

/-- A direction's stream as its sender keeps it (R277, R278): flits ready to be sent, flits sent and not acknowledged in the
order first sent, the SEQs of those reported missing, the BE flits that carried some of them, by their SEQ and the stream's,
and the next index by collective and kind. -/
structure StreamTx where
  ready : List Flit
  kept  : List Flit
  again : List Word
  be    : List (Word × Word)
  next  : Assoc Nat
deriving DecidableEq, Repr

/-- A stream as its receiver keeps it (R276 to R278), by collective and kind: how many flits have come without a gap, how many
of them an acknowledgement has named, and the flits that came after a gap; the payloads of data flits, held until their
collective ends; and single parts of flits that travel by BE. -/
structure StreamRx where
  got   : Assoc Nat
  acked : Assoc Nat
  later : List (Nat × Nat)
  data  : List (Nat × Nat × List Byte)
  parts : List (Word × Nat × List Byte)
deriving DecidableEq, Repr

/-- A collective from its fetch to its record (R271 to R287): `status` is the STATUS of this member's readiness entry,
`entries` the entries held by rank, `hold` the pages kept resident, `start` the frame F of its data phase (R276), `sent` the
payload bytes its data phase puts in this member's streams. -/
structure Collective where
  num      : Word
  desc     : List Byte
  status   : Byte
  accepted : Bool
  hold     : List Nat
  entries  : Assoc (List Byte)
  start    : Option Nat
  ending   : Option Byte
  endHt    : Nat
  sent     : Nat
  lost     : Bool
deriving DecidableEq, Repr

/-- A collective group (R261 to R264): its arguments as accepted, its rank, the captured DETERMINISM, its plans, the
recorded generations by direction, its scratch pages, its collectives in launch order, its streams by direction, readiness
entries that came before the collective they name, its credit on each link's shared slots (R268), and whether a FABRIC other
than its own has taken it off its runs (R270). -/
structure Group where
  state : BitVec 2
  ctx   : Byte
  plan  : BitVec 5
  ldb   : Word
  lhead : Word
  chead : Word
  ctail : Word
  irqs  : List Word
  scratch : List Nat
  args  : List Byte
  rank  : Nat
  det   : BitVec 2
  fabric : Bool
  beStart : Nat
  plans : List Plan
  total : Nat
  gens  : Vector Word 6
  done  : Nat
  cols  : List Collective
  tx    : Vector StreamTx 6
  rx    : Vector StreamRx 6
  early : List (Nat × List Byte)
  credit : Vector Int 24
  faulted : Bool
  offRuns : Bool
deriving DecidableEq, Repr

/-- COL registers (Tables 10.16 and 10.17), the groups, the contexts bound to the slice (R264), and the identities of
recent beacons (R289): x, y, z and RAISED_HT, latest first. -/
structure Col where
  abortOnTimeout : Bool
  canaryMs  : BitVec 16
  resent    : Word
  beFlits   : Word
  staleCnt  : Word
  beaconTx  : Word
  beaconRx  : Word
  dbBad     : Word
  groups    : Vector Group 64
  bound     : List Nat
  known     : List (Nat × Nat × Nat × Nat)
deriving DecidableEq, Repr

/-! ## Snapshots (11_snapshots.md) -/

/-- A shard of a list (Table 11.1). -/
structure Shard where
  kind    : Nat
  unit    : Nat
  slot    : Nat
  id      : DWord
  va      : Nat
  len     : Nat
  slotOff : Nat
deriving DecidableEq, Repr

/-- A snapshot slot (R293 to R304, Table 11.9): `held` are the entries of the pages it holds by virtual page (pages still
in transit at the freeze stand there IN_TRANSIT until they arrive), `control` the CONTROL bytes by shard, `runMax` the
largest offset written in the present run of entries of one slot (R301), `writing` that slot while it has not been handed
back. -/
structure SnapSlot where
  state  : BitVec 2
  ctx    : Byte
  status : Byte
  done   : Nat
  gen    : Word
  step   : Word
  list   : List Shard
  record : Nat
  ht     : Nat
  modGen : Word
  held   : Assoc DWord
  control : Assoc (List Byte)
  digested : Nat
  written : Nat
  endHt  : Nat
  runMax : Nat
  writing : Option Nat
deriving DecidableEq, Repr

/-- What an ended snapshot still owes the host while its function may not issue requests (R303, R304; 12_host_attachment.md
R316): zero records, the data slot it was writing, and the handback of its record slot of `count` records. -/
structure SnapDebt where
  ctx    : CtxId
  record : Nat
  count  : Nat
  zeros  : List Nat
  slot   : Option Nat
deriving DecidableEq, Repr

/-- SNP registers (Tables 11.8 and 11.9) and the slots. -/
structure Snp where
  rate     : BitVec 10
  waitMs   : BitVec 16
  shardsOk : Word
  shardsFail : Word
  cow      : Word
  slots    : Vector SnapSlot 8
  debts    : List SnapDebt
deriving DecidableEq, Repr

/-! ## Resets, Canaries and health (13_reset_health.md) -/
/-- RST registers (Table 13.11) and what the island keeps: the escalation stamps in island seconds, latest first (R364), the
fences of links not yet in effect (R358), the register offsets whose parity is bad (R363), the block reset in progress (a
link or not, and its number), the reset in progress (`some true` for a system reset), and whether it ends in retirement. -/
structure Rst where
  coreHeld   : Bool
  retired    : Bool
  hostFenced : Bool
  cause      : Byte
  detail     : BitVec 3
  escCount   : BitVec 4
  escWindow  : BitVec 17
  escMask    : Word
  epoch      : Word
  lfence     : BitVec 24
  blkTarget  : BitVec 5
  blkKind    : Bool
  canaryFld  : BitVec 16
  canaryHub  : Byte
  drainUs    : BitVec 16
  selfFaults : Word
  parity     : Word
  lastCanary : Byte
  lastKind   : Bool
  lastOffset : BitVec 20
  stamps     : List Nat
  lfencePend : BitVec 24
  badParity  : List Nat
  blkBusy    : Option (Bool × Nat)
  retireAfter : Bool
  inReset    : Option Bool
deriving DecidableEq, Repr

/-- What a second has added to the counters of a part's score (R367): for a Seam die corrected and uncorrectable errors; for
a link replays, retrains, uncorrectable codewords and lane drops. -/
structure Deltas where
  ce : Vector Nat 24
  ue : Vector Nat 24
  retry : Vector Nat 24
  retrain : Vector Nat 24
  fecu : Vector Nat 24
  drop : Vector Nat 24
deriving DecidableEq, Repr

/-- HLT registers (Table 13.12), the increases of the present second, and whether a reset in it cleared the Seam dies' or the
links' counters, which then contribute 0 (R367). -/
structure Hlt where
  wCe : Byte
  wUncorr : Byte
  wRetry : Byte
  wRetrain : Byte
  wFecu : Byte
  wLanedrop : Byte
  wPcie : Byte
  shift     : BitVec 4
  thrSeam   : Word
  thrLink   : Word
  thrPort   : Word
  overSeam  : BitVec 24
  overLink  : BitVec 24
  overPort  : BitVec 2
  scoreSeam : Vector Word 24
  scoreLink : Vector Word 24
  scorePort : Vector Word 2
  deltas    : Deltas
  muteSeam  : Bool
  muteLink  : Bool
deriving DecidableEq, Repr

/-! ## Identity, calibration and service (14_identity_service.md) -/

/-- A firmware bank (R380, R381): whether its package verifies, its SVN, and the bytes staged into it (none: as
manufactured). -/
structure Bank where
  good : Bool
  svn  : BitVec 16
  data : Option (List Byte)
deriving DecidableEq, Repr

/-- The algorithms of Table 14.2. -/
inductive SpdmAlgo where
  | ecdsaP384
  | sha384
deriving DecidableEq, Repr

/-- The code of an ERROR answer: UnsupportedRequest (R382), or one the spec does not give. -/
inductive SpdmError where
  | unsupportedRequest
  | unstated
deriving DecidableEq, Repr

/-- The answer to an SPDM request, as far as the spec gives its content (R382, R383): the version; the capabilities; the
algorithms chosen; the digest of each slot's chain; the bytes asked for of a chain and how many follow; the digest of a slot's
chain, and a signature of the slot's key; measurements, and a signature of the attestation key. -/
inductive SpdmReply where
  | version (major minor : Nat)
  | capabilities (cert chal measSigned keyEx psk : Bool)
  | algorithms (asym hash measurement : SpdmAlgo)
  | digests (list : List (Nat × List Byte))
  | certificate (slot : Nat) (portion : List Byte) (remainder : Nat)
  | challengeAuth (slot : Nat) (digest signature : List Byte)
  | measurements (list : List (Nat × List Byte)) (signature : List Byte)
  | error (code : SpdmError)
deriving DecidableEq, Repr

/-- SEC registers (Table 14.10), the firmware banks, the package staged since the last reset, the number of this boot's
attestation key and GEN as its certificate holds it (R379), and the last SPDM answer. -/
structure Sec where
  bank       : Bool
  fwFallback : Bool
  islandOnly : Bool
  nextBank   : Bool
  attestReady : Bool
  svn        : BitVec 16
  svnMin     : BitVec 16
  spdmCount  : Word
  banks      : Vector Bank 2
  staged     : Bool
  attestNo   : Nat
  attestGen  : Word
  reply      : Option SpdmReply
deriving DecidableEq, Repr

/-- The calibration values in use (R385). -/
inductive CalValues where
  | nominal
  | image (bytes : Option (List Byte))
deriving DecidableEq, Repr

/-- CAL registers and the calibration store (R384 to R387): the stored image (none: the factory's; `torn` once power was lost while it was written, which leaves an image that fails its digest), the values loaded at
the last reset, the thermal offsets in effect, and an accepted image being written, with its path. -/
structure Cal where
  state   : BitVec 2
  origin  : Bool
  calBad  : Bool
  pendingWrite : Bool
  writes  : Word
  stored  : Option (List Byte)
  torn    : Bool
  loaded  : CalValues
  offsets : CalValues
  writing : Option (List Byte × Bool)
deriving DecidableEq, Repr

/-- The answer on endpoint 0 of SVC, or to a message on MGMT (R392, R395, R413): a stall, bytes, an answer whose content MCTP lays
down, or a sensor's reading in its unit's resolution (none where there is no such sensor). -/
inductive PortReply where
  | stall
  | data (bytes : List Byte)
  | control
  | sensor (reading : Option Int)
deriving DecidableEq, Repr

/-- A bulk IN stream (R392). -/
inductive StreamKind where
  | islandLog
  | calImage
deriving DecidableEq, Repr

/-- SVC registers (Table 14.10), the USB port, the button and the management connector's last answer. `bulk` are the packets a
stream has still to send on endpoint 0x81 and `packet` the last one it has sent (R386, R392). -/
structure Svc where
  locate       : Bool
  request      : Bool
  drained      : Bool
  presence     : Bool
  usbConfigured : Bool
  drainRefused : Bool
  shortPresses : BitVec 16
  longPresses  : BitVec 16
  attached     : Bool
  lastStatus   : Byte
  lastRequest  : Byte
  chunks       : Vector (Option (List Byte)) 4
  stream       : Option StreamKind
  bulk         : List (List Byte)
  packet       : List Byte
  reply        : PortReply
  mgmtReply    : PortReply
  askedPower   : Bool
deriving DecidableEq, Repr

/-! ## Power, cooling and bring-up (15_power_bringup.md) -/

/-- Why the module is held (R402, R406). -/
inductive Hold where
  | none | rail | trip
deriving DecidableEq, Repr

/-- PWR registers (Table 15.8) and what the island measures: the die temperatures in 1/64 °C, corrected (`temps`) and as
read (`raws`), how long each condition of
R408 has held and how long none has, the energy since power-on in tenths of a millijoule, tests since the clock last rose
(R405), the cause of a power-on request that waits for its clips (R402). -/
structure Pwr where
  stage     : BitVec 3
  throttle  : Bool
  emerg     : Bool
  coolWarn  : Bool
  railWarnA : Bool
  railWarnB : Bool
  railA     : Bool
  railB     : Bool
  trip      : Bool
  fclk      : BitVec 12
  watts     : BitVec 16
  va : BitVec 16
  vb : BitVec 16
  ia : BitVec 16
  ib : BitVec 16
  auxMv : BitVec 16
  temps     : Vector Int 64
  raws      : Vector Int 64
  inlet : Int
  outlet : Int
  flow : BitVec 16
  inletWarn : Byte
  outletWarn : Byte
  flowWarn : Byte
  throttleUs : Word
  emergs    : Word
  trips     : Word
  railFaults : Word
  coolRun   : Vector Nat 3
  coolQuiet : Nat
  energyTenths : Nat
  sinceRise : Nat
  hold      : Hold
  auxOn     : Bool
  mainOn    : Bool
  onAsked   : Option Byte
deriving DecidableEq, Repr

end Sys2Proof.Machine
end

