-- ==== Sys2Proof/Machine/ResetValues.lean ====
section
/-! DEFINITION. The reset value of each part of the state: the values the register tables give; where they give
none, the values log entries 7 and 12 to 17 name. -/

namespace Sys2Proof.Machine

/-- The direction of each link after reset: LNK_DIRMAP0 to LNK_DIRMAP2 read 0x0024_9000, 0x006D_B492 and
0x00B6_D924 (09_links.md Table 9.7). -/
def dirmapReset : Vector (BitVec 3) 24 :=
  Vector.ofFn fun i =>
    let w : Nat := if i.val < 8 then 0x249000 else if i.val < 16 then 0x6DB492 else 0xB6D924
    BitVec.ofNat 3 (w / 2 ^ (3 * (i.val % 8)))

/-- HUB_PROFILE at its reset values (01_module.md Table 1.5). -/
def profileReset : Profile :=
  { envelope := 0, clocking := false, determinism := 1, seamEcc := false, seamEccActive := false,
    fabric := true, clockPending := false, envelopeEff := 0, clockingEff := false, fabricEff := true }

/-- The reset value of `Hub`. -/
def hubReset : Hub :=
  { ready := false, p0Up := false, p1Up := false, p1Fenced := true, p0Gen := 0, p1Gen := 0, p0Width := 0, p1Width := 0,
    p1FenceReg := false, winChunk := 2, regViol := 0, strayCpl := 0, cplTimeout := 0, postedDrop := 0 }

/-- The reset value of `Mailbox`. -/
def mailboxReset : Mailbox :=
  { code := 0, busy := false, valid := false, status := 0, len := 0, data := Vector.replicate 128 0,
    running := 0, fenced := false, htGo := 0, stGo := 0 }

/-- The reset value of `EventRing`. -/
def eventRingReset : EventRing :=
  { baseLo := 0, baseHi := 0, log2 := 6, en := false, tail := 0, head := 0, drops := 0, fifo := [],
    marker := none }

/-- The reset value of `SrcCfg`. -/
def srcCfgReset : SrcCfg :=
  { func := 0, vec := 0, cnt := 1, us := 1 }

/-- The reset value of `Irq`. -/
def irqReset : Irq :=
  { pending := 0, enable := 0, mask := 0, cfg := Vector.replicate 512 srcCfgReset,
    ev := Vector.replicate 512 0, first := Vector.replicate 512 none, fired := 0, claimSrc := 0, emptyClaims := 0,
    msgs := 0 }

/-- The reset value of `MsixEntry`. -/
def msixEntryReset : MsixEntry :=
  { addr := 0, data := 0, masked := true }

/-- The reset value of `Func`. -/
def funcReset : Func :=
  { enabled := false, busMaster := false, d3hot := false, msixEnable := false,
    msix := Vector.replicate 32 msixEntryReset, aerUnsupported := false, aerUnexpected := false }

/-- The reset value of `Port1`. -/
def port1Reset : Port1 :=
  { busMaster := false, d3hot := false, draining := none, lastCause := 0, aerUnexpected := false }

/-- The reset value of `Posted`. -/
def postedReset : Posted :=
  { seam := none, fld := none, tkp := none, rst := none, hlt := none, sec := none, cal := none, pwr := none,
    svc := none }

/-- The reset value of `Hst`. -/
def hstReset : Hst :=
  { invCtx := 0, invAll := false, invBusy := none, dtwVpn := 0, dtwLo := 0, dtwHi := 0, dtwCtx := 0,
    dtwErr := false, evacQuad := 0, evacBusy := false, evacState := 0, evacFull := false, violCount := 0,
    violCtx := 0, violWrite := false, pageins := 0, evicts := 0, quotaSeam := Vector.replicate 64 0,
    quotaFar := Vector.replicate 64 0, pageIns := [] }

/-- The reset value of `SeamDie`. -/
def seamDieReset : SeamDie :=
  { ceCount := 0, ueCount := 0, starve := 0, waitObs := Vector.replicate 5 0, waits := Vector.replicate 5 0 }

/-- The reset value of `Seam`. -/
def seamReset : Seam :=
  { zeroing := false, sbmask := 0, autoEn := false, maskMax := 100, burst := #v[8, 6, 6, 6, 6],
    waitMax := #v[8, 8, 8, 8], scrubH := 24, autoMask := [], dies := Vector.replicate 24 seamDieReset,
    refreshes := 0 }

/-- The reset value of `Cfe`. -/
def cfeReset : Cfe :=
  { ctxSel := 0, rerunMax := 8, waitLimit := 1000, runLimit := 10000, kills := 0, dbBad := 0, stamp := 0 }

/-- The reset value of `Sch`. -/
def schReset : Sch :=
  { tallyC2 := false, tallyC2Eff := false, tenureUs := 2000, budgetWin := 1000, holdoff := 2000,
    tallyPeriod := 0, deadlineKills := 0, lateSteps := 0, unattrib := 0, unattribRem := 0, holder := none,
    tenure := none, intervalNs := [] }

/-- The reset value of `Stb`. -/
def stbReset : Stb :=
  { noRoom := 0, missed := 0, deferred := 0, late := 0, quota := Vector.replicate 64 0, models := [],
    entries := [] }

/-- The reset value of `Fld`. -/
def fldReset : Fld :=
  { fenced := 0, pend := 0, testQuad := 0, testing := 0, results := Vector.replicate 6 0, maint := false,
    frozen := false, capSlot := 0, capCtx := 0, capState := 0, capAsk := false, capRun := none,
    frozenOp := none, opsDone := 0,
    intSat := 0, fenceKills := 0, plate := [], tiles := [], image := none, accs := [], rim := 0 }

/-- The reset value of `TrainUnit`. -/
def trainUnitReset : TrainUnit :=
  { ctx := 0, valid := false, normMode := false, cleanTarget := 2000, limit := 0, lse := 16, clean := 0,
    openStep := 0, openLse := 16, applied := 0, stepDone := 0, decision := 0, skips := 0, norm := 0,
    alpha := 0x3F733333, bsimple := 0, batch := 0, g2e := 0, se := 0, ncount := 0 }

/-- The reset value of `Opt`. -/
def optReset : Opt :=
  { openBusy := false, openErr := false, openTu := 0, openStep := 0, pvaLo := 0, pvaHi := 0, pcount := 0,
    amaxLate := 0, amaxNonfinite := 0, amaxLast := 0, noiseBad := 0,
    units := Vector.replicate 64 trainUnitReset, tracked := [], openNow := 0, owed := [] }

/-- The reset value of `LinkTime`. -/
def linkTimeReset : LinkTime :=
  { theta2 := 0, theta := 0, verified := false, sinceValid := none, partnerOk := false, ownOk := false }

/-- The reset value of `Tkp`. -/
def tkpReset : Tkp :=
  { state := 0, ht := 0, rckLoss := false, codeBad := false, cmpFault := false, straggler := false,
    parentUsed := 0, role := false, roleEff := false, parent := 0, altParent := 0, altEn := false, guard := 16,
    guardEff := 16, holdover := 1000, rckDelay := 0, lateBin := 6, latePct := 10, window := 1000, steps := 0,
    relocks := 0, cmpFaults := 0, links := Vector.replicate 24 linkTimeReset, badFrames := 0, goodRow := 0,
    owed := 0, stepBy := none, toAcquire := false, holdoverOver := false, cmpWait := 0, frameAt := none,
    slotAt := none, bins := Vector.replicate 16 0, recent := [] }

/-- The reset value of `Link`. -/
def linkReset : Link :=
  { state := 0, laneDropped := false, droppedLane := 0, sleepRefused := false, lanesLive := 0, sleep := false,
    loopFar := false, loopMs := 100, plink := 0, pdir := 0, px := 0, py := 0, pz := 0, partnerGen := 0,
    fecCorr := 0, fecUncorr := 0, retry := 0, retrains := 0, loopResult := 0, failLanes := 0,
    laneErr := Vector.replicate 16 0, light := false, seen := false, payload := [], sent := [], reason := 0,
    beOnly := false, dropping := none, ackHt := none, retries := 0, sleepAsked := false, loopPend := false,
    loopOwn := false, laneNow := Vector.replicate 16 0, control := [], queues := Vector.replicate 4 [],
    deficits := Vector.replicate 4 0, turn := 0, drops := 0, cwNext := 0, codewords := [], replayLeft := 0,
    awaited := none }

/-- The reset value of `Lnk`. -/
def lnkReset : Lnk :=
  { latchErr := false, x := 0, y := 0, z := 0, sx := 0, sy := 0, sz := 0, dirmap := dirmapReset, gen := 0,
    sliceId := 0, sliceEn := 0xFFFFFF, beStart := 128, holdUs := 1000, arbW := #v[16, 64, 32, 128],
    dropThr := 500000, stale := 0, beDrop := 0, links := Vector.replicate 24 linkReset, topo := none,
    sliceEff := 0xFFFFFF, beEff := 128, waiting := [], beSeq := 0, heard := [], arrived := [] }

/-- The reset value of `StreamTx`. -/
def streamTxReset : StreamTx :=
  { ready := [], kept := [], again := [], be := [], next := [] }

/-- The reset value of `StreamRx`. -/
def streamRxReset : StreamRx :=
  { got := [], acked := [], later := [], data := [], parts := [] }

/-- The reset value of `Group`. -/
def groupReset : Group :=
  { state := 0, ctx := 0, plan := 0, ldb := 0, lhead := 0, chead := 0, ctail := 0, irqs := [], scratch := [],
    args := [], rank := 0, det := 0, fabric := false, beStart := 0, plans := [], total := 0,
    gens := Vector.replicate 6 0, done := 0, cols := [], tx := Vector.replicate 6 streamTxReset,
    rx := Vector.replicate 6 streamRxReset, early := [], credit := Vector.replicate 24 0, faulted := false,
    offRuns := false }

/-- The reset value of `Col`. -/
def colReset : Col :=
  { abortOnTimeout := true, canaryMs := 100, resent := 0, beFlits := 0, staleCnt := 0, beaconTx := 0,
    beaconRx := 0, dbBad := 0, groups := Vector.replicate 64 groupReset, bound := [], known := [] }

/-- The reset value of `SnapSlot`. -/
def snapSlotReset : SnapSlot :=
  { state := 0, ctx := 0, status := 0, done := 0, gen := 0, step := 0, list := [], record := 0, ht := 0,
    modGen := 0, held := [], control := [], digested := 0, written := 0, endHt := 0, runMax := 0,
    writing := none }

/-- The reset value of `Snp`. -/
def snpReset : Snp :=
  { rate := 64, waitMs := 10000, shardsOk := 0, shardsFail := 0, cow := 0,
    slots := Vector.replicate 8 snapSlotReset, debts := [] }

/-- The reset value of `Rst`. -/
def rstReset : Rst :=
  { coreHeld := false, retired := false, hostFenced := false, cause := 1, detail := 0, escCount := 3,
    escWindow := 600, escMask := 0x180, epoch := 0, lfence := 0, blkTarget := 0, blkKind := false,
    canaryFld := 1000, canaryHub := 100, drainUs := 1000, selfFaults := 0, parity := 0, lastCanary := 0,
    lastKind := false, lastOffset := 0, stamps := [], lfencePend := 0, badParity := [], blkBusy := none,
    retireAfter := false, inReset := none }

/-- The reset value of `Deltas`. -/
def deltasReset : Deltas :=
  { ce := Vector.replicate 24 0, ue := Vector.replicate 24 0, retry := Vector.replicate 24 0,
    retrain := Vector.replicate 24 0, fecu := Vector.replicate 24 0, drop := Vector.replicate 24 0 }

/-- The reset value of `Hlt`. -/
def hltReset : Hlt :=
  { wCe := 1, wUncorr := 255, wRetry := 4, wRetrain := 64, wFecu := 1, wLanedrop := 255, wPcie := 4,
    shift := 6, thrSeam := 8192, thrLink := 8192, thrPort := 8192, overSeam := 0, overLink := 0, overPort := 0,
    scoreSeam := Vector.replicate 24 0, scoreLink := Vector.replicate 24 0, scorePort := Vector.replicate 2 0,
    deltas := deltasReset, muteSeam := false, muteLink := false }

/-- The reset value of `Bank`. -/
def bankReset : Bank :=
  { good := true, svn := 0, data := none }

/-- The reset value of `Sec`. -/
def secReset : Sec :=
  { bank := false, fwFallback := false, islandOnly := false, nextBank := false, attestReady := false, svn := 0,
    svnMin := 0, spdmCount := 0, banks := Vector.replicate 2 bankReset, staged := false, attestNo := 0, attestGen := 0,
    reply := none }

/-- The reset value of `Cal`. -/
def calReset : Cal :=
  { state := 0, origin := false, calBad := false, pendingWrite := false, writes := 0, stored := none,
    torn := false, loaded := .nominal, offsets := .nominal, writing := none }

/-- The reset value of `Svc`. -/
def svcReset : Svc :=
  { locate := false, request := false, drained := false, presence := false, usbConfigured := false,
    drainRefused := false, shortPresses := 0, longPresses := 0, attached := false, lastStatus := 0,
    lastRequest := 0, chunks := Vector.replicate 4 none, stream := none, bulk := [], packet := [], reply := .stall, mgmtReply := .stall,
    askedPower := false }

/-- The reset value of `Pwr`. -/
def pwrReset : Pwr :=
  { stage := 0, throttle := false, emerg := false, coolWarn := false, railWarnA := false, railWarnB := false,
    railA := false, railB := false, trip := false, fclk := 0, watts := 0, va := 0, vb := 0, ia := 0, ib := 0,
    auxMv := 0, temps := Vector.replicate 64 0, raws := Vector.replicate 64 0, inlet := 0, outlet := 0,
    flow := 0xFFFF, inletWarn := 40, outletWarn := 60, flowWarn := 50, throttleUs := 0, emergs := 0,
    trips := 0, railFaults := 0, coolRun := Vector.replicate 3 0, coolQuiet := 0, energyTenths := 0,
    sinceRise := 0, hold := .none, auxOn := true, mainOn := false, onAsked := none }

/-- The reset value of `Tally`. -/
def tallyReset : Tally :=
  { jobs := 0, fieldNs := 0, seamBytes := 0, hostBytes := 0, fabricBytes := 0, energyMj := 0, energyRem := 0 }

/-- The reset value of `Cmd`. -/
def cmdReset : Cmd :=
  { seq := 0, stamp := 0, desc := [], bad := false, kills := 0, phase := .fetched, opIdx := 0, versions := [],
    shadows := [], reserved := [], touched := [], arrays := [], runNs := 0, parkedAt := 0, tag := 0,
    passedWait := false, ending := none, endIdx := 0, handle := 0, killing := none, unit := none,
    decision := none, normG := 0, multiplier := 0, tLatch := 0, noise := none, amax := [], liveTile := [],
    prevOp := [], stalled := [], seamBytes := 0, finished := false, step := none }

/-- The reset value of `StepRun`. -/
def stepRunReset : StepRun :=
  { built := false, served := [], deferred := 0, missed := [], invs := [], current := none,
    killAt := 0, estNs := 0, opsTotal := 0 }

/-- The reset value of `Window`. -/
def windowReset : Window :=
  { nslots := 0, wxLog2 := 0, flagBase := 0, wxBase := 0, wxcBase := 0, slots := [], tail := 0, head := 0,
    ctail := 0, chead := 0, transfers := [] }

/-- The reset value of `Context`. -/
def contextReset : Context :=
  { fn := 0, slot := 0, job := 0, det := 0, sqLog := 0, cqLog := 0, sqBase := 0, cqBase := 0, sqHead := 0,
    sqTail := 0, cqHead := 0, cqTail := 0, stop := false, killSeq := 0, dbBad := 0, share := 0,
    nokillOk := false, stepMax := 0, killBudget := 0, killUsed := 0, vt := 0, rem := 0, wasReady := false,
    destroying := false, fenced := false, tags := [], cmds := [], ends := [], pt := [], tables := [], handles := [],
    farPool := [], farUsed := [], stale := [], released := [], window := none, cqIrqs := [], wxIrqs := [], tally := tallyReset }

end Sys2Proof.Machine
end

