-- ==== Sys2Proof/Machine/State.lean ====
section
/-! DEFINITION. The state of the module, its outcomes, and the state after the power-on reset. -/

namespace Sys2Proof.Machine

/-- The whole state, as plain data. Fields without a docstring are the parts of Machine/Parts.lean. -/
structure State where
  profile : Profile
  hub     : Hub
  mbx     : Mailbox
  irq     : Irq
  evr     : Vector EventRing 4
  fns     : Vector Func 64
  port1   : Port1
  /-- PERST_N of HP0 is asserted (R355, R412); at reset it is (log entry 37) -/
  perst   : Bool
  posted  : Posted
  cfe     : Cfe
  ctxs    : Vector (Option Context) 256
  sch     : Sch
  stb     : Stb
  hst     : Hst
  seam    : Seam
  /-- the Seam pages in use, by die × 12,288 + page (R87) -/
  frames  : Assoc Frame
  /-- the bytes of Seam, by page × 2^21 + offset; an unlisted byte reads 0 (R91) -/
  mem     : Cells
  /-- the bytes of host memory the device has written; an unlisted byte reads 0 (log entry 8) -/
  host    : Cells
  /-- ranges (first byte, length) of host memory whose bytes the spec leaves undefined (R61, R338) -/
  hostFree : List (Nat × Nat)
  fld     : Fld
  opt     : Opt
  tkp     : Tkp
  lnk     : Lnk
  col     : Col
  snp     : Snp
  rst     : Rst
  hlt     : Hlt
  sec     : Sec
  cal     : Cal
  svc     : Svc
  pwr     : Pwr
  /-- nanoseconds of ACLK since power-on (log entry 1) -/
  now     : Nat
  /-- the number of the next free value (the model's own field, log entry 6) -/
  freeCtr : Nat
  /-- the commands that wait, first in, first out -/
  pending : List Instr
deriving DecidableEq, Repr

/-- A block never stops with a fault: every event the spec describes has a next state. This one constructor is
raised by nothing. -/
inductive Fault where
  /-- Raised by no meaning; stopping would be safe. -/
  | none
deriving DecidableEq, Repr

/-- Why a command is refused. -/
inductive Refusal where
  /-- Raised by an arm of `exec` whose command has no meaning yet; safe, it only stops. -/
  | notModelled (mnemonic : String)
deriving DecidableEq, Repr

/-- The functions of port 0 after reset: PF0 present, no VF enabled (05_commands.md R127). -/
def fnsReset : Vector Func 64 := (Vector.replicate 64 funcReset).set 0 { funcReset with enabled := true }

/-- The machine right after the power-on reset (13_reset_health.md R353): what the register tables give, no
context, no mapping, every Seam byte 0, the queue empty. -/
def State.reset : State :=
  { profile := profileReset, hub := hubReset, mbx := mailboxReset, irq := irqReset,
    evr := Vector.replicate 4 eventRingReset, fns := fnsReset, port1 := port1Reset, perst := true, posted := postedReset,
    cfe := cfeReset, ctxs := Vector.replicate 256 none, sch := schReset, stb := stbReset, hst := hstReset,
    seam := seamReset, frames := [], mem := [], host := [], hostFree := [], fld := fldReset, opt := optReset,
    tkp := tkpReset, lnk := lnkReset, col := colReset, snp := snpReset, rst := rstReset, hlt := hltReset,
    sec := secReset, cal := calReset, svc := svcReset, pwr := pwrReset, now := 0, freeCtr := 0, pending := [] }

end Sys2Proof.Machine
end

