-- ==== Sys2Proof/Machine/Ops.lean ====
section
/-! DEFINITION. The operations the meanings share: the clock, host memory, event rings, the Sieve, the mailbox,
access to contexts, commands, groups and links. -/

namespace Sys2Proof.Machine

/-! ## Vectors by index -/

section
variable {α : Type} {n : Nat}

def vget (v : Vector α n) (i : Fin n) : α := v.get i
def vset (v : Vector α n) (i : Fin n) (x : α) : Vector α n := v.set i.val x i.isLt
def vmod (v : Vector α n) (i : Fin n) (f : α → α) : Vector α n := vset v i (f (vget v i))

end

/-- Bit `i` of a bit vector set to `b`. -/
def setBit {w : Nat} (v : BitVec w) (i : Nat) (b : Bool) : BitVec w :=
  if b then v ||| (BitVec.ofNat w (2 ^ i)) else v &&& ~~~(BitVec.ofNat w (2 ^ i))

/-- A context number from a register field or an argument. -/
def ctxOf (n : Nat) : CtxId := Fin.ofNat 256 n

/-! ## Completion status codes (00_scope.md Table 0.3) -/

def stOk : Byte := 0x00
def stKilled : Byte := 0x01
def stBusyTest : Byte := 0x02
def stWidth : Byte := 0x03
def stNoRoom : Byte := 0x04
def stAborted : Byte := 0x05
def stSkipped : Byte := 0x06
def stFenced : Byte := 0x07
def stBad : Byte := 0x08
def stTimeout : Byte := 0x09
def stStale : Byte := 0x0A
def stClipped : Byte := 0x0B

/-- OK and CLIPPED commit their outputs (Table 0.3). -/
def commits (st : Byte) : Bool := st == stOk || st == stClipped

/-! ## Time -/

/-- Hall time in whole nanoseconds (08_hall_time.md R222). -/
def State.ht (s : State) : Nat := s.tkp.ht / 16

/-- Hall time as a record holds it. -/
def State.ht64 (s : State) : DWord := BitVec.ofNat 64 s.ht

/-- A hall time in sixteenths as the counter holds it: 64 bits of nanoseconds and 4 of fraction, which wrap (00_scope.md R5). -/
def htWrap (n : Nat) : Nat := n % 2 ^ 68

/-- `n` nanoseconds pass: the hall-time counter runs unless it is stopped in UNLOCKED (R223); what slewing has it give
back holds it up, so that it never decreases (R226). -/
def State.pass (s : State) (n : Nat) : State :=
  if s.tkp.state = 0 then { s with now := s.now + n }
  else { s with
    now := s.now + n
    tkp.ht := htWrap (s.tkp.ht + (16 * n - s.tkp.owed))
    tkp.owed := s.tkp.owed - 16 * n }

/-- Time passes until hall time `t`, if that instant still lies ahead (log entry 5). -/
def State.passToHt (s : State) (t : Nat) : State :=
  if s.tkp.ht < 16 * t then
    if s.tkp.state = 0 then s
    else { s with
      now := s.now + (16 * t - s.tkp.ht + s.tkp.owed) / 16
      tkp.ht := htWrap (16 * t)
      tkp.owed := 0 }
  else s

/-- The number of the next free value is used up. -/
def State.bumpFree (s : State) : State := { s with freeCtr := s.freeCtr + 1 }

/-! ## Host memory -/

/-- A range less the interval `[a, a + n)`: what lies before it and what lies after it. -/
def cutRange (a n : Nat) (r : Nat × Nat) : List (Nat × Nat) :=
  (if r.1 < a then [(r.1, min r.2 (a - r.1))] else []) ++
    (if a + n < r.1 + r.2 then [(max r.1 (a + n), r.1 + r.2 - max r.1 (a + n))] else [])

/-- The device writes bytes to host memory. -/
def State.hostWrite (s : State) (a : Nat) (bs : List Byte) : State :=
  { s with host := s.host.writeBytes a bs, hostFree := s.hostFree.flatMap (cutRange a bs.length) }

/-- Host bytes the spec leaves undefined (log entry 8). -/
def State.hostUndefined (s : State) (a n : Nat) : State :=
  { s with host := s.host.clear a n, hostFree := (a, n) :: s.hostFree.flatMap (cutRange a n) }

/-- A byte of host memory as the device left it. -/
def State.hostRead (s : State) (a : Nat) : Byte :=
  if s.hostFree.any (fun r => r.1 ≤ a && a < r.1 + r.2) then Config.hostByte a else s.host.read a

/-- A function of port 0 may issue requests: the link is up, Bus Master Enable is 1, it is not in D3hot and the
host interface is not fenced (12_host_attachment.md R316, 13_reset_health.md R371). -/
def State.mayRequest (s : State) (fn : FnId) : Bool :=
  let f := vget s.fns fn
  s.hub.p0Up && f.busMaster && !f.d3hot && !s.rst.hostFenced

/-! ## Counters of HUB -/

/-- HUB_REG_VIOL counts one access (R318, R319). -/
def State.regViol (s : State) : State := { s with hub.regViol := satInc s.hub.regViol }

/-! ## Events (R349 to R352) -/

/-- A ring's size in entries. -/
def EventRing.size (r : EventRing) : Nat := 2 ^ r.log2.toNat

/-- PHASE of the record that will be count `n` of a ring of `size` entries: 1 on the first pass (05_commands.md R152). -/
def phaseOf (n : Word) (size : Nat) : Bool := (n.toNat / size) % 2 = 0

/-- A ring takes an event into its FIFO, or drops it and counts it in the overflow marker (R351). -/
def EventRing.take (r : EventRing) (e : Event) : EventRing :=
  if !r.en then { r with drops := satInc r.drops }
  else if r.fifo.length < 256 then { r with fifo := r.fifo ++ [e] }
  else
    { r with
      drops := satInc r.drops
      marker := some (match r.marker with
        | none => { ahead := r.fifo.length, firstHt := e.ht, lastHt := e.ht, count := 1 }
        | some m => { m with lastHt := e.ht, count := satInc m.count }) }

/-- An event is queued in the ring bits [7:6] of its code name; its HT is 0 while the Time Keeper is UNLOCKED (R349
to R351). -/
def State.raise (s : State) (code subject : Nat) (payload : List Byte) : State :=
  let ring : Fin 4 := Fin.ofNat 4 (code / 64)
  { s with evr := vmod s.evr ring fun r =>
      r.take { code := BitVec.ofNat 8 code, subject := BitVec.ofNat 16 subject, payload := payload,
               ht := if s.tkp.state = 0 then 0 else s.ht64 } }

/-! ## The Sieve (R342 to R344) -/

/-- The vector of IRQ_STATUS: each source's level (Table 12.14). -/
def State.irqStatus (s : State) (src : Nat) : Bool :=
  if src < 256 then
    match vget s.ctxs (ctxOf src) with
    | some c => !c.cqIrqs.isEmpty || !c.wxIrqs.isEmpty
    | none => false
  else if src < 320 then !(vget s.col.groups (Fin.ofNat 64 (src - 256))).irqs.isEmpty
  else if src < 324 then
    let r := vget s.evr (Fin.ofNat 4 (src - 320))
    r.tail != r.head
  else src == 324 && s.mbx.valid

/-- A claim clears pending, EV and the timer, and counts in IRQ_EMPTY_CLAIMS when the status is 0 (R344). -/
def State.irqClear (s : State) (src : Nat) : State :=
  let i : Fin 512 := Fin.ofNat 512 src
  { s with
    irq.pending := setBit s.irq.pending src false
    irq.fired := setBit s.irq.fired src false
    irq.ev := vset s.irq.ev i 0
    irq.first := vset s.irq.first i none
    irq.emptyClaims := if s.irqStatus src then s.irq.emptyClaims else satInc s.irq.emptyClaims }

/-- The function and vector entry a source's message goes to. -/
def State.irqRoute (s : State) (src : Nat) : FnId × MsixEntry :=
  let c := vget s.irq.cfg (Fin.ofNat 512 src)
  let fn : FnId := Fin.ofNat 64 c.func.toNat
  (fn, vget (vget s.fns fn).msix (Fin.ofNat 32 c.vec.toNat))

/-- A source requests its message: pending, enabled and not masked. -/
def State.irqWants (s : State) (src : Nat) : Bool :=
  s.irq.pending.getLsbD src && s.irq.enable.getLsbD src && !s.irq.mask.getLsbD src

/-- The message of a source can be issued: the vector is not masked, MSI-X is on and the function may issue
requests (R344). -/
def State.irqCanSend (s : State) (src : Nat) : Bool :=
  let (fn, e) := s.irqRoute src
  s.irqWants src && !e.masked && (vget s.fns fn).msixEnable && s.mayRequest fn

/-- The message of a source is issued and claims it; a held message leaves the source pending (R344). -/
def State.irqSend (s : State) (src : Nat) : State :=
  if s.irqCanSend src then
    let e := (s.irqRoute src).2
    let s := s.hostWrite e.addr.toNat (leBytes 4 e.data.toNat)
    { s.irqClear src with irq.msgs := s.irq.msgs + 1 }
  else s

/-- The pending bit of a source is set, and its message sent if it can be; once after each claim (R343). -/
def State.irqPend (s : State) (src : Nat) : State :=
  if s.irq.fired.getLsbD src then s
  else { s with
    irq.pending := setBit s.irq.pending src true
    irq.fired := setBit s.irq.fired src true }.irqSend src

/-- CNT and US as they act: 0 is taken as 1 (Table 12.15). -/
def SrcCfg.count (c : SrcCfg) : Nat := max 1 c.cnt.toNat
def SrcCfg.micros (c : SrcCfg) : Nat := max 1 c.us.toNat

/-- An event on a Sieve source (R343): counted while the source is enabled; the CNT-th sets the pending bit. -/
def State.irqEvent (s : State) (src : Nat) : State :=
  if s.irq.enable.getLsbD src then
    let i : Fin 512 := Fin.ofNat 512 src
    let n := vget s.irq.ev i + 1
    let s1 := { s with
      irq.ev := vset s.irq.ev i n
      irq.first := vmod s.irq.first i fun t => some (t.getD s.now) }
    if n = (vget s.irq.cfg i).count then s1.irqPend src else s1
  else s

/-! ## The mailbox (R324, R420) -/

/-- The 512 argument or result bytes of HUB_MBX_DATA. -/
def State.mbxBytes (s : State) : List Byte := s.mbx.data.toList.flatMap fun w => leBytes 4 w.toNat

/-- Argument word `i`. -/
def State.mbxArg (s : State) (i : Nat) : Nat := (s.mbx.data.toList.getD i 0).toNat

/-- HUB_MBX_DATA with the first bytes replaced; words a result does not reach keep their value. -/
def mbxFill (data : Vector Word 128) (bs : List Byte) : Vector Word 128 :=
  let all := bs ++ (data.toList.flatMap fun w => leBytes 4 w.toNat).drop bs.length
  Vector.ofFn fun i => BitVec.ofNat 32 (fieldAt all (4 * i.val) 4)

/-- A request ends: result, LEN and STATUS, VALID set and BUSY cleared, and an event of source 324 (R324, R342). -/
def State.mbxEnd (s : State) (status : Byte) (bs : List Byte) : State :=
  { s with
    mbx.data := mbxFill s.mbx.data bs
    mbx.len := BitVec.ofNat 10 bs.length
    mbx.status := status
    mbx.valid := true
    mbx.busy := false }.irqEvent 324

/-- A request that ran: STATUS OK and its result bytes. -/
def State.mbxOk (s : State) (bs : List Byte) : State := s.mbxEnd stOk bs

/-- A request whose result is one status byte in a 32-bit word. -/
def State.mbxStatus (s : State) (st : Byte) : State := s.mbxOk (leBytes 4 st.toNat)

/-- A request that ends with LEN 0. -/
def State.mbxFail (s : State) (st : Byte) : State := s.mbxEnd st []

/-- The request in progress is `code` (log entry 3). -/
def State.mbxIs (s : State) (code : Nat) : Bool := s.mbx.busy && s.mbx.running.toNat == code

/-- A request of 13_reset_health.md or 14_identity_service.md, which a retired module still serves (R365); a mailbox
fenced by its Canary's self-fault answers FENCED (R361). -/
def State.mbxRunAlways (s : State) (code : Nat) (k : State → State) : State :=
  if s.mbxIs code then (if s.mbx.fenced then s.mbxFail stFenced else k s) else s

/-- Requests that no core domain serves: HT_READ, LATE_READ and LINK_PARTNER_READ (13_reset_health.md Table 13.1). -/
def coreFree (code : Nat) : Bool := code == 0x60 || code == 0x61 || code == 0x70

/-- Any other request: while the module is retired it ends with FENCED (13_reset_health.md R365); while the core domains are
held in reset one that they serve waits until they are usable (R354; log entry 83). -/
def State.mbxRun (s : State) (code : Nat) (k : State → State) : State :=
  s.mbxRunAlways code fun s =>
    if s.rst.retired then s.mbxFail stFenced else if s.rst.coreHeld && !coreFree code then s else k s

/-! ## Contexts and commands -/

def State.ctx? (s : State) (c : CtxId) : Option Context := vget s.ctxs c

def State.setCtx (s : State) (c : CtxId) (x : Context) : State := { s with ctxs := vset s.ctxs c (some x) }

def State.modCtx (s : State) (c : CtxId) (f : Context → Context) : State :=
  { s with ctxs := vmod s.ctxs c (fun o => o.map f) }

/-- Every context with its number, in rising order. -/
def State.contexts (s : State) : List (CtxId × Context) :=
  (List.finRange 256).filterMap fun c => (vget s.ctxs c).map fun x => (c, x)

/-- The context in a slot of a function (R127, R155). -/
def State.ctxAt (s : State) (fn : FnId) (slot : Fin 32) : Option (CtxId × Context) :=
  s.contexts.find? fun e => e.2.fn == fn && e.2.slot == slot

def Context.cmd? (x : Context) (seq : Word) : Option Cmd := x.cmds.find? fun k => k.seq == seq

def Context.modCmd (x : Context) (seq : Word) (f : Cmd → Cmd) : Context :=
  { x with cmds := x.cmds.map fun k => if k.seq == seq then f k else k }

def State.modCmd (s : State) (c : CtxId) (seq : Word) (f : Cmd → Cmd) : State :=
  s.modCtx c fun x => x.modCmd seq f

def State.cmd? (s : State) (c : CtxId) (seq : Word) : Option Cmd := (s.ctx? c).bind fun x => x.cmd? seq

/-- `f` over every context. -/
def State.mapCtxs (s : State) (f : Context → Context) : State :=
  { s with ctxs := s.ctxs.map fun o => o.map f }

/-- The running command that holds the Field (R158). -/
def State.holder? (s : State) : Option (CtxId × Context × Cmd) :=
  s.sch.holder.bind fun h => (s.ctx? h.ctx).bind fun x => (x.cmd? h.seq).map fun k => (h.ctx, x, k)

/-! ## The command descriptor (05_commands.md Table 5.3) -/

def Cmd.word (k : Cmd) (off : Nat) : Nat := fieldAt k.desc off 4
def Cmd.kind (k : Cmd) : Nat := fieldAt k.desc 0 1
def Cmd.width (k : Cmd) : Nat := bits (k.word 0) 9 8
def Cmd.killable (k : Cmd) : Bool := bit (k.word 0) 10
def Cmd.rerun (k : Cmd) : Bool := bit (k.word 0) 11
def Cmd.barrierBit (k : Cmd) : Bool := bit (k.word 0) 12
def Cmd.irq (k : Cmd) : Bool := bit (k.word 0) 13
def Cmd.opcount (k : Cmd) : Nat := bits (k.word 0) 31 16
def Cmd.stepNo (k : Cmd) : Word := BitVec.ofNat 32 (k.word 4)
def Cmd.userTag (k : Cmd) : Nat := fieldAt k.desc 8 8
def Cmd.oplist (k : Cmd) : Nat := fieldAt k.desc 0x10 6
def Cmd.footVa (k : Cmd) : Nat := fieldAt k.desc 0x18 6
def Cmd.footCount (k : Cmd) : Nat := bits (k.word 0x20) 12 0
/-- The 64 bytes of KIND_ARGS. -/
def Cmd.args (k : Cmd) : List Byte := slice k.desc 0x40 0x40
/-- The Hoist OP or SERVE SOP code. -/
def Cmd.subop (k : Cmd) : Nat := fieldAt k.desc 0x40 1

def Cmd.isField (k : Cmd) : Bool := k.kind == 1
def Cmd.isHoist (k : Cmd) : Bool := k.kind == 2
def Cmd.isServe (k : Cmd) : Bool := k.kind == 3
def Cmd.isMarker (k : Cmd) : Bool := k.kind == 4
/-- A STEP (06_scheduling_streams.md R165). -/
def Cmd.isStep (k : Cmd) : Bool := k.isServe && k.subop == 1
/-- ADMIT, RELEASE or MODEL_SET. -/
def Cmd.isTable (k : Cmd) : Bool := k.isServe && k.subop != 1
/-- Commands that hold the Field when they run (R158). -/
def Cmd.usesField (k : Cmd) : Bool := k.isField || k.isStep
/-- HOIST, MARKER and table operations act as if BARRIER were 1 (R139, R165). -/
def Cmd.barrier (k : Cmd) : Bool := k.barrierBit || !k.usesField
/-- A command that has been dispatched and has not ended. -/
def Cmd.dispatched (k : Cmd) : Bool := k.phase != .fetched

end Sys2Proof.Machine
end

