-- ==== Sys2Proof/Machine/Paging.lean ====
section
/-! DEFINITION. Seam pages, page-table entries, quotas, eviction and page-in, versions and shadows
(04_seam_hoist.md R86 to R118). A Seam page is numbered die × 12,288 + page. -/

namespace Sys2Proof.Machine

/-! ## Page-table entries (Table 4.2) -/

def pageSize : Nat := 2097152
def dieStride : Nat := 12288

def pteState (p : DWord) : Nat := bits p.toNat 3 0
def pteRo (p : DWord) : Bool := bit p.toNat 4
def ptePin (p : DWord) : Bool := bit p.toNat 5
def pteFrame (p : DWord) : Nat := bits p.toNat 12 8 * dieStride + bits p.toNat 26 13
def pteSlot (p : DWord) : Nat := bits p.toNat 23 8
def pteSlotPage (p : DWord) : Nat := bits p.toNat 32 24
def pteHandle (p : DWord) : Nat := bits p.toNat 63 48

def psUnmapped : Nat := 0
def psResident : Nat := 1
def psFar : Nat := 2
def psTransit : Nat := 3
def psFrozen : Nat := 4
def psPoisoned : Nat := 5

/-- DIE and PAGE of a Seam page, in their places. -/
def locSeam (f : Nat) : Nat := (f / dieStride) * 2 ^ 8 + (f % dieStride) * 2 ^ 13
/-- SLOT and SLOT_PAGE of a far page, in their places. -/
def locFar (slot page : Nat) : Nat := slot * 2 ^ 8 + page * 2 ^ 24

def mkPte (state : Nat) (ro pin : Bool) (loc handle : Nat) : DWord :=
  BitVec.ofNat 64 (state + b2n ro * 16 + b2n pin * 32 + loc + handle * 2 ^ 48)

/-- An entry with a new state and location, its flags and handle kept. -/
def pteMove (p : DWord) (state loc : Nat) : DWord := mkPte state (pteRo p) (ptePin p) loc (pteHandle p)

/-- The entry's page lies in Seam page `f` (RESIDENT, IN_TRANSIT, FROZEN). -/
def pteAt (f : Nat) (p : DWord) : Bool :=
  (pteState p == psResident || pteState p == psTransit || pteState p == psFrozen) && pteFrame p == f

/-- The entry names far page `page` of window slot `slot`. -/
def pteAtFar (slot page : Nat) (p : DWord) : Bool :=
  pteState p == psFar && pteSlot p == slot && pteSlotPage p == page

/-- The Seam page that an entry names, where the page stands in Seam. -/
def seamFrame (p : DWord) : Option Nat :=
  if pteState p == psResident || pteState p == psFrozen then some (pteFrame p) else none

/-- The Seam pages in which a context's virtual pages lie, by its page table. -/
def Context.framesOf (x : Context) (pages : List Nat) : List Nat := pages.filterMap fun v => seamFrame (x.pt.getD v 0)

/-! ## Errors by the ECC mode in effect (R88) -/

/-- The errors that an access meets: `ue` the Seam pages in which an uncorrectable one shows, `ce` one die for each corrected. -/
structure SeamErrs where
  ue : List Nat
  ce : List DieId
deriving DecidableEq, Repr

/-- The bad symbols in a codeword that the ECC mode in effect corrects (R88). -/
def State.correctable (s : State) : Nat := if s.profile.seamEccActive then 2 else 1

/-- Codewords with bad symbols, told apart as corrected and uncorrectable (R88). More bad symbols than the mode is said to
detect are taken as detected (log entry 75, the model's choice). -/
def State.seamErrs (s : State) (hits : List SeamHit) : SeamErrs :=
  { ue := (hits.filter fun h => s.correctable < h.symbols).map (·.page)
    ce := (hits.filter fun h => 0 < h.symbols && h.symbols ≤ s.correctable).map fun h => Fin.ofNat 24 (h.page / dieStride) }

/-! ## Free pages and quotas (R87, R96, R100) -/

/-- Pages per die in the ECC mode in effect (Table 4.1). -/
def State.pagesPerDie (s : State) : Nat := if s.profile.seamEccActive then 11520 else 12288

def State.freeOnDie (s : State) (d : Nat) : Nat :=
  s.pagesPerDie - (s.frames.filter fun e => e.1 / dieStride == d).length

def State.freeSeam (s : State) : Nat := (List.range 24).foldl (fun n d => n + s.freeOnDie d) 0

/-- A quad is fenced or has a fence pending (R53, R57). -/
def State.quadClosed (s : State) (q : Nat) : Bool := s.fld.pend.getLsbD q || s.fld.fenced.getLsbD q

def State.dieOpen (s : State) (d : Nat) : Bool := !s.quadClosed (d / 4)

/-- Free pages that a new page may take: those outside fenced quads and quads with a fence pending (R100). -/
def State.openSeam (s : State) : Nat :=
  (List.range 24).foldl (fun n d => if s.dieOpen d then n + s.freeOnDie d else n) 0

/-- The ANY rule: the open die with the most free pages, the lowest-numbered on a tie (R100). -/
def State.anyDie (s : State) : Option Nat :=
  (List.range 24).foldl
    (fun best d =>
      let n := s.freeOnDie d
      if s.dieOpen d && 0 < n then
        match best with
        | none => some d
        | some b => if s.freeOnDie b < n then some d else some b
      else best)
    none

/-- The element of a list at place `n`, the first where `n` is past its end. -/
def pickFrom : List Nat → Nat → Option Nat
  | [], _ => none
  | f :: fs, n => some ((f :: fs).getD n f)

/-- A free page of a die; which one, the spec leaves open (R100; log entry 9). -/
def State.freeFrame (s : State) (d : Nat) : Option Nat :=
  pickFrom (((List.range s.pagesPerDie).map (d * dieStride + ·)).filter fun f => !s.frames.has f)
    (Config.freePage s.freeCtr d s.frames.keys)

def State.usedSeam (s : State) (fn : FnId) : Nat := (s.frames.filter fun e => e.2.charge == some fn).length

def State.usedFar (s : State) (fn : FnId) : Nat :=
  s.contexts.foldl (fun n e => if e.2.fn == fn then n + e.2.farUsed.length else n) 0

def State.seamRoom (s : State) (fn : FnId) (n : Nat) : Bool :=
  s.usedSeam fn + n ≤ (vget s.hst.quotaSeam fn).toNat

def State.farRoom (s : State) (fn : FnId) (n : Nat) : Bool :=
  s.usedFar fn + n ≤ (vget s.hst.quotaFar fn).toNat

/-- A Seam page is taken into use and reads as zero (R91, R101). -/
def State.claim (s : State) (f : Nat) (e : Frame) : State :=
  { s with frames := s.frames.put f e, mem := s.mem.clear (f * pageSize) pageSize }

/-- A Seam page is free again; the choices that follow are new ones (log entry 9). -/
def State.releaseFrame (s : State) (f : Nat) : State :=
  { s with frames := s.frames.del f, freeCtr := s.freeCtr + 1 }

/-- One Seam page on the die given, or by the ANY rule, charged to a function; none without quota or page. -/
def State.takeFrame (s : State) (die : Option Nat) (fn : FnId) (use : FrameUse) : Option (Nat × State) :=
  if s.seamRoom fn 1 then
    ((die.orElse fun _ => s.anyDie).bind s.freeFrame).map fun f =>
      (f, s.claim f { use := use, charge := some fn, lastUse := s.now, far := none })
  else none

/-- The die for a copy of page `f`: its own if it has a free page and is open, else by the ANY rule (R104). -/
def State.shadowDie (s : State) (f : Nat) : Option Nat :=
  let d := f / dieStride
  if s.dieOpen d && 0 < s.freeOnDie d then some d else none

/-- The bytes of one Seam page copied to another. -/
def State.copyFrame (s : State) (src dst : Nat) : State :=
  { s with mem := s.mem.copy (src * pageSize) pageSize (dst * pageSize) }

/-! ## Renaming pages wherever they are referenced -/

/-- The cached entries of the pages that `p` picks are invalidated (R108): what stood before a direct write is seen no
more. -/
def Context.dropStale (x : Context) (p : Nat → Bool) : Context := { x with stale := x.stale.filter fun e => !p e.vpn }

/-- `f` on every page-table entry a context holds: its table, the versions its commands captured, the entries of
freed handles; cached entries of the pages it changes are invalidated (R108). -/
def Context.mapPtes (x : Context) (f : DWord → DWord) : Context :=
  { x with
    pt := x.pt.map fun e => (e.1, f e.2)
    cmds := x.cmds.map fun k => { k with versions := k.versions.map fun e => (e.1, f e.2) }
    handles := x.handles.map fun h => (h.1, { h.2 with held := h.2.held.map fun e => (e.1, f e.2) })
    stale := x.stale.filter fun e => f (x.pt.getD e.vpn 0) == x.pt.getD e.vpn 0 && e.old.all fun p => f p == p }

/-- A Seam page number renamed among shadows, reservations and level-2 tables. -/
def Context.renameOwn (x : Context) (old new : Nat) : Context :=
  let r := fun (e : Nat × Nat) => (e.1, if e.2 = old then new else e.2)
  { x with
    tables := x.tables.map r
    cmds := x.cmds.map fun k => { k with shadows := k.shadows.map r, reserved := k.reserved.map r } }

/-- A page moved from one Seam page to another: contents, use, and every reference, cached entries invalidated (R116, R100,
R108). -/
def State.moveFrame (s : State) (old new : Nat) : State :=
  let f := fun p => if pteAt old p then pteMove p (pteState p) (locSeam new) else p
  let e := s.frames.getD old { use := .page, charge := none, lastUse := s.now, far := none }
  let s := s.copyFrame old new
  { s.mapCtxs (fun x => (x.mapPtes f).renameOwn old new) with
    frames := (s.frames.del old).put new e
    freeCtr := s.freeCtr + 1
    snp.slots := s.snp.slots.map fun t => { t with held := t.held.map fun e => (e.1, f e.2) }
    col.groups := s.col.groups.map fun g => { g with scratch := g.scratch.map fun n => if n = old then new else n }
    hst.pageIns := s.hst.pageIns.map fun p => if p.frame = old then { p with frame := new } else p }

/-! ## References to versions (R101, R103, R105) -/

/-- A dispatched command captured Seam page `f` in its versions. -/
def State.capturedBy (s : State) (f : Nat) : Bool :=
  s.contexts.any fun e => e.2.cmds.any fun k => k.dispatched && k.versions.any fun v => pteAt f v.2

/-- A snapshot holds Seam page `f` (R297). -/
def State.heldBySnap (s : State) (f : Nat) : Bool :=
  s.snp.slots.toList.any fun t => t.held.any fun v => pteAt f v.2

/-- An entry of the context still names far page `p`, or stands in Seam with its contents still there. -/
def Context.farNeeded (x : Context) (frames : Assoc Frame) (p : Nat) : Bool :=
  let names := fun (q : DWord) =>
    pteAtFar (p / 512) (p % 512) q ||
      ((pteState q == psResident || pteState q == psTransit || pteState q == psFrozen) &&
        ((frames.get? (pteFrame q)).bind (·.far)) == some (p / 512, p % 512))
  x.pt.any (fun e => names e.2) || x.cmds.any (fun k => k.versions.any fun e => names e.2) ||
    x.handles.any (fun h => h.2.held.any fun e => names e.2)

/-- A snapshot of a context holds far page `p` (11_snapshots.md R297). -/
def State.farHeld (s : State) (c : CtxId) (p : Nat) : Bool :=
  s.snp.slots.toList.any fun t => t.ctx.toNat == c.val && t.held.any fun e => pteAtFar (p / 512) (p % 512) e.2

/-- Replaced versions that no dispatched command and no snapshot needs are released, in Seam and in the far tier
(R105). -/
def State.gcReplaced (s : State) : State :=
  let s := { s with frames := s.frames.filter fun e =>
    !(e.2.use == FrameUse.replaced && !s.capturedBy e.1 && !s.heldBySnap e.1) }
  s.contexts.foldl (fun s e => s.modCtx e.1 fun x =>
    { x with farUsed := x.farUsed.filter fun p => x.farNeeded s.frames p || s.farHeld e.1 p }) s

/-- A page that leaves the page table: withheld when POISONED (R89), else a replaced version. -/
def State.retireFrame (s : State) (f : Nat) (use : FrameUse) : State :=
  { s with frames := s.frames.modify f fun e => { e with use := use } }

/-! ## The far tier (R112 to R114) -/

/-- Far pages of a window slot. -/
def WinSlot.farPages (w : WinSlot) : Nat := 2 ^ w.log2 / pageSize

/-- Host address of a far page of a context. -/
def Context.farAddr (x : Context) (slot page : Nat) : Nat :=
  match x.window.bind fun w => w.slots.get? slot with
  | some w => w.addr.toNat + page * pageSize
  | none => page * pageSize

/-- Far pages are numbered slot × 512 + page in a context's pool. -/
def Context.poolPages (x : Context) : List Nat :=
  x.farPool.flatMap fun slot =>
    match x.window.bind fun w => w.slots.get? slot with
    | some w => (List.range (min 512 w.farPages)).map fun p => slot * 512 + p
    | none => []

/-- A free far page of the pool; which one, the spec leaves open (R114; log entry 9). -/
def Context.freeFar (x : Context) (ctr : Nat) : Option Nat :=
  pickFrom (x.poolPages.filter fun p => !x.farUsed.contains p) (Config.freePage ctr 24 x.farUsed)

def Context.useFar (x : Context) (p : Nat) : Context := { x with farUsed := p :: x.farUsed }
def Context.dropFar (x : Context) (p : Nat) : Context := { x with farUsed := x.farUsed.filter fun q => q != p }

/-- A far page is free again, unless a snapshot holds it (11_snapshots.md R297). -/
def State.dropFarOf (s : State) (c : CtxId) (p : Nat) : State :=
  if s.farHeld c p then s else s.modCtx c fun x => x.dropFar p

/-- A Seam page's bytes copied to host memory. -/
def State.pageToHost (s : State) (f a : Nat) : State :=
  { s with
    host := Cells.overlay (s.mem.extract (f * pageSize) pageSize a) (s.host.clear a pageSize)
    hostFree := s.hostFree.flatMap (cutRange a pageSize) }

/-- A page's bytes copied from host memory into Seam. -/
def State.pageFromHost (s : State) (a f : Nat) : State :=
  { s with mem := Cells.overlay (s.host.extract a pageSize (f * pageSize)) (s.mem.clear (f * pageSize) pageSize) }

/-- Bytes over a host port for a context (Table 6.10), counted while TALLY_C2 acts. -/
def State.tallyHost (s : State) (c : CtxId) (n : Nat) : State :=
  if s.sch.tallyC2Eff then
    s.modCtx c fun x => { x with tally.hostBytes := x.tally.hostBytes + BitVec.ofNat 64 n }
  else s

/-- Seam bytes for a context (Table 6.10), counted while TALLY_C2 acts. -/
def State.tallySeam (s : State) (c : CtxId) (n : Nat) : State :=
  if s.sch.tallyC2Eff then
    s.modCtx c fun x => { x with tally.seamBytes := x.tally.seamBytes + BitVec.ofNat 64 n }
  else s

/-- One page moved between Seam and a host port for a context: its bytes count on both sides (Table 6.10). -/
def State.tallyPage (s : State) (c : CtxId) : State := (s.tallyHost c pageSize).tallySeam c pageSize

/-- A collective of the context keeps the page resident until it completes (10_collectives.md R271). -/
def State.heldByCol (s : State) (c : CtxId) (vpn : Nat) : Bool :=
  s.col.groups.toList.any fun g => g.state != 0 && g.ctx.toNat == c.val && g.cols.any fun k => k.hold.contains vpn

/-- A page eviction could take: RESIDENT, PIN 0, not referenced by a dispatched command, the one being
dispatched, or a collective (R114). -/
def State.evictable (s : State) (c : CtxId) (vpn : Nat) (p : DWord) : Bool :=
  pteState p == psResident && !ptePin p && !s.heldByCol c vpn &&
    !(s.ctx? c).any fun x => x.cmds.any fun k => k.touched.contains vpn

/-- The least recently used evictable page of a function (R114); among pages last used at one instant, either
(log entry 9). -/
def State.evictVictim (s : State) (fn : FnId) : Option (CtxId × Nat × DWord) :=
  let all := s.contexts.flatMap fun e =>
    if e.2.fn == fn then (e.2.pt.filter fun v => s.evictable e.1 v.1 v.2).map fun v => (e.1, v.1, v.2) else []
  let age := fun (v : CtxId × Nat × DWord) => ((s.frames.get? (pteFrame v.2.2)).map (·.lastUse)).getD 0
  all.foldl (fun best v => match best with
    | none => some v
    | some b => if age v < age b || age v == age b && Config.freeChoice s.freeCtr (2 ^ 40 + pteFrame v.2.2) then some v else some b)
    none

/-- One page is evicted (R114): unmapped to its far copy, or written back to a free far page of its context; none
when nothing qualifies or the far tier has no room. -/
def State.evictOne (s : State) (fn : FnId) : Option State :=
  (s.evictVictim fn).bind fun (c, _, p) =>
    let f := pteFrame p
    let toFar := fun (far : Nat) (s : State) =>
      let g := fun q => if pteAt f q then pteMove q psFar (locFar (far / 512) (far % 512)) else q
      { (s.modCtx c fun x => x.mapPtes g).releaseFrame f with hst.evicts := s.hst.evicts + 1 }
    match (s.frames.get? f).bind (·.far) with
    | some (slot, page) => some (toFar (slot * 512 + page) s)
    | none =>
      (s.ctx? c).bind fun x =>
        if s.mayRequest fn && s.farRoom fn 1 then
          (x.freeFar s.freeCtr).map fun far =>
            let s := (s.modCtx c fun x => x.useFar far).pageToHost f (x.farAddr (far / 512) (far % 512))
            toFar far (s.tallyPage c)
        else none

/-- What would be evicted must be written back, and the function may not issue requests: the eviction waits
(12_host_attachment.md R316). -/
def State.evictWaits (s : State) (fn : FnId) : Bool :=
  !s.mayRequest fn && (s.evictVictim fn).any fun v => ((s.frames.get? (pteFrame v.2.2)).bind (·.far)).isNone

/-- Evictions until `n` pages fit the function's quota and the free pages of the open dies, as far as they go. -/
def State.makeRoom (s : State) (fn : FnId) (n : Nat) : Nat → State
  | 0 => s
  | fuel + 1 =>
    if s.seamRoom fn n && n ≤ s.openSeam then s
    else match s.evictOne fn with
      | some s' => s'.makeRoom fn n fuel
      | none => s

/-- The page-in of a page whose entry, as its reader sees it, is FAR: a Seam page is taken and every entry that names
the far page stands IN_TRANSIT (R95, R113). -/
def State.startPageInOf (s : State) (c : CtxId) (vpn : Nat) (p : DWord) : Option State :=
  (s.ctx? c).bind fun x =>
    if pteState p != psFar then some s
    else
      let s := s.makeRoom x.fn 1 (s.frames.length + 1)
      (s.takeFrame none x.fn .page).map fun (f, s) =>
        let g := fun q => if pteAtFar (pteSlot p) (pteSlotPage p) q then pteMove q psTransit (locSeam f) else q
        let s := s.modCtx c fun x => x.mapPtes g
        { s with
          frames := s.frames.modify f fun e => { e with far := some (pteSlot p, pteSlotPage p) }
          hst.pageIns := s.hst.pageIns ++
            [{ ctx := c, vpn := vpn, slot := pteSlot p, page := pteSlotPage p, frame := f }] }

/-- Page-ins of several pages, each with the entry its reader sees; all or none. -/
def State.startPageInsOf (s : State) (c : CtxId) : List (Nat × DWord) → Option State
  | [] => some s
  | v :: vs => (s.startPageInOf c v.1 v.2).bind fun s => s.startPageInsOf c vs

/-- Page-ins of pages of the committed version; all or none. -/
def State.startPageIns (s : State) (c : CtxId) (vs : List Nat) : Option State :=
  (s.ctx? c).bind fun x => s.startPageInsOf c (vs.map fun v => (v, x.pt.getD v 0))

/-- `f` on every entry the snapshots hold. -/
def State.mapHeld (s : State) (f : DWord → DWord) : State :=
  { s with snp.slots := s.snp.slots.map fun t : SnapSlot => { t with held := t.held.map fun e : Nat × DWord => (e.1, f e.2) } }

/-- A snapshot waits for the page-in of Seam page `f` to freeze it (11_snapshots.md R297). -/
def State.freezeAwaits (s : State) (f : Nat) : Bool :=
  s.snp.slots.toList.any fun t => t.held.any fun v => pteState v.2 == psTransit && pteFrame v.2 == f

/-- A page-in completes: the bytes stand in Seam and the page is RESIDENT, or FROZEN where a snapshot waits for it
(R113). -/
def State.finishPageIn (s : State) (p : PageIn) : State :=
  match s.ctx? p.ctx with
  | none => s
  | some x =>
    let s := s.pageFromHost (x.farAddr p.slot p.page) p.frame
    let st := if s.freezeAwaits p.frame then psFrozen else psResident
    let g := fun (q : DWord) => if pteAt p.frame q && pteState q == psTransit then pteMove q st (locSeam p.frame) else q
    let s := s.mapHeld g
    let s := s.modCtx p.ctx fun x =>
      { x.mapPtes g with cmds := (x.mapPtes g).cmds.map fun k : Cmd => { k with stalled := k.stalled.filter (· != p.vpn) } }
    { s.tallyPage p.ctx with
      frames := s.frames.modify p.frame fun e => { e with lastUse := s.now }
      hst.pageins := s.hst.pageins + 1
      hst.pageIns := s.hst.pageIns.filter fun q => q.frame != p.frame }

/-! ## Uncorrectable and corrected errors (R88, R89) -/

/-- The context, virtual page and entry that Seam page `f` is mapped at. -/
def State.ownerOf (s : State) (f : Nat) : Option (CtxId × Nat × DWord) :=
  s.contexts.findSome? fun e => (e.2.pt.find? fun v => pteAt f v.2).map fun v => (e.1, v.1, v.2)

/-- The course of an uncorrectable error in Seam page `f`: it is counted; a mapped page is POISONED and SEAM_UE
raised; a free page is withheld. -/
def State.seamUe (s : State) (f : Nat) : State :=
  let d : DieId := Fin.ofNat 24 (f / dieStride)
  let s := { s with
    seam.dies := vmod s.seam.dies d fun e => { e with ueCount := satInc e.ueCount }
    hlt.deltas.ue := vmod s.hlt.deltas.ue d (· + 1) }
  match s.ownerOf f with
  | some (c, vpn, p) =>
    let g := fun q => if pteAt f q then pteMove q psPoisoned (locSeam f) else q
    ((s.modCtx c fun x => x.mapPtes g).mapHeld g).raise 0x02 d.val
      (leBytes 4 (c.val + pteHandle p * 2 ^ 16) ++ leBytes 4 vpn ++ leBytes 4 (f % dieStride))
  | none =>
    if s.frames.has f then s
    else { s with frames := s.frames.put f { use := .withheld, charge := none, lastUse := s.now, far := none } }

/-- Corrected errors: one count on each die listed. -/
def State.seamCe (s : State) (ds : List DieId) : State :=
  { s with
    seam.dies := ds.foldl (fun v d => vmod v d fun e => { e with ceCount := satInc e.ceCount }) s.seam.dies
    hlt.deltas.ce := ds.foldl (fun v d => vmod v d (· + 1)) s.hlt.deltas.ce }

/-! ## Reading and writing device memory -/

/-- Virtual pages of `len` bytes at `va`. -/
def pagesOf (va len : Nat) : List Nat :=
  if len = 0 then [] else (List.range ((va + len - 1) / pageSize + 1 - va / pageSize)).map (· + va / pageSize)

/-- One of the entries that may still be in use, earliest first, or else the new one; which, the spec leaves open (R111; log
entry 11). -/
def pickStale (ctr key : Nat) : List DWord → DWord → DWord
  | [], new => new
  | p :: ps, new => if Config.freeChoice ctr (key + 2 ^ 50 * (ps.length + 1)) then p else pickStale ctr key ps new

/-- The entry one access of a command sees for a virtual page: the version it captured (R103), or, for an entry replaced
directly and not yet invalidated, an old or the new one, each access on its own (R111; log entry 11). The access is named by
`key`. -/
def Context.viewAt (x : Context) (k : Cmd) (ctr key vpn : Nat) : DWord :=
  match x.stale.find? fun e => e.vpn == vpn with
  | some e => pickStale ctr key e.old e.new
  | none => k.versions.getD vpn 0

/-- The entry that the Hoist's work for a command sees for a page: a shadow's copy, a write. -/
def Context.view (x : Context) (k : Cmd) (ctr vpn : Nat) : DWord := x.viewAt k ctr (2 ^ 48 + vpn) vpn

/-- Every entry that some access to a byte of the ranges sees for a virtual page: each byte is translated on its own
(R117). -/
def Context.seen (x : Context) (k : Cmd) (ctr : Nat) (ranges : List (Nat × Nat)) (vpn : Nat) : List DWord :=
  match x.stale.find? fun e => e.vpn == vpn with
  | none => [k.versions.getD vpn 0]
  | some e => (e.old ++ [e.new]).filter fun p => ranges.any fun r => (List.range r.2).any fun i =>
      (r.1 + i) / pageSize == vpn && x.viewAt k ctr (r.1 + i) vpn == p

/-- The entry a command's write to a page goes by: the one it sees; where that takes no writes, and no direct write waits
for an invalidation, the page as it is mapped now (R104). -/
def Context.writeView (x : Context) (k : Cmd) (ctr vpn : Nat) : DWord :=
  let p := x.view k ctr vpn
  let drops := pteState p == psUnmapped || 6 ≤ pteState p || pteRo p
  if drops && (x.stale.find? fun e => e.vpn == vpn).isNone then x.pt.getD vpn 0 else p

/-- One byte as a command reads it: from its shadow, else from the version it sees; a page that is not in Seam
reads 0 (R48, R103, R118). -/
def State.cmdByte (s : State) (x : Context) (k : Cmd) (va : Nat) : Byte :=
  let vpn := va / pageSize
  let off := va % pageSize
  match k.shadows.get? vpn with
  | some f => s.mem.read (f * pageSize + off)
  | none =>
    let p := x.viewAt k s.freeCtr va vpn
    if pteState p == psResident || pteState p == psFrozen then s.mem.read (pteFrame p * pageSize + off) else 0

/-- One byte of the page an entry names: in Seam, or in the far copy; an unmapped byte reads 0 (R118). -/
def State.entryByte (s : State) (x : Context) (p : DWord) (off : Nat) : Byte :=
  if pteState p == psResident || pteState p == psFrozen then s.mem.read (pteFrame p * pageSize + off)
  else if pteState p == psFar then s.hostRead (x.farAddr (pteSlot p) (pteSlotPage p) + off)
  else if pteState p == psTransit then
    match s.hst.pageIns.find? fun q => q.frame == pteFrame p with
    | some q => s.hostRead (x.farAddr q.slot q.page + off)
    | none => 0
  else 0

/-- One byte of a context's committed version. -/
def State.committedByte (s : State) (x : Context) (va : Nat) : Byte :=
  s.entryByte x (x.pt.getD (va / pageSize) 0) (va % pageSize)

/-- `n` bytes by a reading function. -/
def gatherBytes (rd : Nat → Byte) (va n : Nat) : List Byte := (List.range n).map fun i => rd (va + i)

def State.cmdBytes (s : State) (x : Context) (k : Cmd) (va n : Nat) : List Byte := gatherBytes (s.cmdByte x k) va n

def State.committedBytes (s : State) (x : Context) (va n : Nat) : List Byte := gatherBytes (s.committedByte x) va n

/-- Accesses to unmapped or read-only bytes are counted and the context recorded (R118; log entry 10). -/
def State.violations (s : State) (c : CtxId) (n : Nat) (write : Bool) : State :=
  if n = 0 then s
  else { s with
    hst.violCount := satAdd s.hst.violCount n
    hst.violCtx := BitVec.ofNat 8 c.val
    hst.violWrite := write }

/-- The shadow of a page, seen as at free value `ctr`, for a command: reserved at dispatch, or made on demand; none when no page can be had
(R104). The version's bytes are copied into it. -/
def State.makeShadow (s : State) (c : CtxId) (seq : Word) (ctr vpn : Nat) : Option State :=
  (s.ctx? c).bind fun x => (x.cmd? seq).bind fun k =>
    let f := pteFrame (x.writeView k ctr vpn)
    match k.shadows.get? vpn with
    | some _ => some s
    | none =>
      match k.reserved.get? vpn with
      | some g =>
        some (((s.copyFrame f g).tallySeam c (2 * pageSize)).modCmd c seq fun k =>
          { k with shadows := k.shadows.put vpn g, reserved := k.reserved.del vpn })
      | none =>
        let s := s.makeRoom x.fn 1 (s.frames.length + 1)
        (s.takeFrame (s.shadowDie f) x.fn .shadow).map fun (g, s) =>
          ((s.copyFrame f g).tallySeam c (2 * pageSize)).modCmd c seq fun k => { k with shadows := k.shadows.put vpn g }

/-- Shadows for several pages; none when one cannot be had. -/
def State.makeShadows (s : State) (c : CtxId) (seq : Word) (ctr : Nat) : List Nat → Option State
  | [] => some s
  | v :: vs => (s.makeShadow c seq ctr v).bind fun s => s.makeShadows c seq ctr vs

/-- A byte written by a command goes to its shadow, or nowhere where the page has none (R118). -/
def State.shadowWrite (s : State) (k : Cmd) (va : Nat) (b : Byte) : State :=
  match k.shadows.get? (va / pageSize) with
  | some f => { s with mem := s.mem.write (f * pageSize + va % pageSize) b }
  | none => s

/-- The page of a write goes nowhere: UNMAPPED or read-only (R118). -/
def pteDrops (p : DWord) : Bool := pteState p == psUnmapped || 6 ≤ pteState p || pteRo p

/-- Seam pages used at this instant become the most recently used (R114). -/
def State.touchFrames (s : State) (fs : List Nat) : State :=
  { s with frames := fs.foldl (fun m f => m.modify f fun e => { e with lastUse := s.now }) s.frames }

end Sys2Proof.Machine
end

