-- ==== Sys2Proof/Machine/Sched.lean ====
section
/-! DEFINITION. The Scheduler: Field width, which command may be dispatched, who is ready, who takes the Field,
what a holding interval is charged to (02_field.md R52; 05_commands.md R138, R139, R144;
06_scheduling_streams.md R158 to R164, R180). -/

namespace Sys2Proof.Machine

/-! ## Field width (02_field.md R32, R52) -/

/-- The width a WIDTH code declares; 0b11 is reserved. -/
def widthOf (code : Nat) : Nat := if code = 0 then 24 else if code = 1 then 20 else 16

def State.fencedQuads (s : State) : Nat := ((List.range 6).filter fun q => s.fld.fenced.getLsbD q).length

/-- The available width; none with three or more quads fenced (R52). -/
def State.availWidth (s : State) : Option Nat := if s.fencedQuads < 3 then some (24 - 4 * s.fencedQuads) else none

def State.widthFits (s : State) (w : Nat) : Bool := match s.availWidth with
  | some a => w ≤ a
  | none => false

/-- Logical arrays 0 to `w - 1` as physical arrays, in ascending order (R32). -/
def State.logicalArrays (s : State) (w : Nat) : List Nat :=
  ((List.range 24).filter fun a => !s.fld.fenced.getLsbD (a / 4)).take w

/-! ## STEP arguments (06_scheduling_streams.md Table 6.6) -/

def Cmd.maxStreams (k : Cmd) : Nat := bits (k.word 0x40) 28 16
def Cmd.htStart (k : Cmd) : Nat := fieldAt k.desc 0x48 8
def Cmd.lenNs (k : Cmd) : Nat := k.word 0x50
def Cmd.estBase (k : Cmd) : Nat := k.word 0x54
def Cmd.estInv (k : Cmd) : Nat := k.word 0x58
def Cmd.reportVa (k : Cmd) : Nat := fieldAt k.desc 0x60 6
/-- The index of the current operation over the whole command; a STEP counts over all its invocations. -/
def Cmd.opNumber (k : Cmd) : Nat := ((k.step.map fun r : StepRun => r.opsTotal).getD 0) + k.opIdx
/-- RESULT of a command stopped from outside: the index of its operation, or 0xFFFF_FFFF if none has started (Table 5.8). An
operation that waits for page-ins has started. -/
def Cmd.stopIdx (k : Cmd) : Nat :=
  if k.dispatched && (k.opNumber != 0 || (k.phase == .running && !k.stalled.isEmpty)) then k.opNumber else 0xFFFFFFFF
/-- The step deadline E (R173). -/
def Cmd.deadline (k : Cmd) : Nat := k.htStart + k.lenNs

/-! ## Dispatch (05_commands.md R139) -/

def Context.dispatchedCount (x : Context) : Nat := (x.cmds.filter fun k => k.dispatched).length

def State.dispatchedCount (s : State) : Nat := s.contexts.foldl (fun n e => n + e.2.dispatchedCount) 0

/-- A tag's state is DONE (R141). -/
def Context.tagDone (x : Context) (tag : Nat) : Option Byte :=
  match x.tags.get? tag with
  | some (.done st) => some st
  | _ => none

/-- A STEP is ready: HT_START is reached and no other STEP of its context is running or parked (R173). -/
def State.stepReady (s : State) (x : Context) (k : Cmd) : Bool :=
  k.htStart ≤ s.ht && !x.cmds.any fun j => j.isStep && j.dispatched && j.seq != k.seq

/-- The first undispatched command of a context that has no status and is not being killed. -/
def Context.nextCmd (x : Context) : Option Cmd :=
  x.cmds.find? fun k => k.phase == .fetched && k.ending.isNone && k.killing.isNone

/-- R139 and R173 allow the command to be dispatched now. -/
def State.dispatchable (s : State) (x : Context) (k : Cmd) : Bool :=
  k.phase == .fetched && k.ending.isNone && !x.destroying &&
    (x.nextCmd.map (·.seq)) == some k.seq &&
    (if k.barrier then !x.cmds.any (fun j => j.stamp < k.stamp) else true) &&
    !x.cmds.any (fun j => j.stamp < k.stamp && j.barrier) &&
    x.dispatchedCount < 16 && s.dispatchedCount < 1024 &&
    (if k.isStep then s.stepReady x k else true)

/-- The oldest command of a list, by fetch. -/
def oldest (ks : List Cmd) : Option Cmd :=
  ks.foldl (fun b k => match b with
    | none => some k
    | some j => if k.stamp < j.stamp then some k else some j) none

/-- Parked commands whose tag is DONE (R162). -/
def Context.wakeable (x : Context) : List Cmd :=
  x.cmds.filter fun k => k.phase == .parked && k.ending.isNone && k.killing.isNone && (x.tagDone k.tag).isSome

/-- A context's undispatched command that could take the Field: dispatchable, of a kind that uses the Field and
not waiting for page-ins (R113). A ready STEP whose work list is not built yet is none: R164 does not say that the Field
waits for the list, and the model lets another command take it (log entry 64, the model's choice). -/
def State.fieldCandidate (s : State) (x : Context) : Option Cmd :=
  x.nextCmd.filter fun k => s.dispatchable x k && k.usesField && k.stalled.isEmpty &&
    (!k.isStep || k.step.any (·.built))

/-- A context is ready (R162). -/
def State.ready (s : State) (x : Context) : Bool :=
  !x.wakeable.isEmpty || x.nextCmd.any fun k => s.dispatchable x k

/-- VMIN over the contexts that were ready just before (R162). -/
def State.vmin (s : State) : Option DWord :=
  s.contexts.foldl (fun m e =>
    if e.2.wasReady then
      match m with
      | none => some e.2.vt
      | some v => if signedLt e.2.vt v then some e.2.vt else some v
    else m) none

/-- A context that becomes ready after having nothing ready starts at least at VMIN (R162). -/
def State.refreshReady (s : State) : State :=
  let v := s.vmin
  { s with ctxs := s.ctxs.map fun o => o.map fun x =>
      let r := s.ready x
      let vt := match v with
        | some m => if r && !x.wasReady && signedLt x.vt m then m else x.vt
        | none => x.vt
      { x with vt := vt, wasReady := r } }

/-! ## Choice (R144, R163, R164, R180) -/

/-- A context is over its kill budget (R179). -/
def Context.overBudget (x : Context) : Bool := x.killBudget.toNat ≤ x.killUsed.toNat

/-- Some fetched STEP starts within the holdoff, or has started and not completed, that is, its record is not yet written
(R180); with SCH_HOLDOFF 0 there is no holdoff (Table 6.11). -/
def State.holdoffActive (s : State) : Bool :=
  s.sch.holdoff != 0 && s.contexts.any fun e => e.2.cmds.any fun k =>
    k.isStep && k.htStart ≤ s.ht + s.sch.holdoff.toNat * 1000

def Tenure.owns (t : Tenure) (x : Context) : Bool := x.fn == t.fn && x.job == t.job

/-- The tenure that has not ended: its charge is below SCH_TENURE (R163). -/
def State.liveTenure (s : State) : Option Tenure :=
  s.sch.tenure.filter fun t => t.charged < max 1 s.sch.tenureUs.toNat * 1000

/-- Rules 1 and 2 of R144: the oldest parked command of the job whose tag is DONE, else its oldest dispatchable. -/
def State.jobChoice (s : State) (t : Tenure) : Option (CtxId × Cmd) :=
  let mine := s.contexts.filter fun e => t.owns e.2
  let pick := fun (l : List (CtxId × Cmd)) => l.foldl (fun b e => match b with
    | none => some e
    | some c => if e.2.stamp < c.2.stamp then some e else some c) none
  match pick (mine.flatMap fun e => e.2.wakeable.map fun k => (e.1, k)) with
  | some r => some r
  | none => pick (mine.filterMap fun e => (s.fieldCandidate e.2).map fun k => (e.1, k))

/-- Step 1 of R164: the ready serving step with the earliest deadline, the lowest context on a tie. -/
def State.stepChoice (s : State) : Option (CtxId × Cmd) :=
  (s.contexts.filterMap fun e => ((s.fieldCandidate e.2).filter (·.isStep)).map fun k => (e.1, k)).foldl
    (fun b e => match b with
      | none => some e
      | some c => if e.2.deadline < c.2.deadline then some e else some c) none

/-- What a context offers the Field: its oldest parked command whose tag is DONE, else its candidate (R164). -/
def State.offer (s : State) (x : Context) : Option Cmd :=
  match oldest x.wakeable with
  | some k => some k
  | none => s.fieldCandidate x

/-- Step 2 of R164: the context with the lowest VT, passing over those held off (R180). -/
def State.shareChoice (s : State) : Option (CtxId × Cmd) :=
  let hold := s.holdoffActive
  let cands := s.contexts.filterMap fun e =>
    if hold && e.2.overBudget then none else (s.offer e.2).map fun k => (e.1, e.2.vt, k)
  (cands.foldl (fun b e => match b with
    | none => some e
    | some c => if signedLt e.2.1 c.2.1 then some e else some c) none).map fun e => (e.1, e.2.2)

/-- The Field may be given to a command: nobody holds it and nothing stops it (R59, R354). -/
def State.fieldFree (s : State) : Bool :=
  s.sch.holder.isNone && !s.fld.maint && !s.fld.frozen && !s.rst.coreHeld

/-- The command that takes the Field next, and whether rule 3 chose it (R144). -/
def State.choice (s : State) : Option (CtxId × Cmd × Bool) :=
  if !s.fieldFree then none
  else match s.liveTenure.bind s.jobChoice with
    | some (c, k) => some (c, k, false)
    | none =>
      match s.stepChoice with
      | some (c, k) => some (c, k, true)
      | none => s.shareChoice.map fun e => (e.1, e.2, true)

/-- The work lists of a context's other STEPs, which wait for the one that runs, are built anew when they become ready
again (R173). -/
def Context.dropLists (x : Context) (k : Cmd) : Context :=
  if k.isStep then
    { x with cmds := x.cmds.map fun j => if j.isStep && j.phase == .fetched && j.seq != k.seq then { j with step := none } else j }
  else x

/-- A command is given the Field: its holding interval begins, and with a choice by rule 3 a tenure (R158, R163). -/
def State.giveField (s : State) (c : CtxId) (k : Cmd) (byRule3 : Bool) : State :=
  let s := { s with sch.holder := some { ctx := c, seq := k.seq, since := s.ht, mark := s.ht, energy := 0 } }
  let s := s.modCtx c fun x => x.dropLists k
  let s := if byRule3 then
      match s.ctx? c with
      | some x => { s with sch.tenure := some { fn := x.fn, job := x.job, charged := 0 } }
      | none => s
    else s
  s.modCmd c k.seq fun j =>
    { j with phase := .running, arrays := if j.isField || j.isStep then s.logicalArrays (widthOf j.width) else [] }

/-- The Field is handed on when it is free: a parked command whose tag is DONE resumes; an undispatched command
waits for its dispatch (R144). -/
def State.handoff (s : State) : State :=
  match s.choice with
  | some (c, k, r3) => if k.phase == .parked then s.giveField c k r3 else s
  | none => s

/-- Readiness brought up to date and the Field handed on. -/
def State.settle (s : State) : State := s.refreshReady.handoff

/-! ## Charging (R160, R161, R179, R184) -/

/-- To whom a holding interval is charged. -/
inductive ChargeTo where
  | ctx (c : CtxId)
  | nobody
deriving DecidableEq, Repr

/-- VT and REM after a charge of `t` Field-nanoseconds (R160). -/
def Context.charge (x : Context) (t : Nat) : Context :=
  let share := max 1 x.share
  let n := t * 65536 + x.rem
  { x with vt := x.vt + BitVec.ofNat 64 (n / share), rem := n % share }

/-- Energy in units of 10^-10 mJ added to a Tally, the remainder below 1 mJ carried (R184). -/
def Tally.addEnergy (t : Tally) (e : Nat) : Tally :=
  let n := t.energyRem + e
  { t with energyMj := t.energyMj + BitVec.ofNat 64 (n / 10000000000), energyRem := n % 10000000000 }

/-- Energy to nobody goes to SCH_TALLY_UNATTRIB (R184). -/
def State.unattributed (s : State) (e : Nat) : State :=
  let n := s.sch.unattribRem + e
  { s with
    sch.unattrib := s.sch.unattrib + BitVec.ofNat 32 (n / 10000000000)
    sch.unattribRem := n % 10000000000 }

/-- Nanoseconds of hall time since hall time `t`; none where the counter has been stepped back past it (R158). -/
def State.htSince (s : State) (t : Nat) : Nat := (s.ht64 - BitVec.ofNat 64 t).toInt.toNat

/-- The Field becomes free: the holding interval is charged, with its share of the present energy interval and the
energy it has gathered, and the command's own time grows by it (R158 to R161, R163, R184). -/
def State.releaseField (s : State) (acct : ChargeTo) : State :=
  match s.sch.holder with
  | none => s
  | some h =>
    let t := s.htSince h.since
    let s := { s with sch.holder := none }
    let s := s.modCmd h.ctx h.seq fun k => { k with runNs := k.runNs + t }
    match acct with
    | .nobody => s.unattributed h.energy
    | .ctx c =>
      let s := s.modCtx c fun x => x.charge t
      let s := if s.sch.tallyC2Eff then
          s.modCtx c fun x => { x with
            tally := { (x.tally.addEnergy h.energy) with fieldNs := x.tally.fieldNs + BitVec.ofNat 64 t } }
        else s
      { s with
        sch.intervalNs := s.sch.intervalNs.put c.val (s.sch.intervalNs.getD c.val 0 + s.htSince h.mark)
        sch.tenure := s.sch.tenure.map fun n =>
          if (s.ctx? c).any n.owns then { n with charged := n.charged + t } else n }

/-- The command holds the Field. -/
def State.holds (s : State) (c : CtxId) (seq : Word) : Bool :=
  s.sch.holder.any fun h => h.ctx == c && h.seq == seq

/-- The Field is taken from a command that holds it. -/
def State.leaveField (s : State) (c : CtxId) (seq : Word) (acct : ChargeTo) : State :=
  if s.holds c seq then s.releaseField acct else s

end Sys2Proof.Machine
end

