-- ==== Sys2Proof/Machine/Commit.lean ====
section
/-! DEFINITION. How a command leaves the module: commit of its shadows or their discard, its completion record,
kills (05_commands.md R146 to R153; 04_seam_hoist.md R105 to R107). -/

namespace Sys2Proof.Machine

/-- RESULT of a command that started no operation (Table 5.8). -/
def noOp : Nat := 0xFFFFFFFF

/-- A command reaches its status; it is recorded at its COMMAND_END. -/
def State.endWith (s : State) (c : CtxId) (seq : Word) (st : Byte) (idx : Nat) : State :=
  s.modCmd c seq fun k => if k.ending.isSome then k else { k with ending := some st, endIdx := idx }

/-- The page of a shadow takes its place in the page table (R105). The version it replaces stays until no
dispatched command and no snapshot needs it; a page whose entry is UNMAPPED, POISONED or of another handle keeps
its mapping, and the shadow is discarded. -/
def State.commitPage (s : State) (c : CtxId) (k : Cmd) (vpn f : Nat) : State :=
  match s.ctx? c with
  | none => s.releaseFrame f
  | some x =>
    let cur := x.pt.getD vpn 0
    let st := pteState cur
    if st == psUnmapped || 5 ≤ st || pteHandle cur != pteHandle (k.versions.getD vpn cur) then s.releaseFrame f
    else
      let s := s.modCtx c fun x =>
        { x.dropStale (· == vpn) with pt := x.pt.put vpn (pteMove cur psResident (locSeam f)) }
      let s := { s with frames := s.frames.modify f fun e => { e with use := .page, far := none, lastUse := s.now } }
      if st == psFar then s
      else
        let old := pteFrame cur
        { s with frames := s.frames.modify old fun e => { e with use := .replaced } }

/-- All the pages a command wrote, at once (R105). -/
def State.commitPages (s : State) (c : CtxId) (k : Cmd) : State :=
  k.shadows.foldl (fun s e => s.commitPage c k e.1 e.2) s

/-- The Seam pages a command still owns are released (R106). -/
def State.releaseOwn (s : State) (fs : Assoc Nat) : State := fs.foldl (fun s e => s.releaseFrame e.2) s

/-- Shadows and reservations of a command are discarded (R106). -/
def State.discard (s : State) (c : CtxId) (seq : Word) : State :=
  match s.cmd? c seq with
  | none => s
  | some k =>
    ((s.releaseOwn k.shadows).releaseOwn k.reserved).modCmd c seq fun k => { k with shadows := [], reserved := [] }

/-- Seam bytes of a run go to the context the run is charged to (R184). -/
def State.creditSeam (s : State) (c : CtxId) (k : Cmd) : State := s.tallySeam c k.seamBytes

/-! ## Completion records (R152, R153) -/

/-- RESULT by kind (Table 5.8): an ALLOC's new handle, 0 for other HOIST commands, MARKERs and table operations
(06_scheduling_streams.md R165), the operation index else. -/
def Cmd.result (k : Cmd) (st : Byte) : Nat :=
  if k.isHoist then (if st == stOk && k.subop == 1 then k.handle % 65536 else 0)
  else if k.isMarker || k.isTable then 0
  else min k.endIdx noOp

/-- The 32 bytes of a completion record. -/
def recordBytes (k : Cmd) (st : Byte) (phase : Bool) (ht : Nat) : List Byte :=
  leBytes 4 (st.toNat + k.kind * 2 ^ 8 + min k.kills 255 * 2 ^ 16 + b2n phase * 2 ^ 31) ++
    leBytes 4 k.seq.toNat ++ leBytes 8 k.userTag ++ leBytes 4 (k.result st) ++
    leBytes 4 (min k.runNs noOp) ++ leBytes 8 ht

/-- The record of a finished command is written, its entry and JOBS counted, its interrupt raised, and the command
forgotten; it waits while its function may not issue requests (R152, R153, R183, R316). -/
def State.writeRecord (s : State) (c : CtxId) (seq : Word) : State :=
  match s.ctx? c with
  | none => s
  | some x =>
    match x.cmd? seq with
    | none => s
    | some k =>
      if !s.mayRequest x.fn then s
      else
        let size := 2 ^ x.cqLog
        let a := x.cqBase.toNat + 32 * (x.cqTail.toNat % size)
        let s := s.hostWrite a (recordBytes k (k.ending.getD stOk) (phaseOf x.cqTail size) s.ht)
        let s := s.modCtx c fun x => { x with
          cqTail := x.cqTail + 1
          cqIrqs := if k.irq then x.cqIrqs ++ [x.cqTail] else x.cqIrqs
          cmds := x.cmds.filter fun j => j.seq != seq
          ends := x.ends.filter (· != seq)
          tally.jobs := x.tally.jobs + 1 }
        let s := s.tallyHost c 32
        let s := if k.irq then s.irqEvent c.val else s
        s.gcReplaced

/-- The records of finished commands, in the order the commands ended (R139); they wait for their function (R316). -/
def State.flushRecords (s : State) (c : CtxId) : State :=
  match s.ctx? c with
  | none => s
  | some x => x.ends.foldl (fun s seq => s.writeRecord c seq) s

/-- A finished command's record is due, behind those that still wait. -/
def State.recordDue (s : State) (c : CtxId) (seq : Word) : State :=
  (s.modCtx c fun x => { x with ends := x.ends.filter (· != seq) ++ [seq] }).flushRecords c

/-! ## Kills (R147 to R149) -/

/-- A kill that may be followed by a re-run (Table 5.6). -/
def KillCause.isDeadline : KillCause → Bool
  | .deadline _ => true
  | _ => false

/-- A later kill decides where a deadline kill is pending: the command is then not run again (Table 5.6). -/
def Cmd.mayKill (k : Cmd) (why : KillCause) : Bool :=
  match k.killing with
  | none => true
  | some w => w.isDeadline && !why.isDeadline

/-- A kill is decided: it takes effect on a dispatched command of a kind that can be killed and that has not begun
to commit, and on an undispatched command that software names (R147, R148). -/
def State.requestKill (s : State) (c : CtxId) (seq : Word) (why : KillCause) : State :=
  s.modCmd c seq fun k =>
    if !k.usesField || k.ending.isSome || !k.mayKill why then k
    else if k.dispatched then { k with killing := some why }
    else match why with
      | .software => { k with killing := some why }
      | _ => k

/-- To whom the run a kill ends is charged (R161). -/
def KillCause.chargeTo (why : KillCause) (c : CtxId) : ChargeTo :=
  match why with
  | .deadline server => .ctx server
  | .fence => .nobody
  | _ => .ctx c

/-- A run-again command: from its first operation, against the versions of its next dispatch (R149). -/
def Cmd.restart (k : Cmd) : Cmd :=
  { k with
    phase := .fetched, opIdx := 0, versions := [], shadows := [], reserved := [], touched := [], arrays := [],
    runNs := 0, parkedAt := 0, tag := 0, passedWait := false, ending := none, endIdx := noOp, killing := none,
    unit := none, decision := none, normG := 0, multiplier := 0, tLatch := 0, noise := none,
    amax := [], liveTile := [], prevOp := [], stalled := [], step := none, seamBytes := 0, finished := false }

/-- A re-queued command stands ahead of every undispatched command of its context (R149). -/
def requeue (ks : List Cmd) (k : Cmd) : List Cmd :=
  let rest := ks.filter fun j => j.seq != k.seq
  rest.filter (·.dispatched) ++ k :: rest.filter (fun j => !j.dispatched)

/-- A deadline kill counts in the victim's kill budget, in µs rounded up, and in SCH_DEADLINE_KILLS; a fence kill
in FLD_FENCE_KILLS (R179, R53). -/
def State.countKill (s : State) (c : CtxId) (why : KillCause) (heldNs : Nat) : State :=
  let s := { s with cfe.kills := s.cfe.kills + 1 }
  match why with
  | .deadline _ =>
    { s.modCtx c (fun x => { x with killUsed := satAdd x.killUsed ((heldNs + 999) / 1000) }) with
      sch.deadlineKills := s.sch.deadlineKills + 1 }
  | .fence => { s with fld.fenceKills := satInc s.fld.fenceKills }
  | _ => s

/-- The time the command has held the Field in its present interval. -/
def State.heldNs (s : State) (c : CtxId) (seq : Word) : Nat :=
  match s.sch.holder with
  | some h => if h.ctx == c && h.seq == seq then s.htSince h.since else 0
  | none => 0

/-- The automatic Seam mask of a serving step ends with it (04_seam_hoist.md R120). -/
def State.unmaskFor (s : State) (c : CtxId) (k : Cmd) : State :=
  { s with seam.autoMask := s.seam.autoMask.filter fun e => e.1 != c || e.2.1 != k.seq }

/-- The Field state of a killed command is gone: accumulators, Plate and Rim (02_field.md R51); a frozen Field keeps it for
capture (R59). -/
def State.discardField (s : State) (c : CtxId) (seq : Word) : State :=
  if s.holds c seq && !s.fld.frozen then
    { s with fld.plate := [], fld.tiles := [], fld.image := none, fld.accs := [], fld.rim := s.freeCtr }
  else s

/-- A kill completes (R148, R149): the Field is free, the shadows are gone, and the command is re-queued, or is
finished with KILLED. -/
def State.killDone (s : State) (c : CtxId) (k : Cmd) (why : KillCause) : State :=
  let held := s.heldNs c k.seq
  let acct := why.chargeTo c
  let s := s.discardField c k.seq
  let s := ((s.leaveField c k.seq acct).unmaskFor c k).discard c k.seq
  let s := match acct with
    | .ctx d => s.creditSeam d k
    | .nobody => s
  let s := s.countKill c why held
  let again := match why with
    | .deadline _ => k.rerun && k.kills < s.cfe.rerunMax.toNat
    | _ => false
  if again then
    (s.modCtx c fun x => { x with
      cmds := requeue x.cmds { (x.cmds.find? (fun j => j.seq == k.seq)).getD k |>.restart with kills := k.kills + 1 } }).gcReplaced
  else
    s.modCmd c k.seq fun j =>
      { j with kills := j.kills + 1, ending := some stKilled, endIdx := j.stopIdx,
               killing := none, finished := true, versions := [] }

end Sys2Proof.Machine
end

