-- ==== Sys2Proof/Machine/Access.lean ====
section
/-! DEFINITION. A command's accesses to its memory while it runs: page-ins, poisoned pages and uncorrectable errors
before it reads (04_seam_hoist.md R89, R113), shadows for what it writes (R104, R118). -/

namespace Sys2Proof.Machine

/-- What stands in the way of an access: nothing, page-ins that it waits for, or a status that ends the command. -/
inductive Gate where
  | go (s : State)
  | wait (s : State)
  | stop (s : State) (st : Byte)

/-- The pages of a list of byte ranges. -/
def rangePages (rs : List (Nat × Nat)) : List Nat := (rs.flatMap fun r => pagesOf r.1 r.2).eraseDups

/-- The Seam page a command reads for a virtual page: its shadow, else its version. -/
def Context.frameFor (x : Context) (k : Cmd) (ctr vpn : Nat) : Option Nat :=
  match k.shadows.get? vpn with
  | some f => some f
  | none => seamFrame (x.view k ctr vpn)

/-- The entries a command goes by for the bytes of some ranges that are not its own shadows', by virtual page. -/
def Context.entriesFor (x : Context) (k : Cmd) (ctr : Nat) (ranges : List (Nat × Nat)) : List (Nat × DWord) :=
  ((rangePages ranges).filter fun v => !k.shadows.has v).flatMap fun v => (x.seen k ctr ranges v).map fun p => (v, p)

/-- The Seam pages that the bytes of some ranges are read from. -/
def Context.framesFor (x : Context) (k : Cmd) (ctr : Nat) (ranges : List (Nat × Nat)) : List Nat :=
  (rangePages ranges).filterMap (k.shadows.get? ·) ++ (x.entriesFor k ctr ranges).filterMap fun e => seamFrame e.2

/-- The pages are there to be read: a poisoned one, or an uncorrectable error met, ends the command with FENCED; FAR
ones are paged in first (R89, R113); a page-in without room ends it with NO_ROOM (R114; log entry 27), unless room waits for
an eviction. -/
def State.gate (s : State) (c : CtxId) (seq : Word) (ranges : List (Nat × Nat)) (errs : SeamErrs) : Gate :=
  match (s.ctx? c).bind fun x => (x.cmd? seq).map fun k => (x, k) with
  | none => .wait s
  | some (x, k) =>
    let pages := rangePages ranges
    let mine := x.entriesFor k s.freeCtr ranges
    if mine.any (fun e => pteState e.2 == psPoisoned) then .stop s stFenced
    else
      let far := mine.filter fun e => pteState e.2 == psFar || pteState e.2 == psTransit
      if !far.isEmpty then
        match s.startPageInsOf c far with
        | some s => .wait (s.modCmd c seq fun k => { k with stalled := (far.map (·.1)).eraseDups })
        | none => if s.evictWaits x.fn then .wait s else .stop s stNoRoom
      else
        let frames := x.framesFor k s.freeCtr ranges
        let bad := errs.ue.filter frames.contains
        let s := s.seamCe errs.ce
        if bad.isEmpty then
          .go ((s.touchFrames frames).modCmd c seq fun k => { k with touched := (k.touched ++ pages).eraseDups })
        else .stop (bad.foldl (fun s f => s.seamUe f) s) stFenced

/-- Bytes of the ranges that lie on UNMAPPED pages (R118; log entry 10). -/
def unmappedBytes (x : Context) (k : Cmd) (ctr : Nat) (ranges : List (Nat × Nat)) : Nat :=
  ranges.foldl (fun n r => (pagesOf r.1 r.2).foldl (fun n v =>
    let lo := max r.1 (v * pageSize)
    let hi := min (r.1 + r.2) ((v + 1) * pageSize)
    let un := fun (p : DWord) => pteState p == psUnmapped || 5 < pteState p
    if k.shadows.has v then n
    else if (x.stale.find? fun e => e.vpn == v).isNone then (if un (k.versions.getD v 0) then n + (hi - lo) else n)
    else n + ((List.range (hi - lo)).filter fun i => un (x.viewAt k ctr (lo + i) v)).length) n) 0

/-- Bytes a command writes: into shadows, or nowhere on UNMAPPED and read-only pages, which counts (R104, R118); none
when a shadow cannot be had. -/
def State.cmdWrite (s : State) (c : CtxId) (seq : Word) (ws : List (Nat × List Byte)) : Option State :=
  (s.ctx? c).bind fun x => (x.cmd? seq).bind fun k =>
    let pages := rangePages (ws.map fun w => (w.1, w.2.length))
    let drops := fun v => !k.shadows.has v && pteDrops (x.writeView k s.freeCtr v)
    let lost := ws.foldl (fun n w => (List.range w.2.length).foldl (fun n i =>
      if drops ((w.1 + i) / pageSize) then n + 1 else n) n) 0
    let ctr := s.freeCtr
    let s := s.modCmd c seq fun k => { k with touched := (k.touched ++ pages).eraseDups }
    (s.makeShadows c seq ctr (pages.filter fun v => !drops v)).bind fun s =>
      (s.cmd? c seq).map fun k =>
        let s := ws.foldl (fun s w => (List.range w.2.length).foldl (fun s i =>
          s.shadowWrite k (w.1 + i) (w.2.getD i 0)) s) s
        (s.violations c lost true).modCmd c seq fun k =>
          { k with seamBytes := k.seamBytes + (ws.map fun w => w.2.length).foldl (· + ·) 0 }

end Sys2Proof.Machine
end

