-- ==== Sys2Proof/Machine/Streams.lean ====
section
/-! DEFINITION. The Stream Table: models, stream entries, admission, the work list of a step and its commit
(06_scheduling_streams.md R165 to R178). -/

namespace Sys2Proof.Machine

/-! ## Stream entries -/

/-- D_k of a stream (R170). -/
def Stream.deadlineOf (e : Stream) (k : Nat) : Nat :=
  e.t0.toNat + k * 1000000000 * e.rateDen.toNat / max 1 e.rateNum.toNat

/-- The smallest frame index from `k` up whose deadline is not before `t` (R174): k′ = ⌈(t − T0) × NUM / (10^9 × DEN)⌉,
since ⌊x⌋ ≥ n for an integer n just when x ≥ n. -/
def Stream.nextFrame (e : Stream) (k t : Nat) : Nat :=
  if t ≤ e.deadlineOf k then k
  else
    let d := 1000000000 * max 1 e.rateDen.toNat
    ((t - e.t0.toNat) * e.rateNum.toNat + d - 1) / d

/-- The first 64 bytes of an entry (Table 6.3); an entry that is not valid reads zeros. -/
def Stream.bytes (e : Stream) : List Byte :=
  leBytes 4 (1 + e.model.toNat * 2 ^ 8 + e.ctx.val * 2 ^ 16) ++ leBytes 4 e.row.toNat ++ leBytes 8 e.t0.toNat ++
    leBytes 4 (e.rateNum.toNat + e.rateDen.toNat * 2 ^ 16) ++ leBytes 4 e.frame.toNat ++
    leBytes 8 (e.deadlineOf e.frame.toNat) ++ leBytes 4 e.served.toNat ++ leBytes 4 e.missed.toNat ++
    leBytes 4 e.late.toNat ++ leBytes 4 0 ++ leBytes 8 e.userTag.toNat ++ leBytes 8 e.lastHt.toNat

def State.entriesOf (s : State) (c : CtxId) : Assoc Stream := s.stb.entries.filter fun e => e.2.ctx == c

def State.entriesOfFn (s : State) (fn : FnId) : Nat :=
  (s.stb.entries.filter fun e => (s.ctx? e.2.ctx).any fun x => x.fn == fn).length

def State.model? (s : State) (c : CtxId) (n : Nat) : Option Model :=
  s.stb.models.find? fun m => m.ctx == c && m.number == n

/-- The Stream Table forgets a destroyed context's models and entries (R167, R172). -/
def State.streamsCtxGone (s : State) (c : CtxId) : State :=
  { s with
    stb.models := s.stb.models.filter fun m => m.ctx != c
    stb.entries := s.stb.entries.filter fun e => e.2.ctx != c }

/-! ## Serving-table operations (R165) -/

/-- The running table operation of a context with the given SOP, not yet at its end. -/
def Context.tableOp (x : Context) (sop : Nat) : Option Cmd :=
  x.cmds.find? fun k => k.isTable && k.subop == sop && k.phase == .running && k.ending.isNone

/-- Bits of KIND_ARGS that ADMIT and RELEASE leave reserved (Table 6.4). -/
def admitReserved (k : Cmd) (release : Bool) : Bool :=
  bits (k.word 0x40) 31 16 != 0 || (k.args.drop 0x20).any (· != 0) ||
    (release && (k.args.drop 8).any (· != 0))

/-- The status of an ADMIT and the entry it makes (Table 6.5). R171 gives no LAST_HT before the first commit: the model
puts 0 (log entry 64, the model's choice). -/
def State.admitOutcome (s : State) (c : CtxId) (x : Context) (k : Cmd) : Byte × Option Stream :=
  let model := bits (k.word 0x40) 15 8
  let row : Word := BitVec.ofNat 32 (k.word 0x44)
  let num := bits (k.word 0x50) 15 0
  let den := bits (k.word 0x50) 31 16
  if admitReserved k false || num == 0 || den == 0 || (s.model? c model).isNone ||
      (s.entriesOf c).any (fun e => e.2.model.toNat == model && e.2.row == row) then (stBad, none)
  else if 32768 ≤ s.stb.entries.length then (stNoRoom, none)
  else if min 32768 (vget s.stb.quota x.fn).toNat ≤ s.entriesOfFn x.fn then (stNoRoom, none)
  else (stOk, some
    { model := BitVec.ofNat 8 model, ctx := c, row := row, t0 := BitVec.ofNat 64 (fieldAt k.desc 0x48 8),
      rateNum := BitVec.ofNat 16 num, rateDen := BitVec.ofNat 16 den, frame := BitVec.ofNat 32 (k.word 0x54),
      served := 0, missed := 0, late := 0, userTag := BitVec.ofNat 64 (fieldAt k.desc 0x58 8), lastHt := 0 })

/-- A NO_ROOM of ADMIT or MODEL_SET is counted in STB_NO_ROOM (Table 6.13). -/
def State.countNoRoom (s : State) (st : Byte) : State :=
  if st == stNoRoom then { s with stb.noRoom := satInc s.stb.noRoom } else s

/-- ADMIT (R171): the stream takes the lowest free entry, or is refused. -/
def State.admitStream (s : State) (c : CtxId) : State :=
  match (s.ctx? c).bind fun x => (x.tableOp 2).map fun k => (x, k) with
  | none => s
  | some (x, k) =>
    let (st, e) := s.admitOutcome c x k
    let s := match e with
      | some e => { s with stb.entries := s.stb.entries.put (lowestFreeKey s.stb.entries 0) e }
      | none => s
    (s.countNoRoom st).endWith c k.seq st 0

/-- RELEASE (R172). -/
def State.releaseStream (s : State) (c : CtxId) : State :=
  match (s.ctx? c).bind fun x => x.tableOp 3 with
  | none => s
  | some k =>
    let model := bits (k.word 0x40) 15 8
    let row : Word := BitVec.ofNat 32 (k.word 0x44)
    match (s.entriesOf c).find? fun e => e.2.model.toNat == model && e.2.row == row with
    | some (i, _) =>
      if admitReserved k true then s.endWith c k.seq stBad 0
      else { s with stb.entries := s.stb.entries.del i }.endWith c k.seq stOk 0
    | none => s.endWith c k.seq stBad 0

/-- The status of a MODEL_SET (Table 6.2) and the model it sets. -/
def State.modelSetOutcome (s : State) (c : CtxId) (k : Cmd) : Byte × Option Model :=
  let w := k.word 0x40
  let number := bits w 15 8
  let clear := bit w 16
  let mwidth := bits w 18 17
  let opcount := bits (k.word 0x44) 15 0
  let batch := bits (k.word 0x44) 28 16
  let oplist := fieldAt k.desc 0x48 8
  let index := fieldAt k.desc 0x50 8
  let img := fieldAt k.desc 0x58 8
  let imgPages := k.word 0x60
  let rest := k.args.drop 0x24
  let cleared := mwidth == 0 && k.word 0x44 == 0 && oplist == 0 && index == 0 && img == 0 && imgPages == 0
  let known := (s.model? c number).isSome
  let named := (s.entriesOf c).any fun e => e.2.model.toNat == number
  if bits w 31 19 != 0 || rest.any (· != 0) then (stBad, none)
  else if clear then
    if cleared && known && !named then (stOk, none) else (stBad, none)
  else if mwidth == 3 || opcount == 0 || bits (k.word 0x44) 31 29 != 0 || batch == 0 || 4096 < batch ||
      2 ^ 48 ≤ oplist || oplist % 128 != 0 || 2 ^ 48 ≤ index || index % 4 != 0 || 2 ^ 48 ≤ img || img % 4096 != 0 ||
      2048 < imgPages then (stBad, none)
  else if !known && 256 ≤ s.stb.models.length then (stNoRoom, none)
  else (stOk, some
    { ctx := c, number := number, mwidth := BitVec.ofNat 2 mwidth, opcount := opcount, batch := batch,
      oplist := oplist, index := index, img := img, imgPages := imgPages })

/-- MODEL_SET (R166, R167): creates, replaces or clears a model. -/
def State.modelSet (s : State) (c : CtxId) : State :=
  match (s.ctx? c).bind fun x => x.tableOp 4 with
  | none => s
  | some k =>
    let (st, m) := s.modelSetOutcome c k
    let number := bits (k.word 0x40) 15 8
    let others := s.stb.models.filter fun m => !(m.ctx == c && m.number == number)
    let s := if st == stOk then { s with stb.models := others ++ m.toList } else s
    (s.countNoRoom st).endWith c k.seq st 0

/-! ## Building a step (R173, R174) -/

/-- A due entry of a step: its number, its entry at the frame to serve, and the frames it skips. -/
structure Due where
  entry : Nat
  stream : Stream
  skipped : Nat
deriving DecidableEq, Repr

/-- Every entry of the context brought to its frame with a deadline not before E (R174 step 1). -/
def State.advanced (s : State) (c : CtxId) (e : Nat) : List Due :=
  (s.entriesOf c).map fun p =>
    let k := p.2.frame.toNat
    let k' := p.2.nextFrame k e
    { entry := p.1, stream := { p.2 with frame := BitVec.ofNat 32 k' }, skipped := k' - k }

def Due.deadline (d : Due) : Nat := d.stream.deadlineOf d.stream.frame.toNat

/-- A due entry inserted in order of deadline; ties keep entry order. -/
def insertDue (d : Due) : List Due → List Due
  | [] => [d]
  | e :: r => if d.deadline < e.deadline then d :: e :: r else e :: insertDue d r

def sortDue (l : List Due) : List Due := l.foldl (fun acc d => insertDue d acc) []

/-- A list cut into runs of `n`. -/
def chunk {α : Type} (n : Nat) : Nat → List α → List (List α)
  | 0, _ => []
  | fuel + 1, l => if l.isEmpty || n = 0 then [] else l.take n :: chunk n fuel (l.drop n)

/-- Served entries as invocations: models in rising number, BATCH entries at a time in their sorted order (R174). -/
def State.invocations (s : State) (c : CtxId) (sv : List Served) : List (Nat × List Served) :=
  (List.range 256).flatMap fun m =>
    let mine := sv.filter fun v => v.model == m
    let batch := ((s.model? c m).map (·.batch)).getD 1
    (chunk batch mine.length mine).map fun l => (m, l)

/-- The work list of a STEP (R174) and the kill point the Scheduler fixes with it (R178). -/
def State.buildList (s : State) (c : CtxId) (k : Cmd) : StepRun :=
  let e := k.deadline
  let all := s.advanced c e
  let due := sortDue (all.filter fun d => d.deadline < e + k.lenNs)
  let n := min k.maxStreams 4096
  let sv := (due.take n).map fun d =>
    { entry := d.entry, row := d.stream.row, frame := d.stream.frame, model := d.stream.model.toNat : Served }
  let invs := s.invocations c sv
  let est := k.estBase + invs.length * k.estInv
  let ordered := invs.flatMap (·.2)
  { built := true, served := ordered, deferred := due.length - n,
    missed := (all.filter fun d => 0 < d.skipped).map fun d => (d.entry, d.stream.frame.toNat, d.skipped),
    invs := invs, current := none,
    killAt := (e : Int) - (est : Int) - 20000, estNs := est, opsTotal := 0 }

/-- The first fetched STEP of a context that is ready and has no work list. Readiness looks at hall time and the context's
other STEPs alone, and not at commands before it (R173). -/
def State.unbuiltStep (s : State) (x : Context) : Option Cmd :=
  x.cmds.find? fun k => k.isStep && k.phase == .fetched && k.ending.isNone && k.killing.isNone && s.stepReady x k &&
    !(k.step.any (·.built))

/-- STEP_READY (R173, R163, R120): the step stands ready, any tenure ends, and the step counts among those for whose sake
SBMASK_AUTO masks. -/
def State.stepBecomesReady (s : State) (c : CtxId) : State :=
  match (s.ctx? c).bind s.unbuiltStep with
  | none => s
  | some k =>
    { s with
      sch.tenure := none
      seam.autoMask := if s.seam.autoMask.any (fun e => e.1 == c && e.2.1 == k.seq) then s.seam.autoMask
        else s.seam.autoMask ++ [(c, k.seq, true)] }

/-- The work list is built off the Field (R173). -/
def State.workListBuild (s : State) (c : CtxId) : State :=
  match (s.ctx? c).bind s.unbuiltStep with
  | none => s
  | some k => s.modCmd c k.seq fun j => { j with step := some (s.buildList c k) }

/-! ## The report and the commit of a step (R176, R177) -/

/-- The step report (Table 6.7). -/
def stepReport (r : StepRun) : List Byte :=
  leBytes 4 r.served.length ++ leBytes 4 r.deferred ++
    leBytes 4 ((r.missed.map fun m => m.2.2).foldl (· + ·) 0) ++ leBytes 4 0 ++
    r.served.flatMap fun v =>
      leBytes 4 v.row.toNat ++ leBytes 4 v.frame.toNat ++ leBytes 4 v.model ++ leBytes 4 0

/-- OK, or CLIPPED when the command's CHECK decided so (07_training.md R195). -/
def Cmd.goodStatus (k : Cmd) : Byte := if k.decision == some .clip then stClipped else stOk

/-- A STEP whose invocations have all run writes its report and reaches its end (R176). -/
def State.stepFinish (s : State) (c : CtxId) (k : Cmd) : State :=
  match k.step with
  | none => s
  | some r =>
    let bs := stepReport r
    match s.gate c k.seq [(k.reportVa, bs.length)] { ue := [], ce := [] } with
    | .wait s => s
    | .stop s st => s.endWith c k.seq st r.opsTotal
    | .go s =>
      match s.cmdWrite c k.seq [(k.reportVa, bs)] with
      | some s => s.endWith c k.seq k.goodStatus r.opsTotal
      | none => s.endWith c k.seq stNoRoom r.opsTotal

/-- A STEP that commits after its step deadline is counted (Table 6.11). -/
def State.countLateStep (s : State) (k : Cmd) : State :=
  if k.isStep && k.deadline < s.ht then { s with sch.lateSteps := satInc s.sch.lateSteps } else s

/-- The changes of a STEP that ends OK, in its commit (R177), with the counters of Table 6.13. -/
def State.stepCommit (s : State) (k : Cmd) : State :=
  match k.step with
  | none => s
  | some r =>
    let late := k.deadline < s.ht
    let skip := r.missed.foldl (fun m (p : Nat × Nat × Nat) => m.modify p.1 fun e =>
      { e with frame := BitVec.ofNat 32 p.2.1, missed := satAdd e.missed p.2.2 }) s.stb.entries
    let ents := r.served.foldl (fun m v => m.modify v.entry fun e =>
      { e with
        frame := v.frame + 1, served := e.served + 1, lastHt := s.ht64
        late := if late then satInc e.late else e.late }) skip
    { s with
      stb.entries := ents
      stb.missed := satAdd s.stb.missed ((r.missed.map fun m => m.2.2).foldl (· + ·) 0)
      stb.deferred := satAdd s.stb.deferred r.deferred
      stb.late := if late then satAdd s.stb.late r.served.length else s.stb.late }

/-! ## Deadline kills (R178) -/

/-- KILLABLE as the Scheduler reads it (R178). -/
def Context.eligible (x : Context) (k : Cmd) : Bool := k.killable || !x.nokillOk

/-- At the kill point of a built, undispatched STEP, a command other than a STEP that holds the Field is killed if it
is eligible (R178). -/
def State.deadlineKill (s : State) (c : CtxId) : State :=
  match (s.ctx? c).bind fun x => x.cmds.find? fun k =>
      k.isStep && k.phase == .fetched && k.ending.isNone && k.killing.isNone && k.step.any (·.built) with
  | none => s
  | some k =>
    let p := ((k.step.map fun r : StepRun => r.killAt).getD 0).toNat
    let s := s.passToHt p
    match s.holder? with
    | some (d, x, j) => if !j.isStep && x.eligible j then s.requestKill d j.seq (.deadline c) else s
    | none => s

end Sys2Proof.Machine
end

