-- ==== Sys2Proof/Machine/Float.lean ====
section
/-! DEFINITION. Exact numbers, the number formats and the roundings of the device (03_formats.md R64 to R81,
02_field.md R28, R29). -/

namespace Sys2Proof.Machine

/-! ## Exact values -/

/-- A decoded value: ± `m` × 2^`e` (`m` = 0 is a signed zero), an infinity, or a NaN (R65, R68). -/
inductive FNum where
  | fin (neg : Bool) (m : Nat) (e : Int)
  | inf (neg : Bool)
  | nan
deriving DecidableEq, Repr

def FNum.zero : FNum := .fin false 0 0
def FNum.ofNat (n : Nat) : FNum := .fin false n 0
def FNum.ofInt (i : Int) : FNum := .fin (decide (i < 0)) i.natAbs 0
/-- 2^e. -/
def FNum.pow2 (e : Int) : FNum := .fin false 1 e

def FNum.isNaN : FNum → Bool
  | .nan => true
  | _ => false

def FNum.isFinite : FNum → Bool
  | .fin _ _ _ => true
  | _ => false

def FNum.isZero : FNum → Bool
  | .fin _ 0 _ => true
  | _ => false

def FNum.isNeg : FNum → Bool
  | .fin n _ _ => n
  | .inf n => n
  | .nan => false

def FNum.negate : FNum → FNum
  | .fin n m e => .fin (!n) m e
  | .inf n => .inf (!n)
  | .nan => .nan

def FNum.abs : FNum → FNum
  | .fin _ m e => .fin false m e
  | .inf _ => .inf false
  | .nan => .nan

/-- An exact product (R28: infinity times zero is NaN). -/
def FNum.mulX : FNum → FNum → FNum
  | .nan, _ => .nan
  | _, .nan => .nan
  | .inf a, .inf b => .inf (a != b)
  | .inf a, .fin b m _ => if m = 0 then .nan else .inf (a != b)
  | .fin a m _, .inf b => if m = 0 then .nan else .inf (a != b)
  | .fin a m e, .fin b n f => .fin (a != b) (m * n) (e + f)

/-- The least exponent among the nonzero terms, starting from `d`. -/
def minExp (l : List FNum) (d : Option Int) : Option Int :=
  l.foldl (fun b x => match x with
    | .fin _ 0 _ => b
    | .fin _ _ e => some (match b with
      | none => e
      | some c => min c e)
    | _ => b) d

/-- A finite term in units of 2^`lo`. -/
def FNum.units (lo : Int) : FNum → Int
  | .fin n m e => if m = 0 then 0 else (if n then -1 else 1) * (m * 2 ^ (e - lo).toNat : Nat)
  | _ => 0

/-- An exact sum: NaN, opposed infinities and the sign of a zero sum as R28 and R69 lay down. -/
def sumX (l : List FNum) : FNum :=
  if l.any FNum.isNaN then .nan
  else
    let infs := l.filter fun x => !x.isFinite
    if infs.any FNum.isNeg && infs.any (fun x => !x.isNeg) then .nan
    else match infs with
      | x :: _ => x
      | [] =>
        match minExp l none with
        | none => .fin (!l.isEmpty && l.all FNum.isNeg) 0 0
        | some lo =>
          let t := l.foldl (fun (a : Int) x => a + x.units lo) 0
          .fin (decide (t < 0)) t.natAbs lo

/-- `a` < `b` for values that are not NaN; the two zeros are equal. -/
def FNum.lt : FNum → FNum → Bool
  | .nan, _ => false
  | _, .nan => false
  | .inf a, .inf b => a && !b
  | .inf a, .fin _ _ _ => a
  | .fin _ _ _, .inf b => !b
  | a, b =>
    match minExp [a, b] none with
    | none => false
    | some lo => a.units lo < b.units lo

/-- `a` ≤ `b` for values that are not NaN. -/
def FNum.le (a b : FNum) : Bool := !a.isNaN && !b.isNaN && !b.lt a

/-- Equality of values, signs of zero aside. -/
def FNum.same (a b : FNum) : Bool := a.le b && b.le a

/-! ## Rounding (R76 to R78) -/

/-- The position of the leading bit of a nonzero number. -/
def topBit (m : Nat) : Nat := Nat.log2 m

/-- `m` × 2^`e` (`m` ≠ 0) rounded to `prec` significant bits with spacing at least 2^`lsbMin`: the rounded mantissa and
its exponent. Without a draw, to nearest with ties to even; with draw `r`, stochastically (R78). -/
def roundMag (prec : Nat) (lsbMin : Int) (draw : Option Nat) (m : Nat) (e : Int) : Nat × Int :=
  let lsb := max ((topBit m : Int) + e - (prec - 1 : Int)) lsbMin
  if lsb ≤ e then (m * 2 ^ (e - lsb).toNat, lsb)
  else
    let sh := (lsb - e).toNat
    if topBit m + 40 < sh then (0, lsb)
    else
      let q := m / 2 ^ sh
      let r := m % 2 ^ sh
      match draw with
      | some d => (if d < r * 2 ^ 32 / 2 ^ sh then q + 1 else q, lsb)
      | none => (if 2 ^ sh < 2 * r || (2 * r = 2 ^ sh && q % 2 = 1) then q + 1 else q, lsb)

/-! ## Scalar formats (R64 to R66) -/

/-- How the all-ones exponent is read (R65). -/
inductive TopKind where
  | ieee | e4m3 | e2m1
deriving DecidableEq, Repr

/-- A scalar format: mantissa bits, bias, width, the code of its largest finite value, its infinity and NaN. -/
structure Fmt where
  mant    : Nat
  bias    : Nat
  width   : Nat
  kind    : TopKind
  maxCode : Nat
  infCode : Option Nat
  nanCode : Nat
deriving DecidableEq, Repr

def fp32 : Fmt := { mant := 23, bias := 127, width := 32, kind := .ieee, maxCode := 0x7F7FFFFF, infCode := some 0x7F800000, nanCode := 0x7FC00000 }
def fp16 : Fmt := { mant := 10, bias := 15, width := 16, kind := .ieee, maxCode := 0x7BFF, infCode := some 0x7C00, nanCode := 0x7E00 }
def bf16 : Fmt := { mant := 7, bias := 127, width := 16, kind := .ieee, maxCode := 0x7F7F, infCode := some 0x7F80, nanCode := 0x7FC0 }
def e4m3 : Fmt := { mant := 3, bias := 7, width := 8, kind := .e4m3, maxCode := 0x7E, infCode := none, nanCode := 0x7F }
def e5m2 : Fmt := { mant := 2, bias := 15, width := 8, kind := .ieee, maxCode := 0x7B, infCode := some 0x7C, nanCode := 0x7E }
def e2m1 : Fmt := { mant := 1, bias := 1, width := 4, kind := .e2m1, maxCode := 7, infCode := none, nanCode := 0 }

/-- The exponent of the least subnormal. -/
def Fmt.lsbMin (f : Fmt) : Int := 1 - (f.bias : Int) - (f.mant : Int)

/-- The value of a code (R65). -/
def Fmt.decode (f : Fmt) (code : Nat) : FNum :=
  let neg := bit code (f.width - 1)
  let ebits := f.width - 1 - f.mant
  let e := (code / 2 ^ f.mant) % 2 ^ ebits
  let m := code % 2 ^ f.mant
  let normal := FNum.fin neg (2 ^ f.mant + m) ((e : Int) - f.bias - f.mant)
  if e = 0 then .fin neg m f.lsbMin
  else if e + 1 = 2 ^ ebits then
    match f.kind with
    | .ieee => if m = 0 then .inf neg else .nan
    | .e4m3 => if m + 1 = 2 ^ f.mant then .nan else normal
    | .e2m1 => normal
  else normal

/-- The sign bit in its place. -/
def Fmt.signed (f : Fmt) (neg : Bool) (code : Nat) : Nat := if neg then 2 ^ (f.width - 1) + code else code

/-- What an overflow or an infinity becomes (Table 3.5); `sat` is read for formats of 8 bits or fewer. -/
def Fmt.over (f : Fmt) (sat neg : Bool) : Nat :=
  if sat && f.width ≤ 8 then f.signed neg f.maxCode
  else match f.infCode with
    | some i => f.signed neg i
    | none => f.nanCode

/-- The code of a value, rounded once (R77, R78, R81). A code is (exponent steps above the least) × 2^mant plus the
rounded mantissa, so that a carry out of the mantissa steps the exponent. -/
def Fmt.encode (f : Fmt) (sat : Bool) (draw : Option Nat) : FNum → Nat
  | .nan => f.nanCode
  | .inf neg => f.over sat neg
  | .fin neg m e =>
    if m = 0 then f.signed neg 0
    else
      let (q, l) := roundMag (f.mant + 1) f.lsbMin draw m e
      let code := (l - f.lsbMin).toNat * 2 ^ f.mant + q
      if f.maxCode < code then f.over sat neg else f.signed neg code

/-! ## FP32 arithmetic (RN32) -/

/-- RN32: one rounding to FP32. -/
def rn32 (x : FNum) : FNum := fp32.decode (fp32.encode false none x)

/-- The value of FP32 bits. -/
def ofBits (w : Nat) : FNum := fp32.decode w

/-- The FP32 bits of a value. -/
def toBits (x : FNum) : Word := BitVec.ofNat 32 (fp32.encode false none x)

def fadd (a b : FNum) : FNum := rn32 (sumX [a, b])
def fsub (a b : FNum) : FNum := rn32 (sumX [a, b.negate])
def fmul (a b : FNum) : FNum := rn32 (a.mulX b)
/-- A fused multiply-add, rounded once. -/
def fma (a b c : FNum) : FNum := rn32 (sumX [a.mulX b, c])

/-- The maximum of R281: any NaN gives NaN, and max(+0, −0) = +0. -/
def fmax (a b : FNum) : FNum :=
  if a.isNaN || b.isNaN then .nan else if a.lt b then b else if b.lt a then a else if a.isNeg then b else a

/-- The minimum of R281: any NaN gives NaN, and min(+0, −0) = −0. -/
def fmin (a b : FNum) : FNum :=
  if a.isNaN || b.isNaN then .nan else if a.lt b then a else if b.lt a then b else if a.isNeg then a else b

/-! ## INT8 (R70) and INT32 (R29) -/

/-- The integer of an INT8 byte. -/
def int8 (b : Byte) : Int := b.toInt

/-- The nearest integer of a finite value, ties to even. -/
def nearestInt (neg : Bool) (m : Nat) (e : Int) : Int :=
  if m = 0 then 0
  else
    let (q, l) := roundMag (topBit m + 2 + e.toNat) 0 none m e
    let n : Nat := q * 2 ^ l.toNat
    if neg then -(n : Int) else n

/-- A value as INT8: nearest even, clamped to ±127; NaN gives 0 (R70, Table 3.5). -/
def toInt8 : FNum → Byte
  | .nan => 0
  | .inf neg => if neg then BitVec.ofInt 8 (-127) else 127
  | .fin neg m e =>
    if 16 < e && m != 0 then (if neg then BitVec.ofInt 8 (-127) else 127)
    else BitVec.ofInt 8 (max (-127) (min 127 (nearestInt neg m e)))

/-- A sum clamped to INT32, and whether it was clamped (R29). -/
def clamp32 (x : Int) : Int × Nat :=
  if x < -2147483648 then (-2147483648, 1) else if 2147483647 < x then (2147483647, 1) else (x, 0)

/-! ## The stochastic-rounding generator (R79) -/

def srg (tensorId step idx : Nat) : Nat :=
  let key : BitVec 64 := BitVec.ofNat 64 (tensorId * 2 ^ 32 + step)
  let z := key ^^^ (BitVec.ofNat 64 idx * 0xB5E30C974A2D861F#64)
  let z := (z ^^^ (z >>> 31)) * 0x8F3A61C52D94B7E1#64
  let z := (z ^^^ (z >>> 29)) * 0xC2B419E75A6F0D93#64
  let z := (z ^^^ (z >>> 32)) * 0x6E17D5A39B28F4C1#64
  let z := z ^^^ (z >>> 33)
  z.toNat / 2 ^ 32

/-! ## Formats by code (Table 2.4) -/

def fmtFP32 : Nat := 0
def fmtFP16 : Nat := 1
def fmtBF16 : Nat := 2
def fmtE4M3 : Nat := 3
def fmtE5M2 : Nat := 4
def fmtINT8 : Nat := 5
def fmtBX8 : Nat := 6
def fmtBX4 : Nat := 7

/-- The scalar format of a code. -/
def scalarFmt (c : Nat) : Fmt := if c = 1 then fp16 else if c = 2 then bf16 else if c = 3 then e4m3 else if c = 4 then e5m2 else fp32

def isBx (c : Nat) : Bool := c == 6 || c == 7
def is16 (c : Nat) : Bool := c == 1 || c == 2
/-- FP8-E4M3, FP8-E5M2 or BX8. -/
def is8 (c : Nat) : Bool := c == 3 || c == 4 || c == 6

/-- Bytes of one element, or of one block (R71). -/
def unitBytes (c : Nat) : Nat :=
  if c = 0 then 4 else if c = 1 || c = 2 then 2 else if c = 6 then 33 else if c = 7 then 17 else 1

/-- Bytes of a row of `n` elements (R73). -/
def rowBytes (c n : Nat) : Nat := if isBx c then ((n + 31) / 32) * unitBytes c else n * unitBytes c

/-- Element `i` of the block at `a` (R71, R72). -/
def bxElem (rd : Nat → Byte) (c a i : Nat) : FNum :=
  let e := (rd a).toNat
  if e = 255 then .nan
  else
    let v := if c = 6 then e4m3.decode (rd (a + 1 + i)).toNat
      else
        let b := (rd (a + 1 + i / 2)).toNat
        e2m1.decode (if i % 2 = 0 then b % 16 else b / 16)
    v.mulX (FNum.pow2 ((e : Int) - 127))

/-- Element `j` of the row at `a`, as an exact value; INT8 as its integer (R81). -/
def elemAt (rd : Nat → Byte) (c a j : Nat) : FNum :=
  if isBx c then bxElem rd c (a + (j / 32) * unitBytes c) (j % 32)
  else if c = 5 then FNum.ofInt (int8 (rd (a + j)))
  else
    let n := unitBytes c
    (scalarFmt c).decode (leNat ((List.range n).map fun i => rd (a + j * n + i)))

/-- Element (k, n) of operand B of a cell operation, whose K runs down the rows (R73). -/
def elemDown (rd : Nat → Byte) (c a stride k n : Nat) : FNum :=
  if isBx c then bxElem rd c (a + (k / 32) * stride + n * unitBytes c) (k % 32) else elemAt rd c (a + k * stride) n

/-! ## Encoding rows (R73 to R75) -/

/-- The largest magnitude of a block. -/
def blockMax (xs : List FNum) : FNum := xs.foldl (fun b x => if b.lt x.abs then x.abs else b) FNum.zero

/-- R74 steps 4 to 6: the block exponent for a nonzero amax `m` × 2^`e`. -/
def blockExp (f : Fmt) (emax m : Nat) (e : Int) : Int :=
  let e0 := (topBit m : Int) + e - emax + 127
  let (q, l) := roundMag (f.mant + 1) f.lsbMin none m (e + 127 - e0)
  let code := (l - f.lsbMin).toNat * 2 ^ f.mant + q
  let r := if f.maxCode < code then e0 + 1 else e0
  if r < 0 then 0 else r

/-- The element format of a block format and its emax. -/
def bxFmt (c : Nat) : Fmt × Nat := if c = 6 then (e4m3, 8) else (e2m1, 2)

/-- The 32 element codes packed: bytes for BX8, nibble pairs for BX4. -/
def packCodes (c : Nat) (codes : List Nat) : List Byte :=
  if c = 6 then codes.map (BitVec.ofNat 8)
  else (List.range 16).map fun i => BitVec.ofNat 8 (codes.getD (2 * i) 0 + 16 * codes.getD (2 * i + 1) 0)

/-- A number as plain parts: sign, magnitude, power of two; infinities and NaN have magnitude 0. -/
def FNum.parts : FNum → Bool × Nat × Int
  | .nan => (false, 0, 1)
  | .inf neg => (neg, 0, 2)
  | .fin neg m e => (neg, m, e)

/-- One block from at most 32 values (R74, R75); its missing elements are +0. A block whose exponent passes 254 is
given by no rule: its bytes are free values of what R35 lets an output depend on (log entry 21). -/
def encodeBlock (c : Nat) (sat : Bool) (draw : Nat → Option Nat) (xs : List FNum) : List Byte :=
  let (f, emax) := bxFmt c
  let nanBlock := (255 : Byte) :: List.replicate (unitBytes c - 1) 0
  let big := fp32.decode fp32.maxCode
  if xs.any FNum.isNaN then nanBlock
  else if !sat && xs.any (fun x => !x.isFinite) then nanBlock
  else
    let ys := xs.map fun x => match x with
      | .inf n => if n then big.negate else big
      | y => y
    let exp : Int := match blockMax ys with
      | .fin _ m e => if m = 0 then 0 else blockExp f emax m e
      | _ => 0
    if 254 < exp then
      (List.range (unitBytes c)).map
        (Config.wideBlock c sat ((List.range xs.length).map draw) (xs.map FNum.parts))
    else
      let codes := (List.range 32).map fun i => match ys[i]? with
        | some y => f.encode true (draw i) (y.mulX (FNum.pow2 (127 - exp)))
        | none => 0
      BitVec.ofInt 8 exp :: packCodes c codes

/-- A row of values as bytes; `draw` is by column. -/
def encodeRow (c : Nat) (sat : Bool) (draw : Nat → Option Nat) (xs : List FNum) : List Byte :=
  if isBx c then
    (List.range ((xs.length + 31) / 32)).flatMap fun b =>
      encodeBlock c sat (fun i => draw (32 * b + i)) ((xs.drop (32 * b)).take 32)
  else if c = 5 then xs.map toInt8
  else
    let f := scalarFmt c
    (List.range xs.length).flatMap fun i => leBytes (unitBytes c) (f.encode sat (draw i) (xs.getD i .zero))

/-- A block copied to a block format that is the same (R81): a NaN code becomes canonical, and a NaN block has
elements 0 (log entry 22). -/
def copyBlock (c : Nat) (bs : List Byte) : List Byte :=
  match bs with
  | [] => []
  | e :: r =>
    if e = 255 then e :: List.replicate r.length 0
    else if c = 6 then e :: r.map fun b => if b = 0xFF then 0x7F else b
    else bs

/-- A scalar copied to the format it has (R81): its bits, but a NaN canonical and an INT8 −128 as −127. -/
def copyScalar (c code : Nat) : Nat :=
  if c = 5 then (if code = 128 then 129 else code)
  else if ((scalarFmt c).decode code).isNaN then (scalarFmt c).nanCode else code

/-- A row of `n` scalars copied. -/
def copyScalars (c n : Nat) (bs : List Byte) : List Byte :=
  (List.range n).flatMap fun j => leBytes (unitBytes c) (copyScalar c (fieldAt bs (j * unitBytes c) (unitBytes c)))

/-- A row of blocks copied. -/
def copyRow (c : Nat) : Nat → List Byte → List Byte
  | 0, _ => []
  | n + 1, bs => copyBlock c (bs.take (unitBytes c)) ++ copyRow c n (bs.drop (unitBytes c))

end Sys2Proof.Machine
end

