-- ==== Sys2Proof/Machine/Rim.lean ====
section
/-! DEFINITION. The Rim functions and the fixed reduction order (02_field.md R44, R46, R47). -/

namespace Sys2Proof.Machine

/-! ## Tables and constants (R46, R47): the FP32 values nearest the quantities named -/

/-- T[j] = RN32(2^(j/64)), as FP32 bits (R47). -/
def tableT : List Nat :=
  [0x3F800000, 0x3F8164D2, 0x3F82CD87, 0x3F843A29, 0x3F85AAC3, 0x3F871F62, 0x3F88980F, 0x3F8A14D5,
   0x3F8B95C2, 0x3F8D1ADF, 0x3F8EA43A, 0x3F9031DC, 0x3F91C3D3, 0x3F935A2B, 0x3F94F4F0, 0x3F96942D] ++
  [0x3F9837F0, 0x3F99E046, 0x3F9B8D3A, 0x3F9D3EDA, 0x3F9EF532, 0x3FA0B051, 0x3FA27043, 0x3FA43516,
   0x3FA5FED7, 0x3FA7CD94, 0x3FA9A15B, 0x3FAB7A3A, 0x3FAD583F, 0x3FAF3B79, 0x3FB123F6, 0x3FB311C4] ++
  [0x3FB504F3, 0x3FB6FD92, 0x3FB8FBAF, 0x3FBAFF5B, 0x3FBD08A4, 0x3FBF179A, 0x3FC12C4D, 0x3FC346CD,
   0x3FC5672A, 0x3FC78D75, 0x3FC9B9BE, 0x3FCBEC15, 0x3FCE248C, 0x3FD06334, 0x3FD2A81E, 0x3FD4F35B] ++
  [0x3FD744FD, 0x3FD99D16, 0x3FDBFBB8, 0x3FDE60F5, 0x3FE0CCDF, 0x3FE33F89, 0x3FE5B907, 0x3FE8396A,
   0x3FEAC0C7, 0x3FED4F30, 0x3FEFE4BA, 0x3FF28177, 0x3FF5257D, 0x3FF7D0DF, 0x3FFA83B3, 0x3FFD3E0C]

/-- RJ[j] = RN32(1/(1 + j/64)), as FP32 bits (R47). -/
def tableRJ : List Nat :=
  [0x3F800000, 0x3F7C0FC1, 0x3F783E10, 0x3F74898D, 0x3F70F0F1, 0x3F6D7304, 0x3F6A0EA1, 0x3F66C2B4,
   0x3F638E39, 0x3F607038, 0x3F5D67C9, 0x3F5A740E, 0x3F579436, 0x3F54C77B, 0x3F520D21, 0x3F4F6475] ++
  [0x3F4CCCCD, 0x3F4A4588, 0x3F47CE0C, 0x3F4565C8, 0x3F430C31, 0x3F40C0C1, 0x3F3E82FA, 0x3F3C5264,
   0x3F3A2E8C, 0x3F381703, 0x3F360B61, 0x3F340B41, 0x3F321643, 0x3F302C0B, 0x3F2E4C41, 0x3F2C7692] ++
  [0x3F2AAAAB, 0x3F28E83F, 0x3F272F05, 0x3F257EB5, 0x3F23D70A, 0x3F2237C3, 0x3F20A0A1, 0x3F1F1166,
   0x3F1D89D9, 0x3F1C09C1, 0x3F1A90E8, 0x3F191F1A, 0x3F17B426, 0x3F164FDA, 0x3F14F209, 0x3F139A86] ++
  [0x3F124925, 0x3F10FDBC, 0x3F0FB824, 0x3F0E7835, 0x3F0D3DCB, 0x3F0C08C1, 0x3F0AD8F3, 0x3F09AE41,
   0x3F088889, 0x3F0767AB, 0x3F064B8A, 0x3F053408, 0x3F042108, 0x3F03126F, 0x3F020821, 0x3F010204]

/-- LT[j] = RN32(log2(1 + j/64)), as FP32 bits (R47). -/
def tableLT : List Nat :=
  [0x00000000, 0x3CB73CB4, 0x3D35D69C, 0x3D8759C5, 0x3DB31FB8, 0x3DDE4212, 0x3E0462C4, 0x3E19574F,
   0x3E2E00D2, 0x3E42615F, 0x3E567AF1, 0x3E6A4F72, 0x3E7DE0B6, 0x3E88983F, 0x3E92203D, 0x3E9B8926] ++
  [0x3EA4D3C2, 0x3EAE00D2, 0x3EB7110E, 0x3EC0052B, 0x3EC8DDD4, 0x3ED19BB0, 0x3EDA3F60, 0x3EE2C97D,
   0x3EEB3A9F, 0x3EF39355, 0x3EFBD42B, 0x3F01FED4, 0x3F060828, 0x3F0A0650, 0x3F0DF989, 0x3F11E20F] ++
  [0x3F15C01A, 0x3F1993E3, 0x3F1D5DA0, 0x3F211D84, 0x3F24D3C2, 0x3F28808C, 0x3F2C2411, 0x3F2FBE80,
   0x3F335004, 0x3F36D8CB, 0x3F3A58FF, 0x3F3DD0C8, 0x3F41404F, 0x3F44A7BA, 0x3F480731, 0x3F4B5ED7] ++
  [0x3F4EAED0, 0x3F51F740, 0x3F553848, 0x3F587209, 0x3F5BA4A4, 0x3F5ED039, 0x3F61F4E5, 0x3F6512C7,
   0x3F6829FB, 0x3F6B3A9F, 0x3F6E44CD, 0x3F7148A1, 0x3F744636, 0x3F773DA4, 0x3F7A2F04, 0x3F7D1A71]

/-- L2E = log2(e), as FP32 bits (R46). -/
def constL2E : Nat := 0x3FB8AA3B
/-- LN2 = ln(2) (R46). -/
def constLN2 : Nat := 0x3F317218
/-- K0 = √(2/π) (R46). -/
def constK0 : Nat := 0x3F4C422A
/-- C3 = 0.044715 (R46). -/
def constC3 : Nat := 0x3D372713
/-- c_1 = LN2 (R47). -/
def constE1 : Nat := 0x3F317218
/-- c_2 = LN2^2/2 (R47). -/
def constE2 : Nat := 0x3E75FDF0
/-- c_3 = LN2^3/6 (R47). -/
def constE3 : Nat := 0x3D635847
/-- d_1 = 1/LN2 (R47). -/
def constD1 : Nat := 0x3FB8AA3B
/-- d_2 = −1/(2 LN2) (R47). -/
def constD2 : Nat := 0xBF38AA3B
/-- d_3 = 1/(3 LN2) (R47). -/
def constD3 : Nat := 0x3EF6384F
/-- d_4 = −1/(4 LN2) (R47). -/
def constD4 : Nat := 0xBEB8AA3B

def tab (l : List Nat) (j : Nat) : FNum := ofBits (l.getD j 0)

def one : FNum := FNum.ofNat 1
def half : FNum := FNum.pow2 (-1)

/-! ## Square roots and reciprocals, correctly rounded: an exact floor with a sticky bit below it -/

/-- The bits of ⌊√n⌋ from bit `k` − 1 down, above `r`. -/
def isqrtFrom : Nat → Nat → Nat → Nat
  | 0, _, r => r
  | k + 1, n, r => isqrtFrom k n (if (r + 2 ^ k) * (r + 2 ^ k) ≤ n then r + 2 ^ k else r)

def isqrt (n : Nat) : Nat := isqrtFrom (topBit n / 2 + 1) n 0

/-- RCP (Table 2.7). -/
def rcp : FNum → FNum
  | .nan => .nan
  | .inf n => .fin n 0 0
  | .fin n m e =>
    if m = 0 then .inf n
    else
      let k := 64 + topBit m
      rn32 (.fin n (2 * (2 ^ k / m) + (if 2 ^ k % m = 0 then 0 else 1)) (-e - k - 1))

/-- SQRT (Table 2.7). -/
def fsqrt : FNum → FNum
  | .nan => .nan
  | .inf n => if n then .nan else .inf false
  | .fin n m e =>
    if m = 0 then .fin n 0 0
    else if n then .nan
    else
      let sh := 64 + ((e % 2).toNat)
      let v := m * 2 ^ sh
      let r := isqrt v
      rn32 (.fin false (2 * r + (if r * r = v then 0 else 1)) ((e - sh) / 2 - 1))

/-- RSQRT (Table 2.7). -/
def rsqrt : FNum → FNum
  | .nan => .nan
  | .inf n => if n then .nan else .fin false 0 0
  | .fin n m e =>
    if m = 0 then .inf n
    else if n then .nan
    else
      let odd := e % 2 = 1
      let m := if odd then 2 * m else m
      let e := if odd then e - 1 else e
      let k := 64 + topBit m
      let r := isqrt (2 ^ (2 * k) / m)
      rn32 (.fin false (2 * r + (if r * r * m = 2 ^ (2 * k) then 0 else 1)) (-(e / 2) - k - 1))

/-! ## EXP2 and LOG2 (R47) -/

/-- ⌊x⌋ of a finite value. -/
def floorNum (neg : Bool) (m : Nat) (e : Int) : Int :=
  if 0 ≤ e then
    let v : Int := (m * 2 ^ e.toNat : Nat)
    if neg then -v else v
  else
    let d := 2 ^ (-e).toNat
    if neg then -(((m + d - 1) / d : Nat) : Int) else ((m / d : Nat) : Int)

/-- ⌊64 f⌋ for 0 ≤ f < 1. -/
def floor64 : FNum → Nat
  | .fin neg m e => (floorNum neg (64 * m) e).toNat
  | _ => 0

/-- j/64. -/
def sixtyFourth (j : Nat) : FNum := .fin false j (-6)

def exp2 : FNum → FNum
  | .nan => .nan
  | .inf n => if n then .zero else .inf false
  | .fin neg m e =>
    let x := FNum.fin neg m e
    if (FNum.ofNat 128).le x then .inf false
    else
      let n := floorNum neg m e
      let f := sumX [x, (FNum.ofInt n).negate]
      let j := floor64 f
      let r := sumX [f, (sixtyFourth j).negate]
      let p := fma r (fma r (fma r (ofBits constE3) (ofBits constE2)) (ofBits constE1)) one
      rn32 (((tab tableT j).mulX p).mulX (FNum.pow2 n))

def log2 : FNum → FNum
  | .nan => .nan
  | .inf n => if n then .nan else .inf false
  | .fin neg m e =>
    if m = 0 then .inf true
    else if neg then .nan
    else
      let t := topBit m
      let mm := FNum.fin false m (-(t : Int))
      let j := floor64 (sumX [mm, one.negate])
      let u := sumX [mm, one.negate, (sixtyFourth j).negate]
      let t1 := rn32 (u.mulX (tab tableRJ j))
      let p := fmul t1 (fma t1 (fma t1 (fma t1 (ofBits constD4) (ofBits constD3)) (ofBits constD2)) (ofBits constD1))
      fadd (fadd (tab tableLT j) p) (FNum.ofInt (e + t))

/-- EXP (Table 2.7). -/
def fexp (x : FNum) : FNum :=
  match x with
  | .inf n => if n then .zero else .inf false
  | _ => exp2 (fmul x (ofBits constL2E))

/-- LOG (Table 2.7). -/
def flog (x : FNum) : FNum := fmul (log2 x) (ofBits constLN2)

/-- ±1 by the sign. -/
def signOne (x : FNum) : FNum := if x.isNeg then one.negate else one

/-- TANH (Table 2.7). -/
def ftanh (x : FNum) : FNum :=
  match x with
  | .nan => .nan
  | .inf n => if n then one.negate else one
  | .fin _ m e =>
    if x.abs.lt (FNum.pow2 (-12)) then x
    else
      let t := exp2 (fmul (FNum.fin true (2 * m) e) (ofBits constL2E))
      fmul (fmul (signOne x) (fsub one t)) (rcp (fadd one t))

/-- SIGMOID (Table 2.7). -/
def sigmoid (x : FNum) : FNum :=
  match x with
  | .inf n => if n then .zero else one
  | _ => rcp (fadd one (fexp x.negate))

/-- SILU (Table 2.7). -/
def silu (x : FNum) : FNum :=
  match x with
  | .inf true => .fin true 0 0
  | _ => fmul x (sigmoid x)

/-- GELU_T (Table 2.7). -/
def gelu (x : FNum) : FNum :=
  match x with
  | .inf n => if n then .fin true 0 0 else .inf false
  | _ =>
    let x3 := fmul (fmul x x) x
    let t := ftanh (fmul (ofBits constK0) (fadd x (fmul (ofBits constC3) x3)))
    fmul (fmul half x) (fadd one t)

/-- The Rim function of an ACT code (Table 2.7). -/
def rimFn (code : Nat) (x : FNum) : FNum :=
  match code with
  | 1 => fmax x .zero
  | 2 => exp2 x
  | 3 => fexp x
  | 4 => log2 x
  | 5 => flog x
  | 6 => rcp x
  | 7 => fsqrt x
  | 8 => rsqrt x
  | 9 => ftanh x
  | 10 => sigmoid x
  | 11 => silu x
  | 12 => gelu x
  | _ => x

/-! ## The fixed reduction order (R44) -/

/-- The reductions of REDUCE. -/
inductive Rop where
  | sum | max | min | sumsq
deriving DecidableEq, Repr

def ropOf (code : Nat) : Rop := if code = 1 then .max else if code = 2 then .min else if code = 3 then .sumsq else .sum

/-- A lane's first element. -/
def Rop.start : Rop → FNum → FNum
  | .sumsq, x => fmul x x
  | _, x => x

/-- A later element combined into a lane. -/
def Rop.step : Rop → FNum → FNum → FNum
  | .sum, a, x => fadd a x
  | .max, a, x => fmax a x
  | .min, a, x => fmin a x
  | .sumsq, a, x => fma x x a

/-- Two lane results combined; sums of squares are added (log entry 23). -/
def Rop.pair : Rop → FNum → FNum → FNum
  | .sum, a, b => fadd a b
  | .max, a, b => fmax a b
  | .min, a, b => fmin a b
  | .sumsq, a, b => fadd a b

/-- Pairs (0, 1), (2, 3), … of one level; a pair with one absent member passes the other on. -/
def treeLevel (f : FNum → FNum → FNum) : List (Option FNum) → List (Option FNum)
  | a :: b :: r =>
    (match a, b with
      | some x, some y => some (f x y)
      | some x, none => some x
      | none, o => o) :: treeLevel f r
  | l => l

/-- `n` levels of the tree. -/
def treeLevels (f : FNum → FNum → FNum) : Nat → List (Option FNum) → List (Option FNum)
  | 0, l => l
  | n + 1, l => treeLevels f n (treeLevel f l)

/-- Lane `j`: elements j, j + 256, … in ascending order. -/
def laneOf (op : Rop) (xs : List FNum) (j : Nat) : Option FNum :=
  let mine := (List.range ((xs.length + 255 - j) / 256)).map fun i => xs.getD (j + 256 * i) .zero
  match mine with
  | [] => none
  | x :: r => some (r.foldl op.step (op.start x))

/-- A row reduced to one element (R44); an empty row has no element. -/
def reduceRow (op : Rop) (xs : List FNum) : Option FNum :=
  ((treeLevels op.pair 8 ((List.range 256).map (laneOf op xs))).head?).join

/-- Row values combined by a binary tree over 2^`n` rows, absent ones +0, added with RN32 (07_training.md R193). -/
def sumTree : Nat → List FNum → FNum
  | 0, l => l.headD .zero
  | n + 1, l => fadd (sumTree n (l.take (2 ^ n))) (sumTree n (l.drop (2 ^ n)))

/-- ⌈log2 n⌉. -/
def clog2 (n : Nat) : Nat := if n ≤ 1 then 0 else Nat.log2 (n - 1) + 1

end Sys2Proof.Machine
end

