-- ==== Sys2Proof/Machine/Fop.lean ====
section
/-! DEFINITION. The Field operation descriptor and its well-formedness (02_field.md R27 to R50; 07_training.md R192,
R203). -/

namespace Sys2Proof.Machine

/-- A Field operation descriptor (Table 2.3); `raw` holds its 128 bytes. -/
structure FOp where
  raw       : List Byte
  cls       : Nat
  width     : Nat
  accShape  : Nat
  wait      : Bool
  plateLive : Bool
  hasC      : Bool
  hasBias   : Bool
  fmtA      : Nat
  fmtB      : Nat
  fmtOut    : Nat
  fmtC      : Nat
  sr        : Bool
  sat       : Bool
  last      : Bool
  act       : Nat
  waitTag   : Nat
  m         : Nat
  n         : Nat
  k         : Nat
  kr        : Nat
  pm        : Nat
  pn        : Nat
  pk        : Nat
  tensorId  : Nat
  addrA     : Nat
  addrB     : Nat
  addrC     : Nat
  addrOut   : Nat
  addrBias  : Nat
  strideA   : Nat
  strideB   : Nat
  strideC   : Nat
  strideOut : Nat
  scaleA    : FNum
  scaleB    : FNum
  scaleOut  : FNum
  plateOff  : Nat

/-- The word at an offset of the descriptor. -/
def FOp.word (o : FOp) (off : Nat) : Nat := fieldAt o.raw off 4

def fop (d : List Byte) : FOp :=
  let w0 := fieldAt d 0 4
  let w1 := fieldAt d 4 4
  let w6 := fieldAt d 0x18 4
  let raw := slice d 0 128
  { raw := raw, cls := bits w0 7 0, width := bits w0 9 8, accShape := bits w0 11 10, wait := bit w0 12,
    plateLive := bit w0 13, hasC := bit w0 14, hasBias := bit w0 15, fmtA := bits w0 19 16, fmtB := bits w0 23 20,
    fmtOut := bits w0 27 24, fmtC := bits w0 31 28, sr := bit w1 0, sat := bit w1 1, last := bit w1 2,
    act := bits w1 15 8, waitTag := bits w1 31 16, m := fieldAt d 8 4, n := fieldAt d 0xC 4, k := fieldAt d 0x10 4,
    kr := fieldAt d 0x14 4, pm := bits w6 7 0, pn := bits w6 15 8, pk := bits w6 19 16,
    tensorId := fieldAt d 0x1C 4, addrA := fieldAt d 0x20 6, addrB := fieldAt d 0x28 6, addrC := fieldAt d 0x30 6,
    addrOut := fieldAt d 0x38 6, addrBias := fieldAt d 0x40 6, strideA := fieldAt d 0x48 4,
    strideB := fieldAt d 0x4C 4, strideC := fieldAt d 0x50 4, strideOut := fieldAt d 0x54 4,
    scaleA := ofBits (fieldAt d 0x58 4), scaleB := ofBits (fieldAt d 0x5C 4), scaleOut := ofBits (fieldAt d 0x60 4),
    plateOff := bits (fieldAt d 0x64 4) 24 0 }

/-! ## Class codes (Table 2.5) -/

def clMatmul : Nat := 1
def clBmatmul : Nat := 2
def clConv : Nat := 3
def clDwconv : Nat := 4
def clAttend : Nat := 5
def clElem : Nat := 6
def clReduce : Nat := 7
def clNorm : Nat := 8
def clRepack : Nat := 9
def clGather : Nat := 10
def clScatter : Nat := 11
def clOptstep : Nat := 12
def clStats : Nat := 13

/-- Classes that run on cells. -/
def FOp.cells (o : FOp) : Bool := 1 ≤ o.cls && o.cls ≤ 5

/-- The dot width D of an operand pair (Table 2.2); none when the formats form no pair. -/
def pairD (a b : Nat) : Option Nat :=
  if a == 7 && b == 7 then some 8
  else if is8 a && is8 b then some 4
  else if a == 5 && b == 5 then some 4
  else if is16 a && is16 b then some 2
  else if a == 0 && b == 0 then some 1
  else none

/-- D of an operation on cells: 1 for DWCONV (R31, R41). -/
def FOp.dotD (o : FOp) : Nat := if o.cls = clDwconv then 1 else (pairD o.fmtA o.fmtB).getD 1

/-! ## CLASS_ARGS (Tables 2.6 and 2.8) -/

/-- A convolution's arguments, one entry each for W, H and D. -/
structure ConvArgs where
  inp    : Nat × Nat × Nat
  kern   : Nat × Nat × Nat
  stride : Nat × Nat × Nat
  dil    : Nat × Nat × Nat
  pad    : Nat × Nat × Nat
  dims   : Nat
  groups : Nat
  batch  : Nat

def FOp.conv (o : FOp) : ConvArgs :=
  let a := o.word 0x68
  let b := o.word 0x6C
  let c := o.word 0x70
  let d := o.word 0x74
  { inp := (bits a 15 0, bits a 31 16, bits b 15 0), kern := (bits b 23 16, bits b 31 24, bits c 7 0),
    stride := (bits c 19 16, bits c 23 20, bits c 27 24), dil := (bits d 3 0, bits d 7 4, bits d 11 8),
    pad := (bits d 19 16, bits d 23 20, bits d 27 24), dims := bits c 9 8, groups := bits (o.word 0x78) 23 0,
    batch := bits (o.word 0x7C) 23 0 }

/-- An output size of R40, as an integer. -/
def outSize (i p l k s : Nat) : Int := ((i : Int) + 2 * p - l * ((k : Int) - 1) - 1) / (s : Int) + 1

def ConvArgs.ow (c : ConvArgs) : Int := outSize c.inp.1 c.pad.1 c.dil.1 c.kern.1 c.stride.1
def ConvArgs.oh (c : ConvArgs) : Int := outSize c.inp.2.1 c.pad.2.1 c.dil.2.1 c.kern.2.1 c.stride.2.1
def ConvArgs.od (c : ConvArgs) : Int := outSize c.inp.2.2 c.pad.2.2 c.dil.2.2 c.kern.2.2 c.stride.2.2
def ConvArgs.taps (c : ConvArgs) : Nat := c.kern.1 * c.kern.2.1 * c.kern.2.2

/-- A convolution's arguments break a limit of Table 2.6 or R40. -/
def convBad (o : FOp) : Bool :=
  let c := o.conv
  let neutral := fun (f : (Nat × Nat × Nat) → Nat) => f c.inp == 1 && f c.kern == 1 && f c.stride == 1 && f c.dil == 1 && f c.pad == 0
  bits (o.word 0x70) 15 10 != 0 || bits (o.word 0x70) 31 28 != 0 || bits (o.word 0x74) 15 12 != 0 ||
    bits (o.word 0x74) 31 28 != 0 || bits (o.word 0x78) 31 24 != 0 || bits (o.word 0x7C) 31 24 != 0 ||
    c.dims == 0 || c.inp.1 == 0 || c.inp.2.1 == 0 || c.inp.2.2 == 0 || c.taps == 0 ||
    c.stride.1 == 0 || c.stride.2.1 == 0 || c.stride.2.2 == 0 || c.dil.1 == 0 || c.dil.2.1 == 0 || c.dil.2.2 == 0 ||
    c.groups == 0 || c.batch == 0 ||
    (c.dims == 1 && !neutral (·.2.1)) || (c.dims ≤ 2 && !neutral (·.2.2)) ||
    c.ow < 1 || c.oh < 1 || c.od < 1 || (o.m : Int) != c.batch * c.od * c.oh * c.ow || o.k % c.taps != 0 || o.k == 0

def FOp.batch (o : FOp) : Nat := o.word 0x68
def FOp.qpos (o : FOp) : Nat := bits (o.word 0x68) 21 0
def FOp.kvpos (o : FOp) : Nat := bits (o.word 0x6C) 21 0
def FOp.kvcount (o : FOp) : Nat := bits (o.word 0x70) 20 0
def FOp.blk (o : FOp) : Nat := bits (o.word 0x74) 3 0
def FOp.amode (o : FOp) : Nat := bits (o.word 0x74) 5 4
def FOp.causal (o : FOp) : Bool := bit (o.word 0x74) 6
def FOp.headdim (o : FOp) : Nat := bits (o.word 0x74) 23 16 + 1
def FOp.heads (o : FOp) : Nat := bits (o.word 0x78) 15 0
def FOp.softmaxScale (o : FOp) : FNum := ofBits (o.word 0x7C)

/-- ATTEND breaks a limit of Table 2.8, R42 or R43 (log entry 24: V must pair with the format p takes). -/
def attendBad (o : FOp) : Bool :=
  bits (o.word 0x68) 31 22 != 0 || bits (o.word 0x6C) 31 22 != 0 || bits (o.word 0x70) 31 21 != 0 ||
    bits (o.word 0x74) 15 7 != 0 || bits (o.word 0x74) 31 24 != 0 || bits (o.word 0x78) 31 16 != 0 ||
    o.amode == 3 || o.blk < 6 || 12 < o.blk || !o.hasC || o.pk != 1 || o.n != o.headdim || o.k != o.headdim ||
    (o.amode != 2 && !(is16 o.fmtC || is8 o.fmtC)) || 4194304 < o.qpos + o.m ||
    (if o.amode == 2 then o.kvcount < 2 || 64 < o.kvcount
     else o.kvcount == 0 || 1048576 < o.kvcount || 4194304 < o.kvpos + o.kvcount) ||
    (64 < o.kvcount && o.kvcount < 2 ^ o.blk)

/-- SMODE, and the unit an OPTSTEP, CHECK or NOISE names. -/
def FOp.smode (o : FOp) : Nat := bits (o.word 0x68) 3 0
def FOp.tu (o : FOp) : Nat := bits (o.word 0x6C) 5 0
def FOp.binop (o : FOp) : Nat := bits (o.word 0x68) 7 0
def FOp.nmode (o : FOp) : Nat := bits (o.word 0x68) 1 0
def FOp.gsize (o : FOp) : Nat := bits (o.word 0x68) 23 8
def FOp.addMode (o : FOp) : Bool := bit (o.word 0x68) 0

/-- OPTSTEP arguments (Table 7.7). -/
def FOp.alg (o : FOp) : Nat := bits (o.word 0x68) 1 0
def FOp.wout (o : FOp) : Bool := bit (o.word 0x68) 2
def FOp.nesterov (o : FOp) : Bool := bit (o.word 0x68) 3
def FOp.biascorr (o : FOp) : Bool := bit (o.word 0x68) 4
def FOp.hpVa (o : FOp) : Nat := fieldAt o.raw 0x70 6
def FOp.idxBase (o : FOp) : Nat := fieldAt o.raw 0x78 8

/-- A class's constraints on CLASS_ARGS and shapes (R39 to R45). -/
def classBad (o : FOp) : Bool :=
  let args := o.raw.drop 0x68
  let zeroFrom := fun (i : Nat) => (args.drop i).any (· != 0)
  if o.cls = 1 then zeroFrom 0
  else if o.cls = 2 then o.batch == 0 || zeroFrom 20
  else if o.cls = 3 then convBad o
  else if o.cls = 4 then
    convBad o || o.conv.groups != o.n || o.k != o.conv.taps || o.pk != 1 || (o.n + 255) / 256 < o.pn || o.accShape != 1
  else if o.cls = 5 then attendBad o
  else if o.cls = 6 then 5 < o.binop || bits (o.word 0x68) 31 8 != 0 || zeroFrom 4 || o.k != 0 || o.kr != 0
  else if o.cls = 7 then 3 < o.binop || bits (o.word 0x68) 31 8 != 0 || zeroFrom 4 || o.k != 0 || o.kr != 0 || o.pn != 1 || o.pk != 1
  else if o.cls = 8 then
    o.nmode == 3 || bits (o.word 0x68) 7 2 != 0 || bits (o.word 0x68) 31 24 != 0 || zeroFrom 8 || o.k != 0 || o.kr != 0 ||
      o.pn != 1 || o.pk != 1 || (if o.nmode == 2 then o.gsize == 0 || o.n % o.gsize != 0 else o.gsize != 0)
  else if o.cls = 9 then zeroFrom 0 || o.k != 0 || o.kr != 0
  else if o.cls = 10 then zeroFrom 0 || o.kr != 0
  else if o.cls = 11 then bits (o.word 0x68) 31 1 != 0 || zeroFrom 4 || o.kr != 0
  else false

/-- Table 7.2 and R192. -/
def statsBad (o : FOp) : Bool :=
  let sm := o.smode
  let bsmall := o.word 0x70
  let bbig := o.word 0x74
  let ncon := o.word 0x78
  3 < sm || bits (o.word 0x68) 31 4 != 0 || bits (o.word 0x6C) 31 6 != 0 || o.pn != 1 || o.pk != 1 || o.k != o.n || o.kr != o.n ||
    o.hasC || o.hasBias || o.act != 0 || o.fmtOut != 0 || (sm < 2 && o.tu != 0) ||
    (sm ≥ 2 && (o.m != 1 || o.n != 1 || o.fmtA != 0)) ||
    (if sm == 3 then
        bsmall == 0 || 16777215 < bsmall || bbig ≤ bsmall || 16777216 < bbig || ncon == 0 || 16777216 < ncon ||
          bits (o.word 0x7C) 15 0 == 0 || bits (o.word 0x7C) 31 16 == 0
      else bsmall != 0 || bbig != 0 || ncon != 0 || o.word 0x7C != 0)

/-- Tables 7.6 and 7.7. -/
def optstepBad (o : FOp) : Bool :=
  let oneBits := fun (off : Nat) => o.word off == 0x3F800000
  o.alg == 3 || bits (o.word 0x68) 31 5 != 0 || bits (o.word 0x6C) 31 6 != 0 || fieldAt o.raw 0x76 2 != 0 || o.hpVa % 32 != 0 ||
    (o.nesterov && o.alg != 1) || (o.biascorr && o.alg != 0) || 2 < o.fmtA || o.fmtB != 0 || o.fmtC != 6 || !o.hasC ||
    o.hasBias != (o.alg == 0) || (if o.wout then o.fmtOut == 5 else o.addrOut != 0 || o.fmtOut != 0) ||
    o.k != o.n || o.kr != o.n || o.n % 32 != 0 || o.pn != 1 || o.pk != 1 || o.act != 0 || !oneBits 0x58 || !oneBits 0x5C

/-- Rows the operation puts out: batches, groups and heads come outermost (R80); GATHER puts out one row per index. -/
def FOp.outRows (o : FOp) : Nat :=
  if o.cls = 2 then o.batch * o.m else if o.cls = 5 then o.heads * o.m else if o.cls = 10 then o.k
  else if o.cls = 13 then 1 else o.m

/-- Columns of an output row. -/
def FOp.outCols (o : FOp) : Nat :=
  if o.cls = 3 then o.conv.groups * o.n else if o.cls = 7 then 1 else if o.cls = 13 then o.smode + 1
  else if o.cls = 5 && o.amode == 1 then o.headdim + 2 else o.n

/-- Rows that PM splits (R33): M, with batches, groups and heads outermost (R39, R40); the one row of a STATS. -/
def FOp.splitRows (o : FOp) : Nat :=
  if o.cls = 2 then o.batch * o.m else if o.cls = 3 then o.conv.groups * o.m else if o.cls = 5 then o.heads * o.m
  else if o.cls = 13 then 1 else o.m

/-- Columns that PN splits (R33): N, or the columns of a record, a REDUCE or a STATS. -/
def FOp.splitCols (o : FOp) : Nat := if o.cls = 3 then o.n else o.outCols

/-- Rows and columns of a logical array's block (R33). -/
def cdiv (a b : Nat) : Nat := (a + b - 1) / b
def FOp.mr (o : FOp) : Nat := cdiv o.splitRows o.pm
def FOp.nr (o : FOp) : Nat := cdiv o.splitCols o.pn

/-- The formats of a PARTIAL record and of STATS results are FP32. -/
def FOp.outFmt (o : FOp) : Nat := if o.cls = 5 && o.amode == 1 then 0 else o.fmtOut

/-- The live tile passes the end of Plate (R49). -/
def tileTooBig (o : FOp) : Bool := o.plateLive && 33554432 < o.plateOff + o.mr * rowBytes o.outFmt o.nr

/-- A descriptor is malformed on its own (R38), for a command of WIDTH code `w`. -/
def fopBad (o : FOp) (w : Nat) : Bool :=
  let width := if o.width = 0 then 24 else if o.width = 1 then 20 else 16
  o.cls == 0 || 13 < o.cls || o.width == 3 || o.width != w || o.accShape == 3 || 7 < o.fmtA || 7 < o.fmtB || 7 < o.fmtOut ||
    7 < o.fmtC || bits (o.word 4) 7 3 != 0 || 12 < o.act || bits (o.word 0x18) 31 20 != 0 ||
    fieldAt o.raw 0x26 2 != 0 || fieldAt o.raw 0x2E 2 != 0 || fieldAt o.raw 0x36 2 != 0 || fieldAt o.raw 0x3E 2 != 0 ||
    fieldAt o.raw 0x46 2 != 0 || bits (o.word 0x64) 31 25 != 0 || (o.sr && (o.fmtOut == 0 || o.fmtOut == 5)) ||
    o.pm * o.pn * o.pk != width || !(o.pk == 1 || o.pk == 2 || o.pk == 4 || o.pk == 8) ||
    (o.cells && ((pairD o.fmtA o.fmtB).isNone || o.kr % o.dotD != 0 ||
      ((isBx o.fmtA || isBx o.fmtB) && o.kr % 32 != 0) || o.k ≤ (o.pk - 1) * o.kr || o.pk * o.kr < o.k)) ||
    classBad o || (o.cls == 13 && statsBad o) || (o.cls == 12 && optstepBad o) || (o.plateLive && o.last) || tileTooBig o

/-- The conditions that relate a descriptor to the one before it (R49, R50). -/
def pairBad (prev : Option FOp) (o : FOp) : Bool :=
  match prev with
  | none => false
  | some p =>
    p.plateLive && (o.wait || !(o.cls == 6 || o.cls == 8) || o.width != p.width || o.pm != p.pm || o.pn != p.pn ||
      o.pk != p.pk || o.m != p.m || o.n != p.n || o.plateOff != p.plateOff || o.fmtA != p.fmtOut)

end Sys2Proof.Machine
end

