-- ==== Sys2Proof/Machine/Compute.lean ====
section
/-! DEFINITION. What the Field operations compute: dot-adds, partial sums, the epilogue, and each class's output rows
(02_field.md R28 to R45). `rd` reads a byte of the command's memory. -/

namespace Sys2Proof.Machine

/-! ## What an operation puts out -/

/-- One output row: values to convert to FMT_OUT, elements or blocks copied unchanged beside the values they hold, or
nothing. -/
inductive RowOut where
  | vals (xs : List FNum)
  | blocks (bs : List Byte) (xs : List FNum)
  | keep
deriving DecidableEq, Repr

/-- An operation's outputs: its rows, writes beside them, INT32 clampings, the values after R36 step 5, and what its
accumulators end with: row and column among those the split factors divide, and the partial sum of each K range. -/
structure OpOut where
  rows  : List RowOut
  extra : List (Nat × List Byte)
  sats  : Nat
  ys    : List FNum
  accs  : List (Nat × Nat × List Word) := []
deriving DecidableEq, Repr

/-! ## Dot-adds (R28, R29) -/

/-- One floating-point dot-add. -/
def dotAdd (acc : FNum) (ps : List FNum) : FNum := rn32 (sumX (acc :: ps))

/-- Products of group `g` of the range [lo, hi): indices at or beyond `hi` read +0. -/
def groupProducts (d : Nat) (a b : Nat → FNum) (lo hi g : Nat) : List FNum :=
  (List.range d).map fun i =>
    let k := lo + g * d + i
    if k < hi then (a k).mulX (b k) else .zero

/-- A K range of floating-point operands, from accumulator `acc`. -/
def dotFrom (acc : FNum) (d : Nat) (a b : Nat → FNum) (lo hi : Nat) : FNum :=
  (List.range (cdiv (hi - lo) d)).foldl (fun acc g => dotAdd acc (groupProducts d a b lo hi g)) acc

/-- A K range of INT8 operands: the clamped sum and the number of clampings. -/
def dotInt (d : Nat) (a b : Nat → FNum) (lo hi : Nat) : Int × Nat :=
  (List.range (cdiv (hi - lo) d)).foldl
    (fun (acc : Int × Nat) g =>
      let t := (groupProducts d a b lo hi g).foldl (fun (x : Int) p => x + p.units 0) acc.1
      ((clamp32 t).1, acc.2 + (clamp32 t).2)) (0, 0)

/-- An accumulator value after its K ranges are combined (R34), as an exact value, and the clampings. -/
def cellValue (o : FOp) (a b : Nat → FNum) : FNum × Nat :=
  let hi := fun ik => min o.k ((ik + 1) * o.kr)
  if o.fmtA = 5 then
    let parts := (List.range o.pk).map fun ik => dotInt o.dotD a b (ik * o.kr) (hi ik)
    match parts with
    | [] => (.zero, 0)
    | p :: r =>
      let t := r.foldl (fun (x : Int × Nat) (q : Int × Nat) =>
        ((clamp32 (x.1 + q.1)).1, x.2 + q.2 + (clamp32 (x.1 + q.1)).2)) p
      (FNum.ofInt t.1, t.2)
  else
    let parts := (List.range o.pk).map fun ik => dotFrom .zero o.dotD a b (ik * o.kr) (hi ik)
    match parts with
    | [] => (.zero, 0)
    | p :: r => (r.foldl fadd p, 0)

/-- The partial sums P0 … P(PK−1) as the accumulators of the arrays ik = 0 … PK − 1 hold them: FP32, or INT32 (R34). -/
def cellParts (o : FOp) (a b : Nat → FNum) : List Word :=
  (List.range o.pk).map fun ik =>
    let hi := min o.k ((ik + 1) * o.kr)
    if o.fmtA = 5 then BitVec.ofInt 32 (dotInt o.dotD a b (ik * o.kr) hi).1
    else toBits (dotFrom .zero o.dotD a b (ik * o.kr) hi)

/-! ## The epilogue (R36) -/

/-- Steps 1 to 5: the value that leaves the Rim function. -/
def epilogueY (o : FOp) (v : FNum) (c bias : FNum) : FNum :=
  let v := if o.fmtA = 5 then rn32 v else v
  let v := if 3 ≤ o.fmtA then fmul v (fmul o.scaleA o.scaleB) else v
  let v := if o.hasC && o.cls != clAttend then fadd v (rn32 c) else v
  let v := if o.hasBias then fadd v (rn32 bias) else v
  rimFn o.act v

/-- A row of accumulator values through the epilogue; `c` and `bias` by column. -/
def epilogueRow (o : FOp) (c bias : Nat → FNum) (vs : List (FNum × Nat)) : List FNum × List FNum × Nat :=
  let ys := (List.range vs.length).map fun j => epilogueY o (vs.getD j (.zero, 0)).1 (c j) (bias j)
  (ys, ys.map fun y => fmul y o.scaleOut, vs.foldl (fun n v => n + v.2) 0)

/-- Rows of a cell class, given each row's accumulator values and its C row. -/
def cellRows (o : FOp) (n : Nat) (val : Nat → List (FNum × Nat)) (c : Nat → Nat → FNum) (bias : Nat → FNum) : OpOut :=
  (List.range n).foldl
    (fun (t : OpOut) r =>
      let (ys, zs, sats) := epilogueRow o (c r) bias (val r)
      { t with rows := t.rows ++ [.vals zs], sats := t.sats + sats, ys := t.ys ++ ys })
    { rows := [], extra := [], sats := 0, ys := [] }

/-- The bias vector (R36 step 4). -/
def biasAt (rd : Nat → Byte) (o : FOp) (j : Nat) : FNum := elemAt rd o.fmtC o.addrBias j

/-! ## MATMUL and BMATMUL (R28, R39) -/

/-- Row `r` counts batch elements outermost. -/
def matmulOut (rd : Nat → Byte) (o : FOp) : OpOut :=
  let one := o.cls = 1
  let sA := if one then 0 else o.word 0x6C
  let sB := if one then 0 else o.word 0x70
  let sC := if one then 0 else o.word 0x78
  let a := fun r k => elemAt rd o.fmtA (o.addrA + (r / o.m) * sA + (r % o.m) * o.strideA) k
  let b := fun r j k => elemDown rd o.fmtB (o.addrB + (r / o.m) * sB) o.strideB k j
  let c := fun r j => elemAt rd o.fmtC (o.addrC + (r / o.m) * sC + (r % o.m) * o.strideC) j
  { cellRows o o.outRows (fun r => (List.range o.n).map fun j => cellValue o (a r) (b r j)) c (biasAt rd o) with
    accs := (List.range o.outRows).flatMap fun r => (List.range o.n).map fun j => (r, j, cellParts o (a r) (b r j)) }

/-! ## CONV and DWCONV (R40, R41) -/

/-- Where tap (kw, kh, kd) of output position (image, od, oh, ow) falls: an input position, or the padding. -/
def convTap (c : ConvArgs) (pos tap : Nat) : Option Nat :=
  let ow := c.ow.toNat
  let oh := c.oh.toNat
  let od := c.od.toNat
  let x := pos % ow
  let y := (pos / ow) % oh
  let z := (pos / (ow * oh)) % od
  let img := pos / (ow * oh * od)
  let tx := tap % c.kern.1
  let ty := (tap / c.kern.1) % c.kern.2.1
  let tz := tap / (c.kern.1 * c.kern.2.1)
  let ix : Int := x * c.stride.1 + tx * c.dil.1 - c.pad.1
  let iy : Int := y * c.stride.2.1 + ty * c.dil.2.1 - c.pad.2.1
  let iz : Int := z * c.stride.2.2 + tz * c.dil.2.2 - c.pad.2.2
  if 0 ≤ ix && ix < c.inp.1 && 0 ≤ iy && iy < c.inp.2.1 && 0 ≤ iz && iz < c.inp.2.2 then
    some (((img * c.inp.2.2 + iz.toNat) * c.inp.2.1 + iy.toNat) * c.inp.1 + ix.toNat)
  else none

/-- CONV: the columns of a position are its GROUPS × N output channels (log entry 25). In a BX output a block may hold
channels of two groups: the row of GROUPS × N channels is blocked as one (log entry 25, the model's choice). -/
def convOut (rd : Nat → Byte) (o : FOp) : OpOut :=
  let c := o.conv
  let cg := o.k / c.taps
  let tall := if isBx o.fmtB then cdiv o.k 32 else o.k
  let a := fun r g k => match convTap c r (k / cg) with
    | some p => elemAt rd o.fmtA (o.addrA + p * o.strideA) (g * cg + k % cg)
    | none => .zero
  let b := fun r g j k => if (convTap c r (k / cg)).isNone then .zero
    else elemDown rd o.fmtB (o.addrB + g * tall * o.strideB) o.strideB k j
  let val := fun r => (List.range (c.groups * o.n)).map fun j => cellValue o (a r (j / o.n)) (b r (j / o.n) (j % o.n))
  { cellRows o o.m val (fun r j => elemAt rd o.fmtC (o.addrC + r * o.strideC) j) (biasAt rd o) with
    accs := (List.range (c.groups * o.m)).flatMap fun r =>
      (List.range o.n).map fun j => (r, j, cellParts o (a (r % o.m) (r / o.m)) (b (r % o.m) (r / o.m) j)) }

/-- DWCONV: column `j` is channel `j`, its taps in K order. -/
def dwconvOut (rd : Nat → Byte) (o : FOp) : OpOut :=
  let c := o.conv
  let a := fun r j k => match convTap c r k with
    | some p => elemAt rd o.fmtA (o.addrA + p * o.strideA) j
    | none => .zero
  let b := fun r j k => if (convTap c r k).isNone then .zero else elemDown rd o.fmtB o.addrB o.strideB k j
  let val := fun r => (List.range o.n).map fun j => cellValue o (a r j) (b r j)
  { cellRows o o.m val (fun r j => elemAt rd o.fmtC (o.addrC + r * o.strideC) j) (biasAt rd o) with
    accs := (List.range o.m).flatMap fun r => (List.range o.n).map fun j => (r, j, cellParts o (a r j) (b r j)) }

/-! ## ATTEND (R42; log entry 24) -/

/-- The running state of one query: m, l and O, and whether any key has been unmasked. -/
structure AttState where
  m    : FNum
  l    : FNum
  o    : List FNum
  seen : Bool

def isNegInf (x : FNum) : Bool := match x with
  | .inf true => true
  | _ => false

/-- EXP2 of RN32(a − b), or 0 where `a` is −∞. -/
def attScale (a b : FNum) : FNum := if isNegInf a then .zero else exp2 (fsub a b)

/-- p converted for the p·V product: BF16 beside a 16-bit V, FP8-E4M3 beside an 8-bit one. -/
def attP (fmtV : Nat) (p : FNum) : FNum :=
  if is16 fmtV then bf16.decode (bf16.encode false none p) else e4m3.decode (e4m3.encode false none p)

/-- One key block: keys `k0` to `k0 + n − 1`, their scores and V. -/
def attBlock (dV fmtV dim : Nat) (score : Nat → FNum) (v : Nat → Nat → FNum) (masked : Nat → Bool) (k0 n : Nat)
    (t : AttState) : AttState :=
  let ss := (List.range n).map fun i => if masked (k0 + i) then FNum.inf true else score (k0 + i)
  let mNew := ss.foldl fmax t.m
  let seen := t.seen || (List.range n).any fun i => !masked (k0 + i)
  if isNegInf mNew then { t with seen := seen }
  else
    let c := attScale t.m mNew
    let ps := ss.map fun x => attScale x mNew
    let l := ps.foldl fadd (fmul t.l c)
    let o := (List.range dim).map fun j =>
      dotFrom (fmul (t.o.getD j .zero) c) dV (fun i => attP fmtV (ps.getD i .zero)) (fun i => v (k0 + i) j) 0 n
    { m := mNew, l := l, o := o, seen := seen }

/-- FULL's result before the epilogue. -/
def attFinish (t : AttState) : List FNum := if t.seen then t.o.map fun x => fmul x (rcp t.l) else t.o.map fun _ => .zero

/-- One query over its keys, block by block in ascending position order. -/
def attQuery (rd : Nat → Byte) (o : FOp) (h i : Nat) : AttState :=
  let size := 2 ^ o.blk
  let qa := o.addrA + (h * o.m + i) * o.strideA
  let score := fun key =>
    let ka := o.addrB + (h * o.kvcount + key) * o.strideB
    let q := fun k => elemAt rd o.fmtA qa k
    let kk := fun k => elemAt rd o.fmtB ka k
    fmul (cellValue o q kk).1 o.softmaxScale
  let rows := if isBx o.fmtC then cdiv o.kvcount 32 else o.kvcount
  let v := fun key j => elemDown rd o.fmtC (o.addrC + h * rows * o.strideC) o.strideC key j
  let masked := fun key => o.causal && o.qpos + i < o.kvpos + key
  let dV := if is16 o.fmtC then 2 else 4
  (List.range (cdiv o.kvcount size)).foldl
    (fun t b => attBlock dV o.fmtC o.headdim score v masked (b * size) (min size (o.kvcount - b * size)) t)
    { m := .inf true, l := .zero, o := List.replicate o.headdim .zero, seen := false }

/-- One partial record merged into the state (MERGE). -/
def attMerge (t : AttState) (oj : List FNum) (mj lj : FNum) : AttState :=
  let mNew := fmax t.m mj
  if isNegInf mNew then t
  else
    let c := attScale t.m mNew
    let cj := attScale mj mNew
    { m := mNew, l := fadd (fmul t.l c) (fmul lj cj), seen := true,
      o := (List.range t.o.length).map fun i => fadd (fmul (t.o.getD i .zero) c) (fmul (oj.getD i .zero) cj) }

/-- The records of one query merged in ascending address order. R42 names no operand that holds them: the model reads
them at ADDR_A with STRIDE_A between rows, record `r` of query row `q` at row r × queries + q (log entry 24, the
model's choice). -/
def attMergeQuery (rd : Nat → Byte) (o : FOp) (q : Nat) : AttState :=
  (List.range o.kvcount).foldl
    (fun t r =>
      let a := o.addrA + (r * o.outRows + q) * o.strideA
      let e := fun j => elemAt rd 0 a j
      attMerge t ((List.range o.headdim).map e) (e o.headdim) (e (o.headdim + 1)))
    { m := .inf true, l := .zero, o := List.replicate o.headdim .zero, seen := false }

/-- ATTEND in its three modes; heads are batch elements, one after another in every operand (log entry 24). -/
def attendOut (rd : Nat → Byte) (o : FOp) : OpOut :=
  let sats := if o.fmtA = 5 && o.amode != 2 then
      (List.range o.outRows).foldl (fun n r => (List.range o.kvcount).foldl (fun n key =>
        n + (cellValue o (fun k => elemAt rd o.fmtA (o.addrA + r * o.strideA) k)
          (fun k => elemAt rd o.fmtB (o.addrB + ((r / o.m) * o.kvcount + key) * o.strideB) k)).2) n) 0
    else 0
  if o.amode = 1 then
    { rows := (List.range o.outRows).map fun r =>
        let t := attQuery rd o (r / o.m) (r % o.m)
        .vals (t.o ++ [t.m, t.l]),
      extra := [], sats := sats, ys := [] }
  else
    let val := fun r =>
      let t := if o.amode = 2 then attMergeQuery rd o r else attQuery rd o (r / o.m) (r % o.m)
      (attFinish t).map fun x => (x, 0)
    { cellRows o o.outRows val (fun _ _ => .zero) (biasAt rd o) with sats := sats }

/-! ## Rim classes (R44, R45) -/

/-- Rows through the Rim function of ACT. -/
def rimRows (o : FOp) (rows : List (List FNum)) : OpOut :=
  let ys := rows.map fun r => r.map (rimFn o.act)
  { rows := ys.map .vals, extra := [], sats := 0, ys := ys.flatten }

/-- A row of `n` elements of A converted to FP32; `ra` is the address of row `i`. -/
def rowF (rd : Nat → Byte) (f a n : Nat) : List FNum := (List.range n).map fun j => rn32 (elemAt rd f a j)

/-- ELEM's binary operation. -/
def binop (code : Nat) (a b : FNum) : FNum :=
  match code with
  | 1 => fadd a b
  | 2 => fsub a b
  | 3 => fmul a b
  | 4 => fmax a b
  | 5 => fmin a b
  | _ => a

/-- ELEM; `a` gives element (i, j) of A. -/
def elemOut (rd : Nat → Byte) (o : FOp) (a : Nat → Nat → FNum) : OpOut :=
  rimRows o ((List.range o.m).map fun i => (List.range o.n).map fun j =>
    if o.binop = 0 then rn32 (a i j)
    else binop o.binop (rn32 (a i j)) (rn32 (elemAt rd o.fmtB (o.addrB + i * o.strideB) j)))

/-- REDUCE; a row of no element has no result the spec states: it is a free value (log entry 21). -/
def reduceOut (rd : Nat → Byte) (o : FOp) : OpOut :=
  rimRows o ((List.range o.m).map fun i =>
    [(reduceRow (ropOf o.binop) (rowF rd o.fmtA (o.addrA + i * o.strideA) o.n)).getD
      (ofBits (Config.emptyReduce o.binop).toNat)])

/-- NORM of one group of values. -/
def normGroup (rms : Bool) (eps : FNum) (xs : List FNum) : List FNum :=
  let nf := rn32 (FNum.ofNat xs.length)
  let inv := rcp nf
  let mean := if rms then .zero else fmul ((reduceRow .sum xs).getD .zero) inv
  let ds := if rms then xs else xs.map fun x => fsub x mean
  let var := fmul ((reduceRow .sumsq ds).getD .zero) inv
  let r := rsqrt (fadd var eps)
  xs.map fun x => fmul (fsub x mean) r

/-- A list cut into `n` pieces of `g`. -/
def pieces {α : Type} (g : Nat) : Nat → List α → List (List α)
  | 0, _ => []
  | n + 1, l => l.take g :: pieces g n (l.drop g)

/-- NORM (R44); RMS subtracts a mean of +0. -/
def normOut (rd : Nat → Byte) (o : FOp) (a : Nat → Nat → FNum) : OpOut :=
  let g := if o.nmode = 2 then o.gsize else o.n
  let eps := ofBits (o.word 0x6C)
  rimRows o ((List.range o.m).map fun i =>
    let xs := (List.range o.n).map fun j => rn32 (a i j)
    let ys := ((pieces g (if g = 0 then 0 else o.n / g) xs).map (normGroup (o.nmode == 1) eps)).flatten
    (List.range o.n).map fun j =>
      let y := fmul (ys.getD j .zero) (rn32 (elemAt rd o.fmtB o.addrB j))
      if o.hasBias then fadd y (rn32 (biasAt rd o j)) else y)

/-- A row of A taken over exactly; elements and blocks of the same format are copied (R81). -/
def takeRow (rd : Nat → Byte) (o : FOp) (a : Nat) : RowOut :=
  let xs := (List.range o.n).map fun j => elemAt rd o.fmtA a j
  let bs := (List.range (rowBytes o.fmtA o.n)).map fun i => rd (a + i)
  if o.fmtA != o.fmtOut then .vals xs
  else if isBx o.fmtA then .blocks (copyRow o.fmtA (cdiv o.n 32) bs) xs
  else .blocks (copyScalars o.fmtA o.n bs) xs

/-- REPACK. It has no R36 step 5, and the model lets it contribute nothing to an amax (R83; log entry 65, the model's
choice). -/
def repackOut (rd : Nat → Byte) (o : FOp) : OpOut :=
  { rows := (List.range o.m).map fun i => takeRow rd o (o.addrA + i * o.strideA), extra := [], sats := 0, ys := [] }

/-- Row index `i` at ADDR_B (R45). -/
def rowIndex (rd : Nat → Byte) (o : FOp) (i : Nat) : Nat := leNat ((List.range 4).map fun b => rd (o.addrB + 4 * i + b))

/-- GATHER: an index at or beyond M gives a row of zeros. No amax contribution, as REPACK (log entry 65). -/
def gatherOut (rd : Nat → Byte) (o : FOp) : OpOut :=
  { rows := (List.range o.k).map fun i =>
      let x := rowIndex rd o i
      if x < o.m then takeRow rd o (o.addrA + x * o.strideA) else .vals (List.replicate o.n .zero),
    extra := [], sats := 0, ys := [] }

/-- SCATTER: OUT row `r` from the A rows whose index names it, the last of them or their sum. No amax contribution, as
REPACK (log entry 65). -/
def scatterOut (rd : Nat → Byte) (o : FOp) : OpOut :=
  let idx := (List.range o.k).map (rowIndex rd o)
  { rows := (List.range o.m).map fun r =>
      let mine := (List.range o.k).filter fun i => idx.getD i 0 == r
      match mine.getLast? with
      | none => .keep
      | some top =>
        if o.addMode then
          let start := rowF rd o.fmtOut (o.addrOut + r * o.strideOut) o.n
          .vals (mine.foldl (fun acc i =>
            let xs := rowF rd o.fmtA (o.addrA + i * o.strideA) o.n
            (List.range o.n).map fun j => fadd (acc.getD j .zero) (xs.getD j .zero)) start)
        else takeRow rd o (o.addrA + top * o.strideA),
    extra := [], sats := 0, ys := [] }

/-! ## STATS sums (07_training.md R193) -/

/-- The sum of squares of the M × N elements at an address. -/
def sumsqAt (rd : Nat → Byte) (o : FOp) (f a stride : Nat) : FNum :=
  sumTree (clog2 o.m) ((List.range o.m).map fun i => (reduceRow .sumsq (rowF rd f (a + i * stride) o.n)).getD .zero)

/-- SUMSQ and SUMSQ2. -/
def sumsqOut (rd : Nat → Byte) (o : FOp) : OpOut :=
  let a := sumsqAt rd o o.fmtA o.addrA o.strideA
  { rows := [.vals (if o.smode = 0 then [a] else [a, sumsqAt rd o o.fmtB o.addrB o.strideB])],
    extra := [], sats := 0, ys := [] }

/-! ## Where rows go, and their bytes -/

/-- The address of output row `r`. -/
def outAddr (o : FOp) (r : Nat) : Nat :=
  if o.cls = 2 then o.addrOut + (r / o.m) * o.word 0x74 + (r % o.m) * o.strideOut else o.addrOut + r * o.strideOut

/-- IDX of an element (R80), or IDX_BASE + row × N + column for OPTSTEP (R209). -/
def outIdx (o : FOp) (r j : Nat) : Nat :=
  if o.cls = 12 then o.idxBase + r * o.n + j
  else if o.cls = 7 then r
  else if o.cls = 3 then ((j / o.n) * o.m + r) * o.n + j % o.n
  else r * o.n + j

/-- Columns `c0` to `c0 + n − 1` of a row as bytes, converted under SR and SAT. Copied blocks stay as they are where
the slice begins and ends on their boundaries, and are encoded again otherwise (R81; log entry 22). A row that the
operation gives no value is a free value (log entry 21). -/
def rowSlice (o : FOp) (step r c0 n : Nat) (x : RowOut) : List Byte :=
  let draw := fun j => if o.sr then some (srg o.tensorId step (outIdx o r (c0 + j))) else none
  match x with
  | .vals xs => encodeRow o.outFmt o.sat draw ((xs.drop c0).take n)
  | .blocks bs xs =>
    if !isBx o.outFmt then (bs.drop (c0 * unitBytes o.outFmt)).take (n * unitBytes o.outFmt)
    else if c0 % 32 = 0 && (n % 32 == 0 || xs.length ≤ c0 + n) then
      (bs.drop (c0 / 32 * unitBytes o.outFmt)).take (rowBytes o.outFmt n)
    else encodeRow o.outFmt o.sat draw ((xs.drop c0).take n)
  | .keep => (List.range (rowBytes o.outFmt n)).map (Config.unnamedRow o.raw r)

/-- The rows written to ADDR_OUT: SCATTER leaves a row that no index names unchanged. A row is blocked as a whole in a
BX output, the GROUPS × N channels of a grouped CONV too (log entry 25, the model's choice). -/
def outWrites (o : FOp) (step : Nat) (rows : List RowOut) : List (Nat × List Byte) :=
  (List.range rows.length).filterMap fun r =>
    match rows.getD r .keep with
    | .keep => none
    | x => some (outAddr o r, rowSlice o step r 0 o.outCols x)

/-- Row `i` of the rows that PM splits, columns `c0` to `c0 + n − 1`: for a grouped CONV row i mod M, group i div M. -/
def tileRow (o : FOp) (step : Nat) (rows : List RowOut) (i c0 n : Nat) : List Byte :=
  if o.cls = 3 then rowSlice o step (i % o.m) (i / o.m * o.n + c0) n (rows.getD (i % o.m) .keep)
  else rowSlice o step i c0 n (rows.getD i .keep)

/-- The live tiles (R49): for each logical array with ik = 0 the bytes of its block of R33. -/
def liveTiles (o : FOp) (step : Nat) (rows : List RowOut) : List (Nat × List Byte) :=
  (List.range (o.pm * o.pn)).map fun t =>
    let im := t / o.pn
    let jn := t % o.pn
    let c0 := jn * o.nr
    let n := min o.splitCols ((jn + 1) * o.nr) - c0
    let r0 := im * o.mr
    let cnt := min o.splitRows ((im + 1) * o.mr) - r0
    (t * o.pk, if n = 0 then [] else (List.range cnt).flatMap fun i => tileRow o step rows (r0 + i) c0 n)

/-! ## Where accumulators hold outputs (R26, R33) -/

/-- Rows and columns of the array tile (Table 2.1). -/
def FOp.tile (o : FOp) : Nat × Nat :=
  if o.accShape = 1 then (1024, 256) else if o.accShape = 2 then (256, 1024) else (512, 512)

/-- The accumulator, as (cell row × 256 + cell column) × 4 + i, that holds position (`p`, `q`) of the array tile
(Table 2.1). -/
def FOp.accAt (o : FOp) (p q : Nat) : Nat :=
  if o.accShape = 1 then ((p / 4) * 256 + q) * 4 + p % 4
  else if o.accShape = 2 then (p * 256 + q / 4) * 4 + q % 4
  else ((p / 2) * 256 + q / 2) * 4 + (p % 2) * 2 + q % 2

/-- The logical array with K part `ik` that computes output (r, j), and its accumulator for it (R32, R33, R26). -/
def FOp.cellOf (o : FOp) (r j ik : Nat) : Nat × Nat :=
  ((r / o.mr * o.pn + j / o.nr) * o.pk + ik, o.accAt (r % o.mr % o.tile.1) (j % o.nr % o.tile.2))

/-- What an operation leaves in its accumulators, by logical array and accumulator, tile after tile, so that the last
tile's values stand last. The order of an array's tiles is open (R26): along its rows, or down its columns. -/
def cellWrites (o : FOp) (down : Bool) (accs : List (Nat × Nat × List Word)) : List ((Nat × Nat) × Word) :=
  let ordered := if down then
      (List.range o.splitCols).flatMap fun j => accs.filter fun e => e.2.1 == j
    else accs
  ordered.flatMap fun e => (List.range e.2.2.length).map fun ik => (o.cellOf e.1 e.2.1 ik, e.2.2.getD ik 0)

/-! ## Byte ranges an operation reads -/

/-- `n` rows of `len` bytes, `stride` apart. -/
def rowRanges (a stride n len : Nat) : List (Nat × Nat) := (List.range n).map fun i => (a + i * stride, len)

/-- Rows of operand B of a cell operation of depth `k` and `n` columns. -/
def downRanges (f a stride k n : Nat) : List (Nat × Nat) :=
  rowRanges a stride (if isBx f then cdiv k 32 else k) (if isBx f then n * unitBytes f else rowBytes f n)

def cRanges (o : FOp) (n : Nat) : List (Nat × Nat) := if o.hasC then rowRanges o.addrC o.strideC o.m (rowBytes o.fmtC n) else []
def biasRanges (o : FOp) (n : Nat) : List (Nat × Nat) := if o.hasBias then [(o.addrBias, rowBytes o.fmtC n)] else []

/-- What the operation reads; `fromPlate` that operand A comes from Plate. SCATTER's A rows and indices, OUT rows in
add mode, OPTSTEP's operands and record. -/
def opReads (o : FOp) (fromPlate : Bool) (rd : Nat → Byte) : List (Nat × Nat) :=
  let aRows := if fromPlate then [] else rowRanges o.addrA o.strideA o.m (rowBytes o.fmtA o.n)
  match o.cls with
  | 1 => rowRanges o.addrA o.strideA o.m (rowBytes o.fmtA o.k) ++ downRanges o.fmtB o.addrB o.strideB o.k o.n ++
      cRanges o o.n ++ biasRanges o o.n
  | 2 => ((List.range o.batch).flatMap fun b =>
      rowRanges (o.addrA + b * o.word 0x6C) o.strideA o.m (rowBytes o.fmtA o.k) ++
        downRanges o.fmtB (o.addrB + b * o.word 0x70) o.strideB o.k o.n ++
        (if o.hasC then rowRanges (o.addrC + b * o.word 0x78) o.strideC o.m (rowBytes o.fmtC o.n) else [])) ++ biasRanges o o.n
  | 3 =>
    let c := o.conv
    let cg := o.k / c.taps
    let tall := if isBx o.fmtB then cdiv o.k 32 else o.k
    rowRanges o.addrA o.strideA (c.batch * c.inp.2.2 * c.inp.2.1 * c.inp.1) (rowBytes o.fmtA (c.groups * cg)) ++
      ((List.range c.groups).flatMap fun g => downRanges o.fmtB (o.addrB + g * tall * o.strideB) o.strideB o.k o.n) ++
      cRanges o (c.groups * o.n) ++ biasRanges o (c.groups * o.n)
  | 4 =>
    let c := o.conv
    rowRanges o.addrA o.strideA (c.batch * c.inp.2.2 * c.inp.2.1 * c.inp.1) (rowBytes o.fmtA o.n) ++
      downRanges o.fmtB o.addrB o.strideB o.k o.n ++ cRanges o o.n ++ biasRanges o o.n
  | 5 =>
    if o.amode = 2 then
      rowRanges o.addrA o.strideA (o.kvcount * o.outRows) (4 * (o.headdim + 2)) ++ biasRanges o o.n
    else
      rowRanges o.addrA o.strideA o.outRows (rowBytes o.fmtA o.k) ++
        rowRanges o.addrB o.strideB (o.heads * o.kvcount) (rowBytes o.fmtB o.k) ++
        ((List.range o.heads).flatMap fun h =>
          let rows := if isBx o.fmtC then cdiv o.kvcount 32 else o.kvcount
          downRanges o.fmtC (o.addrC + h * rows * o.strideC) o.strideC o.kvcount o.headdim) ++
        (if o.amode = 0 then biasRanges o o.n else [])
  | 6 => aRows ++ (if o.binop = 0 then [] else
      rowRanges o.addrB o.strideB (if o.strideB = 0 then min 1 o.m else o.m) (rowBytes o.fmtB o.n))
  | 7 => aRows
  | 8 => aRows ++ [(o.addrB, rowBytes o.fmtB o.n)] ++ biasRanges o o.n
  | 9 => aRows
  | 10 => (o.addrB, 4 * o.k) :: (List.range o.k).filterMap fun i =>
      let x := rowIndex rd o i
      if x < o.m then some (o.addrA + x * o.strideA, rowBytes o.fmtA o.n) else none
  | 11 => (o.addrB, 4 * o.k) :: (List.range o.k).flatMap fun i =>
      let x := rowIndex rd o i
      if x < o.m then
        (o.addrA + i * o.strideA, rowBytes o.fmtA o.n) ::
          (if o.addMode then [(o.addrOut + x * o.strideOut, rowBytes o.fmtOut o.n)] else [])
      else []
  | 12 => aRows ++ rowRanges o.addrB o.strideB o.m (4 * o.n) ++ rowRanges o.addrC o.strideC o.m (rowBytes 6 o.n) ++
      (if o.hasBias then rowRanges o.addrBias o.strideC o.m (rowBytes 6 o.n) else []) ++ [(o.hpVa, 32)]
  | 13 =>
    if o.smode = 0 then aRows
    else if o.smode = 1 then aRows ++ rowRanges o.addrB o.strideB o.m (rowBytes o.fmtB o.n)
    else if o.smode = 2 then [(o.addrA, 4)] else [(o.addrA, 8)]
  | _ => []

end Sys2Proof.Machine
end

