-- ==== Sys2Proof/Machine/Optim.lean ====
section
/-! DEFINITION. The optimizer step, the norm check and the gradient-noise estimate as functions of their inputs
(07_training.md R194, R204 to R211). -/

namespace Sys2Proof.Machine

/-- LSE and OPEN_LSE as integers. -/
def lseOf (x : BitVec 6) : Int := x.toInt

/-! ## CHECK (R194) -/

/-- What a CHECK fixes: NORM, the decision, c. -/
inductive CheckResult where
  | skipNonfinite
  | decided (g : FNum) (d : NormDecision) (c : FNum)
deriving DecidableEq, Repr

/-- A positive finite FP32 value. -/
def posFinite (x : FNum) : Bool := x.isFinite && FNum.zero.lt x

/-- Table 7.3. A NaN norm, of a finite negative S, is not above the limit (log entry 26). -/
def checkNorm (sum : FNum) (openLse : Int) (limit : FNum) (skipMode : Bool) : CheckResult :=
  if !sum.isFinite then .skipNonfinite
  else
    let g := fmul (fsqrt sum) (FNum.pow2 (-openLse))
    if posFinite limit && limit.lt g then
      if skipMode then .decided g .skip one else .decided g .clip (fmul limit (rcp g))
    else .decided g .apply one

/-! ## OPTSTEP (R204 to R209) -/

/-- The hyperparameter record (R204). -/
structure HyperParams where
  lr    : FNum
  beta1 : FNum
  beta2 : FNum
  eps   : FNum
  wd    : FNum
deriving DecidableEq, Repr

def hyperAt (rd : Nat → Byte) (a : Nat) : HyperParams :=
  let w := fun i => elemAt rd 0 a i
  { lr := w 0, beta1 := w 1, beta2 := w 2, eps := w 3, wd := w 4 }

/-- The bits of t from bit `n` − 1 down to bit 0 of BPOW. -/
def bpowFrom (b : FNum) (t : Nat) : Nat → FNum → FNum
  | 0, r => r
  | n + 1, r =>
    let r := fmul r r
    bpowFrom b t n (if bit t n then fmul r b else r)

/-- BPOW(b, t) (R206). -/
def bpow (b : FNum) (t : Nat) : FNum := if t = 0 then one else bpowFrom b t (topBit t + 1) one

/-- sign(k) of R208. -/
def signNum (k : FNum) : FNum :=
  if k.isNaN then .nan else if k.isZero then .zero else signOne k

/-- One element's new weight, first moment and (AdamW) the root of the second. -/
structure ElemStep where
  w : FNum
  m : FNum
  s : FNum
deriving DecidableEq, Repr

/-- The algorithms of R206 to R208 on one element. -/
def optElem (o : FOp) (hp : HyperParams) (t : Nat) (g w m s : FNum) : ElemStep :=
  let ob1 := fsub one hp.beta1
  let ob2 := fsub one hp.beta2
  if o.alg = 0 then
    let v := fmul s s
    let m' := fadd (fmul hp.beta1 m) (fmul ob1 g)
    let v' := fadd (fmul hp.beta2 v) (fmul ob2 (fmul g g))
    let mh := if o.biascorr then fmul m' (rcp (fsub one (bpow hp.beta1 t))) else m'
    let vh := if o.biascorr then fmul v' (rcp (fsub one (bpow hp.beta2 t))) else v'
    let u := fmul mh (rcp (fadd (fsqrt vh) hp.eps))
    { w := fsub w (fmul hp.lr (fadd u (fmul hp.wd w))), m := m', s := fsqrt v' }
  else if o.alg = 1 then
    let d := fadd g (fmul hp.wd w)
    let m' := fadd (fmul hp.beta1 m) d
    let p := if o.nesterov then fadd d (fmul hp.beta1 m') else m'
    { w := fsub w (fmul hp.lr p), m := m', s := .zero }
  else
    let k := fadd (fmul hp.beta1 m) (fmul ob1 g)
    { w := fsub w (fmul hp.lr (fadd (signNum k) (fmul hp.wd w))),
      m := fadd (fmul hp.beta2 m) (fmul ob2 g), s := .zero }

/-- OPTSTEP's outputs: the working weights as rows, the masters and moments beside them. It has no R36 step 5, and the
model lets it contribute nothing to an amax (03_formats.md R83; log entry 65, the model's choice). -/
def optstepOut (rd : Nat → Byte) (o : FOp) (d : NormDecision) (openLse : Int) (c : FNum) (t : Nat) : OpOut :=
  if d == .skip then { rows := [], extra := [], sats := 0, ys := [] }
  else
    let hp := hyperAt rd o.hpVa
    let steps := (List.range o.m).map fun i => (List.range o.n).map fun j =>
      let g1 := fmul (elemAt rd o.fmtA (o.addrA + i * o.strideA) j) (FNum.pow2 (-openLse))
      let g := if d == .clip then fmul g1 c else g1
      let s := if o.alg = 0 then elemAt rd 6 (o.addrBias + i * o.strideC) j else .zero
      optElem o hp t g (elemAt rd 0 (o.addrB + i * o.strideB) j) (elemAt rd 6 (o.addrC + i * o.strideC) j) s
    let row := fun (i : Nat) (f : ElemStep → FNum) => (steps.getD i []).map f
    let moment := fun (f : ElemStep → FNum) (i : Nat) =>
      encodeRow 6 true (fun _ => none) (row i f)
    { rows := if o.wout then (List.range o.m).map fun i => .vals (row i fun e => fmul e.w o.scaleOut) else [],
      extra := (List.range o.m).flatMap fun i =>
        [(o.addrB + i * o.strideB, encodeRow 0 false (fun _ => none) (row i (·.w))),
         (o.addrC + i * o.strideC, moment (·.m) i)] ++
          (if o.alg = 0 then [(o.addrBias + i * o.strideC, moment (·.s) i)] else []),
      sats := 0, ys := [] }

/-! ## NOISE (R210, R211) -/

/-- G2 and T, or none when an input or a result is not finite. -/
def noiseEstimate (qs qb : FNum) (bs bb p : Nat) (openLse : Int) : Option (FNum × FNum) :=
  if !qs.isFinite || !qb.isFinite then none
  else
    let q := FNum.pow2 (-2 * openLse)
    let nbs := FNum.ofNat bs
    let nbb := FNum.ofNat bb
    let gs := fmul (fmul qs q) (rcp (FNum.ofNat p))
    let gb := fmul qb q
    let g2 := fmul (fsub (fmul nbb gb) (fmul nbs gs)) (rcp (FNum.ofNat (bb - bs)))
    let t := fmul (fsub gs gb) (rcp (fsub (rcp nbs) (rcp nbb)))
    if g2.isFinite && t.isFinite then some (g2, t) else none

/-- ⌊x / BQ + 1/2⌋ of a positive finite value. -/
def roundQuotient (m : Nat) (e : Int) (bq : Nat) : Nat :=
  if 0 ≤ e then (2 * (m * 2 ^ e.toNat) + bq) / (2 * bq)
  else (2 * m + bq * 2 ^ (-e).toNat) / (2 * bq * 2 ^ (-e).toNat)

/-- A NOISE result applied to a unit (R210, R211). -/
def applyNoise (u : TrainUnit) (r : NoiseResult) : TrainUnit :=
  let a := ofBits u.alpha.toNat
  let g2 := ofBits r.g2.toNat
  let t := ofBits r.t.toNat
  let mix := fun (old : Word) (new : FNum) => fadd (fmul a (ofBits old.toNat)) (fmul (fsub one a) new)
  let g2e := if u.ncount = 0 then g2 else mix u.g2e g2
  let se := if u.ncount = 0 then t else mix u.se t
  let bsimple := if FNum.zero.lt g2e && FNum.zero.lt se then fmul se (rcp g2e) else .inf false
  let n := match bsimple with
    | .fin _ m e => roundQuotient m e r.bq
    | _ => r.qmax
  { u with
    g2e := toBits g2e
    se := toBits se
    ncount := satInc u.ncount
    bsimple := toBits bsimple
    batch := BitVec.ofNat 32 (r.bq * min r.qmax (max 1 n)) }

/-! ## The encode exponent (03_formats.md R84) -/

/-- ⌊log2(fmax / (m × 2^e))⌋. -/
def floorLog2Quot (fmax m : Nat) (e : Int) : Int :=
  let n := (topBit fmax : Int) - topBit m
  let ge := if 0 ≤ n then m * 2 ^ n.toNat ≤ fmax else m ≤ fmax * 2 ^ (-n).toNat
  (if ge then n else n - 1) - e

/-- The encode exponent from at most H recorded maxima. The device records finite ones only (R83); OPT_HIST_WRITE can place
others, of which the spec says nothing: the model passes over a NaN and takes e = 0 where the largest is infinite (log
entry 31, the model's choice). -/
def encodeExponent (fmax margin : Nat) (entries : List Word) : Int :=
  match blockMax (entries.map fun w => ofBits w.toNat) with
  | .fin _ m e => if m = 0 then 0 else max (-126) (min 126 (floorLog2Quot fmax m e - margin))
  | _ => 0

/-- The larger of two magnitudes; any NaN gives the canonical NaN, as the device's maximum does (02_field.md R44; log entry
31). -/
def maxMag (a b : FNum) : FNum := if a.isNaN || b.isNaN then .nan else if a.lt b then b else a

/-- An amax: the largest magnitude of a list (R83). -/
def amaxOf (ys : List FNum) : FNum := ys.foldl (fun b y => maxMag b y.abs) FNum.zero

end Sys2Proof.Machine
end

