-- ==== Sys2Proof/Machine/Training.lean ====
section
/-! DEFINITION. What an ended command changes in Training Support: amax histories and unit state (07_training.md R190 to
R200; 03_formats.md R83, R84). -/

namespace Sys2Proof.Machine

def unitOf (n : Nat) : UnitId := Fin.ofNat 64 n

/-! ## Amax histories (R199) -/

/-- A pending maximum is recorded: pushed when finite, LAST_STEP set (R199 step 4). -/
def Tracked.record (t : Tracked) : Tracked :=
  { t with
    hist := if t.pendNonfinite then t.hist else (t.pend :: t.hist).take 64
    pendValid := false, pendNonfinite := false, lastStep := t.pstep }

/-- A pending maximum is discarded (Table 7.4). -/
def Tracked.discard (t : Tracked) : Tracked :=
  { t with pendValid := false, pendNonfinite := false, lastStep := t.pstep }

/-- A tensor's pending maximum recorded, with the counters of non-finite maxima (Table 7.8). -/
def State.recordAmax (s : State) (i : Nat) : State :=
  match s.opt.tracked.get? i with
  | none => s
  | some t =>
    if !t.pendValid then s
    else
      let s := if t.pendNonfinite then
          { s with opt.amaxNonfinite := satInc s.opt.amaxNonfinite, opt.amaxLast := BitVec.ofNat 12 i }
        else s
      { s with opt.tracked := s.opt.tracked.modify i Tracked.record }

/-- A committed contribution of step `q` to a tracked tensor (R199). -/
def State.contribute (s : State) (i : Nat) (q : Word) (value : Word) : State :=
  match s.opt.tracked.get? i with
  | none => s
  | some t =>
    if q ≤ t.lastStep || (t.pendValid && q < t.pstep) then { s with opt.amaxLate := satInc s.opt.amaxLate }
    else
      let s := if t.pendValid && t.pstep < q then s.recordAmax i else s
      let y := ofBits value.toNat
      { s with opt.tracked := s.opt.tracked.modify i fun t => { t with
          pendNonfinite := t.pendNonfinite || !y.isFinite
          pend := if t.pendValid then toBits (maxMag (ofBits t.pend.toNat) y) else value
          pendValid := true
          pstep := q } }

/-- The tracked tensors of units bound to a context that carry a TENSOR_ID. -/
def State.trackedFor (s : State) (c : CtxId) (tensorId : Nat) : List Nat :=
  (s.opt.tracked.filter fun e : Nat × Tracked =>
    let u := vget s.opt.units e.2.unit
    u.valid && u.ctx.toNat == c.val && e.2.tensorId.toNat == tensorId).map (·.1)

/-- The amax contributions of a command that commits (R83, R146). -/
def State.amaxCommit (s : State) (c : CtxId) (k : Cmd) : State :=
  k.amax.foldl (fun s a => (s.trackedFor c a.tensor).foldl (fun s i => s.contribute i k.stepNo a.value) s) s

/-! ## The end of an update command (R196) -/

/-- Tracked tensors of a unit. -/
def State.tensorsOf (s : State) (u : UnitId) : List Nat := (s.opt.tracked.filter fun e => e.2.unit == u).map (·.1)

/-- CLEAN and LSE after one more clean step (Table 7.4); a CLEAN_TARGET of 0 is taken as 1 (Table 7.9). -/
def TrainUnit.cleanStep (u : TrainUnit) : TrainUnit :=
  let n := u.clean + 1
  if n.toNat = max 1 u.cleanTarget.toNat then
    { u with clean := 0, lse := BitVec.ofInt 6 (min 24 (lseOf u.lse + 1)) }
  else { u with clean := n }

/-- LSE and CLEAN after a step skipped for a non-finite norm. -/
def TrainUnit.skipStep (u : TrainUnit) : TrainUnit :=
  { u with clean := 0, lse := BitVec.ofInt 6 (max (-24) (lseOf u.lse - 1)), skips := satInc u.skips }

/-- Pending maxima of a step, recorded or discarded, for the tensors of a unit. -/
def State.closeAmax (s : State) (u : UnitId) (step : Word) (record : Bool) : State :=
  (s.tensorsOf u).foldl (fun s i =>
    if (s.opt.tracked.get? i).any (fun t => t.pendValid && t.pstep == step) then
      if record then s.recordAmax i else { s with opt.tracked := s.opt.tracked.modify i Tracked.discard }
    else s) s

/-- Table 7.4: what the end of an update command changes in its unit. -/
def State.unitUpdate (s : State) (_c : CtxId) (k : Cmd) (st : Byte) : State :=
  match k.unit with
  | none => s
  | some n =>
    let u := unitOf n
    let step := k.stepNo
    let put := fun (s : State) (f : TrainUnit → TrainUnit) => { s with opt.units := vmod s.opt.units u f }
    if step ≤ (vget s.opt.units u).stepDone then s
    else match k.decision with
    | none =>
      if st == stSkipped then
        put (s.closeAmax u step false) fun t => { t.skipStep with stepDone := step }
      else s
    | some d =>
      if commits st then
        put (s.closeAmax u step true) fun t =>
          let t := { t.cleanStep with stepDone := step }
          let t := if d == .skip then t else { t with applied := t.applied + 1 }
          match k.noise with
          | some r => applyNoise t r
          | none => t
      else s

end Sys2Proof.Machine
end

