-- ==== Sys2Proof/Machine/Commands.lean ====
section
/-! DEFINITION. Contexts, rings and commands: the meanings of CTX_CREATE, SQ_DB, COMMAND_FETCH, STEP,
COMMAND_DISPATCH, MARKER, CQ_HEAD_WRITE, STOP, the kills, COMMAND_END and the command Canaries (05_commands.md). -/

namespace Sys2Proof.Machine

/-! ## Canaries (13_reset_health.md R361, R377) -/

/-- A Canary expires on an object: a CANARY_EXPIRY event (Table 13.14). -/
def State.canaryEvent (s : State) (id object : Nat) : State := s.raise 0x20 id (leBytes 4 object)

/-! ## CTX_CREATE (R126 to R128) -/

/-- Bits of the CTX_CREATE argument block that are reserved, or out of their range (Table 5.2, first row). -/
def State.createBad (s : State) (a : List Byte) : Bool :=
  let w0 := fieldAt a 0 4
  let w1 := fieldAt a 4 4
  let sq := bits w1 4 0
  let cq := bits w1 12 8
  bits w0 15 6 != 0 || bits w1 7 5 != 0 || bits w1 31 13 != 0 || sq < 6 || 16 < sq || cq < 6 || 16 < cq ||
    fieldAt a 8 8 % 4096 != 0 || fieldAt a 16 8 % 4096 != 0 || ((a.take 64).drop 0x1C).any (· != 0) ||
    !(vget s.fns (Fin.ofNat 64 (bits w0 5 0))).enabled

/-- SHARE as the Scheduler takes it (06_scheduling_streams.md R159). -/
def shareOf (n : Nat) : Nat := if n = 0 then 1 else min n 65535

def State.ctxCount (s : State) : Nat := s.contexts.length
def State.ctxCountFn (s : State) (fn : FnId) : Nat := (s.contexts.filter fun e => e.2.fn == fn).length

def State.freeCtxNumber (s : State) : Option CtxId :=
  (List.finRange 256).find? fun c => (vget s.ctxs c).isNone

def State.freeSlotOf (s : State) (fn : FnId) : Option (Fin 32) :=
  (List.finRange 32).find? fun t => (s.ctxAt fn t).isNone

/-- The context a well-formed CTX_CREATE makes: counts 0, DETERMINISM captured, VT at VMIN (R128, R162). -/
def State.newContext (s : State) (a : List Byte) (fn : FnId) (slot : Fin 32) : Context :=
  { contextReset with
    fn := fn, slot := slot, job := BitVec.ofNat 16 (bits (fieldAt a 0 4) 31 16), det := s.profile.determinism,
    sqLog := bits (fieldAt a 4 4) 4 0, cqLog := bits (fieldAt a 4 4) 12 8,
    sqBase := BitVec.ofNat 64 (fieldAt a 8 8), cqBase := BitVec.ofNat 64 (fieldAt a 16 8),
    share := shareOf (fieldAt a 0x18 4), killBudget := 100000, vt := s.vmin.getD 0 }

/-- The Sieve source of a context as CTX_CREATE sets it (12_host_attachment.md R344). -/
def State.irqForCtx (s : State) (c : CtxId) (fn : FnId) (slot : Fin 32) : State :=
  let i : Fin 512 := Fin.ofNat 512 c.val
  { s with
    irq.cfg := vset s.irq.cfg i { func := BitVec.ofNat 6 fn.val, vec := BitVec.ofNat 5 slot.val, cnt := 1, us := 1 }
    irq.enable := setBit s.irq.enable c.val true
    irq.mask := setBit s.irq.mask c.val false
    irq.pending := setBit s.irq.pending c.val false
    irq.fired := setBit s.irq.fired c.val false
    irq.ev := vset s.irq.ev i 0
    irq.first := vset s.irq.first i none }

/-- CTX_CREATE (Table 5.2). A created context ends DRAINED (14_identity_service.md R390). -/
def State.ctxCreate (s : State) : State :=
  s.mbxRun 0x30 fun s =>
    let a := s.mbxBytes
    let fn : FnId := Fin.ofNat 64 (bits (fieldAt a 0 4) 5 0)
    if s.createBad a then s.mbxStatus stBad
    else if 256 ≤ s.ctxCount || 32 ≤ s.ctxCountFn fn then s.mbxStatus stNoRoom
    else match s.freeCtxNumber, s.freeSlotOf fn with
      | some c, some slot =>
        let s1 := (s.setCtx c (s.newContext a fn slot)).irqForCtx c fn slot
        { s1 with svc.drained := false }.mbxOk (leBytes 4 (stOk.toNat + c.val * 2 ^ 8 + slot.val * 2 ^ 16))
      | _, _ => s.mbxStatus stNoRoom

def execCtxCreate (s : State) : Host.Outcome State Fault Refusal := .next s.ctxCreate

/-! ## Doorbells and ring counts (R131, R134) -/

/-- A doorbell or head write that its rule ignores: DB_BAD of the context and CFE_DB_BAD (R131, R134). CFE_DB_BAD is a
counter of its own, and keeps the counts of contexts destroyed since (log entry 74, the model's choice). -/
def State.dbBad (s : State) (c : CtxId) : State :=
  { s.modCtx c (fun x => { x with dbBad := satInc x.dbBad }) with cfe.dbBad := satInc s.cfe.dbBad }

/-- The acceptance rule of a doorbell value (R131). -/
def doorbellOk (v head tail : Word) (size : Nat) : Bool := (v - head).toNat ≤ size && (v - tail).toNat ≤ size

/-- The acceptance rule of a head write (R134). -/
def headOk (h tail prev : Word) : Bool := (tail - h).toNat ≤ (tail - prev).toNat

/-- A doorbell write of slot `slot` of function `fn`; an empty slot obeys the silent rule (R131, R154, R156). -/
def State.sqDb (s : State) (fn : FnId) (slot : Fin 32) (v : Word) : State :=
  match s.ctxAt fn slot with
  | none => s.regViol
  | some (c, x) =>
    if doorbellOk v x.sqHead x.sqTail (2 ^ x.sqLog) then s.modCtx c fun x => { x with sqTail := v } else s.dbBad c

def execSqDb (fn : FnId) (slot : Fin 32) (v : Word) (s : State) : Host.Outcome State Fault Refusal :=
  .next (s.sqDb fn slot v)

/-- Ring positions of records whose IRQ is still unconsumed when the head stands at `h` (R342). -/
def unconsumed (l : List Word) (h tail : Word) : List Word := l.filter fun p => (tail - p).toNat ≤ (tail - h).toNat

/-- A write of CTX_CQ_HEAD (R134). -/
def State.cqHeadWrite (s : State) (c : CtxId) (h : Word) : State :=
  match s.ctx? c with
  | none => s.regViol
  | some x =>
    if headOk h x.cqTail x.cqHead then
      s.modCtx c fun x => { x with cqHead := h, cqIrqs := unconsumed x.cqIrqs h x.cqTail }
    else s.dbBad c

def execCqHeadWrite (ctx : CtxId) (value : Word) (s : State) : Host.Outcome State Fault Refusal :=
  .next (s.cqHeadWrite ctx value)

/-- A write of CTX_CTRL.STOP (R135); a context fenced by its Canary's self-fault keeps STOP (13_reset_health.md R361). -/
def State.writeStop (s : State) (c : CtxId) (on : Bool) : State :=
  match s.ctx? c with
  | none => s.regViol
  | some _ => s.modCtx c fun x => { x with stop := on || x.fenced }

def execStopFetch (ctx : CtxId) (on : Bool) (s : State) : Host.Outcome State Fault Refusal :=
  .next (s.writeStop ctx on)

/-! ## Fetch (R132, R133, R136, R140) -/

/-- A list of bytes holds something other than zeros. -/
def nonzero (bs : List Byte) : Bool := bs.any (· != 0)

/-- SERVE arguments that fail the fetch check: an unknown SOP, a STEP's arguments out of range, a table operation's
fields that must be 0 (06_scheduling_streams.md R165, R173). -/
def serveBad (k : Cmd) : Bool :=
  let w := k.word 0x40
  if k.subop == 1 then
    bits w 15 8 != 0 || bits w 31 29 != 0 || k.maxStreams == 0 || 4096 < k.maxStreams || k.word 0x44 != 0 ||
      k.lenNs < 1000 || 100000000 < k.lenNs || k.word 0x5C != 0 ||
      fieldAt k.desc 0x60 8 != k.reportVa || k.reportVa % 16 != 0 || nonzero (k.args.drop 0x28)
  else if k.subop == 2 || k.subop == 3 || k.subop == 4 then k.width != 0 || k.footCount != 0 || k.killable
  else true

/-- The fetch check of a command descriptor (Table 5.3, Table 5.5 first row; log entry 18). -/
def descriptorBad (k : Cmd) : Bool :=
  let w := k.word 0
  let field := k.kind == 1
  let serve := k.kind == 3
  k.kind == 0 || 4 < k.kind || k.width == 3 || bits w 15 14 != 0 || bits (k.word 0x20) 31 13 != 0 ||
    4096 < k.footCount || nonzero (slice k.desc 0x24 0x1C) ||
    fieldAt k.desc 0x10 8 != k.oplist || fieldAt k.desc 0x18 8 != k.footVa ||
    (if field then k.opcount == 0 || k.oplist % 128 != 0 else k.opcount != 0 || k.oplist != 0) ||
    (if field || serve then k.footVa % 16 != 0
     else k.width != 0 || k.footVa != 0 || k.footCount != 0 || k.killable || k.rerun || k.stepNo != 0) ||
    ((field || k.kind == 4) && nonzero k.args) || (serve && serveBad k)

/-- The device may fetch from a context now (R133, R135, R59, R316). -/
def State.mayFetch (s : State) (x : Context) : Bool :=
  !x.stop && !x.destroying && x.sqHead != x.sqTail && x.cmds.length < 64 &&
    (x.cqTail - x.cqHead).toNat + x.cmds.length + 1 ≤ 2 ^ x.cqLog &&
    s.mayRequest x.fn && !s.fld.maint && !s.rst.coreHeld

/-- A descriptor is fetched whole and checked; a malformed one has BAD_DESCRIPTOR as its status (R132, R140). -/
def State.fetch (s : State) (c : CtxId) (desc : List Byte) : State :=
  match s.ctx? c with
  | none => s
  | some x =>
    if s.mayFetch x then
      let k0 := { cmdReset with seq := x.sqHead, stamp := s.cfe.stamp, desc := slice desc 0 128, endIdx := noOp }
      let k := if descriptorBad k0 then { k0 with bad := true, ending := some stBad } else k0
      let s := s.modCtx c fun x => { x with sqHead := x.sqHead + 1, cmds := x.cmds ++ [k] }
      ({ s with cfe.stamp := s.cfe.stamp + 1 }.tallyHost c 128).settle
    else s

def execCommandFetch (ctx : CtxId) (desc : List Byte) (s : State) : Host.Outcome State Fault Refusal :=
  .next (s.fetch ctx desc)

/-- The descriptor is a STEP (06_scheduling_streams.md R165). -/
def isStepDesc (desc : List Byte) : Bool := fieldAt desc 0 1 == 3 && fieldAt desc 0x40 1 == 1

/-- STEP: the fetch of a SERVE STEP (06_scheduling_streams.md R173). -/
def execStepFetch (ctx : CtxId) (desc : List Byte) (s : State) : Host.Outcome State Fault Refusal :=
  .next (if isStepDesc desc then s.fetch ctx desc else s)

/-! ## Dispatch (R137, R139, R140) -/

/-- A footprint entry (Table 5.4): first page, page count, READ and WRITE. -/
structure Foot where
  vpn   : Nat
  pages : Nat
  read  : Bool
  write : Bool
deriving DecidableEq, Repr

def footEntry (bs : List Byte) : Foot :=
  { vpn := bits (fieldAt bs 0 8) 47 21, pages := bits (fieldAt bs 8 8) 26 0,
    read := bit (fieldAt bs 8 8) 27, write := bit (fieldAt bs 8 8) 28 }

/-- An entry with a reserved bit set, no page, or neither READ nor WRITE is malformed (R137). -/
def footBad (bs : List Byte) : Bool :=
  let e := footEntry bs
  bits (fieldAt bs 0 8) 20 0 != 0 || bits (fieldAt bs 0 8) 63 48 != 0 || bits (fieldAt bs 8 8) 63 29 != 0 ||
    e.pages == 0 || (!e.read && !e.write)

/-- The entries of a command's footprint list, as the committed pages hold them. -/
def State.footBytes (s : State) (x : Context) (k : Cmd) : List (List Byte) :=
  (List.range k.footCount).map fun i => s.committedBytes x (k.footVa + 16 * i) 16

def Foot.vpns (e : Foot) : List Nat := (List.range e.pages).map (· + e.vpn)

/-- Pages of a list that are FAR or on their way into Seam. -/
def Context.notResident (x : Context) (vs : List Nat) : List Nat :=
  vs.filter fun v => let st := pteState (x.pt.getD v 0); st == psFar || st == psTransit

/-- A declared page takes a shadow at dispatch: it is mapped, with RO = 0 (R104). -/
def Context.takesShadow (x : Context) (vpn : Nat) : Bool :=
  let p := x.pt.getD vpn 0
  !pteDrops p && pteState p != psPoisoned

/-- Shadows reserved for the declared writes: pages that are mapped and not RO; all or none (R104). -/
def State.reserveShadows (s : State) (c : CtxId) (seq : Word) : List Nat → Option State
  | [] => some s
  | v :: vs =>
    (s.ctx? c).bind fun x =>
      let p := x.pt.getD v 0
      if !x.takesShadow v then s.reserveShadows c seq vs
      else
        (s.takeFrame (s.shadowDie (pteFrame p)) x.fn .shadow).bind fun (g, s) =>
          (s.modCmd c seq fun k => { k with reserved := k.reserved.put v g }).reserveShadows c seq vs

/-- A command starts to run: it captures the versions of its context (R103) and, if it uses the Field, takes it; a
STEP that serves nothing holds no Field and writes its report at once (06_scheduling_streams.md R174). -/
def State.startRun (s : State) (c : CtxId) (k : Cmd) (pages : List Nat) (byRule3 : Bool) : State :=
  match s.ctx? c with
  | none => s
  | some x =>
    let s := s.modCmd c k.seq fun j =>
      { j with phase := .running, versions := x.pt, touched := pages, opIdx := 0, endIdx := noOp }
    let idle := k.isStep && k.step.any fun r => r.invs.isEmpty
    if k.usesField && !idle then s.giveField c k byRule3
    else if idle then
      match s.cmd? c k.seq with
      | some k => s.stepFinish c k
      | none => s
    else s

/-- The checks of Table 5.5 at dispatch, in their order, up to the reservation. A list that lies in a POISONED page cannot
be read, and ends the command with FENCED (04_seam_hoist.md R89). A frozen Field has no width available
(13_reset_health.md R361). -/
def State.dispatchChecks (s : State) (c : CtxId) (x : Context) (k : Cmd) : Option Byte :=
  if (pagesOf k.footVa (16 * k.footCount)).any (fun v => pteState (x.pt.getD v 0) == psPoisoned) then some stFenced
  else if (s.footBytes x k).any footBad then some stBad
  else if s.fld.frozen || s.rst.retired || !s.widthFits (widthOf k.width) then some stWidth
  else if k.isStep && (s.entriesOf c).any (fun e =>
      (s.model? c e.2.model.toNat).any fun m => m.mwidth.toNat != k.width) then some stBad
  else none

/-- Pages of the footprint list itself and of the declared footprint. -/
def State.footPages (s : State) (x : Context) (k : Cmd) : List Nat × List Nat :=
  let es := (s.footBytes x k).map footEntry
  (pagesOf k.footVa (16 * k.footCount) ++ es.flatMap Foot.vpns, ((es.filter (·.write)).flatMap Foot.vpns).eraseDups)

/-- The dispatch of a FIELD command or STEP. FAR pages of the footprint are paged in first, off the Field, and none of
its own pages makes room for another (R113);
then, when the Scheduler's choice is this command, it runs or ends with the first failing check. -/
def State.dispatchField (s : State) (c : CtxId) (x : Context) (k : Cmd) : State :=
  let chosen := match s.choice with
    | some (d, j, r3) => if d == c && j.seq == k.seq then some r3 else none
    | none => none
  let (pages, writes) := s.footPages x k
  match s.dispatchChecks c x k with
  | some st => if chosen.isSome || s.fld.frozen then s.endWith c k.seq st noOp else s
  | none =>
    let far := x.notResident pages.eraseDups
    let s0 := s.modCmd c k.seq fun j => { j with touched := pages.eraseDups }
    if !far.isEmpty then
      match s0.startPageIns c far with
      | some s' => s'.modCmd c k.seq fun j => { j with stalled := far, touched := [] }
      | none => if s0.evictWaits x.fn then s else s.endWith c k.seq stNoRoom noOp
    else match chosen with
      | none => s
      | some r3 =>
        let s1 := s0.makeRoom x.fn (writes.filter x.takesShadow).length (s.frames.length + 1)
        match s1.reserveShadows c k.seq writes with
        | some s' => s'.startRun c k (pages.eraseDups) r3
        | none => if s0.evictWaits x.fn then s else s.endWith c k.seq stNoRoom noOp

/-- The errors met in reading a command's footprint list (04_seam_hoist.md R88, R89). -/
def State.listErrs (s : State) (x : Context) (k : Cmd) (errs : SeamErrs) : State :=
  let frames := (pagesOf k.footVa (16 * k.footCount)).filterMap fun v => seamFrame (x.pt.getD v 0)
  ((errs.ue.filter frames.contains).foldl (fun s f => s.seamUe f) s).seamCe errs.ce

/-- The footprint list lies in far pages, and the function may not issue requests: the dispatch waits
(12_host_attachment.md R316). -/
def State.listWaits (s : State) (x : Context) (k : Cmd) : Bool :=
  !s.mayRequest x.fn && !(x.notResident (pagesOf k.footVa (16 * k.footCount))).isEmpty

/-- A HOIST command that names no operation of Table 4.5 ends with BAD_DESCRIPTOR (04_seam_hoist.md R99). -/
def Cmd.hoistUnknown (k : Cmd) : Bool := k.isHoist && (k.subop == 0 || 7 < k.subop)

/-- COMMAND_DISPATCH: the first undispatched command of a context, when R139 allows it. -/
def State.dispatch (s : State) (c : CtxId) (errs : SeamErrs) : State :=
  match (s.ctx? c).bind fun x => x.nextCmd.map fun k => (x, k) with
  | none => s
  | some (x, k) =>
    if !s.dispatchable x k || !k.stalled.isEmpty || s.fld.maint || s.rst.coreHeld || s.listWaits x k then s
    else if k.usesField then
      if k.isStep && !(k.step.any (·.built)) then s
      else
        let s := s.listErrs x k errs
        match s.ctx? c with
        | some x => (s.dispatchField c x k).settle
        | none => s
    else
      let s := s.startRun c k [] false
      (if k.hoistUnknown then s.endWith c k.seq stBad 0 else s).settle

def execCommandDispatch (ctx : CtxId) (hits : List SeamHit) (s : State) : Host.Outcome State Fault Refusal :=
  .next (s.dispatch ctx (s.seamErrs hits))

/-- MARKER: no work, OK (R140). -/
def State.marker (s : State) (c : CtxId) : State :=
  match (s.ctx? c).bind fun x => x.cmds.find? fun k => k.isMarker && k.phase == .running && k.ending.isNone with
  | none => s
  | some k => s.endWith c k.seq stOk 0

def execMarker (ctx : CtxId) (s : State) : Host.Outcome State Fault Refusal := .next (s.marker ctx)

/-! ## Kills by software (R147, R148) -/

/-- KILL_ONE: the fetched command whose SEQ equals CTX_KILL_SEQ. -/
def State.killOne (s : State) (c : CtxId) : State :=
  match s.ctx? c with
  | none => s.regViol
  | some x => (s.requestKill c x.killSeq .software).settle

def execKillOne (ctx : CtxId) (s : State) : Host.Outcome State Fault Refusal := .next (s.killOne ctx)

/-- KILL_ALL: every fetched command of the context. -/
def State.killAll (s : State) (c : CtxId) : State :=
  match s.ctx? c with
  | none => s.regViol
  | some x => (x.cmds.foldl (fun s k => s.requestKill c k.seq .software) s).settle

def execKillAll (ctx : CtxId) (s : State) : Host.Outcome State Fault Refusal := .next (s.killAll ctx)

/-- KILL_COMPLETE (R148, R149): the kill of a command takes its full effect and its record is written, or it is
re-queued. -/
def State.killComplete (s : State) (c : CtxId) (seq : Word) : State :=
  match s.cmd? c seq with
  | none => s
  | some k =>
    match k.killing with
    | none => s
    | some why =>
      let s := s.killDone c k why
      let s := if (s.cmd? c seq).any (·.finished) then s.recordDue c seq else s
      s.settle

def execKillComplete (ctx : CtxId) (seq : Word) (s : State) : Host.Outcome State Fault Refusal :=
  .next (s.killComplete ctx seq)

/-! ## COMMAND_END (R146) -/

/-- A command that has reached its status leaves the Field and commits, or discards its shadows; a training unit and
the stream table change with the commit (R146, 07_training.md R196, 06_scheduling_streams.md R177). -/
def State.conclude (s : State) (c : CtxId) (k : Cmd) (st : Byte) : State :=
  let s := (s.leaveField c k.seq (.ctx c)).unmaskFor c k
  let s := if commits st then
      let s := (s.commitPages c k).releaseOwn k.reserved
      let s := s.amaxCommit c k
      let s := s.countLateStep k
      if st == stOk && k.isStep then s.stepCommit k else s
    else s.discard c k.seq
  let s := s.unitUpdate c k st
  (s.creditSeam c k).modCmd c k.seq fun j =>
    { j with finished := true, shadows := [], reserved := [], versions := [], touched := [] }

/-- COMMAND_END: the command concludes once, its record is written as soon as its function may issue requests, and
the Field is handed on. -/
def State.commandEnd (s : State) (c : CtxId) (seq : Word) : State :=
  match s.cmd? c seq with
  | none => s
  | some k =>
    match k.ending with
    | none => s
    | some st =>
      let s := if k.finished then s else s.conclude c k st
      (if k.finished then s.flushRecords c else s.recordDue c seq).settle

def execCommandEnd (ctx : CtxId) (seq : Word) (s : State) : Host.Outcome State Fault Refusal :=
  .next (s.commandEnd ctx seq)

/-! ## Command Canaries (R143) -/

/-- A parked command's wait reaches CFE_WAIT_LIMIT: the tag is sampled, and a tag DONE with OK lets it go on. -/
def State.waitExpiry (s : State) (c : CtxId) (seq : Word) : State :=
  match (s.ctx? c).bind fun x => (x.cmd? seq).map fun k => (x, k) with
  | none => s
  | some (x, k) =>
    if k.phase == .parked && k.ending.isNone && k.killing.isNone then
      match x.tagDone k.tag with
      | some st => if st == stOk then s else s.endWith c seq st k.opNumber
      | none => (s.endWith c seq stTimeout k.opNumber).canaryEvent 0x01 c.val
    else s

def execWaitLimitExpiry (ctx : CtxId) (seq : Word) (s : State) : Host.Outcome State Fault Refusal :=
  .next (s.waitExpiry ctx seq)

/-- The holder's Field time reaches its limit: it ends with TIMEOUT. -/
def State.holderTimeout (s : State) (canary : Nat) (p : Cmd → Bool) : State :=
  match s.holder? with
  | some (c, _, k) =>
    if p k && k.ending.isNone && k.killing.isNone then
      (s.endWith c k.seq stTimeout k.stopIdx).canaryEvent canary c.val
    else s
  | none => s

def execRunLimitExpiry (s : State) : Host.Outcome State Fault Refusal :=
  .next (s.holderTimeout 0x02 fun _ => true)

/-- A tenure whose charge has reached SCH_TENURE ends (06_scheduling_streams.md R163). -/
def execTenureExpiry (s : State) : Host.Outcome State Fault Refusal :=
  .next { s with sch.tenure := s.liveTenure }

end Sys2Proof.Machine
end

