-- ==== Sys2Proof/Machine/Serving.lean ====
section
/-! DEFINITION. The meanings of the serving and accounting rows: ADMIT, RELEASE, MODEL_SET, STEP_READY,
WORK_LIST_BUILD, DEADLINE_KILL, STEP_MAX_EXPIRY, the budget window, Tally and the reads of R189
(06_scheduling_streams.md). -/

namespace Sys2Proof.Machine

def execAdmitStream (ctx : CtxId) (s : State) : Host.Outcome State Fault Refusal := .next (s.admitStream ctx)

def execReleaseStream (ctx : CtxId) (s : State) : Host.Outcome State Fault Refusal := .next (s.releaseStream ctx)

def execModelSet (ctx : CtxId) (s : State) : Host.Outcome State Fault Refusal := .next (s.modelSet ctx)

def execStepReady (ctx : CtxId) (s : State) : Host.Outcome State Fault Refusal :=
  .next (s.stepBecomesReady ctx).settle

def execWorkListBuild (ctx : CtxId) (s : State) : Host.Outcome State Fault Refusal :=
  .next (s.workListBuild ctx).settle

def execDeadlineKill (ctx : CtxId) (s : State) : Host.Outcome State Fault Refusal := .next (s.deadlineKill ctx)

/-- The BAR0 offset of SCH_CTX_CFG, which holds a context's STEP_MAX (R186). -/
def offStepMax (c : CtxId) : Nat := 0x3400 + 4 * c.val

/-- A STEP's Field time reaches its context's STEP_MAX (R173); a STEP_MAX of 0 sets no limit, unless its parity is bad
(13_reset_health.md R363). -/
def State.stepMaxExpiry (s : State) (c : CtxId) : State :=
  match s.ctx? c with
  | none => s
  | some x =>
    if x.stepMax == 0 && !s.rst.badParity.contains (offStepMax c) then s
    else if s.sch.holder.any fun h => h.ctx == c then s.holderTimeout 0x03 (·.isStep) else s

def execStepMaxExpiry (ctx : CtxId) (s : State) : Host.Outcome State Fault Refusal := .next (s.stepMaxExpiry ctx)

/-- The next multiple of `p` after hall time `t`, or `t` itself if it is one. -/
def nextMultiple (t p : Nat) : Nat := (t + p - 1) / p * p

/-- BUDGET_WINDOW_RESET (R179): at a hall time that is a multiple of SCH_BUDGET_WIN every SCH_KILL_USED returns to 0. -/
def State.budgetReset (s : State) : State :=
  let w := max 1 s.sch.budgetWin.toNat * 1000000
  (s.passToHt (nextMultiple s.ht w)).mapCtxs fun x => { x with killUsed := 0 }

def execBudgetWindowReset (s : State) : Host.Outcome State Fault Refusal := .next s.budgetReset.settle

/-! ## Energy (R184) -/

/-- The energy of one 10 µs interval divided in proportion to Field-nanoseconds: to contexts whose holding interval
has ended, to the present holder's account, and the idle rest to SCH_TALLY_UNATTRIB. Units: 10^-10 mJ, so that
`nj` nanojoules for `t` of 10,000 ns are `nj × t`. -/
def State.energyInterval (s : State) (nj : Nat) : State :=
  let holderNs := match s.sch.holder with
    | some h => min (s.htSince h.mark) 10000
    | none => 0
  let closed := s.sch.intervalNs.foldl (fun n e => n + e.2) 0
  let s := s.sch.intervalNs.foldl (fun s e =>
    s.modCtx (ctxOf e.1) fun x => { x with tally := x.tally.addEnergy (nj * e.2) }) s
  let s := { s with
    sch.holder := s.sch.holder.map fun h : Holder => { h with mark := s.ht, energy := h.energy + nj * holderNs }
    sch.intervalNs := [] }
  s.unattributed (nj * (10000 - min 10000 (holderNs + closed)))

/-- TALLY_INTERVAL: at a 10 µs boundary of hall time; a change of TALLY_C2 takes effect there. -/
def State.tallyInterval (s : State) (nj : Nat) : State :=
  let s := s.passToHt (nextMultiple s.ht 10000)
  let s := if s.sch.tallyC2Eff then s.energyInterval nj
    else { s with
      sch.holder := s.sch.holder.map fun h : Holder => { h with mark := s.ht }
      sch.intervalNs := [] }
  { s with sch.tallyC2Eff := s.sch.tallyC2 }

def execTallyInterval (nanojoules : Nat) (s : State) : Host.Outcome State Fault Refusal :=
  .next (s.tallyInterval nanojoules)

/-! ## Tally records (R183, R185, R189) -/

/-- The 48 bytes of Table 6.10. -/
def Tally.bytes (t : Tally) : List Byte :=
  leBytes 8 t.jobs.toNat ++ leBytes 8 t.fieldNs.toNat ++ leBytes 8 t.seamBytes.toNat ++ leBytes 8 t.hostBytes.toNat ++
    leBytes 8 t.fabricBytes.toNat ++ leBytes 8 t.energyMj.toNat

/-- A TALLY event for a context (Table 12.17). -/
def State.tallyEvent (s : State) (c : CtxId) : State :=
  match s.ctx? c with
  | none => s
  | some x => s.raise 0x81 c.val x.tally.bytes

/-- TALLY_PERIOD: a TALLY event for every context, while the period is not 0 (R185). -/
def State.tallyPeriodic (s : State) : State :=
  if s.sch.tallyPeriod = 0 then s else s.contexts.foldl (fun s e => s.tallyEvent e.1) s

def execTallyPeriod (s : State) : Host.Outcome State Fault Refusal := .next s.tallyPeriodic

/-- A request whose argument is one number in word 0: bits above the field are reserved (12_host_attachment.md R420). -/
def State.argReserved (s : State) (width : Nat) : Bool := 2 ^ width ≤ s.mbxArg 0

def State.vtimeRead (s : State) : State :=
  s.mbxRun 0x40 fun s =>
    if s.argReserved 8 then s.mbxFail stBad
    else match s.ctx? (ctxOf (s.mbxArg 0)) with
      | some x => s.mbxOk (leBytes 8 x.vt.toNat ++ leBytes 2 x.rem)
      | none => s.mbxOk (List.replicate 10 0)

def execVtimeRead (s : State) : Host.Outcome State Fault Refusal := .next s.vtimeRead

def State.tallyRead (s : State) : State :=
  s.mbxRun 0x41 fun s =>
    if s.argReserved 8 then s.mbxFail stBad
    else match s.ctx? (ctxOf (s.mbxArg 0)) with
      | some x => s.mbxOk x.tally.bytes
      | none => s.mbxOk (List.replicate 48 0)

def execTallyRead (s : State) : Host.Outcome State Fault Refusal := .next s.tallyRead

/-- STB_READ: the half of an entry that HALF names; bytes 0x40 to 0x7F read 0 (R169). -/
def State.stbRead (s : State) : State :=
  s.mbxRun 0x42 fun s =>
    let w := s.mbxArg 0
    if bit w 15 || 2 ^ 17 ≤ w then s.mbxFail stBad
    else match s.stb.entries.get? (bits w 14 0) with
      | some e => s.mbxOk (if bit w 16 then List.replicate 64 0 else e.bytes)
      | none => s.mbxOk (List.replicate 64 0)

def execStbRead (s : State) : Host.Outcome State Fault Refusal := .next s.stbRead

/-- The mask of the serving step that began first among those that still mask is spent. -/
def maskSpent : List (CtxId × Word × Bool) → List (CtxId × Word × Bool)
  | [] => []
  | e :: r => if e.2.2 then (e.1, e.2.1, false) :: r else e :: maskSpent r

/-- MASK_MAX_EXPIRY: the automatic mask for a step ends although the step still runs (04_seam_hoist.md R120). -/
def State.maskMaxExpiry (s : State) : State := { s with seam.autoMask := maskSpent s.seam.autoMask }

def execMaskMaxExpiry (s : State) : Host.Outcome State Fault Refusal := .next s.maskMaxExpiry

end Sys2Proof.Machine
end

