-- ==== Sys2Proof/Machine/Slots.lean ====
section
/-! DEFINITION. Window slots: their flag words, acquisition and handback (12_host_attachment.md R329 to R331). -/

namespace Sys2Proof.Machine

/-- A flag word's fields (Table 12.9). -/
def flagOwner (f : List Byte) : Bool := bit (fieldAt f 0 4) 0
def flagSeq (f : List Byte) : BitVec 31 := BitVec.ofNat 31 (fieldAt f 0 4 / 2)
def flagLenOf (f : List Byte) : Nat := fieldAt f 4 4
def flagCrcOf (f : List Byte) : Word := BitVec.ofNat 32 (fieldAt f 8 4)

def Context.slot? (x : Context) (n : Nat) : Option WinSlot := x.window.bind fun w => w.slots.get? n

def WinSlot.size (w : WinSlot) : Nat := 2 ^ w.log2

/-- `f` on one slot of a context's window. -/
def State.modSlot (s : State) (c : CtxId) (n : Nat) (f : WinSlot → WinSlot) : State :=
  s.modCtx c fun x => { x with window := x.window.map fun w => { w with slots := w.slots.modify n f } }

/-- The slot is device-held, or its flag word shows OWNER = device and it becomes so, its SEQ, LEN and CRC recorded
(R330); none when the host owns it. -/
def State.acquire (s : State) (c : CtxId) (n : Nat) (flag : List Byte) : Option State :=
  (s.ctx? c).bind fun x => (x.slot? n).bind fun w =>
    if w.held.isSome then some s
    else if flagOwner flag then
      some ((s.modSlot c n fun w =>
        { w with held := some (flagSeq flag), flagLen := flagLenOf flag, flagCrc := flagCrcOf flag }).tallyHost c 16)
    else none

/-- A handback (R331): LEN and CRC, then word 0 with OWNER 0 and SEQ one above the SEQ recorded. A slot in the far pool stays
with the device (04_seam_hoist.md R112; log entry 77). -/
def State.handback (s : State) (c : CtxId) (n len : Nat) (crc : Word) : State :=
  match (s.ctx? c).bind fun x => x.window.bind fun w => (w.slots.get? n).map fun t => (x, w, t) with
  | none => s
  | some (x, w, t) =>
    if x.farPool.contains n then s.modSlot c n fun t => { t with busy := false }
    else match t.held with
    | none => s
    | some seq =>
      let a := w.flagBase.toNat + 16 * n
      let s := s.hostWrite (a + 4) (leBytes 4 len ++ leBytes 4 crc.toNat)
      let s := s.hostWrite a (leBytes 4 ((seq + 1).toNat * 2))
      (s.modSlot c n fun t => { t with held := none, busy := false }).tallyHost c 12

end Sys2Proof.Machine
end

