-- ==== Sys2Proof/Machine/Hoist.lean ====
section
/-! DEFINITION. The Hoist: the meanings of its requests, of the direct table write, invalidation, evacuation, paging,
and of the Seam's refresh, scrub and arbiter (04_seam_hoist.md R86 to R125). -/

namespace Sys2Proof.Machine

/-! ## The request (Table 4.4) -/

/-- A Hoist request's 64 bytes. -/
structure HReq where
  op : Nat
  place : Nat
  swidth : Nat
  die : Nat
  handle : Nat
  run : Nat
  vpn : Nat
  pages : Nat
  slot : Nat
  slotOff : Nat
  dstOff : Nat
  len : Nat
  pin : Bool
  ro : Bool
  check : Bool
deriving DecidableEq, Repr

def hreq (a : List Byte) : HReq :=
  let w0 := fieldAt a 0 4
  { op := bits w0 7 0, place := bits w0 10 8, pin := bit w0 11, ro := bit w0 12, check := bit w0 13,
    swidth := bits w0 15 14, die := bits w0 20 16, handle := fieldAt a 4 2, run := fieldAt a 6 2,
    vpn := fieldAt a 8 4, pages := fieldAt a 0x0C 4, slot := fieldAt a 0x10 2, slotOff := fieldAt a 0x18 8,
    dstOff := fieldAt a 0x20 8, len := fieldAt a 0x28 8 }

/-- The request uses PLACE, SWIDTH, DIE and RUN. -/
def HReq.usesPlace (r : HReq) : Bool := r.op == 1 || r.op == 3
/-- The request names a handle. -/
def HReq.usesHandle (r : HReq) : Bool := r.op == 2 || r.op == 3 || r.op == 4 || r.op == 7
def HReq.usesFlags (r : HReq) : Bool := r.op == 1 || r.op == 7
def HReq.usesSlot (r : HReq) : Bool := r.op == 4 || r.op == 5 || r.op == 6

/-- A reserved bit or encoding, an unknown OP, or a nonzero field the OP does not use (Table 4.4, log entry 19). -/
def hreqReserved (a : List Byte) : Bool :=
  let r := hreq a
  r.op == 0 || 7 < r.op || bits (fieldAt a 0 4) 31 21 != 0 || 2 ^ 27 ≤ r.vpn || 2 ^ 27 ≤ r.pages ||
    fieldAt a 0x12 6 != 0 || 2 ^ 48 ≤ r.slotOff || 2 ^ 48 ≤ r.dstOff || 2 ^ 40 ≤ r.len || nonzero (slice a 0x30 16) ||
    (if r.usesPlace then
        3 < r.place || r.swidth == 3 || (r.place == 1 && 23 < r.die) || (r.place == 2 && r.run == 0)
      else r.place != 0 || r.swidth != 0 || r.die != 0 || r.run != 0) ||
    (!r.usesFlags && (r.pin || r.ro)) || (r.op != 4 && (r.check || r.slotOff != 0 || r.dstOff != 0 || r.len != 0)) ||
    (!r.usesHandle && r.handle != 0) || (r.op != 1 && (r.vpn != 0 || r.pages != 0)) || (!r.usesSlot && r.slot != 0)

/-- The running HOIST command of a context with the given OP, not yet at its end. -/
def Context.hoistOp (x : Context) (op : Nat) : Option Cmd :=
  x.cmds.find? fun k => k.isHoist && k.subop == op && k.phase == .running && k.ending.isNone

/-- A Hoist request ends with OK and its new state, or with another status and no effect (R98). -/
def State.hoistEnd (s : State) (c : CtxId) (k : Cmd) (r : Except Byte State) : State :=
  match r with
  | .ok s' => s'.endWith c k.seq stOk 0
  | .error st => s.endWith c k.seq st 0

/-- A live handle (R97): live from its ALLOC until its pages are released. A request that names one FREE has unmapped finds no
page of it mapped, and completes with OK (log entry 76, the model's choice). -/
def Context.live (x : Context) (h : Nat) : Option Handle := x.handles.get? h

/-- The entries a handle owns; none once FREE has unmapped it. -/
def Context.handlePages (x : Context) (h : Nat) (e : Handle) : Assoc DWord :=
  x.pt.filter fun p => e.vpn ≤ p.1 && p.1 < e.vpn + e.pages && pteHandle p.2 == h && pteState p.2 != psUnmapped

/-- The request reads or writes host memory: a slot, its flag word, or far pages. -/
def Context.hoistNeedsHost (x : Context) (r : HReq) : Bool :=
  match r.op with
  | 1 => r.place == 3
  | 3 => (x.live r.handle).any fun h => !(x.handlePages r.handle h).isEmpty && (r.place == 3 ||
      (x.handlePages r.handle h).any fun p => pteState p.2 == psFar || pteState p.2 == psTransit)
  | 4 => (x.slot? r.slot).any fun w => !w.p2p
  | 5 => (x.slot? r.slot).any fun w => !w.p2p
  | 6 => x.farPool.contains r.slot
  | _ => false

/-- The request of a running HOIST command, when it is well formed; otherwise BAD_DESCRIPTOR. One that needs host memory
waits while its function may not issue requests (12_host_attachment.md R316). -/
def State.hoistRun (s : State) (c : CtxId) (op : Nat)
    (f : State → Context → Cmd → HReq → Except Byte State) : State :=
  match (s.ctx? c).bind fun x => (x.hoistOp op).map fun k => (x, k) with
  | none => s
  | some (x, k) =>
    if hreqReserved k.args then s.endWith c k.seq stBad 0
    else if x.hoistNeedsHost (hreq k.args) && !s.mayRequest x.fn then s
    else s.hoistEnd c k (f s x k (hreq k.args))

/-- The second and third rows of Table 4.5a, for a placement. -/
def State.placeRefused (s : State) (r : HReq) : Option Byte :=
  if r.place == 1 then
    if s.fld.testing.getLsbD (r.die / 4) then some stBusyTest
    else if s.quadClosed (r.die / 4) then some stFenced
    else none
  else if r.place == 2 then
    let w := widthOf r.swidth
    if !s.widthFits w || (s.logicalArrays w).any (fun a => s.fld.pend.getLsbD (a / 4)) then some stFenced else none
  else none

/-- The die page `i` goes to: none for the ANY rule (R100). -/
def State.targetDie (s : State) (r : HReq) (i : Nat) : Option Nat :=
  if r.place == 1 then some r.die
  else if r.place == 2 then
    let w := widthOf r.swidth
    some ((s.logicalArrays w).getD ((i / r.run) % w) 0)
  else none

/-- The level-2 table of a page's region, created with the first page of the region (R93). Its page goes where the ANY rule
puts it, and is taken after the page that needs it (log entry 9, the model's choice). -/
def State.ensureTable (s : State) (c : CtxId) (vpn : Nat) : Option State :=
  (s.ctx? c).bind fun x =>
    if x.tables.has (vpn / 262144) then some s
    else (s.takeFrame none x.fn .table).map fun (f, s) =>
      s.modCtx c fun x => { x with tables := x.tables.put (vpn / 262144) f }

/-- Level-2 tables of regions in which no page is mapped are freed (R93). -/
def State.dropTables (s : State) (c : CtxId) : State :=
  match s.ctx? c with
  | none => s
  | some x =>
    let dead := x.tables.filter fun t => !x.pt.any fun e => e.1 / 262144 == t.1 && pteState e.2 != psUnmapped
    dead.foldl (fun s t => (s.releaseFrame t.2).modCtx c fun x => { x with tables := x.tables.del t.1 }) s

/-- `n` bytes of host memory set to zero. -/
def State.zeroHost (s : State) (a n : Nat) : State :=
  { s with host := s.host.clear a n, hostFree := s.hostFree.flatMap (cutRange a n) }

/-- One new zeroed page of a handle, placed per PLACE. -/
def State.allocPage (s : State) (c : CtxId) (r : HReq) (h i : Nat) : Option State :=
  (s.ctx? c).bind fun x =>
    let vpn := r.vpn + i
    if r.place == 3 then
      if s.farRoom x.fn 1 then
        (x.freeFar s.freeCtr).map fun p =>
          let s := (s.zeroHost (x.farAddr (p / 512) (p % 512)) pageSize).tallyHost c pageSize
          s.modCtx c fun x => { (x.useFar p).dropStale (· == vpn) with
            pt := x.pt.put vpn (mkPte psFar r.ro r.pin (locFar (p / 512) (p % 512)) h) }
      else none
    else
      (s.takeFrame (s.targetDie r i) x.fn .page).map fun (f, s) =>
        (s.tallySeam c pageSize).modCtx c fun x => { x.dropStale (· == vpn) with
          pt := x.pt.put vpn (mkPte psResident r.ro r.pin (locSeam f) h) }

/-- Pages `i` and up of a new handle, all or none; their tables after the page that needs them. -/
def State.allocPages (s : State) (c : CtxId) (r : HReq) (h : Nat) : Nat → Nat → Option State
  | 0, _ => some s
  | n + 1, i => (s.allocPage c r h i).bind fun s => (s.ensureTable c (r.vpn + i)).bind fun s => s.allocPages c r h n (i + 1)

/-- ALLOC (R97, R99, R100). -/
def State.allocReq (s : State) (c : CtxId) (x : Context) (k : Cmd) (r : HReq) : Except Byte State :=
  let h := lowestFreeKey x.handles 0
  if r.pages == 0 || 2 ^ 27 < r.vpn + r.pages ||
      x.pt.any (fun e => r.vpn ≤ e.1 && e.1 < r.vpn + r.pages && pteState e.2 != psUnmapped) then .error stBad
  else match s.placeRefused r with
    | some st => .error st
    | none =>
      if 65536 ≤ h then .error stNoRoom
      else match s.allocPages c r h r.pages 0 with
        | none => .error stNoRoom
        | some s => .ok ((s.modCtx c fun x => { x with
            handles := x.handles.put h { vpn := r.vpn, pages := r.pages, freed := false, held := [] } }).modCmd c k.seq
              fun k => { k with handle := h })

def execAlloc (ctx : CtxId) (s : State) : Host.Outcome State Fault Refusal :=
  .next (s.hoistRun ctx 1 fun s x k r => s.allocReq ctx x k r)

/-- The Seam page of a POISONED page: the one its entry names, or the one evacuation released it from (R116). -/
def Context.poisonedFrame (x : Context) (vpn : Nat) (p : DWord) : Nat := x.released.getD vpn (pteFrame p)

/-- A POISONED page whose handle is freed is no longer charged, and stays withheld (R89, R96). -/
def State.uncharge (s : State) (x : Context) (vpn : Nat) (p : DWord) : State :=
  let f := x.poisonedFrame vpn p
  if (s.frames.get? f).any fun e => e.charge == some x.fn then
    { s with frames := s.frames.modify f fun e => { e with use := .withheld, charge := none } }
  else s

/-- FREE (R101): the handle is unmapped for commands dispatched later; its pages wait for HANDLE_RELEASE. -/
def State.freeHandle (s : State) (c : CtxId) (h : Nat) : State :=
  match (s.ctx? c).bind fun x => ((x.live h).filter fun e => !e.freed).map fun e => (x, e) with
  | none => s
  | some (x, e) =>
    let mine := x.handlePages h e
    let bad := mine.filter fun p => pteState p.2 == psPoisoned
    let keep := mine.filter fun p => pteState p.2 != psPoisoned
    let s := s.modCtx c fun x => { x.dropStale mine.has with
      pt := x.pt.filter fun p => !mine.has p.1
      released := x.released.filter fun p => !mine.has p.1
      handles := x.handles.put h { e with freed := true, held := keep } }
    let s := bad.foldl (fun s p => s.uncharge x p.1 p.2) s
    let s := keep.foldl (fun s p => if pteState p.2 == psFar then s else s.retireFrame (pteFrame p.2) .freed) s
    s.dropTables c

def State.freeReq (s : State) (c : CtxId) (x : Context) (r : HReq) : Except Byte State :=
  match x.live r.handle with
  | none => .error stBad
  | some _ => .ok (s.freeHandle c r.handle)

def execFreeHandle (ctx : CtxId) (s : State) : Host.Outcome State Fault Refusal :=
  .next (s.hoistRun ctx 2 fun s x _ r => s.freeReq ctx x r)

/-- A dispatched command still references a page of the handle (R101). -/
def Context.handleInUse (x : Context) (h : Nat) : Bool :=
  x.cmds.any fun k => k.dispatched && k.versions.any fun v => pteHandle v.2 == h && pteState v.2 != psUnmapped

/-- The pages and the number of a freed handle are released; a page a snapshot holds stays with it (R101, R105). -/
def State.releaseHandle (s : State) (c : CtxId) (h : Nat) : State :=
  match (s.ctx? c).bind fun x => (x.handles.get? h).map fun e => (x, e) with
  | none => s
  | some (_, e) =>
    let s := e.held.foldl (fun s p =>
      if pteState p.2 == psFar then s.dropFarOf c (pteSlot p.2 * 512 + pteSlotPage p.2)
      else
        let f := pteFrame p.2
        let s := match (s.frames.get? f).bind (·.far) with
          | some (slot, page) => s.dropFarOf c (slot * 512 + page)
          | none => s
        if s.heldBySnap f then { s with frames := s.frames.modify f fun e => { e with use := .replaced, far := none } }
        else s.releaseFrame f) s
    s.modCtx c fun x => { x with handles := x.handles.del h }

/-- HANDLE_RELEASE (R101). -/
def execHandleRelease (ctx : CtxId) (handle : Nat) (s : State) : Host.Outcome State Fault Refusal :=
  .next (match s.ctx? ctx with
    | some x =>
      if (x.handles.get? handle).any (·.freed) && !x.handleInUse handle then s.releaseHandle ctx handle else s
    | none => s)

/-! ## PLACE -/

/-- A page of Seam moved to the die given, or by the ANY rule; one already there stays (R100). -/
def State.moveToDie (s : State) (c : CtxId) (f : Nat) (die : Option Nat) : Option State :=
  if die == some (f / dieStride) then some s
  else ((die.orElse fun _ => s.anyDie).bind s.freeFrame).map fun g => (s.moveFrame f g).tallySeam c (2 * pageSize)

/-- A resident page sent to the context's far pool (R100 FAR, R116). A version a snapshot holds stays with it. -/
def State.sendFar (s : State) (c : CtxId) (vpn : Nat) : Option State :=
  (s.ctx? c).bind fun x =>
    let p := x.pt.getD vpn 0
    let f := pteFrame p
    let put := fun (far : Nat) (s : State) =>
      let g := fun q => if pteAt f q then pteMove q psFar (locFar (far / 512) (far % 512)) else q
      let s := s.modCtx c fun x => x.mapPtes g
      if s.heldBySnap f then { s with frames := s.frames.modify f fun e => { e with use := .replaced, far := none } }
      else s.releaseFrame f
    match (s.frames.get? f).bind (·.far) with
    | some (slot, page) => some (put (slot * 512 + page) s)
    | none =>
      if s.farRoom x.fn 1 then
        (x.freeFar s.freeCtr).map fun far =>
          put far (((s.modCtx c fun x => x.useFar far).pageToHost f (x.farAddr (far / 512) (far % 512))).tallyPage c)
      else none

/-- A FAR page brought into Seam on the die given; its far page is free again. -/
def State.bringIn (s : State) (c : CtxId) (vpn : Nat) (die : Option Nat) : Option State :=
  (s.ctx? c).bind fun x =>
    let p := x.pt.getD vpn 0
    (s.takeFrame die x.fn .page).map fun (f, s) =>
      let s := s.pageFromHost (x.farAddr (pteSlot p) (pteSlotPage p)) f
      let g := fun q => if pteAtFar (pteSlot p) (pteSlotPage p) q then pteMove q psResident (locSeam f) else q
      ((s.modCtx c fun x => x.mapPtes g).dropFarOf c (pteSlot p * 512 + pteSlotPage p)).tallyPage c

/-- A page on its way into Seam arrives before an in-place write or a move reaches it; paging affects timing only (R113). -/
def State.arrive (s : State) (c : CtxId) (vpn : Nat) : State :=
  match s.ctx? c with
  | none => s
  | some x =>
    let p := x.pt.getD vpn 0
    if pteState p != psTransit then s
    else match s.hst.pageIns.find? fun q => q.frame == pteFrame p with
      | some q => s.finishPageIn q
      | none => s

/-- One page of a handle moved per PLACE; a POISONED page stays (R100), and the cached entries of the rest are invalidated
(R108). -/
def State.placePage (s : State) (c : CtxId) (r : HReq) (base vpn : Nat) : Option State :=
  let s := (s.arrive c vpn).modCtx c fun x => x.dropStale (· == vpn)
  (s.ctx? c).bind fun x =>
    let p := x.pt.getD vpn 0
    let st := pteState p
    if st == psResident || st == psFrozen then
      if r.place == 3 then s.sendFar c vpn else s.moveToDie c (pteFrame p) (s.targetDie r (vpn - base))
    else if st == psFar then
      if r.place == 3 then some s else s.bringIn c vpn (s.targetDie r (vpn - base))
    else some s

def State.placePages (s : State) (c : CtxId) (r : HReq) (base : Nat) : List Nat → Option State
  | [] => some s
  | v :: vs => (s.placePage c r base v).bind fun s => s.placePages c r base vs

/-- Errors met by a Hoist copy or move in the Seam pages it reads (R89). -/
def State.hoistErrs (s : State) (frames : List Nat) (e : SeamErrs) : State :=
  ((e.ue.filter frames.contains).foldl (fun s f => s.seamUe f) s).seamCe e.ce

/-- PLACE (R100). -/
def State.placeReq (s : State) (c : CtxId) (x : Context) (r : HReq) : Except Byte State :=
  match x.live r.handle with
  | none => .error stBad
  | some h =>
    match s.placeRefused r with
    | some st => .error st
    | none =>
      match s.placePages c r h.vpn (x.handlePages r.handle h).keys with
      | some s => .ok s
      | none => .error stNoRoom

def execPlace (ctx : CtxId) (hits : List SeamHit) (s : State) : Host.Outcome State Fault Refusal :=
  .next (match (s.ctx? ctx).bind fun x => (x.hoistOp 3).map fun k => (x, k) with
    | none => s
    | some (x, k) =>
      let mine := match x.live (hreq k.args).handle with
        | some h => (x.handlePages (hreq k.args).handle h).vals.map pteFrame
        | none => []
      (s.hoistErrs mine (s.seamErrs hits)).hoistRun ctx 3 fun s x _ r => s.placeReq ctx x r)

/-! ## Writing committed pages in place -/

/-- Before an in-place write, a page a snapshot holds is copied: the copy becomes the committed version, and every
captured version of the context with it (11_snapshots.md R299, R145); none without a page for it. -/
def State.ownPage (s : State) (c : CtxId) (vpn : Nat) : Option State :=
  (s.ctx? c).bind fun x =>
    let p := x.pt.getD vpn 0
    let f := pteFrame p
    if pteState p == psFrozen then
      (s.takeFrame (s.shadowDie f) x.fn .page).map fun (g, s) =>
        let s := (s.copyFrame f g).tallySeam c (2 * pageSize)
        let r := fun q => if pteAt f q then pteMove q psResident (locSeam g) else q
        { s.modCtx c (fun x => x.mapPtes r) with
          frames := s.frames.modify f fun e => { e with use := .replaced, far := none }
          snp.cow := s.snp.cow + 1 }
    else if pteState p == psFar && s.farHeld c (pteSlot p * 512 + pteSlotPage p) then
      (s.takeFrame none x.fn .page).map fun (g, s) =>
        let s := (s.pageFromHost (x.farAddr (pteSlot p) (pteSlotPage p)) g).tallyPage c
        let r := fun q => if pteAtFar (pteSlot p) (pteSlotPage p) q then pteMove q psResident (locSeam g) else q
        { s.modCtx c (fun x => x.mapPtes r) with snp.cow := s.snp.cow + 1 }
    else some s

/-- A page changed since it was paged in no longer has a far copy (R114). -/
def State.dirty (s : State) (c : CtxId) (f : Nat) : State :=
  match (s.frames.get? f).bind (·.far) with
  | some (slot, page) =>
    { s.dropFarOf c (slot * 512 + page) with
      frames := s.frames.modify f fun e => { e with far := none } }
  | none => s

/-- Bytes written in place into one page of the committed version, in Seam or in its far copy. -/
def State.writePage (s : State) (c : CtxId) (vpn off : Nat) (bs : List Byte) : State :=
  match s.ctx? c with
  | none => s
  | some x =>
    let p := x.pt.getD vpn 0
    let st := pteState p
    if st == psResident || st == psFrozen then
      let s := s.dirty c (pteFrame p)
      { s with mem := s.mem.writeBytes (pteFrame p * pageSize + off) bs }
    else if st == psFar then s.hostWrite (x.farAddr (pteSlot p) (pteSlotPage p) + off) bs
    else s

/-- A run of bytes cut at page boundaries: page, offset and bytes. -/
def pageCuts : Nat → Nat → List Byte → List (Nat × Nat × List Byte)
  | 0, _, _ => []
  | fuel + 1, va, bs =>
    if bs.isEmpty then []
    else
      let off := va % pageSize
      let n := pageSize - off
      (va / pageSize, off, bs.take n) :: pageCuts fuel (va + n) (bs.drop n)

/-- Bytes written in place into the committed version, page by page; with `force` also into read-only pages (LOAD,
R102). Bytes of unmapped or read-only pages go nowhere; none when a copy of a held page cannot be had. -/
def State.writeCommitted (s : State) (c : CtxId) (force : Bool) :
    List (Nat × Nat × List Byte) → Option State
  | [] => some s
  | (vpn, off, bs) :: r =>
    (s.ctx? c).bind fun x =>
      let p := x.pt.getD vpn 0
      if pteState p == psUnmapped || 5 ≤ pteState p || (pteRo p && !force) then s.writeCommitted c force r
      else ((s.arrive c vpn).ownPage c vpn).bind fun s => (s.writePage c vpn off bs).writeCommitted c force r

def State.writeCommittedAt (s : State) (c : CtxId) (force : Bool) (va : Nat) (bs : List Byte) : Option State :=
  s.writeCommitted c force (pageCuts (bs.length + 1) va bs)

/-! ## LOAD and the far pool (R102, R112) -/

/-- LOAD: the slot's flag word as read, and the slot's bytes as the host ports return them; `portFault` says that
port 1 was fenced while chunks were in flight there (12_host_attachment.md Table 12.12). -/
def State.loadReq (s : State) (c : CtxId) (x : Context) (r : HReq) (flag data : List Byte) (portFault : Bool) :
    Except Byte State :=
  match x.live r.handle, x.slot? r.slot with
  | some h, some w =>
    if r.len == 0 || h.pages * pageSize < r.dstOff + r.len || w.size < r.slotOff + r.len || w.p2p then .error stBad
    else match s.acquire c r.slot flag with
      | none => .error stBad
      | some s =>
        let len := if w.held.isSome then w.flagLen else flagLenOf flag
        let crc := if w.held.isSome then w.flagCrc else flagCrcOf flag
        let va := h.vpn * pageSize + r.dstOff
        if r.check && (w.size < len || crc32c (slice data 0 len) != crc) then .error stBad
        else if portFault then .error stFenced
        else if h.freed then .ok (s.tallyHost c r.len)
        else if (pagesOf va r.len).any (fun v => pteState (x.pt.getD v 0) == psPoisoned) then .error stFenced
        else match s.writeCommittedAt c true va (slice data r.slotOff r.len) with
          | some s => .ok (((s.tallyHost c r.len).tallySeam c r.len).modCtx c fun x => x.dropStale (pagesOf va r.len).contains)
          | none => .error stNoRoom
  | _, _ => .error stBad

/-- The slot a LOAD names becomes device-held when its flag word says so, whatever the request's status (R330). -/
def State.loadAcquire (s : State) (c : CtxId) (flag : List Byte) (op : Nat) : State :=
  match (s.ctx? c).bind fun x => (x.hoistOp op) with
  | some k =>
    let r := hreq k.args
    if hreqReserved k.args || !(s.ctx? c).any (fun x => x.hoistNeedsHost r && s.mayRequest x.fn) then s
    else (s.acquire c r.slot flag).getD s
  | none => s

def execLoad (ctx : CtxId) (flag data : List Byte) (portFault : Bool) (s : State) :
    Host.Outcome State Fault Refusal :=
  .next ((s.loadAcquire ctx flag 4).hoistRun ctx 4 fun s x _ r => s.loadReq ctx x r flag data portFault)

/-- FARSLOT_ADD (R112). -/
def State.farslotAdd (s : State) (c : CtxId) (x : Context) (r : HReq) (flag : List Byte) : Except Byte State :=
  match x.slot? r.slot with
  | none => .error stBad
  | some w =>
    if w.p2p || w.size < pageSize || x.farPool.contains r.slot then .error stBad
    else match s.acquire c r.slot flag with
      | none => .error stBad
      | some s => .ok (s.modCtx c fun x => { x with
          farPool := x.farPool.filter (· < r.slot) ++ r.slot :: x.farPool.filter (r.slot < ·) })

def execFarslotAdd (ctx : CtxId) (flag : List Byte) (s : State) : Host.Outcome State Fault Refusal :=
  .next ((s.loadAcquire ctx flag 5).hoistRun ctx 5 fun s x _ r => s.farslotAdd ctx x r flag)

/-- A FAR page of the context lies in a window slot: in its committed version, or one that a dispatched command, a freed
handle or a snapshot still holds. -/
def State.farPageIn (s : State) (c : CtxId) (x : Context) (slot : Nat) : Bool :=
  let far := fun (p : DWord) => pteState p == psFar && pteSlot p == slot
  x.pt.any (fun e => far e.2) || x.cmds.any (fun k => k.versions.any fun e => far e.2) ||
    x.handles.any (fun h => h.2.held.any fun e => far e.2) ||
    s.snp.slots.toList.any fun t => t.ctx.toNat == c.val && t.held.any fun e => far e.2

/-- The far copies that a slot keeps of pages in Seam are given up: those pages have no far copy any more. -/
def State.dropCopies (s : State) (c : CtxId) (slot : Nat) : State :=
  match s.ctx? c with
  | none => s
  | some x =>
    let mine := fun f => x.pt.any (fun e => pteAt f e.2) || x.cmds.any (fun k => k.versions.any fun e => pteAt f e.2) ||
      x.handles.any (fun h => h.2.held.any fun e => pteAt f e.2)
    { s.modCtx c (fun x => { x with farUsed := x.farUsed.filter (· / 512 != slot) }) with
      frames := s.frames.map fun e =>
        if e.2.far.any (·.1 == slot) && mine e.1 then (e.1, { e.2 with far := none }) else e }

/-- FARSLOT_RELEASE (R112): pages on their way out of the slot arrive first; NO_ROOM while any FAR page lies in it; else the
slot is handed back. A slot that is not in the far pool is answered BAD_DESCRIPTOR (log entry 77, the model's choice: the spec
gives it no status). -/
def State.farslotRelease (s : State) (c : CtxId) (x : Context) (r : HReq) : Except Byte State :=
  if !x.farPool.contains r.slot then .error stBad
  else
    let s := (s.hst.pageIns.filter fun p => p.ctx == c && p.slot == r.slot).foldl (fun (s : State) p => s.finishPageIn p) s
    match s.ctx? c with
    | none => .error stBad
    | some x =>
      if s.farPageIn c x r.slot then .error stNoRoom
      else .ok (((s.dropCopies c r.slot).modCtx c fun x => { x with farPool := x.farPool.filter (· != r.slot) }).handback
        c r.slot 0 0)

def execFarslotRelease (ctx : CtxId) (s : State) : Host.Outcome State Fault Refusal :=
  .next (s.hoistRun ctx 6 fun s x _ r => s.farslotRelease ctx x r)

/-- SETFLAGS: PIN and RO on every page of the handle (Table 4.5). -/
def State.setFlags (s : State) (c : CtxId) (x : Context) (r : HReq) : Except Byte State :=
  match x.live r.handle with
  | none => .error stBad
  | some h =>
    let mine := x.handlePages r.handle h
    let f := fun (p : DWord) => (p &&& ~~~(0x30#64)) ||| BitVec.ofNat 64 (b2n r.ro * 16 + b2n r.pin * 32)
    .ok (s.modCtx c fun x => { x.dropStale mine.has with
      pt := x.pt.map fun e => if mine.has e.1 then (e.1, f e.2) else e })

def execSetflags (ctx : CtxId) (s : State) : Host.Outcome State Fault Refusal :=
  .next (s.hoistRun ctx 7 fun s x _ r => s.setFlags ctx x r)

/-! ## Direct table writes and invalidation (R109 to R111) -/

/-- A direct write is ignored and DTW_ERR set in these cases (R109). -/
def dtwRefused (x : Context) (vpn : Nat) (new : DWord) : Bool :=
  pteState new == psTransit || 5 < pteState new || pteState (x.pt.getD vpn 0) == psTransit ||
    !x.tables.has (vpn / 262144)

/-- The replaced entry may stay in use until an invalidation (R111), as may those replaced before it. -/
def noteStale (l : List Stale) (vpn : Nat) (old new : DWord) : List Stale :=
  match l.find? fun e => e.vpn == vpn with
  | some e => { e with old := e.old ++ [old], new := new } :: l.filter (fun e => e.vpn != vpn)
  | none => { vpn := vpn, old := [old], new := new } :: l

/-- HST_DTW_CTRL.START with context `c`: the staged entry is written, all 64 bits at once (R109). -/
def State.directWrite (s : State) (c : Byte) : State :=
  let s := { s with hst.dtwCtx := c, hst.dtwErr := false }
  let new : DWord := s.hst.dtwHi ++ s.hst.dtwLo
  let vpn := s.hst.dtwVpn.toNat
  match s.ctx? (ctxOf c.toNat) with
  | none => { s with hst.dtwErr := true }
  | some x =>
    if dtwRefused x vpn new then { s with hst.dtwErr := true }
    else s.modCtx (ctxOf c.toNat) fun x => { x with
      pt := if new = 0 then x.pt.del vpn else x.pt.put vpn new
      released := x.released.del vpn
      stale := noteStale x.stale vpn (x.pt.getD vpn 0) new }

def execDirectTableWrite (ctx : Byte) (s : State) : Host.Outcome State Fault Refusal := .next (s.directWrite ctx)

/-- TABLE_READ (R110). -/
def State.tableRead (s : State) : State :=
  s.mbxRun 0x21 fun s =>
    let bad := 256 ≤ s.mbxArg 0 || 2 ^ 27 ≤ s.mbxArg 1
    match bad, s.ctx? (ctxOf (s.mbxArg 0)) with
    | false, some x => s.mbxOk (leBytes 4 stOk.toNat ++ leBytes 8 (x.pt.getD (s.mbxArg 1) 0).toNat)
    | _, _ => s.mbxOk (leBytes 4 stBad.toNat ++ leBytes 8 0)

def execTableRead (s : State) : Host.Outcome State Fault Refusal := .next s.tableRead

/-- HST_INVALIDATE.START; a START while INV_BUSY is 1 is ignored (Table 4.8). -/
def State.invalidate (s : State) (c : Byte) (all : Bool) : State :=
  let s := { s with hst.invCtx := c, hst.invAll := all }
  if s.hst.invBusy.isSome then s else { s with hst.invBusy := some (all, c) }

def execInvalidate (ctx : Byte) (all : Bool) (s : State) : Host.Outcome State Fault Refusal :=
  .next (s.invalidate ctx all)

/-- An invalidation completes: from now on only the new mapping is seen (R111). -/
def State.invalidateDone (s : State) : State :=
  match s.hst.invBusy with
  | none => s
  | some (all, c) =>
    let s := if all then s.mapCtxs fun x => { x with stale := [] }
      else s.modCtx (ctxOf c.toNat) fun x => { x with stale := [] }
    { s with hst.invBusy := none }

def execInvalidateDone (s : State) : Host.Outcome State Fault Refusal := .next s.invalidateDone

/-! ## Evacuation (R116) -/

/-- The ANY rule without the quad being emptied. -/
def State.anyDieBut (s : State) (q : Nat) : Option Nat :=
  (List.range 24).foldl
    (fun best d =>
      let n := s.freeOnDie d
      if d / 4 != q && s.dieOpen d && 0 < n then
        match best with
        | none => some d
        | some b => if s.freeOnDie b < n then some d else some b
      else best)
    none

/-- The context and page of a POISONED entry that names Seam page `f`; one that evacuation has released names none. -/
def State.poisonedAt (s : State) (f : Nat) : Option (CtxId × Nat × DWord) :=
  s.contexts.findSome? fun e =>
    (e.2.pt.find? fun v => pteState v.2 == psPoisoned && pteFrame v.2 == f && !e.2.released.has v.1).map
      fun v => (e.1, v.1, v.2)

/-- A page sent to the far tier must be written there, and its function may not issue requests: the evacuation waits
(12_host_attachment.md R316). -/
def State.farWaits (s : State) (c : CtxId) (f : Nat) : Bool :=
  (s.ctx? c).any (fun x => !s.mayRequest x.fn) && ((s.frames.get? f).bind (·.far)).isNone

/-- One page of the quad: moved, sent far, or, if POISONED, released with its DIE and PAGE reading 0; a page
that cannot be placed makes the evacuation NO_ROOM. -/
def State.evacuatePage (s : State) (q f : Nat) : State :=
  if s.hst.evacFull then s
  else match s.frames.get? f with
  | none => s
  | some e =>
    if e.use == .withheld then s
    else match s.poisonedAt f with
    | some (c, vpn, p) =>
      let s := s.modCtx c fun x => { x.dropStale (· == vpn) with
        pt := x.pt.put vpn (pteMove p psPoisoned 0), released := x.released.put vpn f }
      { s with frames := s.frames.modify f fun e => { e with use := .withheld } }
    | none =>
      match (s.anyDieBut q).bind s.freeFrame with
      | some g => s.moveFrame f g
      | none =>
        match s.ownerOf f with
        | some (c, vpn, p) =>
          if ptePin p || pteState p != psResident then { s with hst.evacFull := true }
          else if s.farWaits c f then s
          else match s.sendFar c vpn with
            | some s' => s'
            | none => { s with hst.evacFull := true }
        | none => { s with hst.evacFull := true }

/-- The Seam pages in use in a quad that an evacuation has still to empty. -/
def State.quadFrames (s : State) (q : Nat) : List Nat :=
  (s.frames.filter fun e => e.1 / dieStride / 4 == q && e.2.use != FrameUse.withheld).map (·.1)

/-- HST_EVAC.START (Table 4.10): ignored while EVAC_BUSY is 1 or QUAD is reserved. -/
def State.evacuate (s : State) (quad : BitVec 3) (errs : SeamErrs) : State :=
  if s.hst.evacBusy || 6 ≤ quad.toNat then s
  else
    let q := quad.toNat
    let s := { s with hst.evacQuad := quad, hst.evacBusy := true, hst.evacState := 1, hst.evacFull := false }
    (s.quadFrames q).foldl (fun s f => s.evacuatePage q f) (s.hoistErrs (s.quadFrames q) errs)

def execEvacuate (quad : BitVec 3) (hits : List SeamHit) (s : State) : Host.Outcome State Fault Refusal :=
  .next (s.evacuate quad (s.seamErrs hits))

/-- An evacuation ends with EVAC_STATE done or NO_ROOM, once the pages that waited for host memory have gone. -/
def State.evacuationDone (s : State) : State :=
  if s.hst.evacBusy then
    let q := s.hst.evacQuad.toNat
    let s := (s.quadFrames q).foldl (fun s f => s.evacuatePage q f) s
    if s.hst.evacFull then { s with hst.evacBusy := false, hst.evacState := 3 }
    else if (s.quadFrames q).isEmpty then { s with hst.evacBusy := false, hst.evacState := 2 }
    else s
  else s

def execEvacuationDone (s : State) : Host.Outcome State Fault Refusal := .next s.evacuationDone

/-! ## Paging, refresh and scrub (R90, R113) -/

/-- PAGE_IN_DONE: the page is RESIDENT; a stalled operation or waiting dispatch may go on. The page-in waits while the
function may not issue requests (12_host_attachment.md R316). -/
def State.pageInDone (s : State) (c : CtxId) (vpn : Nat) : State :=
  match s.hst.pageIns.find? fun p => p.ctx == c && p.vpn == vpn with
  | some p => if (s.ctx? c).any fun x => s.mayRequest x.fn then (s.finishPageIn p).settle else s
  | none => s

def execPageInDone (ctx : CtxId) (vpn : Nat) (s : State) : Host.Outcome State Fault Refusal :=
  .next (s.pageInDone ctx vpn)

/-- A refresh affects timing only; the model counts it (R90). -/
def execSeamRefresh (_die : DieId) (s : State) : Host.Outcome State Fault Refusal :=
  .next { s with seam.refreshes := s.seam.refreshes + 1 }

/-- One patrol scrub: the corrected errors are counted, each uncorrectable one takes the course of R89. -/
def execSeamScrub (hits : List SeamHit) (s : State) : Host.Outcome State Fault Refusal :=
  .next (((s.seamErrs hits).ue.foldl (fun s f => s.seamUe f) s).seamCe (s.seamErrs hits).ce)

/-! ## The Seam port arbiter (R119, R120; log entry 20). Classes: 0 LOCAL, 1 GALLERY, 2 HOIST, 3 WDMA, 4 SNAP. -/

/-- A class is masked (R120): by its SBMASK bit, or, with SBMASK_AUTO, for a running serving step whose MASK_MAX has not yet
passed. -/
def State.classMasked (s : State) (k : Nat) : Bool :=
  2 ≤ k && (s.seam.autoEn && s.seam.autoMask.any (·.2.2) || s.seam.sbmask.getLsbD (k - 2))

/-- WAIT_MAX of GALLERY, HOIST, WDMA and SNAP; 0 is taken as 1. -/
def State.waitMaxOf (s : State) (k : Nat) : Nat := max 1 (s.seam.waitMax.toList.getD (k - 1) 0).toNat

/-- A class whose wait counter has reached its WAIT_MAX; LOCAL is served by its place in the order (log entry 20). -/
def State.classExpired (s : State) (d : DieId) (k : Nat) : Bool :=
  k != 0 && s.waitMaxOf k ≤ (vget s.seam.dies d).waits.toList.getD k 0

/-- The class granted, and whether by counter expiry. -/
def State.arbChoice (s : State) (d : DieId) (waiting : BitVec 5) : Option (Nat × Bool) :=
  let w := (List.range 5).filter fun k => waiting.getLsbD k
  let open' := w.filter fun k => !s.classMasked k
  let cands := if open'.isEmpty then w else open'
  match cands.find? fun k => s.classExpired d k with
  | some k => some (k, true)
  | none => cands.head?.map fun k => (k, false)

/-- SEAM_ARB_GRANT: counters, SEAM_STARVE and SEAM_WAIT_OBS of the die. -/
def State.arbGrant (s : State) (d : DieId) (waiting : BitVec 5) (waitedNs : Nat) : State :=
  match s.arbChoice d waiting with
  | none => s
  | some (k, byCounter) =>
    { s with seam.dies := vmod s.seam.dies d fun e => { e with
        starve := if byCounter then e.starve + 1 else e.starve
        waits := Vector.ofFn fun i =>
          if i.val = k then 0
          else if waiting.getLsbD i.val && !s.classMasked i.val then vget e.waits i + 1 else vget e.waits i
        waitObs := Vector.ofFn fun i =>
          let o := vget e.waitObs i
          if i.val = k then satNat 16 (max o.toNat waitedNs) else o } }

def execSeamArbGrant (die : DieId) (waiting : BitVec 5) (waitedNs : Nat) (s : State) :
    Host.Outcome State Fault Refusal :=
  .next (s.arbGrant die waiting waitedNs)

end Sys2Proof.Machine
end

