-- ==== Sys2Proof/Machine/Sha.lean ====
section
/-! DEFINITION. SHA-384, as FIPS 180-4 lays it down (11_snapshots.md R301; log entry 33). Its constants are fractional parts
of roots of primes, and are computed as such. -/

namespace Sys2Proof.Machine

/-- The largest number below 2^`n` more than `r` whose `k`-th power does not exceed `x`, bit by bit. -/
def rootFrom (k x : Nat) : Nat → Nat → Nat
  | 0, r => r
  | n + 1, r => rootFrom k x n (if (r + 2 ^ n) ^ k ≤ x then r + 2 ^ n else r)

/-- The first 64 bits of the fractional part of the `k`-th root of `p`, for roots below 2^8. -/
def rootBits (k p : Nat) : DWord := BitVec.ofNat 64 (rootFrom k (p * 2 ^ (64 * k)) 72 0)

/-- The primes below 410: the first 80. -/
def shaPrimes : List Nat :=
  (List.range 410).filter fun p => 1 < p && (List.range p).all fun d => d < 2 || p % d != 0

/-- The constants of the rounds: from the cube roots of the first 80 primes. -/
def roundConsts : List DWord := shaPrimes.map (rootBits 3)

/-- The initial hash value: from the square roots of the ninth to sixteenth primes. -/
def shaStart : List DWord := (List.range 8).map fun i => rootBits 2 (shaPrimes.getD (8 + i) 0)

/-- The exclusive-or of `x` rotated right by each of some amounts. -/
def rotXor (x : DWord) (ns : List Nat) : DWord := ns.foldl (fun (r : DWord) n => r ^^^ x.rotateRight n) 0

/-- Eight bytes as a big-endian word. -/
def beWord (bs : List Byte) : DWord := BitVec.ofNat 64 (leNat bs.reverse)

/-- A number as `n` big-endian bytes. -/
def beBytes (n x : Nat) : List Byte := (leBytes n x).reverse

/-- The word of the message schedule that follows sixteen others. -/
def nextWord (w : List DWord) : DWord :=
  let old := w.getD 1 0
  let late := w.getD 14 0
  w.getD 0 0 + w.getD 9 0 + (rotXor old [1, 8] ^^^ old >>> 7) + (rotXor late [19, 61] ^^^ late >>> 6)

/-- One round on the eight working words. `maj` and `choose` are the majority and the choice of FIPS 180-4. -/
def shaRound (add : DWord) (v : List DWord) : List DWord :=
  match v with
  | [a, b, c, d, e, f, g, h] =>
    let choose := (e &&& f) ||| (~~~e &&& g)
    let maj := (a &&& (b ||| c)) ||| (b &&& c)
    let t := add + h + choose + rotXor e [14, 18, 41]
    [t + maj + rotXor a [28, 34, 39], a, b, c, d + t, e, f, g]
  | _ => v

/-- The rounds with the constants left; `w` is the schedule's window of sixteen words. -/
def shaRounds : List DWord → List DWord → List DWord → List DWord
  | [], _, v => v
  | k :: ks, w, v => shaRounds ks (w.drop 1 ++ [nextWord w]) (shaRound (k + w.getD 0 0) v)

/-- One 128-byte block. -/
def shaBlock (h : List DWord) (block : List Byte) : List DWord :=
  (h.zip (shaRounds roundConsts ((List.range 16).map fun i => beWord (slice block (8 * i) 8)) h)).map fun p => p.1 + p.2

/-- A message of whole blocks, at most `n` of them. -/
def shaBlocks : Nat → List DWord → List Byte → List DWord
  | 0, h, _ => h
  | n + 1, h, bs => shaBlocks n (shaBlock h (bs.take 128)) (bs.drop 128)

/-- The message with a 1 bit, zeros and its length in bits, a multiple of 128 bytes. -/
def shaPad (msg : List Byte) : List Byte :=
  msg ++ 0x80 :: List.replicate ((239 - msg.length % 128) % 128) 0 ++ beBytes 16 (8 * msg.length)

/-- The digest's 48 bytes, in the byte order of FIPS 180-4 output. -/
def sha384 (msg : List Byte) : List Byte :=
  let bs := shaPad msg
  ((shaBlocks (bs.length / 128) shaStart bs).take 6).flatMap fun w => beBytes 8 w.toNat

end Sys2Proof.Machine
end

