-- ==== Sys2Proof/Machine/Calib.lean ====
section
/-! DEFINITION. The calibration image, and the calibration values in use (14_identity_service.md R384, R385). -/

namespace Sys2Proof.Machine

def calSize : Nat := 16384
def calMagic : Nat := 0x43414C31

/-- The first 0x3FD0 bytes of the image as manufactured: the header, the ranges that Table 14.4 fills with 0, and values the
spec leaves to the factory. -/
def factoryBody : List Byte :=
  (List.range 0x3FD0).map fun i =>
    if i < 64 then (leBytes 4 calMagic ++ leBytes 4 1 ++ leBytes 8 Config.serial.toNat).getD i 0
    else if 0x39C0 ≤ i || (0x644 ≤ i && i < 0x840) then 0
    else Config.factoryByte i

/-- An image closed by the digest over its first 0x3FD0 bytes. -/
def withDigest (b : List Byte) : List Byte := slice b 0 0x3FD0 ++ sha384 (slice b 0 0x3FD0)

/-- The stored image, exactly as stored. -/
def State.calImage (s : State) : List Byte :=
  match s.cal.stored with
  | some b => b
  | none => withDigest factoryBody

/-- MAGIC, FORMAT, SERIAL and the digest are correct (R385, R387). -/
def calImageOk (b : List Byte) : Bool :=
  b.length == calSize && fieldAt b 0 4 == calMagic && fieldAt b 4 4 == 1 && fieldAt b 8 8 == Config.serial.toNat &&
    slice b 0x3FD0 48 == sha384 (slice b 0 0x3FD0)

/-- A byte of the calibration values in use. -/
def CalValues.byte (v : CalValues) (i : Nat) : Byte :=
  match v with
  | .nominal => Config.nominalByte i
  | .image none => factoryBody.getD i 0
  | .image (some b) => b.getD i 0

/-- The signed 16-bit calibration value at an offset. -/
def CalValues.int16 (v : CalValues) (i : Nat) : Int :=
  (BitVec.ofNat 16 ((v.byte i).toNat + 256 * (v.byte (i + 1)).toNat)).toInt

/-- A die's thermal offset, signed, in 1/64 °C (Table 14.4). -/
def CalValues.offset (v : CalValues) (die : Nat) : Int := v.int16 (0x2040 + 2 * die)

/-- The delay trim of a lane of a link, transmit or receive, in sixteenths of a ns: in link, then lane, then direction order
after the TCLK trim (Table 14.4). -/
def CalValues.trim (v : CalValues) (link lane : Nat) (receive : Bool) : Int :=
  v.int16 (0x44 + 2 * ((link * 16 + lane) * 2 + b2n receive))

end Sys2Proof.Machine
end

