-- ==== Sys2Proof/Machine/Time.lean ====
section
/-! DEFINITION. The Time Keeper: the rack time code, the states of Table 8.4, time exchanges and steering, slot
comparators and lateness (08_hall_time.md R218 to R237). -/

namespace Sys2Proof.Machine

/-! ## Link states (09_links.md Table 9.3) -/

def lsDown : BitVec 4 := 0
def lsTraining : BitVec 4 := 1
def lsDiscover : BitVec 4 := 2
def lsUp : BitVec 4 := 3
def lsDegraded : BitVec 4 := 4
def lsSleep : BitVec 4 := 5
def lsWaking : BitVec 4 := 6
def lsLoop : BitVec 4 := 7
def lsDisabled : BitVec 4 := 8
def lsMismatch : BitVec 4 := 9
def lsFailed : BitVec 4 := 10
def lsRetired : BitVec 4 := 11

/-- States in which a link carries time symbols (Table 9.3). -/
def carriesTime (st : BitVec 4) : Bool :=
  st == lsDiscover || st == lsUp || st == lsDegraded || st == lsDisabled || st == lsRetired

/-- A link that BE traffic may use (09_links.md R243). -/
def usableState (st : BitVec 4) : Bool := st == lsUp || st == lsDegraded

def State.link (s : State) (l : LinkId) : Link := vget s.lnk.links l
def State.modLink (s : State) (l : LinkId) (f : Link → Link) : State := { s with lnk.links := vmod s.lnk.links l f }

/-- A link by number; numbers above 23 are reserved. -/
def linkOf (n : Nat) : LinkId := Fin.ofNat 24 n

/-! ## Time Keeper states (Table 8.4) -/

def tkUnlocked : BitVec 3 := 0
def tkRack : BitVec 3 := 1
def tkAcquire : BitVec 3 := 2
def tkLocked : BitVec 3 := 3
def tkHoldover : BitVec 3 := 4

/-- BAR0 offsets of the limit registers with parity (13_reset_health.md R363). -/
def offGuard : Nat := 0xB008
def offHoldover : Nat := 0xB00C

/-- The Time Keeper may keep scheduled traffic: LOCKED, or HOLDOVER within TKP_HOLDOVER (R223, R230). -/
def State.timeGood (s : State) : Bool :=
  s.tkp.state == tkLocked || (s.tkp.state == tkHoldover && !s.tkp.holdoverOver)

/-- Scheduled transmission is allowed: SCHED_OFF reads 0 (Table 8.7, R232, 13_reset_health.md R363). -/
def State.schedAllowed (s : State) : Bool :=
  s.timeGood && !s.tkp.cmpFault && !s.rst.badParity.contains offGuard && !s.rst.badParity.contains offHoldover

/-- The guard time as it acts: below 8 taken as 8, above 48 as 48 (Table 8.8). -/
def guardOf (ns : BitVec 6) : Nat := max 8 (min 48 ns.toNat)

/-- The link now used as parent. -/
def State.parentLink (s : State) : LinkId := linkOf s.tkp.parentUsed.toNat

def State.parentTrained (s : State) : Bool := carriesTime (s.link s.parentLink).state

/-- Entry to ACQUIRE, counted in TKP_RELOCKS (Table 8.9). -/
def State.acquireTime (s : State) : State :=
  { s with
    tkp.state := tkAcquire
    tkp.goodRow := 0
    tkp.toAcquire := false
    tkp.holdoverOver := false
    tkp.relocks := satInc s.tkp.relocks }

/-- A follower's entries to ACQUIRE that wait for its parent link: from RACK, from UNLOCKED without a frame, and after it
was a master (R223, R224). -/
def State.tkpSettle (s : State) : State :=
  if !s.tkp.roleEff && s.parentTrained &&
      (s.tkp.state == tkRack || s.tkp.toAcquire || (s.tkp.state == tkUnlocked && !s.tkp.rckLoss)) then s.acquireTime
  else s

/-! ## The rack time code (R219 to R221, R224, R421) -/

/-- CRC-16 over frame bits 0 to 55 in transmission order (R421). -/
def crc16Frame (frame : BitVec 72) : BitVec 16 :=
  (List.range 56).foldl (fun r i =>
    let f := frame.getLsbD i != r.getLsbD 15
    if f then (r <<< 1) ^^^ 0x1021#16 else r <<< 1) 0xFFFF#16

/-- A frame is accepted: its CRC is correct and VALID is 1 (R220). -/
def frameAccepted (frame : BitVec 72) : Bool :=
  frame.getLsbD 48 && frame.extractLsb' 56 16 == crc16Frame frame

/-- TIME_CODE_FRAME: read only in UNLOCKED (R220, R224), and not while H2 is held in reset (14_identity_service.md R380). An accepted frame sets the counter to SECONDS × 10^9 less
TKP_RCK_DELAY as of the mark instant, `since` sixteenths of a ns ago, and a master is LOCKED at once (R223). -/
def State.timeCode (s : State) (frame : BitVec 72) (since : Nat) : State :=
  if s.tkp.state != tkUnlocked || s.sec.islandOnly then s
  else if !frameAccepted frame then
    let n := s.tkp.badFrames + 1
    { s with tkp.badFrames := n, tkp.codeBad := s.tkp.codeBad || 3 ≤ n }
  else
    let s := { s with tkp.badFrames := 0, tkp.codeBad := false }
    if s.tkp.rckLoss then s
    else
      let secs := (frame.extractLsb' 0 48).toNat
      let t := (secs * 1000000000 * 16 + since + 2 ^ 68 - s.tkp.rckDelay.toNat) % 2 ^ 68
      { s with tkp.ht := t, tkp.owed := 0, tkp.state := if s.tkp.roleEff then tkLocked else tkRack }.tkpSettle

def execTimeCodeFrame (frame : BitVec 72) (since : Nat) (s : State) : Host.Outcome State Fault Refusal :=
  .next (s.timeCode frame since)

/-- RCK_LOSS: no edge for 1 µs; TCLK holds its frequency (R221). -/
def execRckLoss (s : State) : Host.Outcome State Fault Refusal := .next { s with tkp.rckLoss := true }

/-- RCK_LOSS clears 1 ms after the edges return (R221). -/
def execRckLossClear (s : State) : Host.Outcome State Fault Refusal := .next { s with tkp.rckLoss := false }.tkpSettle

/-! ## Two-way transfer and steering (R225, R226, R231) -/

/-- Twice θ, in sixteenths of a ns, from the four timestamps, for the partner B of module A (R225). -/
def thetaTwice (t1 t2 t3 t4 : Int) : Int := (t2 - t1) - (t4 - t3)

/-- Twice δ, in sixteenths of a ns (R225). -/
def deltaTwice (t1 t2 t3 t4 : Int) : Int := (t2 - t1) + (t4 - t3)

/-- θ is within `ns` nanoseconds. -/
def within (theta2 : Int) (ns : Nat) : Bool := theta2.natAbs ≤ 32 * ns

/-- The counter is slewed by `d` sixteenths: forward at once, backward by being held up (R226). -/
def State.slew (s : State) (d : Int) : State :=
  if 0 ≤ d then { s with tkp.ht := htWrap (s.tkp.ht + d.toNat) } else { s with tkp.owed := s.tkp.owed + d.natAbs }

/-- −θ held to `most` sixteenths. -/
def slewBy (theta : Int) (most : Nat) : Int := max (-(most : Int)) (min most (-theta))

/-- What the exchange on its parent link makes of a follower (R223, R226, R231; log entry 32). -/
def State.steer (s : State) (theta2 theta : Int) : State :=
  if s.tkp.state == tkAcquire then
    let n := if within theta2 2 then s.tkp.goodRow + 1 else 0
    let s := { s with tkp.goodRow := n, tkp.state := if 4 ≤ n then tkLocked else tkAcquire }
    if within theta2 64 then s.slew (slewBy theta 80) else { s with tkp.stepBy := some (-theta) }
  else if s.tkp.state == tkLocked then
    if within theta2 s.tkp.guardEff then s.slew (slewBy theta 4) else s.acquireTime
  else if s.tkp.state == tkHoldover then
    if within theta2 s.tkp.guardEff && !s.tkp.holdoverOver then s else s.acquireTime
  else s

/-- The next instant inside the gap that ends a frame, from 9,984 ns on (R228). -/
def gapFrom (t : Nat) : Nat := if 9984 ≤ t % 10000 then t else t / 10000 * 10000 + 9984

/-- The lane that carries a link's time symbols: the lowest-numbered live one (09_links.md R242). -/
def State.timeLane (s : State) (l : LinkId) : Nat :=
  (lowestFrom (fun i => (s.link l).lanesLive.getLsbD i) 16 0).getD 0

/-- A timestamp captured here with the delay trim of its lane and direction added (R225; log entry 32). -/
def State.trimmed (s : State) (l : LinkId) (receive : Bool) (t : Int) : Int :=
  t + s.cal.loaded.trim l.val (s.timeLane l) receive

/-- θ, doubled, of the partner: its own two timestamps come with its trims, this module's get theirs here (R225). -/
def State.theta2 (s : State) (l : LinkId) (t1 t2 t3 t4 : Int) (asA : Bool) : Int :=
  if asA then thetaTwice (s.trimmed l false t1) t2 t3 (s.trimmed l true t4)
  else -thetaTwice t1 (s.trimmed l true t2) (s.trimmed l false t3) t4

/-- A frame gap's exchange with a link's partner: θ is recorded, TIME_FAULT raised where two LOCKED partners differ by
more than the guard time on a link that is neither one's parent link, and the follower steers (R225, R226, R230). -/
def State.timeExchange (s : State) (l : LinkId) (t1 t2 t3 t4 : Int) (asA partnerOk partnerLocked partnerParent : Bool) :
    State :=
  if s.tkp.state == tkUnlocked || !carriesTime (s.link l).state then s
  else
    let s := s.passToHt (gapFrom s.ht)
    let th2 := s.theta2 l t1 t2 t3 t4 asA
    let up := th2 % 2 != 0 && Config.freeChoice s.freeCtr 0
    let th := th2 / 2 + (if up then 1 else 0)
    let s := if th2 % 2 = 0 then s else s.bumpFree
    let s := { s with tkp.links := vmod s.tkp.links l fun k => { k with
      theta2 := th2, theta := max (-32767) (min 32767 th), sinceValid := some 0, partnerOk := partnerOk
      ownOk := s.timeGood } }
    let mine := !s.tkp.roleEff && l == s.parentLink
    let s := if s.tkp.state == tkLocked && partnerLocked && !mine && !partnerParent && !within th2 s.tkp.guardEff then
        s.raise 0x43 l.val (leBytes 4 (BitVec.ofInt 32 th).toNat)
      else s
    (if mine then s.steer th2 th else s).tkpSettle

def execTimeExchange (link : LinkId) (t1 t2 t3 t4 : Int) (asA partnerOk partnerLocked partnerParent : Bool) (s : State) :
    Host.Outcome State Fault Refusal :=
  .next (s.timeExchange link t1 t2 t3 t4 asA partnerOk partnerLocked partnerParent)

/-! ## Holdover, parity, slot comparators -/

/-- HOLDOVER is entered: the counter runs free (R226). -/
def State.enterHoldover (s : State) : State :=
  { s with tkp.state := tkHoldover, tkp.holdoverOver := false, tkp.goodRow := 0, tkp.parentUsed := s.tkp.parent }

/-- TKP_HOLDOVER is over: no more scheduled transmission (R223). -/
def execHoldoverExpiry (s : State) : Host.Outcome State Fault Refusal :=
  .next (if s.tkp.state == tkHoldover then { s with tkp.holdoverOver := true } else s)

/-- A parity error returns a follower to ACQUIRE, and a master to RACK, from which it is LOCKED at once (R223). A counter
stopped in UNLOCKED stays stopped. -/
def State.counterParity (s : State) : State :=
  if s.tkp.state == tkUnlocked then s
  else if s.tkp.roleEff then { s with tkp.state := tkLocked }
  else s.acquireTime

def execCounterParityError (s : State) : Host.Outcome State Fault Refusal := .next s.counterParity

/-- The comparators disagree: CMP_FAULT, the count, and the event (R232). -/
def State.cmpFault (s : State) : State :=
  let n := satInc s.tkp.cmpFaults
  { s with tkp.cmpFault := true, tkp.cmpFaults := n, tkp.cmpWait := 0 }.raise 0x44 0 (leBytes 4 n.toNat)

def execSlotCmpFault (s : State) : Host.Outcome State Fault Refusal := .next s.cmpFault

/-- A write of CMP_CLEAR: CMP_FAULT clears once a full frame has followed (R232). -/
def State.cmpClear (s : State) : State := if s.tkp.cmpFault then { s with tkp.cmpWait := 2 } else s

def execCmpClear (s : State) : Host.Outcome State Fault Refusal := .next s.cmpClear

/-- A frame boundary passes while a CMP_CLEAR waits: the first begins the full frame, the second ends it. -/
def State.cmpFrame (s : State) : State :=
  if s.tkp.cmpWait = 0 then s
  else if s.tkp.cmpWait = 1 then { s with tkp.cmpWait := 0, tkp.cmpFault := false }
  else { s with tkp.cmpWait := s.tkp.cmpWait - 1 }

/-! ## Lateness (R233, R234) -/

/-- The bin of a lateness in ns (R233). -/
def lateBinOf (l : Int) : Nat :=
  if l ≤ 0 then 0
  else
    let n := l.toNat
    (lowestFrom (fun b => n < 2 ^ b * 1000) 14 1).getD 15

/-- LATE_PCT as it acts (Table 8.8). -/
def Tkp.pct (t : Tkp) : Nat := max 1 (min 100 t.latePct.toNat)

/-- The launches of the recent window in late bins. -/
def Tkp.lateCount (t : Tkp) : Nat := (t.recent.filter fun b => t.lateBin.toNat ≤ b).length

/-- STRAGGLER follows the share of late launches, with an event at each change (R234). -/
def State.updateStraggler (s : State) : State :=
  let n := s.tkp.recent.length
  let late := s.tkp.lateCount
  let on := s.tkp.pct * n < late * 100
  if on == s.tkp.straggler then s
  else { s with tkp.straggler := on }.raise 0x45 0 (leBytes 4 (b2n on + (if n = 0 then 0 else late * 100 / n) * 2 ^ 8))

/-- A launch's lateness is recorded (R233, R234). -/
def State.recordLateness (s : State) (l : Int) : State :=
  let b := lateBinOf l
  let w := max 1 s.tkp.window.toNat
  { s with
    tkp.bins := vmod s.tkp.bins (Fin.ofNat 16 b) satInc
    tkp.recent := (b :: s.tkp.recent).take w }.updateStraggler

/-! ## Mailbox requests (Table 8.10) -/

/-- The packed form of a hall time in sixteenths: whole nanoseconds, then the fraction, then the state (Table 8.3). -/
def packedHt (t : Nat) (state : BitVec 3) : Nat := t / 16 % 2 ^ 64 + t % 16 * 2 ^ 64 + state.toNat * 2 ^ 68

/-- HT_READ: the packed hall time sampled when the request was accepted. -/
def State.htRead (s : State) : State :=
  s.mbxRun 0x60 fun s => s.mbxOk (leBytes 16 (packedHt s.mbx.htGo s.mbx.stGo))

def execHtRead (s : State) : Host.Outcome State Fault Refusal := .next s.htRead

/-- LATE_READ: the 16 bins; with CLEAR they and the straggler window restart. -/
def State.lateRead (s : State) : State :=
  s.mbxRun 0x61 fun s =>
    if 2 ≤ s.mbxArg 0 then s.mbxFail stBad
    else
      let out := s.tkp.bins.toList.flatMap fun w => leBytes 4 w.toNat
      let s := if s.mbxArg 0 = 1 then { s with tkp.bins := Vector.replicate 16 0, tkp.recent := [] }.updateStraggler else s
      s.mbxOk out

def execLateRead (s : State) : Host.Outcome State Fault Refusal := .next s.lateRead

end Sys2Proof.Machine
end

