-- ==== Sys2Proof/Machine/Links.lean ====
section
/-! DEFINITION. Poskaron links: states and their events, training, discovery and evaluation, lane drop and failure,
best-effort routing, sleep, loop tests and the topology latch (09_links.md R238 to R260). -/

namespace Sys2Proof.Machine

/-! ## Topology (R246, R247, R252) -/

/-- The axis of a direction code: 0 X, 1 Y, 2 Z. -/
def axisOf (d : Nat) : Nat := d / 2
/-- The direction code is + on its axis. -/
def isPlus (d : Nat) : Bool := d % 2 == 0
def oppositeDir (d : Nat) : Nat := if isPlus d then d + 1 else d - 1

def Topo.size (t : Topo) (axis : Nat) : Nat := if axis = 0 then t.sx else if axis = 1 then t.sy else t.sz
def Topo.coord (t : Topo) (axis : Nat) : Nat := if axis = 0 then t.x else if axis = 1 then t.y else t.z

/-- A coordinate moved one step along direction `d`, modulo the axis size. -/
def Topo.moved (t : Topo) (d axis : Nat) : Nat :=
  if axisOf d = axis then
    (if isPlus d then t.coord axis + 1 else t.coord axis + t.size axis - 1) % max 1 (t.size axis)
  else t.coord axis

def Topo.dirOf (t : Topo) (l : LinkId) : Nat := (vget t.dirs l).toNat

/-- The coordinates of the neighbour in a direction. -/
def Topo.neighbour (t : Topo) (d : Nat) : Nat × Nat × Nat := (t.moved d 0, t.moved d 1, t.moved d 2)

/-- The topology of a module that has latched none: every number 0, no direction. -/
def topoNone : Topo := { x := 0, y := 0, z := 0, sx := 0, sy := 0, sz := 0, dirs := Vector.replicate 24 7 }

/-- The latched direction of a link, 7 where nothing is latched (Table 9.4). -/
def State.dirOf (s : State) (l : LinkId) : Nat := match s.lnk.topo with
  | some t => t.dirOf l
  | none => 7

/-- The topology the registers describe. -/
def State.topoRegs (s : State) : Topo :=
  { x := s.lnk.x.toNat, y := s.lnk.y.toNat, z := s.lnk.z.toNat,
    sx := s.lnk.sx.toNat, sy := s.lnk.sy.toNat, sz := s.lnk.sz.toNat, dirs := s.lnk.dirmap }

/-- The cases in which TOPO_LATCH is refused (R246), without the last, active groups. -/
def topoBad (t : Topo) : Bool :=
  let axes := [0, 1, 2]
  let dirs := t.dirs.toList.map (·.toNat)
  let most := fun a => if a = 0 then 32 else 16
  axes.any (fun a => t.size a == 0 || most a < t.size a || t.size a ≤ t.coord a) ||
    dirs.any (· == 7) || dirs.any (fun d => d < 6 && t.size (axisOf d) == 1) ||
    axes.any fun a => 3 ≤ t.size a && (!dirs.contains (2 * a) || !dirs.contains (2 * a + 1))

/-! ## Flits (Table 9.2) -/

namespace Flit

def kind (f : Flit) : Nat := bits (fieldAt f 0 4) 3 0
def cls (f : Flit) : Nat := bits (fieldAt f 0 4) 5 4
def hops (f : Flit) : Nat := bits (fieldAt f 0 4) 15 8
def slice (f : Flit) : Nat := bits (fieldAt f 0 4) 31 16
def dx (f : Flit) : Nat := bits (fieldAt f 4 4) 4 0
def dy (f : Flit) : Nat := bits (fieldAt f 4 4) 11 8
def dz (f : Flit) : Nat := bits (fieldAt f 4 4) 19 16
def sx (f : Flit) : Nat := bits (fieldAt f 8 4) 4 0
def sy (f : Flit) : Nat := bits (fieldAt f 8 4) 11 8
def sz (f : Flit) : Nat := bits (fieldAt f 8 4) 19 16
def dstGen (f : Flit) : Nat := fieldAt f 12 2
def srcGen (f : Flit) : Nat := fieldAt f 14 2
def group (f : Flit) : Nat := fieldAt f 16 2
def len (f : Flit) : Nat := bits (fieldAt f 16 4) 25 16
def seq (f : Flit) : Word := BitVec.ofNat 32 (fieldAt f 20 4)
def payload (f : Flit) : List Byte := f.drop 32

end Flit

/-- One more hop taken. -/
def hopped (f : Flit) : Flit := f.take 1 ++ [BitVec.ofNat 8 (f.hops + 1)] ++ f.drop 2

/-- A flit from its header fields; PCRC covers its payload. -/
def mkFlit (kind cls slice : Nat) (d s : Nat × Nat × Nat) (dstGen srcGen group : Nat) (seq : Word) (payload : List Byte) :
    Flit :=
  let xyz := fun (c : Nat × Nat × Nat) => leBytes 4 (c.1 + c.2.1 * 2 ^ 8 + c.2.2 * 2 ^ 16)
  leBytes 4 (kind + cls * 2 ^ 4 + slice * 2 ^ 16) ++ xyz d ++ xyz s ++ leBytes 2 dstGen ++ leBytes 2 srcGen ++
    leBytes 4 (group + payload.length * 2 ^ 16) ++ leBytes 4 seq.toNat ++ leBytes 4 (crc32c payload).toNat ++ leBytes 4 0 ++
    payload

def fkIdle : Nat := 0
def fkSched : Nat := 1
def fkBe : Nat := 2
def fkStale : Nat := 3
def fkDiscover : Nat := 4
def fkBeacon : Nat := 5
def fkControl : Nat := 6

/-! ## Codewords sent (R240 to R242) -/

/-- States in which a link sends discovery flits (R245). -/
def discovers (st : BitVec 4) : Bool := st == lsDiscover || usableState st || st == lsMismatch

/-- States in which a link carries flits: those that send discovery flits, and RETIRED, which carries BEACON (Table 9.3). -/
def carriesFlits (st : BitVec 4) : Bool := discovers st || st == lsRetired

/-- A flit leaves as the next codeword. -/
def Link.emit (k : Link) (f : Flit) : Link :=
  { k with cwNext := k.cwNext + 1, codewords := k.codewords ++ [(k.cwNext, f)] }

/-- Codewords up to number `n` have been sent, IDLE where no flit was; the buffer holds the last 4,096. -/
def Link.fillTo (k : Link) (n : Nat) : Link :=
  let m := max n k.cwNext
  { k with cwNext := m, codewords := k.codewords.filter fun c => m ≤ c.1 + 4096 }

/-- What a link that no longer carries flits keeps of them: STALE flits, which other links may take. Its codewords are
numbered from 0 when it carries flits again (log entry 79). -/
def Link.quiet (k : Link) : Link :=
  { k with
    control := k.control.filter fun f => f.kind == fkStale
    cwNext := 0, codewords := [], replayLeft := 0, awaited := none }

/-- A flit from this module to the partner of a link: neighbour, generations and slice as they stand, the next SEQ (Table 9.2;
log entry 79). -/
def State.linkFlit (s : State) (l : LinkId) (kind : Nat) (payload : List Byte) : Flit :=
  let t := s.lnk.topo.getD topoNone
  let d := t.dirOf l
  mkFlit kind 0 s.lnk.sliceId.toNat (if d < 6 then t.neighbour d else (0, 0, 0)) (t.x, t.y, t.z)
    ((s.link l).partnerGen.toNat % 65536) (s.lnk.gen.toNat % 65536) 0 s.lnk.beSeq payload

/-- The flit of a codeword the replay buffer holds; none for one that has left it or was not sent yet (R241). -/
def State.codewordAt (s : State) (l : LinkId) (n : Nat) : Option Flit :=
  let k := s.link l
  if n < k.cwNext && k.cwNext ≤ n + 4096 then some (((k.codewords.find? fun c => c.1 == n).map (·.2)).getD (s.linkFlit l fkIdle []))
  else none

/-- A link sends a flit of its own as the next codeword, ahead of every queued flit. -/
def State.sendNext (s : State) (l : LinkId) (kind : Nat) (payload : List Byte) : State :=
  if carriesFlits (s.link l).state then
    { s.modLink l (fun k => k.emit (s.linkFlit l kind payload)) with lnk.beSeq := s.lnk.beSeq + 1 }
  else s

/-- A flit of its own joins a link's queue of CONTROL, DISCOVER and STALE flits. -/
def State.queueOwn (s : State) (l : LinkId) (kind : Nat) (payload : List Byte) : State :=
  if discovers (s.link l).state then
    { s.modLink l (fun k => { k with control := k.control ++ [s.linkFlit l kind payload] }) with
      lnk.beSeq := s.lnk.beSeq + 1 }
  else s

/-- What a CONTROL flit asks or answers, beside the stream acknowledgement (Table 10.10): a replay, a lane map and its
acknowledgement, sleep and its reply, a far-end loop. -/
inductive ControlKind where
  | replay | laneMap | laneMapAck | sleepAsk | sleepReply | farLoop
deriving DecidableEq, Repr

/-- The payload of such a flit, free but for what it says (log entry 79). -/
def ControlKind.payload (c : ControlKind) (n : Nat) : List Byte :=
  (List.range (Config.controlLength c.ctorIdx % 609)).map (Config.controlByte c.ctorIdx n)

def State.sendControl (s : State) (l : LinkId) (c : ControlKind) (n : Nat) : State := s.queueOwn l fkControl (c.payload n)

/-! ## Best-effort routing (R252) -/

/-- The link is fenced: RST_LFENCE has its bit, in effect since a frame boundary (13_reset_health.md R358). -/
def State.linkOut (s : State) (l : LinkId) : Bool := s.rst.lfence.getLsbD l.val && !s.rst.lfencePend.getLsbD l.val

/-- BE traffic may use the link: UP or DEGRADED and not fenced (R243, 13_reset_health.md R358). -/
def State.linkUsable (s : State) (l : LinkId) : Bool := usableState (s.link l).state && !s.linkOut l

/-- The usable links of a direction, in ascending number. -/
def State.dirLinks (s : State) (t : Topo) (d : Nat) : List LinkId :=
  (List.finRange 24).filter fun l => t.dirOf l == d && s.linkUsable l

/-- The direction a BE flit takes first: X, then Y, then Z, the shorter way around, + on a tie; none at its
destination. -/
def Topo.beDir (t : Topo) (f : Flit) : Option Nat :=
  let off := fun (a c : Nat) => (c + t.size a - t.coord a) % max 1 (t.size a)
  let way := fun (a o : Nat) => if 2 * o ≤ t.size a then 2 * a else 2 * a + 1
  let ox := off 0 f.dx
  let oy := off 1 f.dy
  let oz := off 2 f.dz
  if ox ≠ 0 then some (way 0 ox) else if oy ≠ 0 then some (way 1 oy) else if oz ≠ 0 then some (way 2 oz) else none

/-- The entry of the link list a source and destination use. -/
def beHash (f : Flit) : Nat := (f.sx * 512 + f.sy * 32 + f.sz) ^^^ (f.dx * 512 + f.dy * 32 + f.dz)

/-- The link a BE flit leaves on; none where it waits. -/
def State.beLink (s : State) (t : Topo) (f : Flit) : Option LinkId :=
  (t.beDir f).bind fun d =>
    let ls := s.dirLinks t d
    let ls := if ls.isEmpty then s.dirLinks t (oppositeDir d) else ls
    if ls.isEmpty then none else ls[beHash f % ls.length]?

/-- The egress queue of a flit: its class if this module originates it, else TRANSIT (R253). -/
def Topo.queueOf (t : Topo) (f : Flit) : Fin 4 :=
  if f.sx == t.x && f.sy == t.y && f.sz == t.z then Fin.ofNat 4 (min 2 f.cls) else 3

/-- A BE flit that came to wait at `t` joins the egress queue of its link, or waits for one (R252). -/
def State.queueBeSince (s : State) (since : Nat) (f : Flit) : State :=
  match s.lnk.topo with
  | none => { s with lnk.waiting := s.lnk.waiting ++ [(since, f)] }
  | some t =>
    match s.beLink t f with
    | some l => s.modLink l fun k => { k with queues := vmod k.queues (t.queueOf f) (· ++ [(since, f)]) }
    | none => { s with lnk.waiting := s.lnk.waiting ++ [(since, f)] }

def State.queueBe (s : State) (f : Flit) : State := s.queueBeSince s.now f

/-- A STALE flit takes the way a BE flit would, ahead of every BE flit of its link (R242, R253; log entry 79). -/
def State.queueStale (s : State) (f : Flit) : State :=
  match s.lnk.topo.bind fun t => s.beLink t f with
  | some l => s.modLink l fun k => { k with control := k.control ++ [f] }
  | none => { s with lnk.waiting := s.lnk.waiting ++ [(s.now, f)] }

/-- Flits that wait are routed again; each goes on waiting since it came. -/
def State.rerouteWaiting (s : State) : State :=
  s.lnk.waiting.foldl (fun s f => if f.2.kind == fkStale then s.queueStale f.2 else s.queueBeSince f.1 f.2)
    { s with lnk.waiting := [] }

/-- The BE and STALE flits queued on a link that is no longer usable are routed around it. -/
def State.rerouteLink (s : State) (l : LinkId) : State :=
  let k := s.link l
  let fs := (k.control.filter fun f => f.kind == fkStale).map (s.now, ·) ++ k.queues.toList.flatMap id
  let s := s.modLink l fun k => { k with
    control := k.control.filter fun f => f.kind != fkStale
    queues := Vector.replicate 4 [] }
  { s with lnk.waiting := s.lnk.waiting ++ fs }.rerouteWaiting

/-! ## What a link says of this module (R245) -/

/-- The discovery payload a link sends (Table 9.4). -/
def State.discovery (s : State) (l : LinkId) : List Byte :=
  let t := s.lnk.topo.getD topoNone
  leBytes 8 Config.serial.toNat ++ leBytes 4 s.lnk.gen.toNat ++
    leBytes 4 (l.val + s.dirOf l * 2 ^ 5 + t.x * 2 ^ 8 + t.y * 2 ^ 16 + t.z * 2 ^ 24) ++
    leBytes 4 (t.sx + t.sy * 2 ^ 8 + t.sz * 2 ^ 16) ++
    leBytes 4 (s.lnk.sliceId.toNat + b2n s.profile.fabricEff * 2 ^ 16 + s.tkp.guardEff * 2 ^ 17 +
      b2n s.rst.retired * 2 ^ 23 + b2n (s.lnk.sliceEff.getLsbD l.val) * 2 ^ 24) ++ leBytes 8 0

/-- A link in a discovering state sends a DISCOVER flit. -/
def State.sendDiscovery (s : State) (l : LinkId) : State :=
  if discovers (s.link l).state then
    (s.queueOwn l fkDiscover (s.discovery l)).modLink l fun k => { k with sent := s.discovery l }
  else s

/-- Every discovering link whose content has changed since its last DISCOVER flit sends one (R245); the serial number, its
first 8 bytes, does not change. -/
def State.announce (s : State) : State :=
  (List.finRange 24).foldl (fun s l =>
    if (s.link l).sent.drop 8 == (s.discovery l).drop 8 then s else s.sendDiscovery l) s

/-! ## Link states (R243) -/

/-- A link changes state, with its LINK_STATE event; a link that stops carrying time symbols has no valid exchange, one that
stops carrying flits keeps none of its own, BE traffic follows the set of usable links, and a state that discovers is entered
with a DISCOVER flit (R245). -/
def State.setLink (s : State) (l : LinkId) (new : BitVec 4) : State :=
  let k := s.link l
  if k.state == new then s
  else
    let s := (s.modLink l fun k => { (if carriesFlits new then k else k.quiet) with state := new }).raise 0x40 l.val
      (leBytes 4 (k.state.toNat + new.toNat * 2 ^ 4 + k.lanesLive.toNat * 2 ^ 16))
    let s := if carriesTime k.state && !carriesTime new then
        { s with tkp.links := vmod s.tkp.links l fun t => { t with sinceValid := none, verified := false } }
      else s
    let s := if usableState k.state && !usableState new then
        { s with tkp.links := vmod s.tkp.links l fun t => { t with verified := false } }.rerouteLink l
      else if usableState new then s.rerouteWaiting
      else s
    (s.sendDiscovery l).tkpSettle

/-! ## Discovery (R247) -/

/-- What R247 makes of a link: its state, the LINK_MISMATCH reason (0: none), and whether it is never verified; none where
nothing is latched or no payload has come. -/
def State.verdict (s : State) (l : LinkId) : Option (BitVec 4 × Nat × Bool) :=
  s.lnk.topo.bind fun t =>
    let k := s.link l
    let d := t.dirOf l
    let p := k.payload
    let w := fieldAt p 0x0C 4
    let sh := fieldAt p 0x10 4
    let v := fieldAt p 0x14 4
    if d = 6 then some (lsDiscover, 0, false)
    else if !k.seen then none
    else if bit v 23 then some (lsRetired, 0, false)
    else if bits w 12 8 != t.moved d 0 || bits w 19 16 != t.moved d 1 || bits w 27 24 != t.moved d 2 ||
        bits w 7 5 != oppositeDir d || bits sh 5 0 != t.sx || bits sh 12 8 != t.sy || bits sh 20 16 != t.sz then
      some (lsMismatch, 1, false)
    else
      let mine := s.lnk.sliceEff.getLsbD l.val
      let theirs := bit v 24
      let differ := bits v 15 0 != s.lnk.sliceId.toNat
      if !mine || !theirs || differ then some (lsDisabled, if mine && theirs && differ then 2 else 0, false)
      else
        let odd := bit v 16 != s.profile.fabricEff || bits v 22 17 != s.tkp.guardEff
        some (if k.laneDropped then lsDegraded else lsUp, if odd then 3 else 0, odd)

/-- States in which a link is evaluated. -/
def evaluates (st : BitVec 4) : Bool := discovers st || st == lsDisabled || st == lsRetired

/-- A link is evaluated under R247; a new reason, or a new state with one, raises LINK_MISMATCH. -/
def State.evaluate (s : State) (l : LinkId) : State :=
  let k := s.link l
  if !evaluates k.state || s.rst.retired then s
  else match s.verdict l with
    | none => s
    | some (st, reason, odd) =>
      let s := (s.modLink l fun k => { k with reason := reason, beOnly := odd }).setLink l st
      if reason != 0 && (reason != k.reason || st != k.state) then
        s.raise 0x41 l.val (leBytes 4 reason ++ List.replicate 12 0 ++ slice k.payload 0 32)
      else s

/-- Every link is evaluated again. -/
def State.evaluateAll (s : State) : State := (List.finRange 24).foldl (fun s l => s.evaluate l) s

/-- Flits are discarded while a replay is awaited (R241). -/
def Link.discards (k : Link) : Bool := k.awaited.isSome

/-- DISCOVER_FLIT_RECEIVE: the payload is kept, LNK_PARTNER shows it, and the link is evaluated. -/
def State.discoverReceive (s : State) (l : LinkId) (payload : List Byte) : State :=
  if !evaluates (s.link l).state || (s.link l).discards then s
  else
    let p := slice payload 0 32
    let w := fieldAt p 0x0C 4
    let s := s.modLink l fun k => { k with
      seen := true, payload := p
      plink := BitVec.ofNat 5 (bits w 4 0), pdir := BitVec.ofNat 3 (bits w 7 5), px := BitVec.ofNat 5 (bits w 12 8)
      py := BitVec.ofNat 4 (bits w 19 16), pz := BitVec.ofNat 4 (bits w 27 24)
      partnerGen := BitVec.ofNat 32 (fieldAt p 8 4) }
    { s with lnk.heard := l.val :: s.lnk.heard.filter (· != l.val) }.evaluate l

def execDiscoverFlitReceive (link : LinkId) (payload : List Byte) (s : State) : Host.Outcome State Fault Refusal :=
  .next (s.discoverReceive link payload)

/-- DISCOVER_PERIOD: a discovering link sends its payload again, every 1 ms (R245). -/
def execDiscoverPeriod (link : LinkId) (s : State) : Host.Outcome State Fault Refusal := .next (s.sendDiscovery link)

/-! ## Training (R244) -/

/-- A link starts training; requests, automatic retries and R241's retrain are counted in LNK_RETRAINS. -/
def State.train (s : State) (l : LinkId) (counted : Bool) : State :=
  let s := s.modLink l fun k => { k with
    lanesLive := 0, laneDropped := false, droppedLane := 0, dropping := none, ackHt := none, seen := false
    retrains := if counted then satInc k.retrains else k.retrains }
  let s := if counted then { s with hlt.deltas.retrain := vmod s.hlt.deltas.retrain l (· + 1) } else s
  s.setLink l lsTraining

/-- A far-end loop test that waits for its frame boundary cannot run any more: it records FAIL (R256). A near-end test may
run in any state, and goes on waiting. -/
def Link.loseTest (k : Link) : Link :=
  if k.loopPend && k.loopFar then { k with loopPend := false, loopOwn := false, loopResult := 3, failLanes := 0xFFFF } else k

/-- A link fails: FAILED, or DOWN when there is no light (R251). -/
def State.failLink (s : State) (l : LinkId) (light : Bool) : State :=
  (s.modLink l fun k => { k.loseTest with
    lanesLive := 0, laneDropped := false, droppedLane := 0, dropping := none, ackHt := none, seen := false
    sleepAsked := false, light := light }).setLink l (if light then lsFailed else lsDown)

/-- LIGHT_DETECTED: a link without training starts it, once the main feeds power its die. -/
def State.lightDetected (s : State) (l : LinkId) : State :=
  let s := s.modLink l fun k => { k with light := true }
  let st := (s.link l).state
  if (st == lsDown || st == lsFailed) && s.pwr.mainOn then (s.modLink l fun k => { k with retries := 0 }).train l false else s

def execLightDetected (link : LinkId) (s : State) : Host.Outcome State Fault Refusal := .next (s.lightDetected link)

/-- Lanes of 16 that are not in a set, in ascending order. -/
def lanesOff (lanes : BitVec 16) : List Nat := (List.range 16).filter fun i => !lanes.getLsbD i

/-- The lanes a training found; the one that failed, if any, is dropped. -/
def Link.trained (k : Link) (lanes : BitVec 16) : Link :=
  match lanesOff lanes with
  | [] => { k with lanesLive := lanes, laneDropped := false, droppedLane := 0, retries := 0 }
  | i :: _ => { k with lanesLive := lanes, laneDropped := true, droppedLane := BitVec.ofNat 4 i, retries := 0 }

/-- The next frame boundary from hall time `t` on (R228). -/
def frameFrom (t : Nat) : Nat := (t + 9999) / 10000 * 10000

/-- TRAINING_COMPLETE: DISCOVER with 16 or 15 lanes, or FAILED; from WAKING back to UP or DEGRADED at a frame boundary
(R244, R255); RETIRED on a retired module (13_reset_health.md R365). -/
def State.trainingComplete (s : State) (l : LinkId) (lanes : BitVec 16) (light : Bool) : State :=
  let st := (s.link l).state
  if st != lsTraining && st != lsWaking then s
  else if !light then s.failLink l false
  else if 2 ≤ (lanesOff lanes).length then s.failLink l true
  else
    let s := s.modLink l fun k => { k.trained lanes with light := true }
    if s.rst.retired then s.setLink l lsRetired
    else if st == lsWaking then
      (s.passToHt (frameFrom s.ht)).setLink l (if (s.link l).laneDropped then lsDegraded else lsUp)
    else (s.setLink l lsDiscover).evaluate l

def execTrainingComplete (link : LinkId) (lanes : BitVec 16) (light : Bool) (s : State) :
    Host.Outcome State Fault Refusal :=
  .next (s.trainingComplete link lanes light)

/-- AUTO_RETRAIN: a FAILED link is retrained 1 s and 2 s after its failure. -/
def State.autoRetrain (s : State) (l : LinkId) : State :=
  let k := s.link l
  if k.state == lsFailed && k.retries < 2 then
    (s.modLink l fun k => { k with retries := k.retries + 1 }).train l true
  else s

def execAutoRetrain (link : LinkId) (s : State) : Host.Outcome State Fault Refusal := .next (s.autoRetrain link)

/-- Writes of SLEEP, RETRAIN and LOOP_START are ignored during a loop test and on a fenced link (R256,
13_reset_health.md R358). -/
def State.linkDeaf (s : State) (l : LinkId) : Bool :=
  let k := s.link l
  k.state == lsLoop || k.loopPend || s.linkOut l

/-- RETRAIN: a write of LNK_LCTRL.RETRAIN. -/
def State.retrainWrite (s : State) (l : LinkId) : State :=
  if s.linkDeaf l then s else (s.modLink l fun k => { k with retries := 0 }).train l true

def execRetrain (link : LinkId) (s : State) : Host.Outcome State Fault Refusal := .next (s.retrainWrite link)

/-! ## The latch and generations (R246, R248) -/

/-- TOPO_LATCH: the registers become the topology and GEN steps, or LATCH_ERR is set. -/
def State.topoLatch (s : State) : State :=
  if topoBad s.topoRegs || s.col.groups.toList.any (·.state == 1) then { s with lnk.latchErr := true }
  else
    { s with
      lnk.topo := some s.topoRegs
      lnk.latchErr := false
      lnk.gen := s.lnk.gen + 1 }.announce.evaluateAll

def execTopoLatch (s : State) : Host.Outcome State Fault Refusal := .next s.topoLatch

/-! ## Codewords and replay (R241) -/

/-- A codeword with symbols in error on `lanes`, at most 15 and so corrected (R240, R241). -/
def Link.corrected (k : Link) (lanes : List (Fin 16)) : Link :=
  if lanes.isEmpty then k
  else { k with fecCorr := k.fecCorr + 1, laneNow := lanes.foldl (fun v i => vmod v i (· + 1)) k.laneNow }

/-- CODEWORD_RECEIVE: `lseq` is its sequence number, `lanes` lists the lane of each symbol in error and `sched` says that it
carries a SCHED flit. More than 15 are uncorrectable: the codeword is counted, and a SCHED flit in it is delivered marked bad
(10_collectives.md R278); for any other a replay from it is requested, and what comes is discarded until it has come again. -/
def State.codeword (s : State) (l : LinkId) (lseq : BitVec 12) (lanes : List (Fin 16)) (sched : Bool) : State :=
  let k := s.link l
  if !evaluates k.state then s
  else if 15 < lanes.length then
    let s := { s.modLink l (fun k => { k with fecUncorr := satInc k.fecUncorr }) with
      hlt.deltas.fecu := vmod s.hlt.deltas.fecu l (· + 1) }
    if sched || (k.discards && k.awaited != some lseq) then s
    else (s.modLink l fun k => { k with awaited := some lseq }).sendControl l .replay lseq.toNat
  else s.modLink l fun k => { k.corrected lanes with awaited := if k.awaited == some lseq then none else k.awaited }

def execCodewordReceive (link : LinkId) (lseq : BitVec 12) (lanes : List (Fin 16)) (sched : Bool) (s : State) :
    Host.Outcome State Fault Refusal :=
  .next (s.codeword link lseq lanes sched)

/-- REPLAY_REQUEST: the sender replays every codeword from the one asked for, `codeword` by its number, of which the flit
carries the low 12 bits, and counts it; or the link retrains when that codeword has left the buffer. -/
def State.replay (s : State) (l : LinkId) (codeword : Nat) : State :=
  let k := s.link l
  if !carriesFlits k.state then s
  else if (s.codewordAt l codeword).isSome then
    { s.modLink l (fun k => { k with retry := satInc k.retry, replayLeft := k.cwNext - codeword }) with
      hlt.deltas.retry := vmod s.hlt.deltas.retry l (· + 1) }
  else s.train l true

def execReplayRequest (link : LinkId) (codeword : Nat) (s : State) : Host.Outcome State Fault Refusal :=
  .next (s.replay link codeword)

/-! ## Lane drop and failure (R250, R251, R257) -/

/-- Lanes of a link fail: the first starts a lane-map exchange, a second fails the link. -/
def State.loseLanes (s : State) (l : LinkId) (lanes : BitVec 16) (light : Bool) : State :=
  let k := s.link l
  let lost := (List.range 16).filter fun i => k.lanesLive.getLsbD i && lanes.getLsbD i && k.dropping != some (BitVec.ofNat 4 i)
  match lost with
  | [] => s
  | i :: rest =>
    if !light || !rest.isEmpty || k.laneDropped || k.dropping.isSome then s.failLink l light
    else (s.modLink l fun k => { k with dropping := some (BitVec.ofNat 4 i), ackHt := none }).sendControl l .laneMap i

/-- LANE_LOSS_OF_LOCK; of a DISABLED link's lanes one is in use, and its loss is the loss of all (R251, R254). -/
def State.lossOfLock (s : State) (l : LinkId) (lanes : BitVec 16) (light : Bool) : State :=
  let k := s.link l
  if carriesFlits k.state then s.loseLanes l lanes light
  else if k.state == lsDisabled && (!light || lanes.getLsbD (s.timeLane l)) then s.failLink l light
  else s

def execLaneLossOfLock (link : LinkId) (lanes : BitVec 16) (light : Bool) (s : State) :
    Host.Outcome State Fault Refusal :=
  .next (s.lossOfLock link lanes light)

/-- LANE_ERROR_INTERVAL: LNK_LANE_ERR shows the interval that ends; a lane above LNK_DROP_THR is dropped. -/
def State.laneInterval (s : State) (l : LinkId) : State :=
  let k := s.link l
  let thr := max 1 s.lnk.dropThr.toNat
  let bad : BitVec 16 := (List.finRange 16).foldl (fun v i => if thr < vget k.laneNow i then setBit v i.val true else v) 0
  let s := s.modLink l fun k => { k with
    laneErr := Vector.ofFn fun i => satNat 32 (vget k.laneNow i)
    laneNow := Vector.replicate 16 0 }
  if carriesFlits k.state then s.loseLanes l bad k.light else s

def execLaneErrorInterval (link : LinkId) (s : State) : Host.Outcome State Fault Refusal := .next (s.laneInterval link)

/-- LANE_MAP: the partner drops a lane; SCHED stops and the flit is acknowledged. -/
def State.laneMap (s : State) (l : LinkId) (lane : BitVec 4) : State :=
  let k := s.link l
  if !carriesFlits k.state || k.discards then s
  else if (k.laneDropped && k.droppedLane != lane) || (k.dropping.isSome && k.dropping != some lane) then s.failLink l k.light
  else (s.modLink l fun k => { k with dropping := some lane, ackHt := some s.ht }).sendControl l .laneMapAck lane.toNat

def execLaneMap (link : LinkId) (lane : BitVec 4) (s : State) : Host.Outcome State Fault Refusal :=
  .next (s.laneMap link lane)

/-- LANE_MAP_ACK: the partner has acknowledged. -/
def execLaneMapAck (link : LinkId) (s : State) : Host.Outcome State Fault Refusal :=
  .next (if (s.link link).dropping.isSome && (s.link link).ackHt.isNone && !(s.link link).discards then
    s.modLink link fun k => { k with ackHt := some s.ht } else s)

/-- RESTRIPE: at the first frame boundary at least 2 µs after the acknowledgement the link runs on 15 lanes. -/
def State.restripe (s : State) (l : LinkId) : State :=
  let k := s.link l
  match k.dropping, k.ackHt with
  | some lane, some t =>
    let s := s.passToHt (frameFrom (t + 2000))
    let s := { s.modLink l (fun k => { k with
        laneDropped := true, droppedLane := lane, dropping := none, ackHt := none, drops := k.drops + 1
        lanesLive := setBit k.lanesLive lane.toNat false }) with
      hlt.deltas.drop := vmod s.hlt.deltas.drop l (· + 1) }
    if k.state == lsUp then s.setLink l lsDegraded else s
  | _, _ => s

def execRestripe (link : LinkId) (s : State) : Host.Outcome State Fault Refusal := .next (s.restripe link)

/-- LANE_MAP_TIMEOUT: a lane-map exchange not acknowledged within 10 µs fails the link. -/
def execLaneMapTimeout (link : LinkId) (s : State) : Host.Outcome State Fault Refusal :=
  .next (if (s.link link).dropping.isSome && (s.link link).ackHt.isNone then s.failLink link (s.link link).light else s)

/-- The light of a link goes: found at wake in SLEEP, at the end of a near-end test, a failure otherwise (R255 to
R257). A far-end test ends with FAIL. -/
def State.lightLost (s : State) (l : LinkId) : State :=
  let s := s.modLink l fun k => { k with light := false }
  let k := s.link l
  if k.state == lsSleep || k.state == lsWaking || (k.state == lsLoop && k.loopOwn && !k.loopFar) then s
  else if k.state == lsLoop then
    ((s.modLink l fun k => { k with
      loopResult := if k.loopOwn then 3 else k.loopResult, failLanes := if k.loopOwn then 0xFFFF else k.failLanes
      loopOwn := false }).failLink l false)
  else s.failLink l false

/-- FIBRE_UNPLUG: each of the port's four links fails. -/
def execFibreUnplug (port : Fin 6) (s : State) : Host.Outcome State Fault Refusal :=
  .next ((List.range 4).foldl (fun s j => s.lightLost (linkOf (4 * port.val + j))) s)

/-! ## Sleep and wake (R255) -/

/-- A loaded plan of an active group gives the link a slot (Table 9.8). -/
def State.inPlan (s : State) (l : LinkId) : Bool :=
  s.col.groups.toList.any fun g => g.state == 1 && g.plans.any fun p => p.entries.any fun e => e.link == l.val

/-- The link may sleep, as far as this side is concerned. -/
def State.maySleep (s : State) (l : LinkId) : Bool :=
  usableState (s.link l).state && !s.inPlan l && !(s.link l).loopPend

def State.refuseSleep (s : State) (l : LinkId) : State :=
  s.modLink l fun k => { k with sleepRefused := true, sleep := false, sleepAsked := false }

/-- SLEEP: a write of LNK_LCTRL.SLEEP = 1. -/
def State.sleepWrite (s : State) (l : LinkId) : State :=
  if s.linkDeaf l then s
  else if s.maySleep l then
    (s.modLink l fun k => { k with sleepRefused := false, sleep := true, sleepAsked := true }).sendControl l .sleepAsk 0
  else s.refuseSleep l

def execSleep (link : LinkId) (s : State) : Host.Outcome State Fault Refusal := .next (s.sleepWrite link)

/-- SLEEP_REQUEST_RECEIVE: the partner's request is accepted, the reply being the last codeword before the link sleeps, or
declined. -/
def State.sleepAsk (s : State) (l : LinkId) : State :=
  if s.maySleep l then (s.sendNext l fkControl (ControlKind.sleepReply.payload 1)).setLink l lsSleep
  else s.sendControl l .sleepReply 0

def execSleepRequestReceive (link : LinkId) (s : State) : Host.Outcome State Fault Refusal := .next (s.sleepAsk link)

/-- SLEEP_REPLY_RECEIVE. -/
def State.sleepReply (s : State) (l : LinkId) (accept : Bool) : State :=
  if !(s.link l).sleepAsked then s
  else if accept then (s.modLink l fun k => { k with sleepAsked := false }).setLink l lsSleep
  else s.refuseSleep l

def execSleepReplyReceive (link : LinkId) (accept : Bool) (s : State) : Host.Outcome State Fault Refusal :=
  .next (s.sleepReply link accept)

/-- A sleeping link wakes: its lanes retrain. -/
def State.wake (s : State) (l : LinkId) : State :=
  let s := s.modLink l fun k => { k with sleep := false, sleepAsked := false }
  if (s.link l).state == lsSleep then s.setLink l lsWaking else s

/-- WAKE: a write of SLEEP = 0. -/
def State.wakeWrite (s : State) (l : LinkId) : State := if s.linkDeaf l then s else s.wake l

def execWake (link : LinkId) (s : State) : Host.Outcome State Fault Refusal := .next (s.wakeWrite link)

/-- WAKE_TONE: the partner's tone on lane 0. -/
def execWakeTone (link : LinkId) (s : State) : Host.Outcome State Fault Refusal :=
  .next (if (s.link link).state == lsSleep then s.wake link else s)

/-! ## Loop tests (R256) -/

/-- LOOP_START: near-end in any state but SLEEP and WAKING, far-end in UP or DEGRADED; otherwise REFUSED. The link leaves
service at the next frame boundary. -/
def State.loopStart (s : State) (l : LinkId) : State :=
  if s.linkDeaf l then s
  else
    let k := s.link l
    let ok := if k.loopFar then usableState k.state else k.state != lsSleep && k.state != lsWaking
    if ok then
      let s := s.modLink l fun k => { k with loopResult := 1, failLanes := 0, loopPend := true, loopOwn := true }
      if k.loopFar then s.sendControl l .farLoop 0 else s
    else s.modLink l fun k => { k with loopResult := 4 }

def execLoopStart (link : LinkId) (s : State) : Host.Outcome State Fault Refusal := .next (s.loopStart link)

/-- FAR_LOOP_REQUEST_RECEIVE: this side loops the partner's lanes back. -/
def State.farLoop (s : State) (l : LinkId) : State :=
  if usableState (s.link l).state then (s.modLink l fun k => { k with loopOwn := false }).setLink l lsLoop else s

def execFarLoopRequestReceive (link : LinkId) (s : State) : Host.Outcome State Fault Refusal := .next (s.farLoop link)

/-- Loop tests that begin at a frame boundary. -/
def State.loopBegin (s : State) : State :=
  (List.finRange 24).foldl (fun s l =>
    if (s.link l).loopPend then (s.modLink l fun k => { k with loopPend := false }).setLink l lsLoop else s) s

/-- Lanes whose errors in their worst millisecond exceed LNK_DROP_THR (R256). -/
def State.lanesFailed (s : State) (errors : List Nat) : BitVec 16 :=
  (List.range 16).foldl (fun v i => if max 1 s.lnk.dropThr.toNat < errors.getD i 0 then setBit v i true else v) 0

/-- LOOP_TEST_END: `errors` are the errors of each lane in its worst millisecond. The side that started the test records PASS,
or FAIL with the lanes that failed; the link retrains, or is DOWN without light. -/
def State.loopEnd (s : State) (l : LinkId) (errors : List Nat) : State :=
  let k := s.link l
  if k.state != lsLoop then s
  else
    let failed := s.lanesFailed errors
    let s := if k.loopOwn then
        s.modLink l fun k => { k with loopResult := if failed = 0 then 2 else 3, failLanes := failed, loopOwn := false }
      else s
    if k.light then s.train l false else s.failLink l false

def execLoopTestEnd (link : LinkId) (errors : List Nat) (s : State) : Host.Outcome State Fault Refusal :=
  .next (s.loopEnd link errors)

/-! ## LINK_PARTNER_READ (R260; 13_reset_health.md R358) -/

def State.partnerRead (s : State) : State :=
  s.mbxRun 0x70 fun s =>
    let n := s.mbxArg 0
    if 24 ≤ n then s.mbxFail stBad
    else
      let l := linkOf n
      let k := s.link l
      if k.state == lsLoop then s.mbxFail stBusyTest
      else if s.linkOut l then s.mbxFail stFenced
      else s.mbxOk (slice k.payload 0 32)

def execLinkPartnerRead (s : State) : Host.Outcome State Fault Refusal := .next s.partnerRead

end Sys2Proof.Machine
end

