-- ==== Sys2Proof/Machine/Groups.lean ====
section
/-! DEFINITION. Collective groups: launch, slot plans and their choice, streams, rings, the abort beacon
(10_collectives.md R261 to R272, R277 to R279, R287 to R292). -/

namespace Sys2Proof.Machine

def State.group (s : State) (g : GroupId) : Group := vget s.col.groups g
def State.modGroup (s : State) (g : GroupId) (f : Group → Group) : State := { s with col.groups := vmod s.col.groups g f }
def groupOf (n : Nat) : GroupId := Fin.ofNat 64 n
def dirFin (d : Nat) : Fin 6 := Fin.ofNat 6 d

/-! ## The box (R261) and the arguments (Table 10.1) -/

/-- Origin and size of the box along an axis, from the argument block. -/
def argOrigin (a : List Byte) (axis : Nat) : Nat :=
  let w := fieldAt a 4 4
  if axis = 0 then bits w 4 0 else if axis = 1 then bits w 11 8 else bits w 19 16
def argSize (a : List Byte) (axis : Nat) : Nat :=
  let w := fieldAt a 8 4
  if axis = 0 then bits w 5 0 else if axis = 1 then bits w 12 8 else bits w 20 16

/-- P, the members of a box. -/
def boxCount (a : List Byte) : Nat := argSize a 0 * argSize a 1 * argSize a 2

def Group.count (g : Group) : Nat := boxCount g.args
def Group.weight (g : Group) : Nat := fieldAt g.args 2 1
def Group.lrBase (g : Group) : Nat := fieldAt g.args 0x18 8
def Group.crBase (g : Group) : Nat := fieldAt g.args 0x20 8
/-- log2 of V. -/
def Group.log2v (g : Group) : Nat := bits (fieldAt g.args 0 4) 12 8

/-- The offset of a coordinate in the box. -/
def boxOff (t : Topo) (a : List Byte) (axis c : Nat) : Nat :=
  (c + t.size axis - argOrigin a axis % max 1 (t.size axis)) % max 1 (t.size axis)

/-- The rank of this module in a box (R261). -/
def boxRank (t : Topo) (a : List Byte) : Nat :=
  boxOff t a 0 t.x + argSize a 0 * (boxOff t a 1 t.y + argSize a 1 * boxOff t a 2 t.z)

/-- This module is a member. -/
def boxHas (t : Topo) (a : List Byte) : Bool := [0, 1, 2].all fun i => boxOff t a i (t.coord i) < argSize a i

/-- The directions toward box neighbours: torus neighbours inside the box (R261). -/
def boxDirs (t : Topo) (a : List Byte) : List Nat :=
  (List.range 6).filter fun d =>
    let i := axisOf d
    2 ≤ t.size i && boxOff t a i (t.moved d i) < argSize a i

def State.groupDirs (s : State) (g : Group) : List Nat := (s.lnk.topo.map fun t => boxDirs t g.args).getD []

/-- The generation of the partner last discovered on a direction's links (R264). -/
def State.dirGen (s : State) (d : Nat) : Option Word :=
  (s.lnk.heard.find? fun l => s.dirOf (linkOf l) == d && (s.link (linkOf l)).seen).map fun l => (s.link (linkOf l)).partnerGen

/-! ## Plan images (R266, Tables 10.3 to 10.5) -/

/-- LNK_BE_CFG.BE_START as it acts (09_links.md Table 9.7). -/
def State.beStart (s : State) : Nat := max 64 (min 155 s.lnk.beStart.toNat)

def planEntry (b : List Byte) : PlanEntry :=
  let w := fieldAt b 0 4
  { link := bits w 4 0, slot := bits w 15 8, run := bits w 23 16, shared := bit w 24 }

/-- A reserved bit of an entry is set. -/
def entryReserved (b : List Byte) : Bool :=
  let w := fieldAt b 0 4
  bits w 7 5 != 0 || bits w 31 25 != 0 || nonzero (b.drop 4)

/-- Two entries name a slot in common on one link. -/
def PlanEntry.meets (e f : PlanEntry) : Bool :=
  e.link == f.link && e.slot < f.slot + f.run && f.slot < e.slot + e.run

/-- Two entries of a list overlap on one link. -/
def entriesOverlap : List PlanEntry → Bool
  | [] => false
  | e :: r => r.any e.meets || entriesOverlap r

/-- A plan image as it was read. -/
structure PlanImage where
  fabric  : Bool
  beStart : Nat
  total   : Nat
  plans   : List Plan
deriving DecidableEq, Repr

/-- The plan image at an address of a context; none when it is malformed (R266). -/
def State.planImage (s : State) (x : Context) (t : Topo) (a : List Byte) : Option PlanImage :=
  let va := fieldAt a 0x10 6
  let h := s.committedBytes x va 32
  let w := fieldAt h 0 4
  let fabric := bit w 0
  let start := bits w 15 8
  let n := bits w 20 16
  let total := fieldAt h 4 2
  if bits w 7 1 != 0 || bits w 31 21 != 0 || nonzero (h.drop 6) || n == 0 || 25 < n || total == 0 || 32768 < total ||
      (if fabric then start != s.beStart else start != 0) then none
  else
    let dirBytes := (List.range n).map fun i => s.committedBytes x (va + 32 + 16 * i) 16
    let entBytes := (List.range total).map fun i => s.committedBytes x (va + 32 + 16 * n + 16 * i) 16
    let es := entBytes.map planEntry
    let dirs := boxDirs t a
    let entBad := fun (e : PlanEntry) =>
      23 < e.link || !dirs.contains (t.dirOf (linkOf e.link)) || e.run == 0 || 155 < e.slot + e.run ||
        (fabric && start < e.slot + e.run)
    let plans := dirBytes.map fun b =>
      { key := fieldAt b 0 3, entries := (es.drop (fieldAt b 4 2)).take (fieldAt b 6 2) : Plan }
    if entBytes.any entryReserved || es.any entBad ||
        dirBytes.any (fun b => fieldAt b 3 1 != 0 || nonzero (b.drop 8) || total < fieldAt b 4 2 + fieldAt b 6 2) ||
        plans.any (fun p => entriesOverlap p.entries) || (plans.head?.any fun p => p.key != 0) then none
    else some { fabric := fabric, beStart := start, total := total, plans := plans }

/-! ## GROUP_LAUNCH (R262 to R264) -/

/-- Groups that are active or aborted. -/
def State.liveGroups (s : State) : List Group := s.col.groups.toList.filter (·.state != 0)

/-- COL_PLAN_FREE. -/
def State.planFree (s : State) : Nat := 32768 - (s.liveGroups.map (·.total)).foldl (· + ·) 0

/-- The first row of Table 10.2 up to the plan image. -/
def State.launchBad (s : State) (a : List Byte) (x : Context) (t : Topo) : Bool :=
  let w0 := fieldAt a 0 4
  let w1 := fieldAt a 4 4
  let w2 := fieldAt a 8 4
  let log2v := bits w0 12 8
  bits w0 15 13 != 0 || bits w0 31 24 != 0 || bits w0 23 16 == 0 || bits w1 7 5 != 0 || bits w1 15 12 != 0 ||
    bits w1 31 20 != 0 || bits w2 7 6 != 0 || bits w2 15 13 != 0 || bits w2 31 21 != 0 || nonzero (slice a 0x0C 4) ||
    fieldAt a 0x10 8 % 32 != 0 || 2 ^ 48 ≤ fieldAt a 0x10 8 || fieldAt a 0x18 8 % 4096 != 0 || fieldAt a 0x20 8 % 4096 != 0 ||
    2 ^ 19 ≤ fieldAt a 0x28 4 || nonzero (slice a 0x2C 20) ||
    (if x.det == 2 then log2v < 8 || 16 < log2v else log2v != 0) ||
    [0, 1, 2].any (fun i => argSize a i == 0 || t.size i < argSize a i) || boxCount a < 2 || !boxHas t a ||
    (boxDirs t a).any fun d => (s.dirGen d).isNone

/-- Entries of two groups conflict: a slot in common that either names exclusively (R268). -/
def planConflict (ps qs : List Plan) : Bool :=
  (ps.flatMap (·.entries)).any fun e => (qs.flatMap (·.entries)).any fun f => e.meets f && (!e.shared || !f.shared)

/-- `n` Seam pages of scratch for a function, all or none. -/
def State.takeScratch (s : State) (fn : FnId) : Nat → Option (List Nat × State)
  | 0 => some ([], s)
  | n + 1 => (s.takeFrame none fn .scratch).bind fun (f, s) => (s.takeScratch fn n).map fun (fs, s) => (f :: fs, s)

/-- GROUP_LAUNCH. -/
def State.groupLaunch (s : State) : State :=
  s.mbxRun 0x80 fun s =>
    let a := slice s.mbxBytes 0 64
    let c := ctxOf (fieldAt a 0 1)
    match s.ctx? c, s.lnk.topo with
    | some x, some t =>
      if s.launchBad a x t then s.mbxStatus stBad
      else match s.planImage x t a with
        | none => s.mbxStatus stBad
        | some p =>
          if p.fabric != s.profile.fabricEff then s.mbxStatus stBad
          else match (List.finRange 64).find? fun g => (s.group g).state == 0 with
            | none => s.mbxStatus stNoRoom
            | some g =>
              if s.planFree < p.total || s.liveGroups.any (fun q => planConflict p.plans q.plans) then s.mbxStatus stNoRoom
              else match s.takeScratch x.fn (fieldAt a 0x28 4) with
                | none => s.mbxStatus stNoRoom
                | some (fs, s) =>
                  let new := { groupReset with
                    state := 1, ctx := BitVec.ofNat 8 c.val, scratch := fs, args := a, rank := boxRank t a, det := x.det
                    fabric := p.fabric, beStart := p.beStart, total := p.total, plans := p.plans
                    gens := Vector.ofFn fun d =>
                      if (boxDirs t a).contains d.val then (s.dirGen d.val).getD 0 else 0 }
                  let s := { s.modGroup g (fun _ => new) with
                    col.bound := if s.col.bound.contains c.val then s.col.bound else s.col.bound ++ [c.val] }
                  s.mbxOk (leBytes 4 (stOk.toNat + g.val * 2 ^ 8))
    | _, _ => s.mbxStatus stBad

def execGroupLaunch (s : State) : Host.Outcome State Fault Refusal := .next s.groupLaunch

/-! ## Plan choice and capacity (R267 to R270) -/

/-- Flits of a run of `run` slots on `lanes` live lanes (R267). -/
def runFlits (run guard lanes : Nat) : Nat := (64 * run - guard) * lanes * 7 / 170

/-- A link may carry scheduled traffic now: verified, in service and not in a lane drop (R230, R250). -/
def State.schedLink (s : State) (l : LinkId) : Bool :=
  (vget s.tkp.links l).verified && s.linkUsable l && (s.link l).dropping.isNone

/-- The links that plan 0 names and that are not verified, as bits (R269). -/
def State.unverifiedOf (s : State) (g : Group) : Nat :=
  match g.plans.head? with
  | none => 0
  | some p => (List.finRange 24).foldl (fun n l =>
      if p.entries.any (fun e => e.link == l.val) && (!(vget s.tkp.links l).verified || s.linkOut l) then n + 2 ^ l.val
      else n) 0

/-- Bits set in a 24-bit key. -/
def keyBits (k : Nat) : Nat := ((List.range 24).filter fun i => bit k i).length

/-- The plan used with unverified links U: the KEY that contains U and has the fewest bits, lowest index on a tie; plan 0
where there is none (R269). -/
def choosePlan (plans : List Plan) (u : Nat) : Nat :=
  if u = 0 then 0
  else
    let cands := (List.range plans.length).filter fun i =>
      (List.range 24).all fun l => !bit u l || bit ((plans[i]?.map (·.key)).getD 0) l
    let score := fun i => keyBits ((plans[i]?.map (·.key)).getD 0)
    (cands.foldl (fun (b : Option Nat) i => match b with
      | none => some i
      | some j => if score i < score j then some i else some j) none).getD 0

/-- A group's plan may be used at all: scheduled transmission is allowed and no other FABRIC than its own has been in effect
since its launch (R269, R270). -/
def State.planAllowed (s : State) (g : Group) : Bool := s.schedAllowed && g.fabric == s.profile.fabricEff && !g.offRuns

/-- Runs of a group's plan `i` that can be used: on verified links, and below the new BE_START where it changed (R269,
R270). -/
def State.usableRuns (s : State) (g : Group) (i : Nat) : List PlanEntry :=
  if !s.planAllowed g then []
  else ((g.plans[i]?.map (·.entries)).getD []).filter fun e =>
    s.schedLink (linkOf e.link) &&
      (!g.fabric || g.beStart == s.lnk.beEff || e.slot + e.run ≤ s.lnk.beEff)

/-- At a frame boundary each active group chooses its plan; 31 when every stream is on BE (R269). A group whose FABRIC is no
longer in effect leaves its runs until GROUP_END (R270). -/
def State.choosePlans (s : State) : State :=
  { s with col.groups := s.col.groups.map fun g : Group =>
    if g.state == 1 then
      let i := choosePlan g.plans (s.unverifiedOf g)
      { g with
        plan := if (s.usableRuns g i).isEmpty then 31 else BitVec.ofNat 5 i
        offRuns := g.offRuns || g.fabric != s.profile.fabricEff }
    else g }

/-! ## Numbers in a stream (R271, R277) -/

/-- The collective that a number mod 256 names: at most 127 ahead of the oldest one without a record, else one before it, if
there was one (log entry 80). -/
def Group.numOf (g : Group) (n : Nat) : Option Nat :=
  let c := g.ctail.toNat
  let d := (n + 256 - c % 256) % 256
  if d < 128 then some (c + d) else if 256 ≤ c + d then some (c + d - 256) else none

/-- A collective and kind as a key: its readiness entries come before its data. -/
def streamKey (num : Nat) (hdr : Bool) : Nat := 2 * num + b2n (!hdr)

/-- The SEQ of flit `i` of a collective and kind. -/
def streamSeq (key i : Nat) : Word := BitVec.ofNat 32 (key / 2 % 256 * 2 ^ 24 + (1 - key % 2) * 2 ^ 23 + i % 2 ^ 23)

/-- When the record of collective `num` is written its held data are done with; numbers 128 behind it are forgotten. -/
def Group.closeStreams (g : Group) (num : Nat) : Group :=
  let old := fun (e : Nat × Nat) => 2 * num < e.1 + 256
  { g with
    tx := g.tx.map fun y : StreamTx => { y with next := y.next.filter old }
    rx := g.rx.map fun r : StreamRx => { r with
      data := r.data.filter fun d => d.1 / 2 != num
      got := r.got.filter old, acked := r.acked.filter old, later := r.later.filter old } }

/-! ## Completion records (R287) -/

/-- A collective's descriptor fields (Table 10.7). -/
def Collective.op (k : Collective) : Nat := fieldAt k.desc 0 1
def Collective.red (k : Collective) : Nat := bits (fieldAt k.desc 0 4) 9 8
def Collective.fmt (k : Collective) : Nat := bits (fieldAt k.desc 0 4) 13 10
def Collective.wfmt (k : Collective) : Nat := bits (fieldAt k.desc 0 4) 17 14
def Collective.irq (k : Collective) : Bool := bit (fieldAt k.desc 0 4) 18
def Collective.tag (k : Collective) : Nat := fieldAt k.desc 6 2
def Collective.startHt (k : Collective) : Nat := fieldAt k.desc 0x10 8
def Collective.src (k : Collective) : Nat := fieldAt k.desc 0x18 8
def Collective.dst (k : Collective) : Nat := fieldAt k.desc 0x20 8
def Collective.n (k : Collective) : Nat := fieldAt k.desc 0x28 4
def Collective.root (k : Collective) : Nat := fieldAt k.desc 0x2C 4
def Collective.cntVa (k : Collective) : Nat := fieldAt k.desc 0x30 8
def Collective.c0 (k : Collective) : Nat := fieldAt k.desc 0x38 2
def Collective.c1 (k : Collective) : Nat := fieldAt k.desc 0x3A 2
def Collective.blkVa (k : Collective) : Nat := fieldAt k.desc 0x40 8
/-- ALLREDUCE or REDUCE_SCATTER. -/
def Collective.reduces (k : Collective) : Bool := k.op == 1 || k.op == 2

/-- The 32 bytes of a collective's record (Table 10.12). -/
def colRecord (k : Collective) (st : Byte) (phase : Bool) : List Byte :=
  leBytes 4 (st.toNat + k.op * 2 ^ 8 + b2n phase * 2 ^ 31) ++ leBytes 4 k.num.toNat ++ slice k.desc 8 8 ++
    leBytes 8 (k.start.getD 0) ++ leBytes 8 k.endHt

/-- A tag's state changes (05_commands.md R141). -/
def State.setTag (s : State) (c : CtxId) (tag : Nat) (st : TagState) : State :=
  s.modCtx c fun x => { x with tags := x.tags.put tag st }

/-- The first collective of a group that has its status writes its record, its tag becomes DONE, and its source is raised
(R287). -/
def State.colFinish (s : State) (g : GroupId) : State :=
  let q := s.group g
  match q.cols with
  | [] => s
  | k :: rest =>
    match k.ending with
    | none => s
    | some st =>
      if !s.mayRequest 0 then s
      else
        let c := ctxOf q.ctx.toNat
        let k := { k with endHt := s.ht }
        let s := s.hostWrite (q.crBase + 32 * (q.ctail.toNat % 64)) (colRecord k st (phaseOf q.ctail 64))
        let s := s.modGroup g fun q => { q with
          ctail := q.ctail + 1, done := q.done + 1, cols := rest
          irqs := if k.irq then q.irqs ++ [q.ctail] else q.irqs }
        let s := s.modGroup g fun q => q.closeStreams k.num.toNat
        let s := (s.tallyHost c 32).setTag c k.tag (.done st)
        if k.irq then s.irqEvent (256 + g.val) else s

/-- COLLECTIVE_COMPLETE. -/
def execCollectiveComplete (group : GroupId) (s : State) : Host.Outcome State Fault Refusal :=
  .next (s.colFinish group).settle

/-- A status for every collective of a group that has none. -/
def Group.endAll (g : Group) (st : Byte) : Group :=
  { g with cols := g.cols.map fun k => if k.ending.isSome then k else { k with ending := some st, hold := [] } }

/-- Every collective of a group completes with a status, as far as records can be written. -/
def State.finishAll (s : State) (g : GroupId) (st : Byte) : State :=
  let s := s.modGroup g fun q => q.endAll st
  (s.group g).cols.foldl (fun s _ => s.colFinish g) s

/-- A group ends: its collectives complete with FENCED, its scratch and plan entries are free (R265). -/
def State.endGroup (s : State) (g : GroupId) : State :=
  let s := s.finishAll g stFenced
  let q := s.group g
  let s := q.scratch.foldl (fun s f => s.releaseFrame f) s
  s.modGroup g fun _ => groupReset

/-- GROUP_END. -/
def State.groupEnd (s : State) : State :=
  s.mbxRun 0x81 fun s =>
    if s.argReserved 6 || (s.group (groupOf (s.mbxArg 0))).state == 0 then s.mbxStatus stBad
    else (s.endGroup (groupOf (s.mbxArg 0))).settle.mbxStatus stOk

def execGroupEnd (s : State) : Host.Outcome State Fault Refusal := .next s.groupEnd

/-- GROUP_READ. -/
def State.groupRead (s : State) : State :=
  s.mbxRun 0x82 fun s =>
    let g := s.group (groupOf (s.mbxArg 0))
    if s.argReserved 6 || g.state == 0 then s.mbxFail stBad
    else s.mbxOk (g.args ++ (g.gens.toList.flatMap fun w => leBytes 4 w.toNat) ++ leBytes 8 g.done)

def execGroupRead (s : State) : Host.Outcome State Fault Refusal := .next s.groupRead

/-! ## Doorbell and ring head (R271, R287) -/

/-- COL_G_LDB; a free group obeys the silent rule. -/
def State.launchDoorbell (s : State) (g : GroupId) (v : Word) : State :=
  let q := s.group g
  if q.state == 0 then s.regViol
  else if doorbellOk v q.lhead q.ldb 64 then s.modGroup g fun q => { q with ldb := v }
  else { s with col.dbBad := satInc s.col.dbBad }

def execColGLdb (group : GroupId) (value : Word) (s : State) : Host.Outcome State Fault Refusal :=
  .next (s.launchDoorbell group value)

/-- A write of COL_G_CHEAD. -/
def State.colHead (s : State) (g : GroupId) (v : Word) : State :=
  let q := s.group g
  if q.state == 0 then s.regViol
  else if headOk v q.ctail q.chead then
    s.modGroup g fun q => { q with chead := v, irqs := unconsumed q.irqs v q.ctail }
  else { s with col.dbBad := satInc s.col.dbBad }

def execColGCheadWrite (group : GroupId) (value : Word) (s : State) : Host.Outcome State Fault Refusal :=
  .next (s.colHead group value)

/-! ## The abort beacon (R150, R288, R289) -/

def bcSoftware : Nat := 1
def bcTimeout : Nat := 2
def bcStale : Nat := 3
def bcSeamUe : Nat := 4
def bcReset : Nat := 5
def bcRetire : Nat := 6
def bcThermal : Nat := 7

/-- The command ends with ABORTED_FABRIC: everything fetched but dispatched HOIST and MARKER commands and table operations
(05_commands.md R150, R151). One whose kill is decided and not complete ends so too, and the kill is not counted: R150 names
every fetched command, Table 5.5 the kill before the beacon (log entry 63, the model's choice). -/
def Cmd.abort (k : Cmd) : Cmd :=
  if k.ending.isSome || (k.dispatched && !k.usesField) then k
  else { k with ending := some stAborted, killing := none, endIdx := k.stopIdx }

/-- The slice is aborted: every group, and the commands of every bound context, whose STOP is set. -/
def State.abortSlice (s : State) : State :=
  { s with
    col.groups := s.col.groups.map fun g : Group => if g.state == 0 then g else { g.endAll stAborted with state := 2 }
    ctxs := Vector.ofFn fun c => (vget s.ctxs c).map fun x : Context =>
      if s.col.bound.contains c.val then { x with stop := true, cmds := x.cmds.map Cmd.abort } else x }.settle

/-- The payload of a beacon raised here (Table 10.14). -/
def State.beaconPayload (s : State) (cause : Nat) : List Byte :=
  let t := s.lnk.topo.getD topoNone
  leBytes 4 (s.lnk.sliceId.toNat + cause * 2 ^ 16) ++ leBytes 4 (t.x + t.y * 2 ^ 8 + t.z * 2 ^ 16) ++
    leBytes 4 s.lnk.gen.toNat ++ leBytes 4 0 ++ leBytes 8 s.ht

/-- The identity of a beacon: coordinates and RAISED_HT (R289). -/
def beaconId (p : List Byte) : Nat × Nat × Nat × Nat :=
  let w := fieldAt p 4 4
  (bits w 4 0, bits w 11 8, bits w 19 16, fieldAt p 0x10 8)

/-- The beacon is acted on: the slice aborts and a BEACON event is raised. -/
def State.actBeacon (s : State) (p : List Byte) (here : Bool) : State :=
  { s.abortSlice with col.known := (beaconId p :: s.col.known).take 32 }.raise 0x46 0
    (leBytes 4 (b2n here) ++ List.replicate 12 0 ++ slice p 0 24)

/-- A link forwards beacons (R289). -/
def beaconLink (st : BitVec 4) : Bool := usableState st || st == lsRetired

/-- A BEACON flit as the next codeword of every link in UP, DEGRADED or RETIRED but one (R242, R289). It waits in no queue: it
goes ahead of them all. -/
def State.floodBeacon (s : State) (p : List Byte) (but : Option LinkId) : State :=
  (List.finRange 24).foldl (fun s l =>
    if beaconLink (s.link l).state && some l != but then s.sendNext l fkBeacon p else s) s

/-- This module raises the beacon (R288). -/
def State.raiseBeacon (s : State) (cause : Nat) : State :=
  let p := s.beaconPayload cause
  ({ s with col.beaconTx := satInc s.col.beaconTx }.floodBeacon p none).actBeacon p true

/-- ABORT: COL_CTRL.ABORT written. -/
def execAbort (s : State) : Host.Outcome State Fault Refusal := .next (s.raiseBeacon bcSoftware)

/-- BEACON_RECEIVE: a known, foreign or old beacon is dropped; any other is forwarded and acted on. -/
def State.beaconReceive (s : State) (l : LinkId) (p : List Byte) : State :=
  if !beaconLink (s.link l).state || (s.link l).discards || s.col.known.contains (beaconId p) || fieldAt p 0 2 != s.lnk.sliceId.toNat ||
      fieldAt p 0x10 8 + 1000000 < s.ht then s
  else ({ s with col.beaconRx := satInc s.col.beaconRx }.floodBeacon p (some l)).actBeacon p false

def execBeaconReceive (link : LinkId) (payload : List Byte) (s : State) : Host.Outcome State Fault Refusal :=
  .next (s.beaconReceive link payload)

end Sys2Proof.Machine
end

