-- ==== Sys2Proof/Machine/Collect.lean ====
section
/-! DEFINITION. Collectives: acceptance, readiness, data phases, reduction arithmetic, and the flits of a group's streams
(10_collectives.md R271 to R287). -/

namespace Sys2Proof.Machine

/-! ## Descriptors (R272 to R274) -/

/-- Bytes of an element of FMT or WFMT: FP32, FP16 or BF16. -/
def colWidth (f : Nat) : Nat := if f = fmtFP32 then 4 else 2

/-- Maximal aligned blocks of the chunk range from `c` to `last`: first chunk and log2 of the length (R284). -/
def canonBlocks : Nat → Nat → Nat → List (Nat × Nat)
  | 0, _, _ => []
  | fuel + 1, c, last =>
    if last < c then []
    else
      let k := ((List.range 17).filter fun j => c % 2 ^ j == 0 && c + 2 ^ j ≤ last + 1).getLast?.getD 0
      (c, k) :: canonBlocks fuel (c + 2 ^ k) last

def blocksOf (c0 c1 : Nat) : List (Nat × Nat) := canonBlocks 40 c0 c1

/-- Seam pages of scratch a reduction needs (R284). -/
def Group.scratchNeed (g : Group) (k : Collective) : Nat :=
  let p := g.count
  let d := if g.det = 0 then 1 else if g.det = 1 then clog2 p else g.log2v
  let bytes := d * ((k.n + p - 1) / p) * colWidth k.wfmt
  (bytes + pageSize - 1) / pageSize

/-- A reduction of a CANON group. -/
def Group.canon (g : Group) (k : Collective) : Bool := g.det == 2 && k.reduces

/-- First and last element of segment r: ⌊rN/P⌋ and ⌊(r+1)N/P⌋ − 1 (R273). -/
def segment (r n p : Nat) : Nat × Nat := (r * n / p, (r + 1) * n / p)

/-! ## Readiness entries (Table 10.9) -/

def entryRank (e : List Byte) : Nat := bits (fieldAt e 0 4) 12 0
def entryStatusOf (e : List Byte) : Byte := BitVec.ofNat 8 (fieldAt e 2 1)
def entryCount (e : List Byte) : Nat := fieldAt e 4 4
def entryStart (e : List Byte) : Nat := fieldAt e 8 8
def entryCnt (e : List Byte) (j : Nat) : Nat := fieldAt e (0x10 + 4 * j) 4

/-- The collective holds the entries of all P ranks. -/
def Group.complete (g : Group) (k : Collective) : Bool := k.entries.length == g.count

/-- Bytes that rank `r` sends here in a copying collective, from its entry. -/
def Group.partLen (g : Group) (k : Collective) (r : Nat) : Nat :=
  let e := k.entries.getD r []
  if k.op = 4 then entryCount e else if k.op = 7 then entryCnt e g.rank else k.n

/-- Bytes of the source and destination buffers on this member. The destination of ALLGATHERV and ALLTOALLV has the length the
entries give; until every entry is there, what the own descriptor gives of it (log entry 81). -/
def Group.bufSizes (g : Group) (k : Collective) (cnt : List Nat) : Nat × Nat :=
  let p := g.count
  let w := colWidth k.fmt
  let parts := ((List.range p).map (g.partLen k)).foldl (· + ·) 0
  match k.op with
  | 1 => (k.n * w, k.n * w)
  | 2 => let e := segment g.rank k.n p; (k.n * w, (e.2 - e.1) * w)
  | 3 => (k.n, p * k.n)
  | 4 => (k.n, if g.complete k then parts else k.n)
  | 5 => (if g.rank = k.root then k.n else 0, k.n)
  | 6 => (p * k.n, p * k.n)
  | _ => (cnt.foldl (· + ·) 0, if g.complete k then parts else cnt.getD g.rank 0)

/-- The byte counts at CNT_VA of an ALLTOALLV. -/
def State.cntOf (s : State) (x : Context) (g : Group) (k : Collective) : List Nat :=
  if k.op = 7 then (List.range g.count).map fun j => leNat (s.committedBytes x (k.cntVa + 4 * j) 4) else []

/-- Addresses of the block buffers at BLK_VA of a CANON reduction. -/
def State.blkOf (s : State) (x : Context) (g : Group) (k : Collective) : List Nat :=
  if g.canon k then (List.range (blocksOf k.c0 k.c1).length).map fun j => leNat (s.committedBytes x (k.blkVa + 8 * j) 8)
  else []

/-- The buffers of a collective on this member: those it reads and those it writes. -/
def State.colBuffers (s : State) (x : Context) (g : Group) (k : Collective) : List (Nat × Nat) × List (Nat × Nat) :=
  let cnt := s.cntOf x g k
  let (n, m) := g.bufSizes k cnt
  let lists := if k.op = 7 then [(k.cntVa, 4 * g.count)] else []
  if g.canon k then
    let bl := s.blkOf x g k
    ((k.blkVa, 8 * bl.length) :: bl.map fun a => (a, n), [(k.dst, m)])
  else ((k.src, n) :: lists, [(k.dst, m)])

/-- A range passes virtual address bit 47. -/
def passes47 (r : Nat × Nat) : Bool := 2 ^ 48 < r.1 + r.2

/-- The descriptor is malformed on its own (R272 to R274). -/
def Group.descBad (g : Group) (k : Collective) : Bool :=
  let w := fieldAt k.desc 0 4
  let canon := g.canon k
  k.op == 0 || 7 < k.op || bits w 31 19 != 0 || fieldAt k.desc 4 2 != 0 || k.n == 0 ||
    2 ^ 48 ≤ k.src || 2 ^ 48 ≤ k.dst || 2 ^ 48 ≤ k.cntVa || 2 ^ 48 ≤ k.blkVa || 2 ^ 13 ≤ k.root ||
    nonzero (slice k.desc 0x3C 4) || nonzero (k.desc.drop 0x48) ||
    (if k.reduces then k.red == 3 || 2 < k.fmt || (k.wfmt != fmtFP32 && k.wfmt != k.fmt)
      else k.red != 0 || k.fmt != 0 || k.wfmt != 0) ||
    (if k.op = 5 then g.count ≤ k.root else k.root != 0) ||
    (if k.op = 7 then 256 < g.count else k.cntVa != 0) ||
    (if canon then k.src != 0 || k.c1 < k.c0 else k.c0 != 0 || k.c1 != 0 || k.blkVa != 0) ||
    (k.reduces && g.scratch.length < g.scratchNeed k)

/-- The STATUS of this member's readiness entry, page-ins aside (R274, R275). -/
def State.entryStatus (s : State) (x : Context) (g : Group) (k : Collective) : Byte :=
  if g.descBad k then stBad
  else
    let (rd, wr) := s.colBuffers x g k
    if (rd ++ wr).any passes47 then stBad
    else if (rangePages (rd ++ wr)).any (fun v => pteState (x.pt.getD v 0) == psPoisoned) then stFenced
    else stOk

/-! ## Streams out (R275, R277) -/

/-- This member's entry for a collective. -/
def State.ownEntry (s : State) (x : Context) (g : Group) (k : Collective) : List Byte :=
  let count := if k.op = 4 then k.n else if g.canon k then k.c0 + k.c1 * 2 ^ 16 else 0
  leBytes 4 (g.rank + k.status.toNat * 2 ^ 16) ++ leBytes 4 count ++ leBytes 8 k.startHt ++
    (if k.status == stOk then (s.cntOf x g k).flatMap (leBytes 4) else [])

/-- A list cut into pieces of 608 bytes, a flit's payload. -/
def flitPieces : Nat → List Byte → List (List Byte)
  | 0, _ => []
  | fuel + 1, l => if l.isEmpty then [] else l.take 608 :: flitPieces fuel (l.drop 608)

/-- Flits put in a direction's stream: readiness entries go ahead of the data that wait (R275). -/
def StreamTx.push (y : StreamTx) (key : Nat) (fs : List Flit) : StreamTx :=
  let hdr := fun (f : Flit) => bit f.seq.toNat 23
  { y with
    ready := if key % 2 = 0 then y.ready.filter hdr ++ fs ++ y.ready.filter fun f => !hdr f else y.ready ++ fs
    next := y.next.put key (y.next.getD key 0 + fs.length) }

/-- Bytes as flits on a direction's stream, of the collective and kind that `key` gives (R277). -/
def State.pushFlits (s : State) (g : GroupId) (key : Nat) (bytes : List Byte) (d : Nat) : State :=
  match s.lnk.topo with
  | none => s
  | some t =>
    let q := s.group g
    let first := (vget q.tx (dirFin d)).next.getD key 0
    let flits := (flitPieces (bytes.length + 1) bytes).zipIdx.map fun p : List Byte × Nat =>
      mkFlit fkSched 0 s.lnk.sliceId.toNat (t.neighbour d) (t.x, t.y, t.z) ((vget q.gens (dirFin d)).toNat % 65536)
        (s.lnk.gen.toNat % 65536) g.val (streamSeq key (first + p.2)) p.1
    s.modGroup g fun q => { q with tx := vmod q.tx (dirFin d) (·.push key flits) }

/-- An entry as header flits on every stream of a group but one. -/
def State.floodEntry (s : State) (g : GroupId) (num : Nat) (e : List Byte) (but : Option Nat) : State :=
  ((s.groupDirs (s.group g)).filter fun d => some d != but).foldl (fun s d => s.pushFlits g (streamKey num true) e d) s

/-- The CANON ranges of the entries, in rank order, partition [0, V) (R276). -/
def partitions (v : Nat) (rs : List (Nat × Nat)) : Bool :=
  (List.range v).all fun c => (rs.filter fun r => r.1 ≤ c && c ≤ r.2).length == 1

/-- A member holding all P entries decides: the status of the lowest failing rank, BAD_DESCRIPTOR for ranges that do not
partition, else to go on (R276). -/
def Group.decide (g : Group) (k : Collective) : Option Byte :=
  let es := k.entries.map (·.2)
  match (k.entries.filter fun e => entryStatusOf e.2 != stOk).head? with
  | some e => some (entryStatusOf e.2)
  | none =>
    if g.canon k &&
        (!partitions (2 ^ g.log2v) (es.map fun e => (entryCount e % 65536, entryCount e / 65536)) ||
          es.any fun e => 2 ^ g.log2v ≤ entryCount e / 65536) then some stBad
    else none

/-- A decision is taken as soon as every entry is there. -/
def Group.settleEntries (g : Group) (k : Collective) : Collective :=
  if k.accepted && k.ending.isNone && g.complete k then
    match g.decide k with
    | some st => { k with ending := some st, hold := [] }
    | none => k
  else k

/-- A STATUS of Table 0.3; the codes from 0x0C on are reserved, and an entry with one is no entry. -/
def entryOk (e : List Byte) : Bool := fieldAt e 2 1 < 0x0C

/-- READINESS_ENTRY: kept, forwarded when new, and the decision taken when all are there (R275, R276). One for a collective
that has its record has been received before. -/
def State.readiness (s : State) (g : GroupId) (num : Byte) (dir : Nat) (e : List Byte) : State :=
  let q := s.group g
  if q.state != 1 || q.count ≤ entryRank e || !entryOk e then s
  else match q.numOf num.toNat with
    | none => s
    | some n =>
      if n < q.ctail.toNat then s
      else match q.cols.find? fun k => k.num.toNat == n with
        | some k =>
          if k.entries.has (entryRank e) then s
          else
            let s := s.modGroup g fun q => { q with cols := q.cols.map fun j =>
              if j.num == k.num then q.settleEntries { j with entries := j.entries.put (entryRank e) e } else j }
            s.floodEntry g n e (some dir)
        | none =>
          if q.early.any (fun p => p.1 == n && entryRank p.2 == entryRank e) then s
          else (s.modGroup g fun q => { q with early := q.early ++ [(n, e)] }).floodEntry g n e (some dir)

def execReadinessEntry (group : GroupId) (num : Byte) (dir : BitVec 3) (entry : List Byte) (s : State) :
    Host.Outcome State Fault Refusal :=
  .next (s.readiness group num dir.toNat entry)

/-! ## Acceptance (R271) -/

/-- The engine may fetch the next descriptor of a group. -/
def State.mayLaunch (s : State) (q : Group) : Bool :=
  q.state != 0 && q.lhead != q.ldb && (q.lhead - q.chead).toNat < 64 && q.cols.all (·.accepted) && s.mayRequest 0

/-- The collective's STATUS as it stands at acceptance: an uncorrectable error since the fetch counts too (R274). -/
def State.acceptStatus (s : State) (x : Context) (q : Group) (k : Collective) : Collective :=
  { k with status := if k.status == stOk then s.entryStatus x q k else k.status }

/-- A collective is accepted: its lateness is recorded and its entry leaves on every stream (R271, R275). -/
def State.colAccept (s : State) (g : GroupId) (k : Collective) : State :=
  let q := s.group g
  match s.ctx? (ctxOf q.ctx.toNat) with
  | none => s
  | some x =>
    let k := s.acceptStatus x q k
    let e := s.ownEntry x q k
    let old := (q.early.filter fun p => p.1 == k.num.toNat).foldl
      (fun (m : Assoc (List Byte)) p => m.put (entryRank p.2) p.2) []
    let new := { k with accepted := true, entries := old.put q.rank e }
    let s := s.recordLateness ((s.ht : Int) - k.startHt)
    let s := s.modGroup g fun q => { q with
      early := q.early.filter fun p => p.1 != k.num.toNat
      cols := q.cols.map fun j => if j.num == k.num then q.settleEntries new else j }
    s.floodEntry g k.num.toNat e none

/-- Pages of a collective's buffers, in Seam before it is accepted. -/
def State.colPages (s : State) (x : Context) (g : Group) (k : Collective) : List Nat :=
  let (rd, wr) := s.colBuffers x g k
  rangePages (rd ++ wr)

/-- A launched descriptor is fetched: TAG to PENDING, the checks, the page-ins; without any it is accepted at once. -/
def State.colFetch (s : State) (g : GroupId) (desc : List Byte) : State :=
  let q := s.group g
  let c := ctxOf q.ctx.toNat
  match s.ctx? c with
  | none => s
  | some x =>
    if !s.mayLaunch q then s
    else
      let k0 : Collective := { num := q.lhead, desc := slice desc 0 128, status := stOk, accepted := false, hold := [],
                               entries := [], start := none, ending := none, endHt := 0, sent := 0, lost := false }
      let s := ((s.setTag c k0.tag .pending).tallyHost c 128).modGroup g fun q => { q with lhead := q.lhead + 1 }
      let add := fun (s : State) (k : Collective) => s.modGroup g fun q => { q with cols := q.cols ++ [k] }
      if q.state == 2 then add s { k0 with accepted := true, ending := some stAborted }
      else
        let st := s.entryStatus x q k0
        if st != stOk then
          let k := { k0 with status := st }
          (add s k).colAccept g k
        else
          let pages := s.colPages x q k0
          match s.startPageIns c (x.notResident pages) with
          | none =>
            let k := { k0 with status := stNoRoom }
            (add s k).colAccept g k
          | some s =>
            let k := { k0 with hold := pages }
            if (x.notResident pages).isEmpty then (add s k).colAccept g k else add s k

/-- COLLECTIVE_ACCEPT: a fetched collective whose pages have arrived is accepted; else the next descriptor is fetched. -/
def State.collectiveAccept (s : State) (g : GroupId) (desc : List Byte) : State :=
  let q := s.group g
  match q.cols.find? fun k => !k.accepted && k.ending.isNone with
  | some k =>
    match s.ctx? (ctxOf q.ctx.toNat) with
    | some x => if (x.notResident k.hold).isEmpty then s.colAccept g k else s
    | none => s
  | none => s.colFetch g desc

def execCollectiveAccept (group : GroupId) (desc : List Byte) (s : State) : Host.Outcome State Fault Refusal :=
  .next (s.collectiveAccept group desc).settle

/-! ## The data phase (R276, R280) -/

/-- The collective at the head of a group, once every entry is there and nothing keeps its data phase back. -/
def State.mayStart (s : State) (q : Group) : Option Collective :=
  match q.cols with
  | k :: _ =>
    if q.state == 1 && k.accepted && k.ending.isNone && k.start.isNone && q.complete k && s.tkp.state != tkUnlocked then some k
    else none
  | [] => none

/-- The data a member sends in a data phase, in flits on the streams of the directions toward box neighbours (R269, R277). -/
def State.pushData (s : State) (g : GroupId) (num : Nat) (sends : List (BitVec 3 × List Byte)) : State :=
  (sends.filter fun d => (s.groupDirs (s.group g)).contains d.1.toNat).foldl
    (fun s d => s.pushFlits g (streamKey num false) d.2 d.1.toNat) s

/-- DATA_PHASE_START: at the first frame boundary after every entry, every START_HT and the collective before. The engine
chooses the data that fill each direction's stream, `sends` (R266; log entry 57). Pages of a buffer whose length only the
entries give are paged in first (log entry 81). -/
def State.dataStart (s : State) (g : GroupId) (sends : List (BitVec 3 × List Byte)) : State :=
  let q := s.group g
  let c := ctxOf q.ctx.toNat
  match s.mayStart q, s.ctx? c with
  | some k, some x =>
    let pages := s.colPages x q k
    let put := fun (s : State) (f : Collective → Collective) => s.modGroup g fun q => { q with
      cols := q.cols.map fun j => if j.num == k.num then f j else j }
    if (x.notResident pages).isEmpty then
      let f := frameFrom ((k.entries.map fun e => entryStart e.2).foldl max s.ht)
      (put (s.passToHt f) fun j => { j with
        start := some f, hold := pages, sent := (sends.map (·.2.length)).foldl (· + ·) 0 }).pushData g k.num.toNat sends
    else ((s.startPageIns c (x.notResident pages)).map fun s => put s fun j => { j with hold := pages }).getD s
  | _, _ => s

def execDataPhaseStart (group : GroupId) (sends : List (BitVec 3 × List Byte)) (s : State) :
    Host.Outcome State Fault Refusal :=
  .next (s.dataStart group sends)

/-! ## Reduction arithmetic (R281 to R284) -/

/-- One combine of partial sums `a` on the left and `b` on the right. -/
def combine (red wfmt : Nat) (a b : FNum) : FNum :=
  if red = 0 then
    let w := scalarFmt wfmt
    w.decode (w.encode false none (rn32 (sumX [a, b])))
  else if red = 1 then fmax a b else fmin a b

/-- An absent child leaves the other unchanged (R283). -/
def joinOpt (f : FNum → FNum → FNum) : Option FNum → Option FNum → Option FNum
  | some a, some b => some (f a b)
  | some a, none => some a
  | none, b => b

/-- One level of a binary tree. -/
def pairLevel (f : FNum → FNum → FNum) : List (Option FNum) → List (Option FNum)
  | a :: b :: r => joinOpt f a b :: pairLevel f r
  | l => l

/-- The FIXED tree over the leaves 0 to 2^k − 1 (R283). -/
def fixedTree (f : FNum → FNum → FNum) : Nat → List (Option FNum) → Option FNum
  | 0, l => l.head?.join
  | k + 1, l => fixedTree f k (pairLevel f l)

/-- Node [a, a + 2^k) of the canonical tree over block values (R284). -/
def canonNode (f : FNum → FNum → FNum) (blocks : List ((Nat × Nat) × FNum)) : Nat → Nat → Option FNum
  | 0, a => (blocks.find? fun b => b.1 == (a, 0)).map (·.2)
  | k + 1, a =>
    match blocks.find? fun b => b.1 == (a, k + 1) with
    | some b => some b.2
    | none => joinOpt f (canonNode f blocks k a) (canonNode f blocks k (a + 2 ^ k))

/-- The tree the engine chose under FREE (R282). -/
def freeTree (f : FNum → FNum → FNum) (leaf : Nat → FNum) : RedTree → FNum
  | .leaf r => leaf r
  | .node a b => f (freeTree f leaf a) (freeTree f leaf b)

/-- The leaves of a tree, left to right. -/
def redLeaves : RedTree → List Nat
  | .leaf r => [r]
  | .node a b => redLeaves a ++ redLeaves b

/-- A tree over all the contributions of P ranks, each once. -/
def redTreeOk (p : Nat) (t : RedTree) : Bool :=
  let l := redLeaves t
  l.length == p && (List.range p).all l.contains

/-- The reduced value of element `i` from the contributions by rank; under FREE over the tree chosen for that element (R282). -/
def Group.reduceElem (g : Group) (k : Collective) (trees : List RedTree) (contrib : Nat → List Byte) (i : Nat) : FNum :=
  let f := combine k.red k.wfmt
  let w := colWidth k.fmt
  let p := g.count
  let tree := trees.getD i (.leaf p)
  let dec := fun (bs : List Byte) (j : Nat) => (scalarFmt k.fmt).decode (fieldAt bs (w * j) w)
  if g.canon k then
    let blocks := k.entries.flatMap fun e =>
      (blocksOf (entryCount e.2 % 65536) (entryCount e.2 / 65536)).zipIdx.map fun b =>
        (b.1, dec (contrib e.1) (b.2 * k.n + i))
    (canonNode f blocks g.log2v 0).getD FNum.zero
  else if g.det == 0 && redTreeOk p tree then freeTree f (fun r => dec (contrib r) i) tree
  else
    let d := clog2 p
    let leaves := (List.range (2 ^ d)).map fun r => if r < p then some (dec (contrib r) i) else none
    (fixedTree f d leaves).getD FNum.zero

/-- Elements `lo` to `hi - 1` reduced, as FMT codes (R281). -/
def Group.reduceBytes (g : Group) (k : Collective) (trees : List RedTree) (contrib : Nat → List Byte) (lo hi : Nat) : List Byte :=
  ((List.range (hi - lo)).map (· + lo)).flatMap fun i =>
    leBytes (colWidth k.fmt) ((scalarFmt k.fmt).encode false none (g.reduceElem k trees contrib i))

/-! ## Results (R273) -/

/-- This member's own contribution: its source bytes, or its block buffers one after another. -/
def State.ownData (s : State) (x : Context) (g : Group) (k : Collective) : List Byte :=
  let (n, _) := g.bufSizes k (s.cntOf x g k)
  if g.canon k then (s.blkOf x g k).flatMap fun a => s.committedBytes x a n else s.committedBytes x k.src n

/-- What a copying collective takes from its own source: the bytes meant for rank `r`. -/
def State.ownPart (s : State) (x : Context) (g : Group) (k : Collective) : List Byte :=
  let own := s.ownData x g k
  let cnt := s.cntOf x g k
  if k.op = 6 then slice own (g.rank * k.n) k.n
  else if k.op = 7 then slice own ((cnt.take g.rank).foldl (· + ·) 0) (cnt.getD g.rank 0)
  else own

/-- What the operation writes at DST_VA. -/
def State.colResult (s : State) (x : Context) (g : Group) (k : Collective) (trees : List RedTree)
    (contribs : List (Nat × List Byte)) : List Byte :=
  let from' := fun (r : Nat) => ((contribs.find? fun c => c.1 == r).map (·.2)).getD []
  let p := g.count
  if k.reduces then
    let contrib := fun (r : Nat) => if r = g.rank then s.ownData x g k else from' r
    let (lo, hi) := if k.op = 1 then (0, k.n) else segment g.rank k.n p
    g.reduceBytes k trees contrib lo hi
  else if k.op = 5 then (if g.rank = k.root then s.ownData x g k else slice (from' k.root) 0 k.n)
  else (List.range p).flatMap fun r =>
    if r = g.rank then s.ownPart x g k else slice (from' r) 0 (g.partLen k r)

/-- Bytes of ranges on unmapped pages of the committed version (04_seam_hoist.md R118). -/
def unmappedIn (x : Context) (write : Bool) (rs : List (Nat × Nat)) : Nat :=
  rs.foldl (fun n r => (pagesOf r.1 r.2).foldl (fun n v =>
    let lo := max r.1 (v * pageSize)
    let hi := min (r.1 + r.2) ((v + 1) * pageSize)
    let p := x.pt.getD v 0
    if pteState p == psUnmapped || 5 < pteState p || (write && pteRo p) then n + (hi - lo) else n) n) 0

/-- A collective has its status. -/
def State.colEnd (s : State) (g : GroupId) (num : Word) (st : Byte) : State :=
  s.modGroup g fun q => { q with cols := q.cols.map fun j =>
    if j.num == num && j.ending.isNone then { j with ending := some st, hold := [] } else j }

/-- The collective in its data phase, of the OP given; one that a block reset left without response never ends by itself
(13_reset_health.md R360). -/
def Group.running (g : Group) (op : Nat) : Option Collective :=
  match g.cols with
  | k :: _ => if g.state == 1 && k.op == op && k.start.isSome && k.ending.isNone && !k.lost then some k else none
  | [] => none

/-- The data phase of a collective ends: the buffers are read, the result written in place (R280). An uncorrectable
error ends it with FENCED and raises the beacon; a copy that cannot be had ends it with NO_ROOM (11_snapshots.md R299).
`contribs` are the other ranks' contributions as the flits received convey them, `trees` the trees the engine chose under FREE
by element (log entry 57). -/
def State.colRun (s : State) (g : GroupId) (op : Nat) (trees : List RedTree) (contribs : List (Nat × List Byte))
    (errs : SeamErrs) : State :=
  let q := s.group g
  let c := ctxOf q.ctx.toNat
  match q.running op, s.ctx? c with
  | some k, some x =>
    let (rd, wr) := s.colBuffers x q k
    let out := s.colResult x q k trees contribs
    let wr := wr.map fun r => (r.1, out.length)
    let pages := rangePages (rd ++ wr)
    let frames := x.framesOf pages
    let bad := errs.ue.filter fun f => frames.contains f || (k.reduces && q.scratch.contains f)
    let s := s.seamCe errs.ce
    if !bad.isEmpty || pages.any (fun v => pteState (x.pt.getD v 0) == psPoisoned) then
      ((bad.foldl (fun s f => s.seamUe f) s).colEnd g k.num stFenced).raiseBeacon bcSeamUe
    else
      let s := s.violations c (unmappedIn x false rd) false
      let s := s.violations c (unmappedIn x true wr) true
      let s := if s.sch.tallyC2Eff then
          s.modCtx c fun x => { x with tally.fabricBytes := x.tally.fabricBytes + BitVec.ofNat 64 k.sent }
        else s
      match s.writeCommittedAt c false k.dst out with
      | some s => (s.tallySeam c (((rd ++ wr).map (·.2)).foldl (· + ·) 0)).colEnd g k.num stOk
      | none => s.colEnd g k.num stNoRoom
  | _, _ => s

def execAllreduce (group : GroupId) (trees : List RedTree) (contribs : List (Nat × List Byte)) (hits : List SeamHit)
    (s : State) : Host.Outcome State Fault Refusal := .next (s.colRun group 1 trees contribs (s.seamErrs hits))
def execReduceScatter (group : GroupId) (trees : List RedTree) (contribs : List (Nat × List Byte)) (hits : List SeamHit)
    (s : State) : Host.Outcome State Fault Refusal := .next (s.colRun group 2 trees contribs (s.seamErrs hits))
def execAllgather (group : GroupId) (contribs : List (Nat × List Byte)) (hits : List SeamHit) (s : State) :
    Host.Outcome State Fault Refusal := .next (s.colRun group 3 [] contribs (s.seamErrs hits))
def execAllgatherv (group : GroupId) (contribs : List (Nat × List Byte)) (hits : List SeamHit) (s : State) :
    Host.Outcome State Fault Refusal := .next (s.colRun group 4 [] contribs (s.seamErrs hits))
def execBroadcast (group : GroupId) (contribs : List (Nat × List Byte)) (hits : List SeamHit) (s : State) :
    Host.Outcome State Fault Refusal := .next (s.colRun group 5 [] contribs (s.seamErrs hits))
def execAlltoall (group : GroupId) (contribs : List (Nat × List Byte)) (hits : List SeamHit) (s : State) :
    Host.Outcome State Fault Refusal := .next (s.colRun group 6 [] contribs (s.seamErrs hits))
def execAlltoallv (group : GroupId) (contribs : List (Nat × List Byte)) (hits : List SeamHit) (s : State) :
    Host.Outcome State Fault Refusal := .next (s.colRun group 7 [] contribs (s.seamErrs hits))

/-! ## The collective Canary (R287) -/

/-- The oldest collective of the group that is accepted and not completed ends with TIMEOUT. -/
def State.colCanary (s : State) (g : GroupId) : State :=
  let q := s.group g
  match q.cols.find? fun k => k.accepted && k.ending.isNone with
  | none => s
  | some k =>
    let s := (s.colEnd g k.num stTimeout).raise 0x20 4 (leBytes 4 g.val)
    if s.col.abortOnTimeout then s.raiseBeacon bcTimeout else s

def execCollectiveCanaryExpiry (group : GroupId) (s : State) : Host.Outcome State Fault Refusal :=
  .next (s.colCanary group)

/-! ## Streams (R277 to R279) -/

/-- STREAM_ACK of a sender's stream: flits of the SEQ's collective and kind up to it are released, and reported ones are to be
sent again, ahead of new data (log entry 80). -/
def StreamTx.acked (y : StreamTx) (seq : Word) (missing : BitVec 64) : StreamTx :=
  let gone := fun (q : Word) => q.toNat / 2 ^ 23 == seq.toNat / 2 ^ 23 && q.toNat ≤ seq.toNat
  let kept := y.kept.filter fun f => !gone f.seq
  let lost := (kept.map (·.seq)).filter fun q => let i := (q - seq - 1).toNat; i < 64 && missing.getLsbD i
  { y with
    kept := kept
    be := y.be.filter fun b => !gone b.2
    again := (y.again.filter fun q => !gone q) ++ lost.filter fun q => !y.again.contains q }

def State.streamAck (s : State) (g : GroupId) (d : Nat) (seq : Word) (missing : BitVec 64) : State :=
  if (s.group g).state == 0 then s
  else s.modGroup g fun q => { q with tx := vmod q.tx (dirFin d) (·.acked seq missing) }

def execStreamAck (group : GroupId) (dir : BitVec 3) (seq : Word) (missing : BitVec 64) (s : State) :
    Host.Outcome State Fault Refusal :=
  .next (s.streamAck group dir.toNat seq missing)

/-- A flit of a group with a stale generation is refused: the collective in progress ends STALE_EPOCH and the beacon is
raised (R279). -/
def State.staleFlit (s : State) (g : GroupId) : State :=
  let s := { s with col.staleCnt := satInc s.col.staleCnt }
  let s := match (s.group g).cols.find? fun k => k.accepted && k.ending.isNone with
    | some k => s.colEnd g k.num stStale
    | none => s
  s.raiseBeacon bcStale

/-- The flits that have come without a gap, once those after it close up. -/
def absorb (later : List (Nat × Nat)) (key : Nat) : Nat → Nat → Nat
  | 0, n => n
  | fuel + 1, n => if later.contains (key, n) then absorb later key fuel (n + 1) else n

/-- A stream has received flit `i` (mod 2^23) of a collective and kind; a payload is held until the collective ends (R276). One
that came before changes nothing. -/
def StreamRx.take (r : StreamRx) (key i : Nat) (held : Option (List Byte)) : StreamRx :=
  let n := r.got.getD key 0
  let d := (i + 2 ^ 23 - n % 2 ^ 23) % 2 ^ 23
  if 2 ^ 22 ≤ d || r.later.contains (key, n + d) then r
  else
    let r := { r with data := r.data ++ (held.map fun p => (key, n + d, p)).toList }
    if d = 0 then
      let m := absorb r.later key (r.later.length + 1) (n + 1)
      { r with got := r.got.put key m, later := r.later.filter fun e => e.1 != key || m ≤ e.2 }
    else { r with later := r.later ++ [(key, n + d)] }

/-- A flit of a stream is received by its group (R278); the data of a collective that has its record are not kept. -/
def State.streamTake (s : State) (g : GroupId) (d : Nat) (seq : Word) (payload : List Byte) : State :=
  let q := s.group g
  match q.numOf (seq.toNat / 2 ^ 24) with
  | none => s
  | some n =>
    let hdr := bit seq.toNat 23
    let held := if hdr || n < q.ctail.toNat then none else some payload
    s.modGroup g fun q => { q with rx := vmod q.rx (dirFin d) (·.take (streamKey n hdr) (seq.toNat % 2 ^ 23) held) }

/-- A flit of an active group is refused when its SRC_GEN is not the recorded one, else received (R279). -/
def State.streamFlit (s : State) (g : GroupId) (d : Nat) (srcGen : Nat) (take : State → State) : State :=
  let q := s.group g
  if q.state != 1 then s
  else if srcGen != (vget q.gens (dirFin d)).toNat % 65536 then s.staleFlit g
  else take s

/-- SCHED_FLIT_RECEIVE: discarded when marked bad, refused when the destination generation is stale, else received
(09_links.md R249; R278, R279). -/
def State.schedReceive (s : State) (l : LinkId) (f : Flit) (bad : Bool) : State :=
  let g := groupOf (f.group % 64)
  if !usableState (s.link l).state || (s.link l).discards || bad then s
  else if f.dstGen != s.lnk.gen.toNat % 65536 then { s with lnk.stale := satInc s.lnk.stale }.staleFlit g
  else s.streamFlit g (s.dirOf l) f.srcGen fun s => s.streamTake g (s.dirOf l) f.seq f.payload

def execSchedFlitReceive (link : LinkId) (flit : List Byte) (bad : Bool) (s : State) :
    Host.Outcome State Fault Refusal :=
  .next (s.schedReceive link flit bad)

/-! ## Acknowledgements (R278, Table 10.10) -/

/-- The collective and kind an acknowledgement is about: the first with something new to say, else the last of which a flit has
come (log entry 80). -/
def StreamRx.ackKey (r : StreamRx) : Option Nat :=
  let keys := (r.later.foldl (fun (m : Assoc Unit) e => m.put e.1 ()) (r.got.map fun e => (e.1, ()))).keys
  (keys.find? fun k => r.later.any (·.1 == k) || r.acked.getD k 0 < r.got.getD k 0).orElse fun _ => keys.getLast?

/-- The payload of the acknowledgement: what has come of it without a gap, and what is missing below a later flit. -/
def StreamRx.ackBytes (r : StreamRx) (g key : Nat) : List Byte :=
  let n := r.got.getD key 0
  let miss := (List.range 64).filter fun i =>
    !r.later.contains (key, n + i) && r.later.any fun e => e.1 == key && n + i < e.2
  leBytes 4 (0xC1 + g * 2 ^ 8) ++ leBytes 4 (streamSeq key n - 1).toNat ++
    leBytes 8 ((miss.map fun i => 2 ^ i).foldl (· + ·) 0)

/-- A stream is acknowledged on the lowest-numbered usable link of its direction (log entry 80). -/
def State.sendAck (s : State) (t : Topo) (g : GroupId) (d : Nat) : State :=
  let r := vget (s.group g).rx (dirFin d)
  match r.ackKey, (s.dirLinks t d).head? with
  | some key, some l =>
    (s.queueOwn l fkControl (r.ackBytes g.val key)).modGroup g fun q => { q with
      rx := vmod q.rx (dirFin d) fun r => { r with acked := r.acked.put key (r.got.getD key 0) } }
  | _, _ => s

/-- One acknowledgement per stream per frame. -/
def State.sendAcks (s : State) : State :=
  match s.lnk.topo with
  | none => s
  | some t =>
    (List.finRange 64).foldl (fun s g =>
      if (s.group g).state == 1 then (boxDirs t (s.group g).args).foldl (fun s d => s.sendAck t g d) s else s) s

/-! ## Best-effort flits (09_links.md R249, R252) -/

/-- The direction of the box neighbour a BE flit of stream data came from. -/
def State.sourceDir (s : State) (f : Flit) : Option Nat :=
  s.lnk.topo.bind fun t => (List.range 6).find? fun d =>
    t.moved d 0 == f.sx && t.moved d 1 == f.sy && t.moved d 2 == f.sz

/-- A flit delivered here joins its source's in SEQ order (R252). -/
def arriveInOrder (f : Flit) : List Flit → List Flit
  | [] => [f]
  | g :: r =>
    if fieldAt g 8 4 == fieldAt f 8 4 && 0 < (g.seq - f.seq).toInt then f :: g :: r else g :: arriveInOrder f r

/-- One part of a stream flit; with the other it is received (R277). -/
def State.partTake (s : State) (g : GroupId) (d : Nat) (p : List Byte) : State :=
  let seq : Word := BitVec.ofNat 32 (fieldAt p 4 4)
  let part := fieldAt p 2 1
  let half := slice p 8 304
  match (vget (s.group g).rx (dirFin d)).parts.find? fun h => h.1 == seq && h.2.1 + part == 1 with
  | some h =>
    (s.modGroup g fun q => { q with rx := vmod q.rx (dirFin d) fun r => { r with
      parts := r.parts.filter fun h => h.1 != seq } }).streamTake g d seq (if part = 0 then half ++ h.2.2 else h.2.2 ++ half)
  | none => s.modGroup g fun q => { q with rx := vmod q.rx (dirFin d) fun r => { r with
      parts := (r.parts.filter fun h => h.1 != seq) ++ [(seq, part, half)] } }

/-- A BE flit that has reached its destination: refused with a STALE flit when its DST_GEN is stale, which a group's stream
counts too (R249, R279); stream data of CLASS COLLECTIVE joins its stream, any other flit is delivered. -/
def State.beDeliver (s : State) (f : Flit) : State :=
  let g := groupOf (fieldAt f.payload 0 2 % 64)
  let d := if f.cls == 1 then s.sourceDir f else none
  if f.dstGen != s.lnk.gen.toNat % 65536 then
    let back := mkFlit fkStale 0 s.lnk.sliceId.toNat (f.sx, f.sy, f.sz) (f.dx, f.dy, f.dz) f.srcGen
      (s.lnk.gen.toNat % 65536) 0 f.seq []
    let s := { s with lnk.stale := satInc s.lnk.stale }.queueStale back
    if d.isSome then s.staleFlit g else s
  else match d with
    | some d => s.streamFlit g d f.srcGen fun s => s.partTake g d f.payload
    | none => { s with lnk.arrived := arriveInOrder f s.lnk.arrived }

def State.dropBe (s : State) (n : Nat) : State := { s with lnk.beDrop := satAdd s.lnk.beDrop n }

/-- A flit routed hop by hop is dropped for another slice or its hops, taken here, or sent on (R252). -/
def State.hopReceive (s : State) (l : LinkId) (f : Flit) (here on : State → State) : State :=
  if !usableState (s.link l).state || (s.link l).discards then s
  else if f.slice != s.lnk.sliceId.toNat then s.dropBe 1
  else match s.lnk.topo with
    | none => s
    | some t => if (t.beDir f).isNone then here s else if 64 ≤ f.hops + 1 then s.dropBe 1 else on s

/-- BE_FLIT_RECEIVE. -/
def State.beReceive (s : State) (l : LinkId) (f : Flit) : State :=
  s.hopReceive l f (·.beDeliver f) (·.queueBe (hopped f))

def execBeFlitReceive (link : LinkId) (flit : List Byte) (s : State) : Host.Outcome State Fault Refusal :=
  .next (s.beReceive link flit)

/-- STALE_FLIT_RECEIVE: the transfer that sent the refused flit completes with STALE_EPOCH; stream data sent by BE is a
group's, and its collective in progress ends so (R249). -/
def State.staleReceive (s : State) (seq : Word) : State :=
  match (List.finRange 64).find? fun g => (s.group g).state == 1 &&
      (s.group g).tx.toList.any fun y => y.be.any fun b => b.1 == seq with
  | some g =>
    match (s.group g).cols.find? fun k => k.accepted && k.ending.isNone with
    | some k => s.colEnd g k.num stStale
    | none => s
  | none => s

/-- A STALE flit goes on to the source it names, by the way and under the limits of a BE flit (log entry 79). -/
def State.staleArrive (s : State) (l : LinkId) (f : Flit) : State :=
  s.hopReceive l f (·.staleReceive f.seq) (·.queueStale (hopped f))

def execStaleFlitReceive (link : LinkId) (flit : List Byte) (s : State) : Host.Outcome State Fault Refusal :=
  .next (s.staleArrive link flit)

/-- The flit of a list that has waited longest, the first of equals. -/
def longestWait : List (Nat × Flit) → Option (Nat × Flit)
  | [] => none
  | f :: r => match longestWait r with
    | some g => some (if g.1 < f.1 then g else f)
    | none => some f

/-- BE_HOLD_EXPIRY: the flit that has waited HOLD_US, the one that has waited longest of those that wait for any link or in a
link's queues, is dropped and counted. -/
def State.holdExpiry (s : State) (l : Option LinkId) : State :=
  match l with
  | none =>
    match longestWait (s.lnk.waiting.filter fun f => f.2.kind != fkStale) with
    | some f => { s with lnk.waiting := s.lnk.waiting.erase f }.dropBe 1
    | none => s
  | some l =>
    match longestWait ((s.link l).queues.toList.flatMap id) with
    | some f =>
      match (List.finRange 4).find? fun i => (vget (s.link l).queues i).contains f with
      | some i => (s.modLink l fun k => { k with queues := vmod k.queues i (·.erase f) }).dropBe 1
      | none => s
    | none => s

def execBeHoldExpiry (link : Option LinkId) (s : State) : Host.Outcome State Fault Refusal := .next (s.holdExpiry link)

end Sys2Proof.Machine
end

