-- ==== Sys2Proof/Machine/FieldOps.lean ====
section
/-! DEFINITION. Field operations as they run: fetch and checks, wait points, operands, outputs, Plate, counters, and the
invocations of a serving step (02_field.md R37 to R50; 05_commands.md R140, R142; 06_scheduling_streams.md R175;
07_training.md R191 to R195). -/

namespace Sys2Proof.Machine

/-! ## The next operation of a command -/

/-- The address of the next operation descriptor and the length of its list: the command's own, or the model's that a
STEP's invocation runs. -/
def State.opSource (s : State) (c : CtxId) (k : Cmd) : Option (Nat × Nat) :=
  if k.isField then some (k.oplist + 128 * k.opIdx, k.opcount)
  else match k.step.bind fun r => r.current.bind fun m => s.model? c m with
    | some m => some (m.oplist + 128 * k.opIdx, m.opcount)
    | none => none

/-- The descriptor that ran before in the same list. -/
def Cmd.prev? (k : Cmd) : Option FOp := if k.prevOp.isEmpty then none else some (fop k.prevOp)

/-- CHECK, NOISE and OPTSTEP name a unit. -/
def FOp.namesUnit (o : FOp) : Bool := o.cls == 12 || (o.cls == 13 && (o.smode == 2 || o.smode == 3))

/-- R191 and R195: the unit is not VALID, not this context's or not opened for this step; a second CHECK; an OPTSTEP or
NOISE without a CHECK of its unit. -/
def State.unitBad (s : State) (c : CtxId) (k : Cmd) (o : FOp) : Bool :=
  let u := vget s.opt.units (unitOf o.tu)
  o.namesUnit && (!u.valid || u.ctx.toNat != c.val || u.openStep != k.stepNo ||
    (if o.cls == 13 && o.smode == 2 then k.unit.isSome else k.unit != some o.tu))

/-- The descriptor is malformed at its fetch (R38, R49, R50, R191, R195). -/
def State.opBad (s : State) (c : CtxId) (k : Cmd) (o : FOp) : Bool :=
  fopBad o k.width || pairBad k.prev? o || s.unitBad c k o

/-- The operation is of a class and mode that a row names. -/
def FOp.known (o : FOp) : Bool := 1 ≤ o.cls && o.cls ≤ 13 && (o.cls != 13 || o.smode ≤ 3)

/-! ## Plate (R49) -/

def plateSize : Nat := 33554432

/-- Element (i, j) of an operand A that the operation before left in Plate. -/
def State.plateElem (s : State) (k : Cmd) (o : FOp) (i j : Nat) : FNum :=
  let mr := cdiv o.m o.pm
  let nr := cdiv o.n o.pn
  let im := i / mr
  let jn := j / nr
  let cols := min o.n ((jn + 1) * nr) - jn * nr
  let array := k.arrays.getD ((im * o.pn + jn) * o.pk) 0
  elemAt s.fld.plate.read o.fmtA
    (array * plateSize + o.plateOff + (i - im * mr) * rowBytes o.fmtA cols) (j - jn * nr)

/-- The offset in each array's Plate from which a model image stands (06_scheduling_streams.md R168). -/
def imageOff : Nat := 25165824

/-- The live tiles stand in Plate (R49). One that reaches into the top 8 MiB discards a model image there
(06_scheduling_streams.md R168). -/
def State.setTiles (s : State) (c : CtxId) (k : Cmd) (o : FOp) (rows : List RowOut) : State :=
  let tiles : List (Nat × List Byte) := if o.plateLive then
      (liveTiles o k.stepNo.toNat rows).map fun t : Nat × List Byte => (k.arrays.getD t.1 0, t.2)
    else []
  let overlaps := tiles.any fun t : Nat × List Byte => t.2 != [] && imageOff < o.plateOff + t.2.length
  { s with
    fld.plate := tiles.foldl (fun (m : Cells) (t : Nat × List Byte) => m.writeBytes (t.1 * plateSize + o.plateOff) t.2) s.fld.plate
    fld.tiles := tiles.map fun (t : Nat × List Byte) => (t.1 * plateSize + o.plateOff, t.2.length)
    fld.image := if overlaps then none else s.fld.image }.modCmd c k.seq
      fun k : Cmd => { k with liveTile := tiles.map fun t : Nat × List Byte => (t.1, t.2.length) }

/-- A write of a STEP's invocation into the range its model image was copied from discards the copy
(06_scheduling_streams.md R168). -/
def State.noteImageWrite (s : State) (c : CtxId) (seq : Word) (ws : List (Nat × List Byte)) : State :=
  match s.fld.image with
  | none => s
  | some m =>
    if m.ctx == c && m.seq == seq && ws.any (fun w => w.1 < m.va + m.len && m.va < w.1 + w.2.length) then
      { s with fld.image := none }
    else s

/-- The accumulators hold the partial sums of each array's last tile (R26, R34). An accumulator that the operation gives
no output keeps what it held; ATTEND's are given by no rule and are forgotten; the lane registers of the Rim are new
open values (log entry 12). -/
def State.setAccs (s : State) (k : Cmd) (o : FOp) (accs : List (Nat × Nat × List Word)) : State :=
  let held := if o.cls = clAttend then [] else s.fld.accs
  { s with
    fld.accs := (cellWrites o (Config.freeChoice s.freeCtr 0) accs).foldl
      (fun (m : Assoc Word) e => m.put (k.arrays.getD e.1.1 0 * 262144 + e.1.2) e.2) held
    fld.rim := s.freeCtr }

/-! ## What an operation puts out -/

/-- Element (i, j) of operand A of ELEM and NORM. -/
def State.operandA (s : State) (rd : Nat → Byte) (k : Cmd) (o : FOp) (fromPlate : Bool) (i j : Nat) : FNum :=
  if fromPlate then s.plateElem k o i j else elemAt rd o.fmtA (o.addrA + i * o.strideA) j


/-- The outputs of the operation. -/
def State.opOut (s : State) (rd : Nat → Byte) (k : Cmd) (o : FOp) (fromPlate : Bool) : OpOut :=
  match o.cls with
  | 1 => matmulOut rd o
  | 2 => matmulOut rd o
  | 3 => convOut rd o
  | 4 => dwconvOut rd o
  | 5 => attendOut rd o
  | 6 => elemOut rd o (s.operandA rd k o fromPlate)
  | 7 => reduceOut rd o
  | 8 => normOut rd o (s.operandA rd k o fromPlate)
  | 9 => repackOut rd o
  | 10 => gatherOut rd o
  | 11 => scatterOut rd o
  | 12 =>
    let u := vget s.opt.units (unitOf o.tu)
    optstepOut rd o (k.decision.getD .apply) (lseOf u.openLse) (ofBits k.multiplier.toNat) k.tLatch.toNat
  | _ => if o.smode ≤ 1 then sumsqOut rd o else { rows := [], extra := [], sats := 0, ys := [] }

/-- A contribution combined with what the command already has for the tensor (R83). -/
def combineAmax (l : List AmaxContrib) (tensor : Nat) (v : FNum) : List AmaxContrib :=
  match l.find? fun a => a.tensor == tensor with
  | none => l ++ [{ tensor := tensor, value := toBits v }]
  | some a =>
    let w := toBits (maxMag (ofBits a.value.toNat) v)
    l.map fun b => if b.tensor == tensor then { b with value := w } else b

/-- The command's amax contribution of an operation that carries a tracked TENSOR_ID. -/
def State.noteAmax (s : State) (c : CtxId) (k : Cmd) (o : FOp) (ys : List FNum) : State :=
  if ys.isEmpty || (s.trackedFor c o.tensorId).isEmpty then s
  else s.modCmd c k.seq fun k => { k with amax := combineAmax k.amax o.tensorId (amaxOf ys) }

/-- CHECK's effect on its unit and its command (R194); a non-finite S ends the command at once. -/
def State.runCheck (s : State) (c : CtxId) (k : Cmd) (o : FOp) (rd : Nat → Byte) : State :=
  let ui := unitOf o.tu
  let u := vget s.opt.units ui
  let t := if u.stepDone < k.stepNo then u.applied + 1 else u.applied
  let put := fun (s : State) (d : BitVec 3) (g : Word) =>
    { s with opt.units := vset s.opt.units ui { u with decision := d, norm := g } }
  match checkNorm (elemAt rd 0 o.addrA 0) (lseOf u.openLse) (ofBits u.limit.toNat) u.normMode with
  | .skipNonfinite =>
    ((put s 4 0x7FC00000).modCmd c k.seq fun k => { k with unit := some o.tu, decision := none, tLatch := t }).endWith
      c k.seq stSkipped k.opNumber
  | .decided g d f =>
    (put s (match d with
      | .apply => 1
      | .clip => 2
      | .skip => 3) (toBits g)).modCmd c k.seq fun k : Cmd =>
        { k with unit := some o.tu, decision := some d, normG := toBits g, multiplier := toBits f, tLatch := t }

/-- NOISE's result, held with the command, or one more in OPT_NOISE_BAD (R210). -/
def State.runNoise (s : State) (c : CtxId) (k : Cmd) (o : FOp) (rd : Nat → Byte) : State :=
  let u := vget s.opt.units (unitOf o.tu)
  match noiseEstimate (elemAt rd 0 o.addrA 0) (elemAt rd 0 o.addrA 1) (o.word 0x70) (o.word 0x74) (o.word 0x78)
      (lseOf u.openLse) with
  | none => { s with opt.noiseBad := satInc s.opt.noiseBad }
  | some (g2, t) =>
    let r : NoiseResult :=
      { g2 := toBits g2, t := toBits t, bq := bits (o.word 0x7C) 15 0, qmax := bits (o.word 0x7C) 31 16 }
    s.modCmd c k.seq fun k => { k with noise := some r }

/-! ## The end of an operation -/

/-- A list's last operation has run: a FIELD command reaches its status; a STEP goes on to its next invocation, or
writes its report (R48, 06_scheduling_streams.md R176). -/
def State.listDone (s : State) (c : CtxId) (seq : Word) : State :=
  match s.cmd? c seq with
  | none => s
  | some k =>
    match k.step with
    | none => s.endWith c seq k.goodStatus k.opIdx
    | some r =>
      let k' := { k with step := some { r with current := none, opsTotal := r.opsTotal + k.opIdx }, opIdx := 0, prevOp := [] }
      let s := s.modCmd c seq fun _ => k'
      if r.invs.isEmpty then s.stepFinish c k' else s

/-- The operation has run: it is counted, and the list goes on, ends, or is malformed when OPCOUNT descriptors held no
LAST (05_commands.md Table 5.5). -/
def State.opDone (s : State) (c : CtxId) (k : Cmd) (o : FOp) (count : Nat) : State :=
  let s := ({ s with fld.opsDone := s.fld.opsDone + 1 }.bumpFree).modCmd c k.seq fun k : Cmd =>
    { k with opIdx := k.opIdx + 1, prevOp := o.raw, passedWait := false }
  if (s.cmd? c k.seq).any (·.ending.isSome) then s
  else if o.last then s.listDone c k.seq
  else if k.opIdx + 1 = count then s.endWith c k.seq stBad k.opNumber
  else s

/-- A shadow cannot be had: the command ends with NO_ROOM, unless room waits for an eviction (04_seam_hoist.md R104). -/
def State.shadowRefused (s : State) (c : CtxId) (k : Cmd) : State :=
  if (s.ctx? c).any fun x => s.evictWaits x.fn then s else s.endWith c k.seq stNoRoom k.opNumber

/-- Outputs written, Plate, counters, and the special effects of CHECK and NOISE. -/
def State.opEffect (s : State) (c : CtxId) (k : Cmd) (o : FOp) (count : Nat) (fromPlate : Bool) (errs : SeamErrs)
    (rd : Nat → Byte) (reads : List (Nat × Nat)) (unmapped : Nat) : State :=
  let out := s.opOut rd k o fromPlate
  let ws := out.extra ++ (if o.plateLive then [] else outWrites o k.stepNo.toNat out.rows)
  match s.gate c k.seq (ws.map fun w => (w.1, w.2.length)) { errs with ce := [] } with
  | .wait s => s
  | .stop s st => s.endWith c k.seq st k.opNumber
  | .go s1 =>
    match (s1.violations c unmapped false).cmdWrite c k.seq ws with
    | none => s1.shadowRefused c k
    | some s2 =>
      let s3 := { (((s2.setTiles c k o out.rows).setAccs k o out.accs).noteImageWrite c k.seq ws) with
        fld.intSat := satAdd s2.fld.intSat out.sats }
      let s4 := (s3.noteAmax c k o out.ys).modCmd c k.seq fun k =>
        { k with seamBytes := k.seamBytes + (reads.map (·.2)).foldl (· + ·) 0 }
      let s5 := if o.cls == 13 && o.smode == 2 then s4.runCheck c k o rd
        else if o.cls == 13 && o.smode == 3 then s4.runNoise c k o rd else s4
      s5.opDone c k o count

/-- The operation's operands are there, and it runs. -/
def State.opRun (s : State) (c : CtxId) (k : Cmd) (o : FOp) (count : Nat) (errs : SeamErrs) : State :=
  match s.ctx? c with
  | none => s
  | some x =>
    let rd := s.cmdByte x k
    let fromPlate := k.prev?.any (·.plateLive)
    let reads := opReads o fromPlate rd
    match s.gate c k.seq reads errs with
    | .wait s => s
    | .stop s st => s.endWith c k.seq st k.opNumber
    | .go s1 => s1.opEffect c k o count fromPlate errs rd reads (unmappedBytes x k s.freeCtr reads)

/-- A command parks at a wait point: the Field is free, its shadows and versions stay (05_commands.md R142). -/
def State.park (s : State) (c : CtxId) (k : Cmd) (tag : Nat) : State :=
  ((s.leaveField c k.seq (.ctx c)).modCmd c k.seq fun k =>
    { k with phase := .parked, parkedAt := s.now, tag := tag }).settle

/-- The wait point before an operation (R50, 05_commands.md R142). -/
def State.waitPoint (s : State) (c : CtxId) (x : Context) (k : Cmd) (o : FOp) (count : Nat) (errs : SeamErrs) : State :=
  if !o.wait || k.passedWait then s.opRun c k o count errs
  else match x.tagDone o.waitTag with
    | some st =>
      if st == stOk then
        let s := s.modCmd c k.seq fun k => { k with passedWait := true }
        s.opRun c { k with passedWait := true } o count errs
      else s.endWith c k.seq st k.opNumber
    | none => s.park c k o.waitTag

/-- The holder may start its next operation. -/
def Cmd.canRun (k : Cmd) : Bool := k.phase == .running && k.ending.isNone && k.killing.isNone && k.stalled.isEmpty

/-- The next operation of the command that holds the Field, if it is one that `want` accepts: fetched, checked, run. -/
def State.runOp (s : State) (want : FOp → Bool) (errs : SeamErrs) : State :=
  match s.holder? with
  | none => s
  | some (c, x, k) =>
    if !k.canRun || s.fld.frozen then s
    else match s.opSource c k with
    | none => s
    | some (va, count) =>
      match s.gate c k.seq [(va, 128)] { errs with ce := [] } with
      | .wait s => s
      | .stop s st => s.endWith c k.seq st k.opNumber
      | .go s1 =>
        let o := fop (s.cmdBytes x k va 128)
        if o.known && !want o then s
        else if s.opBad c k o then s1.endWith c k.seq stBad k.opNumber
        else s1.waitPoint c x k o count errs

/-! ## The rows -/

/-- An operation of class `n`. -/
def ofClass (n : Nat) (o : FOp) : Bool := o.cls == n
/-- A STATS operation of mode `m`. -/
def ofStats (m : Nat) (o : FOp) : Bool := o.cls == 13 && o.smode == m

def execMatmul (hits : List SeamHit) (s : State) : Host.Outcome State Fault Refusal := .next (s.runOp (ofClass 1) (s.seamErrs hits))
def execBmatmul (hits : List SeamHit) (s : State) : Host.Outcome State Fault Refusal := .next (s.runOp (ofClass 2) (s.seamErrs hits))
def execConv (hits : List SeamHit) (s : State) : Host.Outcome State Fault Refusal := .next (s.runOp (ofClass 3) (s.seamErrs hits))
def execDwconv (hits : List SeamHit) (s : State) : Host.Outcome State Fault Refusal := .next (s.runOp (ofClass 4) (s.seamErrs hits))
def execAttend (hits : List SeamHit) (s : State) : Host.Outcome State Fault Refusal := .next (s.runOp (ofClass 5) (s.seamErrs hits))
def execElem (hits : List SeamHit) (s : State) : Host.Outcome State Fault Refusal := .next (s.runOp (ofClass 6) (s.seamErrs hits))
def execReduce (hits : List SeamHit) (s : State) : Host.Outcome State Fault Refusal := .next (s.runOp (ofClass 7) (s.seamErrs hits))
def execNorm (hits : List SeamHit) (s : State) : Host.Outcome State Fault Refusal := .next (s.runOp (ofClass 8) (s.seamErrs hits))
def execRepack (hits : List SeamHit) (s : State) : Host.Outcome State Fault Refusal := .next (s.runOp (ofClass 9) (s.seamErrs hits))
def execGather (hits : List SeamHit) (s : State) : Host.Outcome State Fault Refusal := .next (s.runOp (ofClass 10) (s.seamErrs hits))
def execScatter (hits : List SeamHit) (s : State) : Host.Outcome State Fault Refusal := .next (s.runOp (ofClass 11) (s.seamErrs hits))
def execOptstep (hits : List SeamHit) (s : State) : Host.Outcome State Fault Refusal := .next (s.runOp (ofClass 12) (s.seamErrs hits))
def execSumsq (hits : List SeamHit) (s : State) : Host.Outcome State Fault Refusal := .next (s.runOp (ofStats 0) (s.seamErrs hits))
def execSumsq2 (hits : List SeamHit) (s : State) : Host.Outcome State Fault Refusal := .next (s.runOp (ofStats 1) (s.seamErrs hits))
def execCheck (hits : List SeamHit) (s : State) : Host.Outcome State Fault Refusal := .next (s.runOp (ofStats 2) (s.seamErrs hits))
def execNoise (hits : List SeamHit) (s : State) : Host.Outcome State Fault Refusal := .next (s.runOp (ofStats 3) (s.seamErrs hits))

/-! ## STEP_INVOCATION (06_scheduling_streams.md R168, R175) -/

/-- The index vector: the ROWs of the invocation's streams, then 0xFFFF_FFFF. -/
def indexVector (batch : Nat) (sv : List Served) : List Byte :=
  (List.range batch).flatMap fun i => leBytes 4 (((sv[i]?).map fun v => v.row.toNat).getD 0xFFFFFFFF)

/-- The pages of a model's image range that the copy reads: a POISONED page is not copied, since the copy never changes a
result (R168). -/
def imageReads (x : Context) (k : Cmd) (ctr : Nat) (mo : Model) : List (Nat × Nat) :=
  ((pagesOf mo.img (4096 * mo.imgPages)).filter fun v => k.shadows.has v || pteState (x.view k ctr v) != psPoisoned).map
    fun v => (v * pageSize, pageSize)

/-- The bytes of a model's image range as the STEP sees them, moved so that the range begins at `d`. -/
def State.imageCells (s : State) (x : Context) (k : Cmd) (mo : Model) (d : Nat) : Cells :=
  (pagesOf mo.img (4096 * mo.imgPages)).foldl (fun (m : Cells) v =>
    let lo := max mo.img (v * pageSize)
    let hi := min (mo.img + 4096 * mo.imgPages) ((v + 1) * pageSize)
    match x.frameFor k s.freeCtr v with
    | some f => Cells.overlay (s.mem.extract (f * pageSize + (lo - v * pageSize)) (hi - lo) (d + (lo - mo.img))) m
    | none => m) []

/-- The Plate image of an invocation (R168): copied into the top 8 MiB of every logical array's Plate, unless it is there
since an invocation of the same step with no other model between. -/
def State.loadImage (s : State) (c : CtxId) (k : Cmd) (mo : Model) : State :=
  match s.ctx? c with
  | none => s
  | some x =>
    if s.fld.image.any (fun m => m.ctx == c && m.seq == k.seq && m.model == mo.number) then s
    else if mo.imgPages = 0 then { s with fld.image := none }
    else
      let len := 4096 * mo.imgPages
      { s with
        fld.plate := k.arrays.foldl (fun (m : Cells) a =>
          let d := a * plateSize + imageOff
          Cells.overlay (s.imageCells x k mo d) (m.clear d len)) s.fld.plate
        fld.image := some { ctx := c, seq := k.seq, model := mo.number, va := mo.img, arrays := k.arrays, len := len } }

/-- The next invocation of a running STEP begins: its index vector is written, its image loaded, its list starts. A
STEP with no invocation left writes its report. -/
def State.invoke (s : State) (c : CtxId) (k : Cmd) (r : StepRun) : State :=
  match r.invs with
  | [] => s.stepFinish c k
  | (m, sv) :: rest =>
    match s.model? c m with
    | none => s
    | some mo =>
      let bs := indexVector mo.batch sv
      let image := ((s.ctx? c).map fun x => imageReads x k s.freeCtr mo).getD []
      match s.gate c k.seq ((mo.index, bs.length) :: image) { ue := [], ce := [] } with
      | .wait s => s
      | .stop s st => s.endWith c k.seq st k.opNumber
      | .go s1 =>
        match s1.cmdWrite c k.seq [(mo.index, bs)] with
        | none => s1.shadowRefused c k
        | some s2 => (s2.loadImage c ((s2.cmd? c k.seq).getD k) mo).modCmd c k.seq fun k => { k with
            opIdx := 0, prevOp := [], passedWait := false
            step := some { r with invs := rest, current := some m } }

def State.stepInvocation (s : State) (c : CtxId) : State :=
  match (s.ctx? c).bind fun x => x.cmds.find? fun k => k.isStep && k.canRun with
  | none => s
  | some k =>
    match k.step with
    | some r => if r.current.isNone && (r.invs.isEmpty || s.holds c k.seq) then s.invoke c k r else s
    | none => s

def execStepInvocation (ctx : CtxId) (s : State) : Host.Outcome State Fault Refusal := .next (s.stepInvocation ctx)

end Sys2Proof.Machine
end

