-- ==== Sys2Proof/Machine/FieldCtl.lean ====
section
/-! DEFINITION. Fences, self-tests, maintenance, freezing and capture of the Field (02_field.md R52 to R61). -/

namespace Sys2Proof.Machine

/-! ## Fences (R53, R54, R57) -/

/-- A FENCE event (13_reset_health.md Table 13.14): domain 0 quad, 1 link, 2 host interface. -/
def State.fenceEvent (s : State) (domain index : Nat) (on : Bool) : State :=
  s.raise 0x23 index (leBytes 4 (domain + 4 * b2n on))

/-- A FENCE bit written 1: a request unless the quad is fenced (Table 2.12). -/
def State.fenceRequest (s : State) (q : QuadId) : State :=
  if s.fld.fenced.getLsbD q.val then s else { s with fld.pend := setBit s.fld.pend q.val true }

/-- A FENCE bit written 0: a request unless the quad is not fenced. -/
def State.unfenceRequest (s : State) (q : QuadId) : State :=
  if s.fld.fenced.getLsbD q.val then { s with fld.pend := setBit s.fld.pend q.val true } else s

def execQuadFenceRequest (quad : QuadId) (s : State) : Host.Outcome State Fault Refusal := .next (s.fenceRequest quad)
def execQuadUnfenceRequest (quad : QuadId) (s : State) : Host.Outcome State Fault Refusal := .next (s.unfenceRequest quad)

/-- Allocated pages remain in a quad's Seam dies (R53). -/
def State.quadHasPages (s : State) (q : Nat) : Bool :=
  s.frames.any fun e => e.1 / dieStride / 4 == q && e.2.use != FrameUse.withheld

/-- The command that holds the Field uses an array of the quad. -/
def State.holderIn (s : State) (q : Nat) : Option (CtxId × Cmd) :=
  s.holder?.bind fun h => if h.2.2.arrays.any (fun a => a / 4 == q) then some (h.1, h.2.2) else none

/-- Parked commands wider than the width that is left are killed as the fence takes effect (R54). -/
def State.killWideParked (s : State) : State :=
  let wide := s.contexts.flatMap fun e => (e.2.cmds.filter fun k : Cmd =>
    k.phase == .parked && k.ending.isNone && !s.widthFits (widthOf k.width)).map fun k => (e.1, k.seq)
  wide.foldl (fun s e => (s.requestKill e.1 e.2 .fence).killComplete e.1 e.2) s

/-- QUAD_FENCE_EFFECT: a fence waits until the quad holds no page; a running command that uses its arrays is killed
first; then the fence is in effect (R53, R54). -/
def State.fenceEffect (s : State) (q : QuadId) : State :=
  if !s.fld.pend.getLsbD q.val || s.fld.fenced.getLsbD q.val || s.quadHasPages q.val then s
  else match s.holderIn q.val with
  | some (c, k) => s.requestKill c k.seq .fence
  | none =>
    { s with
      fld.fenced := setBit s.fld.fenced q.val true
      fld.pend := setBit s.fld.pend q.val false }.killWideParked.fenceEvent 0 q.val true

def execQuadFenceEffect (quad : QuadId) (s : State) : Host.Outcome State Fault Refusal := .next (s.fenceEffect quad)

/-- A quad's four Seam dies zero-filled. -/
def State.zeroQuad (s : State) (q : Nat) : State :=
  { s with mem := s.mem.clear (4 * q * dieStride * pageSize) (4 * dieStride * pageSize) }

/-- QUAD_UNFENCE_EFFECT: after any self-test, the quad returns zeroed, page caches flushed, RST_EPOCH one higher (R57). -/
def State.unfenceEffect (s : State) (q : QuadId) : State :=
  if s.fld.pend.getLsbD q.val && s.fld.fenced.getLsbD q.val && !s.fld.testing.getLsbD q.val then
    let s := (s.zeroQuad q.val).mapCtxs fun x => { x with stale := [] }
    { s with
      fld.fenced := setBit s.fld.fenced q.val false
      fld.pend := setBit s.fld.pend q.val false
      rst.epoch := s.rst.epoch + 1 }.fenceEvent 0 q.val false
  else s

def execQuadUnfenceEffect (quad : QuadId) (s : State) : Host.Outcome State Fault Refusal := .next (s.unfenceEffect quad)

/-! ## Self-test (R55, R58) -/

/-- FLD_QRESULT codes (Table 2.14). -/
def quadCode : QuadTest → BitVec 4
  | .pass => 2
  | .failArray => 3
  | .failSeam => 4

/-- What the Field's tiles, model image and accumulators hold in a quad's arrays is gone. -/
def Fld.forgetQuad (f : Fld) (q : Nat) : Fld :=
  let mine := fun a : Nat => a / 4 == q
  { f with
    tiles := f.tiles.filter fun t => !mine (t.1 / plateSize)
    image := f.image.map fun m => { m with arrays := m.arrays.filter fun a => !mine a }
    accs := f.accs.filter fun e => !mine (e.1 / 262144) }

/-- A self-test overwrites the quad's Seam, with what the spec leaves open (log entry 12), and exercises its cells, Plate and
Rim, whose contents are gone (R55). -/
def State.scramble (s : State) (q : Nat) : State :=
  let n := 4 * dieStride * pageSize
  { s with
    mem := s.mem.writeBytes (q * n) ((List.range n).map (Config.testByte s.freeCtr))
    fld := s.fld.forgetQuad q
    freeCtr := s.freeCtr + 1 }

/-- FLD_QTEST.START with QUAD. -/
def State.testStart (s : State) (quad : BitVec 3) : State :=
  if h : quad.toNat < 6 then
    let q : QuadId := ⟨quad.toNat, h⟩
    let put := fun (s : State) (r : BitVec 4) => { s with fld.testQuad := quad, fld.results := vset s.fld.results q r }
    if s.fld.testing.getLsbD q.val then put s 6
    else if !s.fld.fenced.getLsbD q.val then put s 5
    else { (put s 1).scramble q.val with fld.testing := setBit s.fld.testing q.val true }
  else s

def execQuadTestStart (quad : BitVec 3) (s : State) : Host.Outcome State Fault Refusal := .next (s.testStart quad)

/-- A self-test records its result and raises a QUAD_TEST event. -/
def State.testDone (s : State) (q : QuadId) (r : QuadTest) : State :=
  if s.fld.testing.getLsbD q.val then
    { s with
      fld.testing := setBit s.fld.testing q.val false
      fld.results := vset s.fld.results q (quadCode r) }.raise 0x03 q.val (leBytes 4 (quadCode r).toNat)
  else s

def execQuadTestDone (quad : QuadId) (result : QuadTest) (s : State) : Host.Outcome State Fault Refusal :=
  .next (s.testDone quad result)

/-! ## MAINT and FREEZE (R59) -/

/-- A write of FLD_CTRL.MAINT: 1 is accepted only while every context is stopped with nothing fetched. -/
def State.writeMaint (s : State) (on : Bool) : State :=
  if on then
    if s.contexts.all (fun e => e.2.stop && e.2.cmds.isEmpty) then { s with fld.maint := true } else s
  else { s with fld.maint := false }.settle

def execMaint (on : Bool) (s : State) : Host.Outcome State Fault Refusal := .next (s.writeMaint on)

/-- The Field stops where it stands: the index of the running operation is kept for a capture. -/
def State.freezeField (s : State) : State :=
  if s.fld.frozen then s
  else { s with
    fld.frozen := true
    fld.frozenOp := s.holder?.map fun h => BitVec.ofNat 32 h.2.2.opNumber }

/-- FLD_CTRL.FREEZE: the command that holds the Field is killed, without re-run. -/
def State.freeze (s : State) : State :=
  let t := s.freezeField
  match s.holder? with
  | some (c, _, k) => t.requestKill c k.seq .freeze
  | none => t

def execFreeze (s : State) : Host.Outcome State Fault Refusal := .next s.freeze

/-! ## Capture (R59 to R61) -/

/-- AVAIL_WIDTH of FLD_STATUS; none while the module is retired (13_reset_health.md R365). -/
def State.availCode (s : State) : Nat := if s.rst.retired then 3 else min 3 s.fencedQuads

/-- FLD_STATUS (Table 2.11). -/
def State.fldStatus (s : State) : Word :=
  bitAt s.posted.fld.isSome 0 ||| bitAt s.sch.holder.isSome 1 ||| BitVec.ofNat 32 (s.availCode * 4) ||| bitAt s.fld.maint 4 |||
    bitAt s.fld.frozen 5 ||| atBit s.fld.testing 8

def captureLen : Nat := 832049152

/-- A capture that FLD_CAPT names is refused without a look at a flag word: while a quad is in self-test (R56), and unless in
MAINT or FROZEN with a defined slot of 1 GiB in host memory (R59; log entry 29). -/
def State.captureRefused (s : State) : Bool :=
  match (s.ctx? (ctxOf s.fld.capCtx.toNat)).bind fun x => x.slot? s.fld.capSlot.toNat with
  | none => true
  | some w => s.fld.testing != 0 || !(s.fld.maint || s.fld.frozen) || w.log2 < 30 || w.p2p

/-- FLD_CAPT.START: a capture with CTX and SLOT is asked for, or refused at once. A START while a capture runs is ignored, its
SLOT and CTX with it (log entry 29). -/
def State.captureAsk (s : State) (ctx : Byte) (slot : BitVec 16) : State :=
  if s.fld.capState = 1 then s
  else
    let s := { s with fld.capCtx := ctx, fld.capSlot := slot }
    if s.captureRefused then { s with fld.capState := 3, fld.capAsk := false } else { s with fld.capAsk := true }

/-- The flag word of the slot that FLD_CAPT names has been read: the capture begins, or is refused because the host owns the
slot. It is read with PF0's requester ID, and waits while PF0 may not issue requests (12_host_attachment.md R334, R316). -/
def State.captureBegin (s : State) (flag : List Byte) : State :=
  if !s.fld.capAsk || !s.mayRequest 0 then s
  else
    let c := ctxOf s.fld.capCtx.toNat
    let n := s.fld.capSlot.toNat
    let refuse := { s with fld.capState := 3, fld.capAsk := false }
    if s.captureRefused then refuse
    else match s.acquire c n flag with
      | none => refuse
      | some t => { (t.modSlot c n fun w => { w with busy := true }) with
          fld.capAsk := false, fld.capState := 1, fld.capRun := some (s.fld.capCtx, s.fld.capSlot) }

/-- FIELD_CAPTURE: a START of FLD_CAPT with CTX and SLOT, and the slot's flag word as it is then read; after a posted START,
which has given CTX and SLOT, the flag word alone (log entry 43). -/
def State.captureStart (s : State) (ctx : Byte) (slot : BitVec 16) (flag : List Byte) : State :=
  (if s.fld.capAsk then s else s.captureAsk ctx slot).captureBegin flag

def execFieldCapture (ctx : Byte) (slot : BitVec 16) (flag : List Byte) (s : State) :
    Host.Outcome State Fault Refusal :=
  .next (s.captureStart ctx slot flag)

/-- The ranges of Plate whose bytes the model holds: live tiles, and a model image. -/
def Fld.known (f : Fld) : List (Nat × Nat) :=
  f.tiles ++ match f.image with
    | some m => m.arrays.map fun a => (a * plateSize + imageOff, m.len)
    | none => []

/-- `n` bytes of Plate from byte `p` on written to host memory. -/
def State.plateToHost (s : State) (p n a : Nat) : State :=
  { s with
    host := Cells.overlay (s.fld.plate.extract p n a) (s.host.clear a n)
    hostFree := s.hostFree.flatMap (cutRange a n) }

/-- The image at host address `a` (Table 2.10): the accumulators that hold an output, the Rim's lane registers, the live tiles and
the model image of Plate, and the zeros of fenced arrays; what no rule gives a value reads as free values (log entry 12). -/
def State.writeImage (s : State) (a : Nat) : State :=
  let s := (s.hostUndefined a captureLen).zeroHost a 4096
  let s := s.hostWrite a (leBytes 4 s.fldStatus.toNat ++ leBytes 4 s.fld.fenced.toNat ++ leBytes 4 s.fld.opsDone.toNat)
  let s := match s.fld.frozenOp with
    | some i => s.hostWrite (a + 12) (leBytes 4 i.toNat)
    | none => s.hostUndefined (a + 12) 4
  let s := s.fld.accs.foldl (fun (s : State) e => s.hostWrite (a + 0x1000 + 4 * e.1) (leBytes 4 e.2.toNat)) s
  let s := s.hostWrite (a + 0x1801000) ((List.range 0x180000).map (Config.rimByte s.fld.rim))
  let s := s.fld.known.foldl (fun (s : State) r => s.plateToHost r.1 r.2 (a + 0x1981000 + r.1)) s
  ((List.range 24).filter fun i => s.fld.fenced.getLsbD (i / 4)).foldl (fun (s : State) i =>
    ((s.zeroHost (a + 0x1000 + i * 1048576) 1048576).zeroHost (a + 0x1801000 + i * 65536) 65536).zeroHost
      (a + 0x1981000 + i * plateSize) plateSize) s

/-- The slot a capture in progress fills. -/
def State.captureSlot (s : State) : Option (CtxId × Nat × WinSlot) :=
  s.fld.capRun.bind fun r =>
    let c := ctxOf r.1.toNat
    ((s.ctx? c).bind fun x => x.slot? r.2.toNat).map fun w => (c, r.2.toNat, w)

/-- CAPTURE_DONE: the image is complete and the slot handed back. The writes carry PF0's requester ID, and wait while PF0 may
not issue requests (12_host_attachment.md R334, R316). -/
def State.captureDone (s : State) : State :=
  match s.captureSlot with
  | none => s
  | some (c, n, w) =>
    if !s.mayRequest 0 then s
    else { ((s.writeImage w.addr.toNat).handback c n captureLen 0) with fld.capState := 2, fld.capRun := none }

def execCaptureDone (s : State) : Host.Outcome State Fault Refusal := .next s.captureDone

end Sys2Proof.Machine
end

