-- ==== Sys2Proof/WellFormed.lean ====
section
/-! DEFINITION. Well-formed commands: operands that the world outside the module can supply with the row. The meanings take any
operands; these checks say which of them stand for an event. -/

namespace Sys2Proof

/-- What is wrong with a command's operands. -/
inductive Malformed where
  /-- an offset outside the BAR (12_host_attachment.md Table 12.2) -/
  | offset
  /-- an offset that is no dword's -/
  | aligned
  /-- a second dword outside the BAR -/
  | second
  /-- an access of no dword -/
  | dwords
  /-- a virtual page above 2^27 - 1 (04_seam_hoist.md R92) -/
  | page
  /-- a descriptor, flag word, flit or image that does not have its length -/
  | length
  /-- a bad codeword in a Seam page that is not there, or without a bad symbol (04_seam_hoist.md R87, R88) -/
  | seamPage
  /-- a handle number above 65,535 (04_seam_hoist.md R97) -/
  | handle
  /-- a PCIe generation that the ports do not support (12_host_attachment.md Table 12.1) -/
  | rate
  /-- a PCIe width that the ports do not support (12_host_attachment.md Table 12.1) -/
  | width
  /-- PF0 where a VF is meant -/
  | function
  /-- an index or slot outside its field -/
  | index
  /-- more symbols in error than a codeword has (09_links.md R240) -/
  | symbols
  /-- errors of other than a link's 16 lanes (09_links.md R256) -/
  | lanes
  /-- a STATUS code that Table 0.3 reserves (00_scope.md R12) -/
  | status
deriving DecidableEq, Repr

/-- Bytes a function's BAR covers (12_host_attachment.md Table 12.2). -/
def barSize (fn : FnId) (bar : Bar) : Nat :=
  match bar with
  | .bar0 => if fn = 0 then 0x100000 else 0x1000
  | .bar2 => 0x20000
  | .bar4 => 0x2000

/-- The first check that fails. -/
def firstIll : List (Malformed × Bool) → Option Malformed
  | [] => none
  | (m, b) :: r => if b then some m else firstIll r

def illLength (bs : List Byte) (n : Nat) : Option Malformed := firstIll [(.length, bs.length != n)]

/-- A page that none of the 24 dies has, or a codeword without a bad symbol. -/
def hitsIll (hits : List SeamHit) : Bool := hits.any fun h => decide (24 * 12288 ≤ h.page) || h.symbols == 0

/-- A flit has a 32-byte header and at most 608 bytes of payload (09_links.md R240). -/
def flitIll (f : List Byte) : Bool := decide (f.length < 32) || decide (640 < f.length)

/-- The first check a command's operands fail. -/
def Instr.ill (i : Instr) : Option Malformed :=
  match i with
  | .registerWrite fn bar offset _ _ second => firstIll
    [(.offset, decide (barSize fn bar ≤ offset)), (.aligned, decide (offset % 4 ≠ 0)),
     (.second, second.isSome && decide (barSize fn bar ≤ offset + 4))]
  | .busErrorAccess fn bar offset _ dwords => firstIll [(.offset, decide (barSize fn bar ≤ offset)), (.aligned, decide (offset % 4 ≠ 0)), (.dwords, dwords == 0)]
  | .postedWriteEffect _ => none
  | .hubProfileWrite _ => none
  | .clockChangeEffect => none
  | .matmul hits => firstIll [(.seamPage, hitsIll hits)]
  | .bmatmul hits => firstIll [(.seamPage, hitsIll hits)]
  | .conv hits => firstIll [(.seamPage, hitsIll hits)]
  | .dwconv hits => firstIll [(.seamPage, hitsIll hits)]
  | .attend hits => firstIll [(.seamPage, hitsIll hits)]
  | .elem hits => firstIll [(.seamPage, hitsIll hits)]
  | .reduce hits => firstIll [(.seamPage, hitsIll hits)]
  | .norm hits => firstIll [(.seamPage, hitsIll hits)]
  | .repack hits => firstIll [(.seamPage, hitsIll hits)]
  | .gather hits => firstIll [(.seamPage, hitsIll hits)]
  | .scatter hits => firstIll [(.seamPage, hitsIll hits)]
  | .optstep hits => firstIll [(.seamPage, hitsIll hits)]
  | .sumsq hits => firstIll [(.seamPage, hitsIll hits)]
  | .sumsq2 hits => firstIll [(.seamPage, hitsIll hits)]
  | .check hits => firstIll [(.seamPage, hitsIll hits)]
  | .noise hits => firstIll [(.seamPage, hitsIll hits)]
  | .pageInDone _ vpn => firstIll [(.page, decide (2 ^ 27 ≤ vpn))]
  | .quadFenceRequest _ => none
  | .quadFenceEffect _ => none
  | .quadUnfenceRequest _ => none
  | .quadUnfenceEffect _ => none
  | .quadTestStart _ => none
  | .quadTestDone _ _ => none
  | .maint _ => none
  | .freeze => none
  | .fieldCapture _ _ flag => illLength flag 16
  | .captureDone => none
  | .seamRefresh _ => none
  | .seamScrub hits => firstIll [(.seamPage, hitsIll hits)]
  | .seamArbGrant _ _ _ => none
  | .alloc _ => none
  | .freeHandle _ => none
  | .handleRelease _ handle => firstIll [(.handle, decide (65536 ≤ handle))]
  | .place _ hits => firstIll [(.seamPage, hitsIll hits)]
  | .load _ flag data _ => firstIll [(.length, flag.length != 16 || decide (2 ^ 30 < data.length))]
  | .farslotAdd _ flag => illLength flag 16
  | .farslotRelease _ => none
  | .setflags _ => none
  | .directTableWrite _ => none
  | .tableRead => none
  | .invalidate _ _ => none
  | .invalidateDone => none
  | .evacuate _ hits => firstIll [(.seamPage, hitsIll hits)]
  | .evacuationDone => none
  | .ctxCreate => none
  | .ctxDestroy => none
  | .sqDb _ _ _ => none
  | .commandFetch _ desc => illLength desc 128
  | .commandDispatch _ hits => firstIll [(.seamPage, hitsIll hits)]
  | .marker _ => none
  | .cqHeadWrite _ _ => none
  | .stopFetch _ _ => none
  | .killOne _ => none
  | .killAll _ => none
  | .killComplete _ _ => none
  | .commandEnd _ _ => none
  | .waitLimitExpiry _ _ => none
  | .runLimitExpiry => none
  | .tenureExpiry => none
  | .stepFetch _ desc => illLength desc 128
  | .stepReady _ => none
  | .workListBuild _ => none
  | .deadlineKill _ => none
  | .stepInvocation _ => none
  | .stepMaxExpiry _ => none
  | .admitStream _ => none
  | .releaseStream _ => none
  | .modelSet _ => none
  | .budgetWindowReset => none
  | .tallyInterval _ => none
  | .tallyPeriod => none
  | .vtimeRead => none
  | .tallyRead => none
  | .stbRead => none
  | .openStep _ => none
  | .openComplete => none
  | .optTrack => none
  | .optUntrack => none
  | .optHistRead => none
  | .optHistWrite => none
  | .optNoiseRead => none
  | .optNoiseWrite => none
  | .timeCodeFrame _ _ => none
  | .rckLoss => none
  | .rckLossClear => none
  | .frameBoundary => none
  | .timeExchange _ _ _ _ _ _ _ _ _ => none
  | .holdoverExpiry => none
  | .counterParityError => none
  | .slotCmpFault => none
  | .cmpClear => none
  | .htRead => none
  | .lateRead => none
  | .codewordReceive _ _ lanes _ => firstIll [(.symbols, decide (544 < lanes.length))]
  | .replayRequest _ _ => none
  | .beFlitReceive _ flit => firstIll [(.length, flitIll flit)]
  | .schedFlitReceive _ flit _ => firstIll [(.length, flitIll flit)]
  | .staleFlitReceive _ flit => firstIll [(.length, flitIll flit)]
  | .discoverFlitReceive _ payload => illLength payload 32
  | .discoverPeriod _ => none
  | .lightDetected _ => none
  | .trainingComplete _ _ _ => none
  | .autoRetrain _ => none
  | .retrain _ => none
  | .topoLatch => none
  | .laneLossOfLock _ _ _ => none
  | .laneErrorInterval _ => none
  | .laneMap _ _ => none
  | .laneMapAck _ => none
  | .restripe _ => none
  | .laneMapTimeout _ => none
  | .fibreUnplug _ => none
  | .beHoldExpiry _ => none
  | .sleep _ => none
  | .wake _ => none
  | .wakeTone _ => none
  | .loopStart _ => none
  | .loopTestEnd _ errors => firstIll [(.lanes, errors.length != 16)]
  | .linkPartnerRead => none
  | .groupLaunch => none
  | .groupEnd => none
  | .groupRead => none
  | .colGLdb _ _ => none
  | .collectiveAccept _ desc => illLength desc 128
  | .allreduce _ _ _ hits => firstIll [(.seamPage, hitsIll hits)]
  | .reduceScatter _ _ _ hits => firstIll [(.seamPage, hitsIll hits)]
  | .allgather _ _ hits => firstIll [(.seamPage, hitsIll hits)]
  | .allgatherv _ _ hits => firstIll [(.seamPage, hitsIll hits)]
  | .broadcast _ _ hits => firstIll [(.seamPage, hitsIll hits)]
  | .alltoall _ _ hits => firstIll [(.seamPage, hitsIll hits)]
  | .alltoallv _ _ hits => firstIll [(.seamPage, hitsIll hits)]
  | .readinessEntry _ _ _ entry => firstIll [(.length, decide (entry.length < 16)), (.status, 0x0C ≤ (entry.getD 2 0).toNat)]
  | .dataPhaseStart _ _ => none
  | .streamAck _ _ _ _ => none
  | .collectiveComplete _ => none
  | .collectiveCanaryExpiry _ => none
  | .colGCheadWrite _ _ => none
  | .abort => none
  | .beaconReceive _ payload => illLength payload 24
  | .snapBegin flag => illLength flag 16
  | .snapshotFreeze _ => none
  | .shardProcess _ flag hits => firstIll [(.length, flag.length != 16), (.seamPage, hitsIll hits)]
  | .snapshotWaitExpiry _ => none
  | .cancel _ => none
  | .snapshotRelease _ => none
  | .snapRead => none
  | .digestSlot flag data _ => firstIll [(.length, flag.length != 16 || decide (2 ^ 30 < data.length))]
  | .slotFlagPoll _ flag => illLength flag 16
  | .mbxAck => none
  | .mbxReservedCode => none
  | .winCfg => none
  | .winSlot => none
  | .winReclaim => none
  | .wxDb _ _ _ => none
  | .wxCheadWrite _ _ _ => none
  | .store _ desc flag hits _ => firstIll [(.length, desc.length != 64 || flag.length != 16), (.seamPage, hitsIll hits)]
  | .wxComplete _ => none
  | .p1Fence _ => none
  | .hp1PerstN => none
  | .port1HotReset _ => none
  | .port1FenceDrained => none
  | .completionTimeout _ _ _ => none
  | .strayCompletion _ => none
  | .busMasterDisable _ _ => none
  | .vfFlr vf => firstIll [(.function, vf == 0)]
  | .pf0Flr => none
  | .irqCoalesceTimer _ => none
  | .msixHeldSend _ => none
  | .irqClaim _ => none
  | .eventRingEnable _ => none
  | .eventRingDisable _ => none
  | .evrHeadWrite _ _ => none
  | .eventRecordWrite _ => none
  | .overflowRecord _ => none
  | .coreReset _ => none
  | .coreResetComplete => none
  | .systemReset _ => none
  | .systemResetReady => none
  | .perstN => none
  | .perstNDeassert => none
  | .hotResetP0 => none
  | .dlDownP0 => none
  | .hostFence => none
  | .rstLfence _ _ => none
  | .drainExpiry _ _ => none
  | .blockReset _ _ => none
  | .blockResetDone => none
  | .fieldProgressExpiry => none
  | .mailboxCanaryExpiry => none
  | .overseerCanaryExpiry _ => none
  | .canarySelfFault _ => none
  | .parityFault _ => none
  | .attnLongPress => none
  | .attnShortPress => none
  | .presenceWindowExpiry => none
  | .healthUpdate _ _ => none
  | .healthRead => none
  | .escRead => none
  | .escClear => none
  | .certRead => none
  | .identityRead => none
  | .fwStage flag package _ _ _ => firstIll [(.length, flag.length != 16 || decide (2 ^ 26 < package.length))]
  | .fwActivate => none
  | .calExport flag _ => illLength flag 16
  | .calWrite flag data _ => firstIll [(.length, flag.length != 16 || data.length != 16384)]
  | .calImageWritten => none
  | .getVersion _ => none
  | .getCapabilities _ => none
  | .negotiateAlgorithms _ => none
  | .getDigests _ => none
  | .getCertificate _ slot offset length => firstIll [(.index, decide (16 ≤ slot)), (.length, decide (65536 ≤ offset) || decide (65536 ≤ length))]
  | .challenge _ slot => firstIll [(.index, decide (16 ≤ slot))]
  | .getMeasurements _ indices => firstIll [(.index, indices.any (255 < ·))]
  | .spdmUnsupported _ => none
  | .getLast => none
  | .getIdentity => none
  | .getCert slot offset length => firstIll [(.index, decide (65536 ≤ slot)), (.length, decide (65536 ≤ offset) || decide (65536 ≤ length))]
  | .getHealth => none
  | .getEsc => none
  | .streamOut _ => none
  | .locate _ => none
  | .svcSystemReset _ => none
  | .svcPowerOn _ => none
  | .clearRetirement _ => none
  | .svcEscClear _ => none
  | .calChunk _ data => firstIll [(.length, decide (4096 < data.length))]
  | .calCommit _ => none
  | .usbBusReset => none
  | .usbAttach _ => none
  | .drained => none
  | .cancelRequest => none
  | .mgmtVendorRequest _ _ _ _ _ => none
  | .mgmtPowerOn _ _ => none
  | .mctpControl => none
  | .pldmSensorRead _ => none
  | .railWarning _ _ => none
  | .railFault _ _ => none
  | .auxLoss => none
  | .powerOn => none
  | .auxReady => none
  | .mainPowerInRange _ _ => none
  | .startupReady => none
  | .fclkControlTest r => firstIll [(.length, r.temps.length != 64)]
  | .thermalTrip temps => firstIll [(.length, temps.length != 64)]
  | .thermalRelease temps => firstIll [(.length, temps.length != 64)]
  | .coolingUpdate _ _ _ => none
  | .tempRead => none
  | .energyRead => none
  | .maskMaxExpiry => none
  | .slotStart => none
  | .pcieLinkUp _ gen width =>
    firstIll [(.rate, decide (gen.toNat < 5)), (.width, width != 16 && width != 8 && width != 4)]
  | .busMasterEnable _ _ => none
  | .sleepRequestReceive _ => none
  | .sleepReplyReceive _ _ => none
  | .farLoopRequestReceive _ => none
  | .usbConfigured => none

/-- A command whose operands stand for an event. -/
def Instr.wellFormed (i : Instr) : Bool := i.ill.isNone

end Sys2Proof
end

