-- ==== Sys2Proof/Machine/ConfigSpace.lean ====
section
/-! DEFINITION. What the functions of the host ports report in their PCIe configuration space (12_host_attachment.md R314,
R315). -/

namespace Sys2Proof.Machine

/-- The features of Table 12.1 for a function. -/
structure PcieFeatures where
  generations     : List Nat
  widths          : List Nat
  flitFrom        : Nat
  ari             : Bool
  maxPayload      : Nat
  maxReadRequest  : Nat
  tagBits         : Nat
  msixVectors     : Nat
  aer             : Bool
  doeSpdm         : Bool
  ats             : Bool
  pri             : Bool
  pasid           : Bool
  timeoutMs       : Nat
  timeoutDisable  : Bool
deriving DecidableEq, Repr

/-- Port 0's functions have MSI-X, and PF0 DOE discovery and SPDM; the data function of port 1 has neither. -/
def pcieFeatures (fn : PortFn) : PcieFeatures :=
  let port0 := match fn with
    | .port0 _ => true
    | .data => false
  { generations := [5, 6, 7], widths := [16, 8, 4], flitFrom := 6, ari := port0, maxPayload := 512, maxReadRequest := 4096
    tagBits := 10, msixVectors := if port0 then 32 else 0, aer := true, doeSpdm := fn == .port0 0, ats := false, pri := false
    pasid := false, timeoutMs := 50, timeoutDisable := false }

/-- PF0's SR-IOV capability (R315). -/
structure SrIov where
  totalVfs      : Nat
  initialVfs    : Nat
  firstVfOffset : Nat
  vfStride      : Nat
  vfDeviceId    : BitVec 16
  pageSizes     : List Nat
deriving DecidableEq, Repr

def srIov : SrIov :=
  { totalVfs := 63, initialVfs := 63, firstVfOffset := 1, vfStride := 1, vfDeviceId := 0x6481, pageSizes := [4096] }

/-- The requester ID of VF `n`, above PF0's. -/
def SrIov.vfOffset (v : SrIov) (n : Nat) : Nat := v.firstVfOffset + v.vfStride * (n - 1)

/-- The Device ID of a function (Table 12.2). -/
def deviceId (fn : PortFn) : BitVec 16 :=
  match fn with
  | .port0 f => if f = 0 then 0x6480 else srIov.vfDeviceId
  | .data => 0x6482

/-- Processing accelerator. -/
def classCode : BitVec 24 := 0x120000

/-- A BAR as configuration space describes it: its size, a 64-bit address, and whether it is prefetchable. -/
structure BarInfo where
  bytes        : Nat
  is64         : Bool
  prefetchable : Bool
deriving DecidableEq, Repr

/-- The BARs of a function (Table 12.2); the data function has none. -/
def barInfo (fn : PortFn) (bar : Bar) : Option BarInfo :=
  match fn with
  | .port0 f => some { bytes := barSize f bar, is64 := true, prefetchable := false }
  | .data => none

/-- Identification registers of a function: Vendor ID, Device ID and class code. -/
def configIds (fn : PortFn) : BitVec 16 × BitVec 16 × BitVec 24 := (Config.vendorId, deviceId fn, classCode)

/-- The widths a link can have come up with (Table 12.1). -/
def widthOk (width : BitVec 5) : Bool := (pcieFeatures .data).widths.contains width.toNat

/-- The generations a link can have come up at. -/
def genOk (gen : BitVec 3) : Bool := (pcieFeatures .data).generations.contains gen.toNat

end Sys2Proof.Machine
end

