-- ==== Sys2Proof/Machine/TrainOps.lean ====
section
/-! DEFINITION. Opening a step of a training unit, and the mailbox requests of Training Support (07_training.md R198 to
R202, R217). -/

namespace Sys2Proof.Machine

/-! ## OPEN (R200 to R202) -/

/-- A patch entry (Table 7.5): the word's address, what exponent it takes, and SENSE. -/
structure Patch where
  va    : Nat
  src   : Nat
  minus : Bool
deriving DecidableEq, Repr

def patchOf (bs : List Byte) : Patch :=
  { va := bits (fieldAt bs 0 8) 47 2 * 4, src := fieldAt bs 8 2, minus := bit (fieldAt bs 8 8) 16 }

/-- A reserved bit set, or a SRC that is neither the loss scale nor a tracked tensor of the unit (R201). -/
def State.patchBad (s : State) (u : UnitId) (bs : List Byte) : Bool :=
  let p := patchOf bs
  bits (fieldAt bs 0 8) 1 0 != 0 || bits (fieldAt bs 0 8) 63 48 != 0 || bits (fieldAt bs 8 8) 63 17 != 0 ||
    (p.src != 0xFFFF && !(s.opt.tracked.get? p.src).any fun t => t.unit == u)

/-- The address of the patch list and its bytes, entry by entry, as the unit's context holds them. -/
def State.patchList (s : State) (x : Context) : List (List Byte) :=
  let va := s.opt.pvaHi.toNat * 2 ^ 32 + s.opt.pvaLo.toNat
  (List.range s.opt.pcount.toNat).map fun i => s.committedBytes x (va + 16 * i) 16

/-- R200: pending maxima of earlier steps are recorded, then E_CUR is computed, for every tracked tensor of the unit. -/
def State.fixExponents (s : State) (u : UnitId) (step : Word) : State :=
  let mine := s.tensorsOf u
  let s := mine.foldl (fun s i =>
    if (s.opt.tracked.get? i).any (fun t => t.pendValid && t.pstep < step) then s.recordAmax i else s) s
  { s with opt.tracked := mine.foldl (fun (m : Assoc Tracked) i => m.modify i fun t => { t with
      eCur := BitVec.ofInt 8 (encodeExponent (if t.e5m2 then 57344 else 448) t.margin (t.hist.take t.h)) }) s.opt.tracked }

/-- One patch word: 2^x or 2^−x, written in place; a word on an unmapped or read-only page goes nowhere and counts
(R201, 04_seam_hoist.md R118), and one whose held page cannot be copied goes nowhere and sets OPEN_ERR (11_snapshots.md
R299). -/
def State.patchPut (s : State) (c : CtxId) (va : Nat) (w : Word) : State :=
  match s.ctx? c with
  | none => s
  | some y =>
    if pteDrops (y.pt.getD (va / pageSize) 0) then s.violations c 4 true
    else match s.writeCommittedAt c false va (leBytes 4 w.toNat) with
      | some t => t
      | none => { s with opt.openErr := true }

/-- A patch word to a FAR page waits while the context's function may not issue requests (12_host_attachment.md R316). -/
def State.patchWaits (s : State) (c : CtxId) (va : Nat) : Bool :=
  (s.ctx? c).any fun x => !s.mayRequest x.fn && pteState (x.pt.getD (va / pageSize) 0) == psFar

/-- A patch entry is carried out: the power of two of the exponent it names is written, or owed. -/
def State.patchWord (s : State) (c : CtxId) (openLse : Int) (p : Patch) : State :=
  let x := if p.src = 0xFFFF then openLse else ((s.opt.tracked.get? p.src).map fun t : Tracked => t.eCur.toInt).getD 0
  let w : Word := toBits (FNum.pow2 (if p.minus then -x else x))
  if s.patchWaits c p.va then { s with opt.owed := s.opt.owed ++ [(c, p.va, w)] } else s.patchPut c p.va w

/-- OPT_OPEN.START with TU = u (R201): ignored while OPEN_BUSY is 1; a unit not bound to a context, too many entries, a
misaligned list or a bad entry sets OPEN_ERR and nothing else (log entry 30). -/
def State.openUnit (s : State) (u : UnitId) : State :=
  if s.opt.openBusy then s
  else
    let s := { s with opt.openTu := BitVec.ofNat 6 u.val, opt.openNow := BitVec.ofNat 6 u.val, opt.openErr := false }
    let unit := vget s.opt.units u
    let c := ctxOf unit.ctx.toNat
    let refuse := { s with opt.openErr := true }
    match s.ctx? c with
    | none => refuse
    | some x =>
      let list := s.patchList x
      if !unit.valid || 4096 < s.opt.pcount.toNat || s.opt.pvaLo.toNat % 16 != 0 || list.any (s.patchBad u) then refuse
      else
        let s := { s with
          opt.openBusy := true
          opt.units := vset s.opt.units u { unit with openStep := s.opt.openStep, openLse := unit.lse } }
        let s := s.fixExponents u s.opt.openStep
        list.foldl (fun s bs => s.patchWord c (lseOf unit.lse) (patchOf bs)) s

def execOpenStep (unit : UnitId) (s : State) : Host.Outcome State Fault Refusal := .next (s.openUnit unit)

/-- OPEN_COMPLETE: OPEN_BUSY returns to 0 (R202), after the patch words that waited; it waits as long as one of them does. -/
def State.openComplete (s : State) : State :=
  if s.opt.owed.any fun p => s.patchWaits p.1 p.2.1 then s
  else { s.opt.owed.foldl (fun (s : State) p => s.patchPut p.1 p.2.1 p.2.2) s with opt.owed := [], opt.openBusy := false }

def execOpenComplete (s : State) : Host.Outcome State Fault Refusal := .next s.openComplete

/-! ## Mailbox requests (Table 7.10) -/

/-- OPT_TRACK (R198). -/
def State.optTrack (s : State) : State :=
  s.mbxRun 0x50 fun s =>
    let w := s.mbxArg 0
    let id : Word := BitVec.ofNat 32 (s.mbxArg 1)
    let u := unitOf (bits w 5 0)
    let h := bits w 14 8
    let n := lowestFreeKey s.opt.tracked 0
    if bit w 7 || bit w 15 || bits w 31 20 != 0 || h == 0 || 64 < h || !(vget s.opt.units u).valid ||
        s.opt.tracked.any (fun e => e.2.unit == u && e.2.tensorId == id) then s.mbxStatus stBad
    else if 4096 ≤ n then s.mbxStatus stNoRoom
    else
      let t : Tracked := { unit := u, tensorId := id, e5m2 := bit w 6, h := h, margin := bits w 19 16, hist := [], eCur := 0,
                           pendValid := false, pendNonfinite := false, pstep := 0, pend := 0, lastStep := 0 }
      { s with opt.tracked := s.opt.tracked.put n t }.mbxOk (leBytes 4 (stOk.toNat + n * 2 ^ 8))

def execOptTrack (s : State) : Host.Outcome State Fault Refusal := .next s.optTrack

/-- A tracked tensor number in word 0, with its reserved bits (12_host_attachment.md R420). -/
def State.ttArg (s : State) : Option Tracked := if s.argReserved 12 then none else s.opt.tracked.get? (s.mbxArg 0)

/-- OPT_UNTRACK. -/
def State.optUntrack (s : State) : State :=
  s.mbxRun 0x51 fun s =>
    match s.ttArg with
    | none => s.mbxStatus stBad
    | some _ => { s with opt.tracked := s.opt.tracked.del (s.mbxArg 0) }.mbxStatus stOk

def execOptUntrack (s : State) : Host.Outcome State Fault Refusal := .next s.optUntrack

/-- The history record (Table 7.11). -/
def Tracked.bytes (t : Tracked) : List Byte :=
  leBytes 4 (t.hist.length + t.eCur.toNat * 2 ^ 8 + b2n t.pendValid * 2 ^ 16 + b2n t.pendNonfinite * 2 ^ 17) ++
    leBytes 4 t.pstep.toNat ++ leBytes 4 t.pend.toNat ++ leBytes 4 t.lastStep.toNat ++
    (List.range 64).flatMap fun i => leBytes 4 (t.hist.getD i 0).toNat

/-- OPT_HIST_READ: a tensor that does not exist reads all zeros. -/
def State.histRead (s : State) : State :=
  s.mbxRun 0x52 fun s =>
    if s.argReserved 12 then s.mbxFail stBad
    else match s.ttArg with
      | some t => s.mbxOk t.bytes
      | none => s.mbxOk (List.replicate 272 0)

def execOptHistRead (s : State) : Host.Outcome State Fault Refusal := .next s.histRead

/-- OPT_HIST_WRITE: the record is the 272 bytes at argument byte 4, which hold no TENSOR_ID to compare (log entry 31). -/
def State.histWrite (s : State) : State :=
  s.mbxRun 0x53 fun s =>
    let a := s.mbxBytes.drop 4
    let w := fieldAt a 0 4
    match s.ttArg with
    | none => s.mbxStatus stBad
    | some t =>
      if bit w 7 || 64 < bits w 6 0 || bits w 31 18 != 0 then s.mbxStatus stBad
      else
        let t' := { t with
          hist := (List.range (bits w 6 0)).map fun i => BitVec.ofNat 32 (fieldAt a (0x10 + 4 * i) 4)
          eCur := BitVec.ofNat 8 (bits w 15 8), pendValid := bit w 16, pendNonfinite := bit w 17
          pstep := BitVec.ofNat 32 (fieldAt a 4 4), pend := BitVec.ofNat 32 (fieldAt a 8 4)
          lastStep := BitVec.ofNat 32 (fieldAt a 12 4) }
        { s with opt.tracked := s.opt.tracked.put (s.mbxArg 0) t' }.mbxStatus stOk

def execOptHistWrite (s : State) : Host.Outcome State Fault Refusal := .next s.histWrite

/-- OPT_NOISE_READ. -/
def State.noiseRead (s : State) : State :=
  s.mbxRun 0x54 fun s =>
    if s.argReserved 6 then s.mbxFail stBad
    else
      let u := vget s.opt.units (unitOf (s.mbxArg 0))
      s.mbxOk (leBytes 4 u.g2e.toNat ++ leBytes 4 u.se.toNat ++ leBytes 4 u.ncount.toNat)

def execOptNoiseRead (s : State) : Host.Outcome State Fault Refusal := .next s.noiseRead

/-- OPT_NOISE_WRITE. -/
def State.noiseWrite (s : State) : State :=
  s.mbxRun 0x55 fun s =>
    if s.argReserved 6 then s.mbxStatus stBad
    else
      let g : Word := BitVec.ofNat 32 (s.mbxArg 1)
      let e : Word := BitVec.ofNat 32 (s.mbxArg 2)
      let n : Word := BitVec.ofNat 32 (s.mbxArg 3)
      { s with opt.units := vmod s.opt.units (unitOf (s.mbxArg 0)) fun u => { u with g2e := g, se := e, ncount := n } }.mbxStatus stOk

def execOptNoiseWrite (s : State) : Host.Outcome State Fault Refusal := .next s.noiseWrite

end Sys2Proof.Machine
end

