-- ==== Sys2Proof/Machine/Window.lean ====
section
/-! DEFINITION. The window: its requests, its transfers and their rings (12_host_attachment.md R327 to R338). -/

namespace Sys2Proof.Machine

/-! ## WIN_CFG (R327) -/

/-- A WIN_CFG argument breaks Table 12.8. -/
def winCfgBad (a : List Byte) : Bool :=
  let w := fieldAt a 4 4
  let n := bits w 16 0
  let l := bits w 27 24
  bits (fieldAt a 0 4) 31 8 != 0 || bits w 23 17 != 0 || bits w 31 28 != 0 || n == 0 || 65536 < n || l < 6 || 12 < l ||
    fieldAt a 8 8 % 4096 != 0 || fieldAt a 16 8 % 4096 != 0 || fieldAt a 24 8 % 4096 != 0

def State.winCfg (s : State) : State :=
  s.mbxRun 0x10 fun s =>
    let a := s.mbxBytes
    let c := ctxOf (fieldAt a 0 1)
    match s.ctx? c with
    | none => s.mbxStatus stBad
    | some x =>
      if winCfgBad a || x.window.isSome then s.mbxStatus stBad
      else
        let w := { windowReset with
          nslots := bits (fieldAt a 4 4) 16 0, wxLog2 := bits (fieldAt a 4 4) 27 24
          flagBase := BitVec.ofNat 64 (fieldAt a 8 8), wxBase := BitVec.ofNat 64 (fieldAt a 16 8)
          wxcBase := BitVec.ofNat 64 (fieldAt a 24 8) }
        (s.modCtx c fun x => { x with window := some w }).mbxStatus stOk

def execWinCfg (s : State) : Host.Outcome State Fault Refusal := .next s.winCfg

/-! ## WIN_SLOT and WIN_RECLAIM (R328, R332) -/

/-- Bytes of host memory that a window's slots define. -/
def Window.total (w : Window) : Nat := (w.slots.map fun e => e.2.size).foldl (· + ·) 0

/-- WIN_SLOT's outcome on a window, with the slots as they become. -/
def Window.slotRequest (w : Window) (a : List Byte) : Byte × Assoc WinSlot :=
  let w0 := fieldAt a 0 4
  let w1 := fieldAt a 4 4
  let n := bits w0 31 16
  let k := bits w1 4 0
  let addr := fieldAt a 8 8
  if bits w0 15 8 != 0 || bits w1 7 5 != 0 || bits w1 31 10 != 0 || w.nslots ≤ n || k < 16 || 30 < k || addr % 65536 != 0 then
    (stBad, w.slots)
  else if bit w1 9 then
    match w.slots.get? n with
    | none => (stBad, w.slots)
    | some t => if t.held.isSome then (stBad, w.slots) else (stOk, w.slots.del n)
  else if w.slots.has n then (stBad, w.slots)
  else if 2 ^ 36 < w.total + 2 ^ k then (stNoRoom, w.slots)
  else
    (stOk, w.slots.put n { log2 := k, p2p := bit w1 8, addr := BitVec.ofNat 64 addr, held := none, flagLen := 0, flagCrc := 0,
                           busy := false })

def State.winSlot (s : State) : State :=
  s.mbxRun 0x11 fun s =>
    let a := s.mbxBytes
    let c := ctxOf (fieldAt a 0 1)
    match (s.ctx? c).bind (·.window) with
    | none => s.mbxStatus stBad
    | some w =>
      let (st, slots) := w.slotRequest a
      (s.modCtx c fun x => { x with window := some { w with slots := slots } }).mbxStatus st

def execWinSlot (s : State) : Host.Outcome State Fault Refusal := .next s.winSlot

/-- WIN_RECLAIM; the flag word waits while the function may not issue requests (R316). -/
def State.winReclaim (s : State) : State :=
  s.mbxRun 0x12 fun s =>
    let w0 := s.mbxArg 0
    let c := ctxOf (bits w0 7 0)
    let n := bits w0 31 16
    if bits w0 15 8 != 0 then s.mbxStatus stBad
    else match (s.ctx? c).bind fun x => (x.slot? n).map fun t => (x, t) with
      | none => s.mbxStatus stBad
      | some (x, t) =>
        if t.held.isNone then s.mbxStatus stBad
        else if x.farPool.contains n || t.busy then s.mbxStatus stNoRoom
        else if !s.mayRequest x.fn then s
        else (s.handback c n 0 0).mbxStatus stOk

def execWinReclaim (s : State) : Host.Outcome State Fault Refusal := .next s.winReclaim

/-! ## Rings of window transfers (R336) -/

def State.modWindow (s : State) (c : CtxId) (f : Window → Window) : State :=
  s.modCtx c fun x => { x with window := x.window.map f }

/-- WX_DB: the acceptance rule of R131 over the window's ring. -/
def State.wxDb (s : State) (fn : FnId) (slot : Fin 32) (v : Word) : State :=
  match s.ctxAt fn slot with
  | none => s.regViol
  | some (c, x) =>
    match x.window with
    | none => s.dbBad c
    | some w =>
      if doorbellOk v w.head w.tail (2 ^ w.wxLog2) then s.modWindow c fun w => { w with tail := v } else s.dbBad c

def execWxDb (fn : FnId) (slot : Fin 32) (value : Word) (s : State) : Host.Outcome State Fault Refusal :=
  .next (s.wxDb fn slot value)

/-- WX_CHEAD: the rule of R134 over the window's completion ring. -/
def State.wxChead (s : State) (fn : FnId) (slot : Fin 32) (v : Word) : State :=
  match s.ctxAt fn slot with
  | none => s.regViol
  | some (c, x) =>
    match x.window with
    | none => s.dbBad c
    | some w =>
      if headOk v w.ctail w.chead then
        s.modCtx c fun x => { x with
          window := some { w with chead := v }
          wxIrqs := unconsumed x.wxIrqs v w.ctail }
      else s.dbBad c

def execWxCheadWrite (fn : FnId) (slot : Fin 32) (value : Word) (s : State) : Host.Outcome State Fault Refusal :=
  .next (s.wxChead fn slot value)

/-! ## Transfers (R337, R338) -/

/-- A window-transfer descriptor breaks Table 12.10. -/
def transferBad (d : List Byte) : Bool :=
  let w0 := fieldAt d 0 4
  let len := fieldAt d 0x20 4
  let crc := bit w0 10
  bits w0 7 0 != 1 || bits w0 31 11 != 0 || fieldAt d 6 2 != 0 || fieldAt d 0x16 2 != 0 || 2 ^ 30 ≤ fieldAt d 0x18 4 ||
    fieldAt d 0x1C 4 != 0 || len == 0 || 2 ^ 30 < len || nonzero (slice d 0x24 28) ||
    (crc && (fieldAt d 0x18 4 != 0 || !bit w0 8))

/-- The next descriptor may be fetched: the doorbell is ahead, no transfer of the context runs, the completion ring has
an entry, and the function may issue requests (R336, R337). -/
def State.mayTransfer (s : State) (x : Context) (w : Window) : Bool :=
  w.head != w.tail && w.transfers.isEmpty && !x.stop && s.mayRequest x.fn && (w.ctail + 1 - w.chead).toNat ≤ 2 ^ w.wxLog2

/-- Bytes of a range on unmapped pages of the committed version (04_seam_hoist.md R118). -/
def Context.unmapped (x : Context) (va len : Nat) : Nat :=
  (pagesOf va len).foldl (fun n v =>
    let lo := max va (v * pageSize)
    let hi := min (va + len) ((v + 1) * pageSize)
    let st := pteState (x.pt.getD v 0)
    if st == psUnmapped || 5 < st then n + (hi - lo) else n) 0

/-- A transfer's work: its status and the bytes written. `flag` is the slot's flag word as read, `portFault` that port 1
was fenced with chunks in flight (Table 12.12). -/
def State.transferRun (s : State) (c : CtxId) (x : Context) (d flag : List Byte) (errs : SeamErrs) (portFault : Bool) :
    State × Byte × Nat :=
  let n := fieldAt d 4 2
  let va := fieldAt d 0x10 6
  let off := fieldAt d 0x18 4
  let len := fieldAt d 0x20 4
  let w0 := fieldAt d 0 4
  if transferBad d then (s, stBad, 0)
  else match x.slot? n, s.acquire c n flag with
    | some t, some s =>
      if t.size < off + len then (s, stBad, 0)
      else
        let bad := errs.ue.filter (x.framesOf (pagesOf va len)).contains
        let s := bad.foldl (fun s f => s.seamUe f) (s.seamCe errs.ce)
        let poison := (pagesOf va len).any fun v => pteState (x.pt.getD v 0) == psPoisoned
        if !bad.isEmpty || poison || portFault then
          let k := (Config.freeWord s.freeCtr).toNat % len
          ((s.hostUndefined (t.addr.toNat + off) len).bumpFree, stFenced, k)
        else
          let bs := s.committedBytes x va len
          let s := (s.violations c (x.unmapped va len) false).hostWrite (t.addr.toNat + off) bs
          let s := (s.tallyHost c len).tallySeam c len
          (if bit w0 8 then s.handback c n (off + len) (if bit w0 10 then crc32c bs else 0) else s, stOk, len)
    | _, _ => (s, stBad, 0)

/-- STORE: the descriptor at the ring's head is fetched and its transfer runs. -/
def State.storeRun (s : State) (c : CtxId) (desc flag : List Byte) (errs : SeamErrs) (portFault : Bool) : State :=
  match (s.ctx? c).bind fun x => x.window.map fun w => (x, w) with
  | none => s
  | some (x, w) =>
    if !s.mayTransfer x w then s
    else
      let d := slice desc 0 64
      let (s, st, n) := (s.tallyHost c 64).transferRun c x d flag errs portFault
      s.modWindow c fun w => { w with
        head := w.head + 1
        transfers := [{ seq := w.head, desc := d, status := some st, written := n }] }

def execStore (ctx : CtxId) (desc flag : List Byte) (hits : List SeamHit) (portFault : Bool) (s : State) :
    Host.Outcome State Fault Refusal :=
  .next (s.storeRun ctx desc flag (s.seamErrs hits) portFault)

/-- The 32 bytes of a transfer's record (Table 12.11). -/
def transferRecord (t : Transfer) (phase : Bool) (ht : Nat) : List Byte :=
  leBytes 4 ((t.status.getD stOk).toNat + fieldAt t.desc 0 1 * 2 ^ 8 + b2n phase * 2 ^ 31) ++ leBytes 4 t.seq.toNat ++
    slice t.desc 8 8 ++ leBytes 4 t.written ++ leBytes 4 0 ++ leBytes 8 ht

/-- WX_COMPLETE: the record of a transfer that has its status is written. -/
def State.wxComplete (s : State) (c : CtxId) : State :=
  match (s.ctx? c).bind fun x => x.window.map fun w => (x, w) with
  | none => s
  | some (x, w) =>
    match w.transfers with
    | t :: rest =>
      if t.status.isNone || !s.mayRequest x.fn then s
      else
        let size := 2 ^ w.wxLog2
        let irq := bit (fieldAt t.desc 0 4) 9
        let s := s.hostWrite (w.wxcBase.toNat + 32 * (w.ctail.toNat % size)) (transferRecord t (phaseOf w.ctail size) s.ht)
        let s := (s.modCtx c fun x => { x with
          window := some { w with ctail := w.ctail + 1, transfers := rest }
          wxIrqs := if irq then x.wxIrqs ++ [w.ctail] else x.wxIrqs }).tallyHost c 32
        if irq then s.irqEvent c.val else s
    | [] => s

def execWxComplete (ctx : CtxId) (s : State) : Host.Outcome State Fault Refusal := .next (s.wxComplete ctx)

end Sys2Proof.Machine
end

