-- ==== Sys2Proof/Machine/Snap.lean ====
section
/-! DEFINITION. Snapshots: their beginning, the freeze instant, shards and records, waits, cancellation and release
(11_snapshots.md R293 to R304, R313). -/

namespace Sys2Proof.Machine

def State.snap (s : State) (n : SnapId) : SnapSlot := vget s.snp.slots n
def State.modSnap (s : State) (n : SnapId) (f : SnapSlot → SnapSlot) : State :=
  { s with snp.slots := vmod s.snp.slots n f }

/-- A snapshot that has not ended: freezing or writing. -/
def SnapSlot.live (t : SnapSlot) : Bool := t.state == 1 || t.state == 2

/-! ## The shard list (R293, R296) -/

/-- A shard list entry. -/
def shardOf (b : List Byte) : Shard :=
  let w := fieldAt b 0 4
  { kind := bits w 1 0, unit := bits w 13 8, slot := bits w 31 16, id := BitVec.ofNat 64 (fieldAt b 8 8)
    va := fieldAt b 0x10 6, len := fieldAt b 0x18 4, slotOff := fieldAt b 0x1C 4 }

/-- DATA or REFERENCE: the shard is a range of memory. -/
def Shard.isRange (h : Shard) : Bool := h.kind == 0 || h.kind == 1
/-- DATA or CONTROL: the shard's bytes are written to a slot. -/
def Shard.writes (h : Shard) : Bool := h.kind == 0 || h.kind == 2

/-- A reserved bit or encoding of an entry is set, or a field its KIND does not use. -/
def shardReserved (b : List Byte) : Bool :=
  let w := fieldAt b 0 4
  let h := shardOf b
  bits w 7 2 != 0 || bits w 15 14 != 0 || fieldAt b 4 4 != 0 || fieldAt b 0x16 2 != 0 || 2 ^ 30 ≤ h.slotOff || h.kind == 3 ||
    (h.kind != 2 && h.unit != 0) || (h.kind == 1 && (h.slot != 0 || h.slotOff != 0)) ||
    (if h.isRange then h.len == 0 || 2 ^ 30 < h.len else h.va != 0 || h.len != 0)

/-- Two ranges of a list overlap. -/
def rangesOverlap : List (Nat × Nat) → Bool
  | [] => false
  | r :: rs => rs.any (fun q => r.1 < q.1 + q.2 && q.1 < r.1 + r.2) || rangesOverlap rs

/-- A number appears twice in a list. -/
def repeats : List Nat → Bool
  | [] => false
  | a :: r => r.contains a || repeats r

/-- Size of a window slot; an undefined slot has none. -/
def Context.slotSize (x : Context) (n : Nat) : Nat := ((x.slot? n).map WinSlot.size).getD 0

/-- An entry does not fit its context: its range, its slot, or its training unit. -/
def State.shardBad (s : State) (c : CtxId) (x : Context) (h : Shard) : Bool :=
  let u := vget s.opt.units (unitOf h.unit)
  (h.isRange && 2 ^ 48 < h.va + h.len) || (h.kind == 0 && x.slotSize h.slot < h.slotOff + h.len) ||
    (h.kind == 2 && (!u.valid || u.ctx.toNat != c.val ||
      x.slotSize h.slot < h.slotOff + 64 + 288 * (s.tensorsOf (unitOf h.unit)).length))

/-- The first row of Table 11.3, without the owner of RECORD_SLOT. -/
def State.snapArgsBad (s : State) (a : List Byte) : Bool :=
  let n := fieldAt a 0x0C 4
  let c := ctxOf (fieldAt a 0 1)
  match s.ctx? c with
  | none => true
  | some x =>
    let bs := (List.range n).map fun i => s.committedBytes x (fieldAt a 0x10 6 + 32 * i) 32
    let hs := bs.map shardOf
    bits (fieldAt a 0 4) 31 8 != 0 || n == 0 || 4096 < n || fieldAt a 0x16 2 != 0 || fieldAt a 0x10 6 % 32 != 0 ||
      fieldAt a 0x1A 2 != 0 || nonzero (slice a 0x1C 36) || bs.any shardReserved || hs.any (s.shardBad c x) ||
      rangesOverlap ((hs.filter (·.isRange)).map fun h => (h.va, h.len)) ||
      repeats ((hs.filter (·.kind == 2)).map (·.unit)) || x.slotSize (fieldAt a 0x18 2) < 512 * n

/-- SNAP_BEGIN; `flag` is RECORD_SLOT's flag word as read: a slot the device does not hold waits while the function may not issue
requests (R316). -/
def State.snapBegin (s : State) (flag : List Byte) : State :=
  s.mbxRun 0x90 fun s =>
    let a := slice s.mbxBytes 0 64
    let c := ctxOf (fieldAt a 0 1)
    let n := fieldAt a 0x0C 4
    let rec' := fieldAt a 0x18 2
    match s.ctx? c with
    | none => s.mbxStatus stBad
    | some x =>
      if s.snapArgsBad a then s.mbxStatus stBad
      else if !s.mayRequest x.fn && !(x.slot? rec').any (fun w : WinSlot => w.held.isSome) then s
      else match s.acquire c rec' flag with
        | none => s.mbxStatus stBad
        | some t =>
          match (List.finRange 8).find? fun i => (s.snap i).state == 0 with
          | none => t.mbxStatus stNoRoom
          | some i =>
            if 2 ≤ (s.snp.slots.toList.filter fun q => q.live && q.ctx.toNat == c.val).length then t.mbxStatus stNoRoom
            else
              let new := { snapSlotReset with
                state := 1, ctx := BitVec.ofNat 8 c.val, gen := BitVec.ofNat 32 (fieldAt a 4 4)
                step := BitVec.ofNat 32 (fieldAt a 8 4), record := rec'
                list := (List.range n).map fun i => shardOf (s.committedBytes x (fieldAt a 0x10 6 + 32 * i) 32) }
              let t := (t.modSlot c rec' fun w => { w with busy := true }).modSnap i fun _ => new
              t.mbxOk (leBytes 4 (stOk.toNat + i.val * 2 ^ 8))

def execSnapBegin (flag : List Byte) (s : State) : Host.Outcome State Fault Refusal := .next (s.snapBegin flag)

/-! ## The freeze instant (R294, R297) -/

/-- The CONTROL bytes of a training unit (R294). -/
def State.controlBytes (s : State) (n : Nat) : List Byte :=
  let u := vget s.opt.units (unitOf n)
  let ts := (s.opt.tracked.filter fun e => e.2.unit == unitOf n).map (·.2)
  let head := leBytes 4 (u.lse.toNat + b2n u.normMode * 2 ^ 6 + u.clean.toNat * 2 ^ 16) ++ leBytes 4 u.cleanTarget.toNat ++
    leBytes 4 u.limit.toNat ++ leBytes 4 u.applied.toNat ++ leBytes 4 u.stepDone.toNat ++ leBytes 4 u.alpha.toNat ++
    leBytes 4 u.g2e.toNat ++ leBytes 4 u.se.toNat ++ leBytes 4 u.ncount.toNat ++ leBytes 4 ts.length ++ leBytes 24 0
  head ++ ts.flatMap fun t =>
    leBytes 4 t.tensorId.toNat ++ leBytes 4 (b2n t.e5m2 * 2 ^ 6 + t.h * 2 ^ 8 + t.margin * 2 ^ 16) ++ leBytes 8 0 ++ t.bytes

/-- Virtual pages that shards touch. -/
def shardPages (hs : List Shard) : List Nat := rangePages ((hs.filter (·.isRange)).map fun h => (h.va, h.len))

/-- An OPEN of a CONTROL unit of the list is in progress (R297). -/
def State.openInProgress (s : State) (hs : List Shard) : Bool :=
  s.opt.openBusy && hs.any fun h => h.kind == 2 && h.unit == s.opt.openNow.toNat

/-- SNAPSHOT_FREEZE: every page of the ranges is held in its committed version, the CONTROL bytes are captured, and
bytes of unmapped pages are counted (R297; 04_seam_hoist.md R118). -/
def State.snapFreeze (s : State) (n : SnapId) : State :=
  let t := s.snap n
  let c := ctxOf t.ctx.toNat
  match s.ctx? c with
  | none => s
  | some x =>
    if t.state != 1 || s.openInProgress t.list then s
    else
      let held := (shardPages t.list).foldl (fun (m : Assoc DWord) v =>
        let p := x.pt.getD v 0
        if pteState p == psUnmapped || 5 < pteState p then m
        else m.put v (if pteState p == psResident then pteMove p psFrozen (locSeam (pteFrame p)) else p)) []
      let fs := held.filterMap fun e => if pteState e.2 == psFrozen then some (pteFrame e.2) else none
      let g := fun (p : DWord) =>
        if pteState p == psResident && fs.contains (pteFrame p) then pteMove p psFrozen (locSeam (pteFrame p)) else p
      let control := (t.list.zipIdx.filter fun e => e.1.kind == 2).foldl (fun (m : Assoc (List Byte)) e =>
        m.put e.2 (s.controlBytes e.1.unit)) []
      let lost := ((t.list.filter (·.isRange)).map fun h => x.unmapped h.va h.len).foldl (· + ·) 0
      let s := (s.modCtx c fun x => x.mapPtes g).modSnap n fun t => { t with
        state := 2, held := held, control := control, ht := s.ht, modGen := s.lnk.gen }
      s.violations c lost false

def execSnapshotFreeze (slot : SnapId) (s : State) : Host.Outcome State Fault Refusal := .next (s.snapFreeze slot)

/-! ## Held pages (R300) -/

/-- What tells a held page from others: its Seam page, its far page, or, POISONED, its virtual page. -/
def heldId (ctx : Nat) (e : Nat × DWord) : Nat × Nat × Nat :=
  if pteState e.2 == psFar then (1, ctx, pteSlot e.2 * 512 + pteSlotPage e.2)
  else if pteState e.2 == psPoisoned then (2, ctx, e.1)
  else (0, 0, pteFrame e.2)

/-- SNP_FROZEN: pages held, attached or detached, each counted once. -/
def State.heldPages (s : State) : Nat :=
  (s.snp.slots.toList.flatMap fun t => t.held.map (heldId t.ctx.toNat)).eraseDups.length

/-- The pages a snapshot still needs are those listed; the others are released, and one that no snapshot holds any more
is RESIDENT again where it is still mapped. -/
def State.keepHeld (s : State) (n : SnapId) (need : List Nat) : State :=
  let t := s.snap n
  let gone := t.held.filter fun e => !need.contains e.1
  let s := s.modSnap n fun t => { t with held := t.held.filter fun e => need.contains e.1 }
  let fs := (gone.filterMap fun e => if pteState e.2 == psFrozen then some (pteFrame e.2) else none).filter fun f => !s.heldBySnap f
  let g := fun (p : DWord) =>
    if pteState p == psFrozen && fs.contains (pteFrame p) then pteMove p psResident (locSeam (pteFrame p)) else p
  (s.modCtx (ctxOf t.ctx.toNat) fun x => x.mapPtes g).gcReplaced

/-! ## Shard records (R303) -/

/-- DETERMINISM, LOG2V and JOB as a record gives them. -/
def State.recordLog2v (s : State) (t : SnapSlot) : Nat :=
  match s.col.groups.toList.find? fun g => g.state != 0 && g.ctx == t.ctx && g.det == 2 with
  | some g => bits (fieldAt g.args 0 4) 12 8
  | none => 0

/-- Bytes 0x000 to 0x19F of a shard's record (Table 11.4). -/
def State.shardRecord (s : State) (x : Context) (t : SnapSlot) (h : Shard) (bytes : List Byte) : List Byte :=
  leBytes 4 0x53485244 ++ leBytes 4 (1 + h.kind * 2 ^ 16 + x.det.toNat * 2 ^ 18 + s.recordLog2v t * 2 ^ 20) ++
    leBytes 8 Config.serial.toNat ++ leBytes 4 t.modGen.toNat ++ leBytes 4 t.gen.toNat ++ leBytes 4 t.step.toNat ++
    leBytes 4 x.job.toNat ++ leBytes 8 h.id.toNat ++ leBytes 8 h.va ++ leBytes 8 bytes.length ++ leBytes 8 t.ht ++
    leBytes 8 s.ht ++ leBytes 4 h.slotOff ++ leBytes 4 0 ++ sha384 bytes ++ List.replicate 288 0

/-- The signature over a record's first bytes: 96 bytes that only the device key can make (log entry 34). -/
def State.signature (s : State) (signed : List Byte) : List Byte :=
  (List.range 96).map fun i => Config.signByte (sha384 signed) s.freeCtr i

/-- The host address of a window slot. -/
def Context.slotAddr (x : Context) (n : Nat) : Nat := ((x.slot? n).map fun w => w.addr.toNat).getD 0

/-- 512 bytes of the record slot are written. -/
def State.putRecord (s : State) (c : CtxId) (x : Context) (t : SnapSlot) (i : Nat) (bs : List Byte) : State :=
  (s.hostWrite (x.slotAddr t.record + 512 * i) bs).tallyHost c 512

/-! ## The end of a snapshot (R301, R303, R304) -/

/-- Zero records are written, and the data slot and RECORD_SLOT handed back. -/
def State.payDebt (s : State) (d : SnapDebt) : State :=
  match s.ctx? d.ctx with
  | none => s
  | some x =>
    let s := d.zeros.foldl (fun (s : State) i =>
      (s.hostWrite (x.slotAddr d.record + 512 * i) (List.replicate 512 0)).tallyHost d.ctx 512) s
    let s := match d.slot with
      | some n => s.handback d.ctx n 0 0
      | none => s
    s.handback d.ctx d.record (512 * d.count) 0

/-- What the snapshots of a function owe is paid once it may issue requests. -/
def State.payDebts (s : State) (fn : FnId) : State :=
  if s.mayRequest fn then
    let due := s.snp.debts.filter fun d => (s.ctx? d.ctx).any (·.fn == fn)
    due.foldl (fun (s : State) d => s.payDebt d)
      { s with snp.debts := s.snp.debts.filter fun d => !(s.ctx? d.ctx).any (·.fn == fn) }
  else s

/-- A snapshot ends: its unfinished shards fail with the status given, the data slot it writes and RECORD_SLOT are handed
back, the held pages released and SNAP_DONE raised. -/
def State.snapEnd (s : State) (n : SnapId) (st : Byte) : State :=
  let t := s.snap n
  let c := ctxOf t.ctx.toNat
  let left := (List.range t.list.length).drop t.done
  let final := if t.status != stOk then t.status else if left.isEmpty then stOk else st
  let debt := { ctx := c, record := t.record, count := t.list.length, zeros := left, slot := t.writing : SnapDebt }
  let s := { s with snp.debts := s.snp.debts ++ [debt] }
  let s := match s.ctx? c with
    | some x => s.payDebts x.fn
    | none => s
  let s := { s.modSnap n (fun t => { t with state := 3, status := final, endHt := s.ht, writing := none }) with
    snp.shardsFail := satAdd s.snp.shardsFail left.length }
  (s.keepHeld n []).raise 0x80 n.val (leBytes 4 (final.toNat + t.ctx.toNat * 2 ^ 8) ++ leBytes 4 t.gen.toNat)

/-! ## Shards (R301) -/

/-- The shard's slot is owned by the device, or becomes so by the flag word read (R330). -/
def State.shardSlot (s : State) (c : CtxId) (h : Shard) (flag : List Byte) : Option State :=
  if h.writes then (s.acquire c h.slot flag).map fun s => s.modSlot c h.slot fun w => { w with busy := true } else some s

/-- The shard's bytes, from the held versions or as captured. -/
def State.shardBytes (s : State) (x : Context) (t : SnapSlot) (i : Nat) (h : Shard) : List Byte :=
  if h.kind == 2 then t.control.getD i []
  else (List.range h.len).map fun j => s.entryByte x (t.held.getD ((h.va + j) / pageSize) 0) ((h.va + j) % pageSize)

/-- A page of the shard is POISONED, or an uncorrectable error is met in one. -/
def SnapSlot.failsOn (t : SnapSlot) (h : Shard) (ue : List Nat) : Bool :=
  h.isRange && (shardPages [h]).any fun v =>
    let p := t.held.getD v 0
    pteState p == psPoisoned || ((pteState p == psFrozen || pteState p == psResident) && ue.contains (pteFrame p))

/-- SHARD_PROCESS: the next shard, once its slot is owned by the device. -/
def State.shardProcess (s : State) (n : SnapId) (flag : List Byte) (errs : SeamErrs) : State :=
  let t := s.snap n
  let c := ctxOf t.ctx.toNat
  match s.ctx? c, t.list[t.done]? with
  | some x, some h =>
    if t.state != 2 || !s.mayRequest x.fn then s
    else match s.shardSlot c h flag with
      | none => s
      | some s =>
        let fs := (shardPages [h]).filterMap fun v =>
          let p := t.held.getD v 0
          if h.isRange && pteState p == psFrozen then some (pteFrame p) else none
        let s := (errs.ue.filter fs.contains).foldl (fun s f => s.seamUe f) (s.seamCe errs.ce)
        let fail := t.failsOn h errs.ue
        let bs := s.shardBytes x t t.done h
        let at' := x.slotAddr h.slot + h.slotOff
        let s := if !h.writes then s
          else if fail then s.hostUndefined at' h.len
          else (s.hostWrite at' bs).tallyHost c bs.length
        let s := if h.isRange then s.tallySeam c bs.length else s
        let run := if h.writes then max t.runMax (h.slotOff + bs.length) else t.runMax
        let back := h.writes && (match t.list[t.done + 1]? with
          | some g => !(g.writes && g.slot == h.slot)
          | none => true)
        let s := if back then s.handback c h.slot run 0 else s
        let s := if fail then s.putRecord c x t t.done (List.replicate 512 0)
          else (s.putRecord c x t t.done (s.shardRecord x t h bs ++ s.signature (s.shardRecord x t h bs))).bumpFree
        let s := s.modSnap n fun t => { t with
          done := t.done + 1
          status := if fail && t.status == stOk then stFenced else t.status
          digested := if fail then t.digested else t.digested + bs.length
          written := if fail || !h.writes then t.written else t.written + bs.length
          runMax := if back then 0 else run
          writing := if back then none else if h.writes then some h.slot else t.writing }
        let s := { s with
          snp.shardsOk := if fail then s.snp.shardsOk else s.snp.shardsOk + 1
          snp.shardsFail := if fail then satInc s.snp.shardsFail else s.snp.shardsFail }
        let s := s.keepHeld n (shardPages (t.list.drop (t.done + 1)))
        if t.done + 1 == t.list.length then s.snapEnd n stOk else s
  | _, _ => s

def execShardProcess (slot : SnapId) (flag : List Byte) (hits : List SeamHit) (s : State) : Host.Outcome State Fault Refusal :=
  .next (s.shardProcess slot flag (s.seamErrs hits))

/-- The slot the next shard of a writing snapshot waits for, as long as the device does not hold it. -/
def State.waitsFor (s : State) (n : SnapId) : Option (CtxId × Nat) :=
  let t := s.snap n
  let c := ctxOf t.ctx.toNat
  match s.ctx? c, t.list[t.done]? with
  | some x, some h =>
    if t.state == 2 && h.writes && !(x.slot? h.slot).any (fun w : WinSlot => w.held.isSome) then some (c, h.slot) else none
  | _, _ => none

/-- SLOT_FLAG_POLL: a waiting snapshot re-reads the flag word; a slot the host has given becomes device-held (R330). -/
def State.flagPoll (s : State) (n : SnapId) (flag : List Byte) : State :=
  match s.waitsFor n with
  | some (c, k) =>
    if !(s.ctx? c).any fun x => s.mayRequest x.fn then s
    else match s.acquire c k flag with
      | some s => (s.modSlot c k fun w => { w with busy := true }).modSnap n fun t => { t with writing := some k }
      | none => s
  | none => s

def execSlotFlagPoll (slot : SnapId) (flag : List Byte) (s : State) : Host.Outcome State Fault Refusal :=
  .next (s.flagPoll slot flag)

/-- SNAPSHOT_WAIT_EXPIRY: a wait of WAIT_MS ends the snapshot with TIMEOUT (R302; 13_reset_health.md R361). -/
def State.snapTimeout (s : State) (n : SnapId) : State :=
  if (s.waitsFor n).isSome then (s.snapEnd n stTimeout).canaryEvent 0x05 n.val else s

def execSnapshotWaitExpiry (slot : SnapId) (s : State) : Host.Outcome State Fault Refusal := .next (s.snapTimeout slot)

/-- CANCEL: a write of SNP_S_CTRL.CANCEL, ignored unless the snapshot is freezing or writing (R304);
a free slot obeys the silent rule. -/
def State.snapCancel (s : State) (n : SnapId) : State := 
  if (s.snap n).state == 0 then s.regViol else if (s.snap n).live then s.snapEnd n stKilled else s

def execCancel (slot : SnapId) (s : State) : Host.Outcome State Fault Refusal := .next (s.snapCancel slot)

/-- SNAPSHOT_RELEASE: an ended slot is free. -/
def State.snapRelease (s : State) (n : SnapId) : State :=
  if (s.snap n).state == 0 then s.regViol else if (s.snap n).state == 3 then s.modSnap n fun _ => snapSlotReset else s

def execSnapshotRelease (slot : SnapId) (s : State) : Host.Outcome State Fault Refusal := .next (s.snapRelease slot)

/-! ## Mailbox requests (R313) -/

/-- SNAP_READ: a free slot reads all zeros. -/
def State.snapRead (s : State) : State :=
  s.mbxRun 0x91 fun s =>
    if s.argReserved 3 then s.mbxFail stBad
    else
      let t := s.snap (Fin.ofNat 8 (s.mbxArg 0))
      s.mbxOk (leBytes 8 t.ht ++ leBytes 8 t.digested ++ leBytes 8 t.written ++ leBytes 8 t.endHt)

def execSnapRead (s : State) : Host.Outcome State Fault Refusal := .next s.snapRead

/-- DIGEST_SLOT: `flag` is the slot's flag word and `data` the bytes of the range as read; the arguments stand as log entry
35 says. It waits while the function may not issue requests (R316). -/
def State.digestSlot (s : State) (flag data : List Byte) (portFault : Bool) : State :=
  s.mbxRun 0x92 fun s =>
    let w0 := s.mbxArg 0
    let c := ctxOf (bits w0 7 0)
    let n := bits w0 31 16
    let off := fieldAt s.mbxBytes 8 8
    let len := fieldAt s.mbxBytes 16 8
    if bits w0 15 8 != 0 || s.mbxArg 1 != 0 || 2 ^ 30 < len then s.mbxStatus stBad
    else match (s.ctx? c).bind fun x => x.slot? n with
      | none => s.mbxStatus stBad
      | some w =>
        if w.p2p || w.size < off + len then s.mbxStatus stBad
        else if !(s.ctx? c).any fun x => s.mayRequest x.fn then s
        else match s.acquire c n flag with
          | none => s.mbxStatus stBad
          | some s =>
            if portFault then s.mbxStatus stFenced
            else (s.tallyHost c len).mbxOk (leBytes 4 stOk.toNat ++ sha384 (slice data 0 len))

def execDigestSlot (flag data : List Byte) (portFault : Bool) (s : State) : Host.Outcome State Fault Refusal :=
  .next (s.digestSlot flag data portFault)

end Sys2Proof.Machine
end

