-- ==== Sys2Proof/Machine/Ports.lean ====
section
/-! DEFINITION. The host ports, the mailbox's control, the Sieve's timers and claims, and the event rings
(12_host_attachment.md R316, R324, R339 to R351). -/

namespace Sys2Proof.Machine

/-! ## Port 1 (R340) -/

/-- A PORT_FENCE event (Table 12.17). -/
def State.portEvent (s : State) (cause : BitVec 4) (on : Bool) : State :=
  s.raise 0xC0 1 (leBytes 4 (cause.toNat + b2n on * 2 ^ 4))

/-- Port 1 is fenced; every cause but Bus Master Enable 0 and D3hot sets P1_FENCE. -/
def State.fencePort1 (s : State) (cause : BitVec 4) (setReg : Bool) : State :=
  let s := { s with hub.p1FenceReg := s.hub.p1FenceReg || setReg }
  if s.hub.p1Fenced then s
  else { s with hub.p1Fenced := true, port1.draining := some cause, port1.lastCause := cause }

/-- Port 1 carries window traffic again once its link is up, Bus Master Enable is 1 and P1_FENCE is 0; the
event of its return follows a fence, not the link's first coming up (log entry 70). -/
def State.port1Return (s : State) : State :=
  if s.hub.p1Fenced && s.hub.p1Up && s.port1.busMaster && !s.port1.d3hot && !s.hub.p1FenceReg && s.port1.draining.isNone then
    let t := { s with hub.p1Fenced := false }
    if s.port1.lastCause = 0 then t else t.portEvent s.port1.lastCause false
  else s

/-- A write of HUB_PORT_CTRL.P1_FENCE. -/
def State.writeP1Fence (s : State) (on : Bool) : State :=
  if on then s.fencePort1 1 true else { s with hub.p1FenceReg := false }.port1Return

def execP1Fence (on : Bool) (s : State) : Host.Outcome State Fault Refusal := .next (s.writeP1Fence on)

def State.port1Down (s : State) : State := { s with hub.p1Up := false, hub.p1Gen := 0, hub.p1Width := 0 }

def execHp1PerstN (s : State) : Host.Outcome State Fault Refusal := .next (s.port1Down.fencePort1 6 true)

/-- PORT1_HOT_RESET: a Hot Reset or DL_Down takes the link down; a function level reset does not. -/
def execPort1HotReset (what : P1Event) (s : State) : Host.Outcome State Fault Refusal :=
  .next (match what with
    | .hotReset => s.port1Down.fencePort1 2 true
    | .dlDown => s.port1Down.fencePort1 3 true
    | .flr => s.fencePort1 5 true)

/-- PORT1_FENCE_DRAINED: the requests in flight are abandoned; what becomes of their work is in its own commands. -/
def State.port1Drained (s : State) : State :=
  match s.port1.draining with
  | some cause => ({ s with port1.draining := none }.portEvent cause true).port1Return
  | none => s

def execPort1FenceDrained (s : State) : Host.Outcome State Fault Refusal := .next s.port1Drained

/-! ## Bus Master Enable and links (R316, R322) -/

/-- Records that waited for a function are written, and what its ended snapshots owe. -/
def State.flushFn (s : State) (fn : FnId) : State :=
  (s.contexts.foldl (fun s e => if e.2.fn == fn then s.flushRecords e.1 else s) s).payDebts fn

/-- BUS_MASTER_DISABLE: Bus Master Enable is 0, or the function enters D3hot. -/
def State.busMasterOff (s : State) (fn : PortFn) (d3hot : Bool) : State :=
  match fn with
  | .port0 f => { s with fns := vmod s.fns f fun x => if d3hot then { x with d3hot := true } else { x with busMaster := false } }
  | .data =>
    (if d3hot then { s with port1.d3hot := true } else { s with port1.busMaster := false }).fencePort1 5 false

def execBusMasterDisable (fn : PortFn) (d3hot : Bool) (s : State) : Host.Outcome State Fault Refusal :=
  .next (s.busMasterOff fn d3hot)

/-- BUS_MASTER_ENABLE: Bus Master Enable is 1, or the function returns from D3hot; what waited goes on. A VF whose Bus Master
Enable is written is one that PF0's VF Enable has made (log entry 39). -/
def State.busMasterOn (s : State) (fn : PortFn) (d3hot : Bool) : State :=
  match fn with
  | .port0 f =>
    ({ s with fns := vmod s.fns f fun x => if d3hot then { x with d3hot := false } else { x with busMaster := true, enabled := true } }).flushFn f
  | .data => (if d3hot then { s with port1.d3hot := false } else { s with port1.busMaster := true }).port1Return

def execBusMasterEnable (fn : PortFn) (d3hot : Bool) (s : State) : Host.Outcome State Fault Refusal :=
  .next (s.busMasterOn fn d3hot)

/-- PCIE_LINK_UP: a host port's link comes up at Gen 5, 6 or 7 and x16, x8 or x4 (R314), once its die is powered and out of
reset and, on port 0, PERST_N is deasserted; INIT then gives way to HOST_WAIT (14_identity_service.md R380;
15_power_bringup.md R412, Table 15.6). -/
def State.pcieLinkUp (s : State) (port1 : Bool) (gen : BitVec 3) (width : BitVec 5) : State :=
  if !genOk gen || !widthOk width || !s.pwr.mainOn || s.pwr.hold != .none || s.sec.islandOnly then s
  else
    let t := { s with pwr.stage := if s.pwr.stage = 4 then 5 else s.pwr.stage }
    if port1 then { t with hub.p1Up := true, hub.p1Gen := gen, hub.p1Width := width }.port1Return
    else if s.perst then s
    else { t with hub.p0Up := true, hub.p0Gen := gen, hub.p0Width := width }

def execPcieLinkUp (port1 : Bool) (gen : BitVec 3) (width : BitVec 5) (s : State) : Host.Outcome State Fault Refusal :=
  .next (s.pcieLinkUp port1 gen width)

/-! ## Completions (R341) -/

/-- A dispatched Hoist command of a context that uses a slot ends with TIMEOUT. -/
def State.hoistTimeout (s : State) (c : CtxId) (ops : List Nat) : State :=
  match (s.ctx? c).bind fun x => x.cmds.find? fun k => k.isHoist && k.dispatched && ops.contains k.subop with
  | some k => s.endWith c k.seq stTimeout 0
  | none => s

def State.stopCtx (s : State) (c : CtxId) : State := s.modCtx c fun x => { x with stop := true }

/-- A page-in that cannot read its far copy: the page stands FAR again, and the commands that stall on it end. -/
def State.pageInTimeout (s : State) (c : CtxId) (vpn : Nat) : State :=
  match s.hst.pageIns.find? fun p => p.ctx == c && p.vpn == vpn with
  | none => s
  | some p =>
    let g := fun (q : DWord) => if pteAt p.frame q then pteMove q psFar (locFar p.slot p.page) else q
    let s := ((s.modCtx c fun x => x.mapPtes g).mapHeld g).releaseFrame p.frame
    let s := { s with hst.pageIns := s.hst.pageIns.filter fun q => q.frame != p.frame }
    match s.ctx? c with
    | none => s
    | some x => (x.cmds.filter fun k => k.stalled.contains vpn).foldl (fun s k => s.endWith c k.seq stTimeout k.opNumber) s

/-- The work that a second timeout on port 0 ends. -/
def State.workTimeout (s : State) (w : TimedWork) : State :=
  match w with
  | .ringFetch c => s.stopCtx c
  | .flagRead c w => (s.workTimeout w).stopCtx c
  | .load c => s.hoistTimeout c [4]
  | .farslotAdd c => s.hoistTimeout c [5]
  | .transfer c desc =>
    match (s.ctx? c).bind fun x => x.window.map fun w => (x, w) with
    | some (x, w) =>
      if s.mayTransfer x w then
        s.modWindow c fun w => { w with
          head := w.head + 1
          transfers := [{ seq := w.head, desc := slice desc 0 64, status := some stTimeout, written := 0 }] }
      else s
    | none => s
  | .paging c vpn => s.pageInTimeout c vpn
  | .snapshot n => if (s.snap n).live then (s.snapEnd n stTimeout).stopCtx (ctxOf (s.snap n).ctx.toNat) else s
  | .mailbox => if s.mbx.busy then s.mbxStatus stTimeout else s
  | .other => s

/-- COMPLETION_TIMEOUT. -/
def State.completionTimeout (s : State) (port1 second : Bool) (w : TimedWork) : State :=
  let s := { s with hub.cplTimeout := satInc s.hub.cplTimeout }
  if port1 then s.fencePort1 4 true
  else if second then s.workTimeout w
  else s

def execCompletionTimeout (port1 second : Bool) (work : TimedWork) (s : State) : Host.Outcome State Fault Refusal :=
  .next (s.completionTimeout port1 second work)

/-- STRAY_COMPLETION: discarded, counted and logged in AER. -/
def execStrayCompletion (fn : PortFn) (s : State) : Host.Outcome State Fault Refusal :=
  .next (match fn with
    | .port0 f => { s with
        hub.strayCpl := satInc s.hub.strayCpl
        fns := vmod s.fns f fun x => { x with aerUnexpected := true } }
    | .data => { s with hub.strayCpl := satInc s.hub.strayCpl, port1.aerUnexpected := true })

/-! ## The mailbox (R324) -/

/-- Codes that name a request (Tables 12.7, 13.13, 14.11, 15.9). -/
def mailboxCodes : List Nat :=
  [0x10, 0x11, 0x12, 0x21, 0x30, 0x31, 0x40, 0x41, 0x42, 0x50, 0x51, 0x52, 0x53, 0x54, 0x55, 0x60, 0x61, 0x70, 0x80, 0x81, 0x82,
   0x90, 0x91, 0x92, 0xA0, 0xA1, 0xA2, 0xD0, 0xD1, 0xD4, 0xD5, 0xD8, 0xD9, 0xF0, 0xF1]

/-- GO: the request named in CODE starts; ignored while BUSY is 1. -/
def State.mbxGo (s : State) : State :=
  if s.mbx.busy then s
  else { s with
    mbx.busy := true
    mbx.valid := false
    mbx.running := s.mbx.code
    mbx.htGo := s.tkp.ht
    mbx.stGo := s.tkp.state }

/-- ACK clears VALID. -/
def State.mbxAck (s : State) : State := { s with mbx.valid := false }

def execMbxAck (s : State) : Host.Outcome State Fault Refusal := .next s.mbxAck

/-- MBX_RESERVED_CODE: a request with a reserved or unknown code ends with BAD_DESCRIPTOR and LEN 0. -/
def State.mbxReserved (s : State) : State :=
  if s.mbx.busy && !mailboxCodes.contains s.mbx.running.toNat then
    s.mbxFail (if s.mbx.fenced then stFenced else stBad)
  else s

def execMbxReservedCode (s : State) : Host.Outcome State Fault Refusal := .next s.mbxReserved

/-! ## The Sieve (R343, R344) -/

/-- IRQ_COALESCE_TIMER: US µs after the source's first event. -/
def State.irqTimer (s : State) (src : Nat) : State :=
  let i : Fin 512 := Fin.ofNat 512 src
  match vget s.irq.first i with
  | some t =>
    if s.irq.enable.getLsbD i.val then
      let due := t + 1000 * (vget s.irq.cfg i).micros
      (s.pass (due - s.now)).irqPend i.val
    else s
  | none => s

def execIrqCoalesceTimer (src : BitVec 9) (s : State) : Host.Outcome State Fault Refusal := .next (s.irqTimer src.toNat)

/-- MSIX_HELD_SEND: MSI-X is enabled in the configuration space of the source's function, and its message leaves as soon as
the vector is unmasked and the function may issue requests (log entry 36). -/
def State.msixHeld (s : State) (src : Nat) : State :=
  let fn := (s.irqRoute src).1
  { s with fns := vmod s.fns fn fun x => { x with msixEnable := true } }.irqSend src

def execMsixHeldSend (src : BitVec 9) (s : State) : Host.Outcome State Fault Refusal := .next (s.msixHeld src.toNat)

/-- IRQ_CLAIM.GO with SRC. -/
def State.irqClaim (s : State) (src : BitVec 9) : State := { s with irq.claimSrc := src }.irqClear src.toNat

def execIrqClaim (src : BitVec 9) (s : State) : Host.Outcome State Fault Refusal := .next (s.irqClaim src)

/-! ## Event rings (R349 to R351) -/

def State.modRing (s : State) (r : RingId) (f : EventRing → EventRing) : State := { s with evr := vmod s.evr r f }

/-- EVR_CFG.EN from 0 to 1. -/
def EventRing.enable (r : EventRing) : EventRing :=
  if r.en then r else { r with en := true, tail := 0, head := 0, fifo := [], marker := none }

/-- EVR_CFG.EN from 1 to 0. -/
def EventRing.disable (r : EventRing) : EventRing :=
  if r.en then { r with en := false, drops := satAdd r.drops r.fifo.length, fifo := [], marker := none } else r

def execEventRingEnable (ring : RingId) (s : State) : Host.Outcome State Fault Refusal := .next (s.modRing ring EventRing.enable)
def execEventRingDisable (ring : RingId) (s : State) : Host.Outcome State Fault Refusal := .next (s.modRing ring EventRing.disable)

/-- A write of EVR_HEAD. -/
def State.evrHead (s : State) (r : RingId) (v : Word) : State :=
  let q := vget s.evr r
  if headOk v q.tail q.head then s.modRing r fun q => { q with head := v } else s.regViol

def execEvrHeadWrite (ring : RingId) (value : Word) (s : State) : Host.Outcome State Fault Refusal := .next (s.evrHead ring value)

/-- The ring is on, has room, and port 0 carries PF0's requests. -/
def State.ringOpen (s : State) (r : RingId) : Bool :=
  let q := vget s.evr r
  q.en && (q.tail - q.head).toNat < q.size && s.mayRequest 0

/-- The 64 bytes of an event record (Table 12.16). -/
def eventRecord (e : Event) (tail : Word) (size : Nat) : List Byte :=
  leBytes 4 (e.code.toNat + b2n (phaseOf tail size) * 2 ^ 31) ++ leBytes 4 (e.subject.toNat + tail.toNat % 65536 * 2 ^ 16) ++
    leBytes 8 e.ht.toNat ++ slice e.payload 0 48

/-- A record is written at the ring's tail, and its Sieve source has an event. -/
def State.putEvent (s : State) (r : RingId) (e : Event) : State :=
  let q := vget s.evr r
  let base := q.baseLo.toNat + q.baseHi.toNat * 2 ^ 32
  let s := s.hostWrite (base + 64 * (q.tail.toNat % q.size)) (eventRecord e q.tail q.size)
  (s.modRing r fun q => { q with tail := q.tail + 1 }).irqEvent (320 + r.val)

/-- EVENT_RECORD_WRITE: the event at the front of the FIFO, unless the marker stands before it. -/
def State.eventWrite (s : State) (r : RingId) : State :=
  let q := vget s.evr r
  match q.fifo with
  | [] => s
  | e :: rest =>
    if !s.ringOpen r || q.marker.any (fun m => m.ahead == 0) then s
    else
      let s := s.modRing r fun q => { q with
        fifo := rest
        marker := q.marker.map fun m : Marker => { m with ahead := m.ahead - 1 } }
      s.putEvent r e

def execEventRecordWrite (ring : RingId) (s : State) : Host.Outcome State Fault Refusal := .next (s.eventWrite ring)

/-- OVERFLOW_RECORD: the marker, once every event ahead of it is written. -/
def State.overflowWrite (s : State) (r : RingId) : State :=
  let q := vget s.evr r
  match q.marker with
  | some m =>
    if m.ahead != 0 || !s.ringOpen r then s
    else
      (s.modRing r fun q => { q with marker := none }).putEvent r
        { code := 1, subject := 0, ht := m.firstHt
          payload := leBytes 4 m.count.toNat ++ leBytes 4 0 ++ leBytes 8 m.firstHt.toNat ++ leBytes 8 m.lastHt.toNat }
  | none => s

def execOverflowRecord (ring : RingId) (s : State) : Host.Outcome State Fault Refusal := .next (s.overflowWrite ring)

end Sys2Proof.Machine
end

