-- ==== Sys2Proof/Machine/Destroy.lean ====
section
/-! DEFINITION. The end of a context: CTX_DESTROY and function level resets (05_commands.md R129, R130, R151;
12_host_attachment.md R316, R332). -/

namespace Sys2Proof.Machine

/-- The pages a context's handles and tables still hold are released; POISONED ones stay withheld, charged to nobody (R89, R101). -/
def State.releasePages (s : State) (c : CtxId) : State :=
  match s.ctx? c with
  | none => s
  | some x =>
    let s := x.handles.foldl (fun (s : State) h => s.freeHandle c h.1) s
    let s := x.handles.foldl (fun (s : State) h => s.releaseHandle c h.1) s
    match s.ctx? c with
    | none => s
    | some y =>
      let s := y.tables.foldl (fun (s : State) t => s.releaseFrame t.2) s
      y.pt.foldl (fun (s : State) p =>
        if pteState p.2 == psPoisoned then s.uncharge y p.1 p.2
        else if (s.frames.get? (pteFrame p.2)).any fun e => e.use == .page && e.charge == some y.fn && pteState p.2 != psFar then
          s.releaseFrame (pteFrame p.2)
        else s) s

/-- What the module holds of a context goes: pages, models and streams, training units, bindings, page-ins, a capture into its
window, and its number (R129; 06_scheduling_streams.md R167, R172; 07_training.md R190; 10_collectives.md R264). -/
def State.forgetContext (s : State) (c : CtxId) : State :=
  let s := (s.releasePages c).streamsCtxGone c
  let bound := fun (t : TrainUnit) => t.valid && t.ctx.toNat == c.val
  { s with
    opt.tracked := s.opt.tracked.filter fun e => !bound (vget s.opt.units e.2.unit)
    opt.units := s.opt.units.map fun t => if bound t then { t with valid := false } else t
    fld.capState := if s.fld.capRun.any (fun (r : Byte × BitVec 16) => r.1.toNat == c.val) then 0 else s.fld.capState
    fld.capAsk := s.fld.capAsk && s.fld.capCtx.toNat != c.val
    fld.image := s.fld.image.filter fun m => m.ctx != c
    fld.capRun := s.fld.capRun.filter fun (r : Byte × BitVec 16) => r.1.toNat != c.val
    seam.autoMask := s.seam.autoMask.filter (·.1 != c)
    col.bound := s.col.bound.filter (· != c.val)
    snp.debts := s.snp.debts.filter (·.ctx != c)
    hst.pageIns := s.hst.pageIns.filter fun p => p.ctx != c
    sch.intervalNs := s.sch.intervalNs.del c.val
    ctxs := vset s.ctxs c none }.gcReplaced

/-- The snapshots of a context that have not ended. -/
def State.snapsOf (s : State) (c : CtxId) : List SnapId :=
  (List.finRange 8).filter fun n => (s.snap n).live && (s.snap n).ctx.toNat == c.val

/-- The groups of a context. -/
def State.groupsOf (s : State) (c : CtxId) : List GroupId :=
  (List.finRange 64).filter fun g => (s.group g).state != 0 && (s.group g).ctx.toNat == c.val

/-! ## CTX_DESTROY (R129, R151) -/

/-- Fetch stops, dispatched FIELD commands and STEPs are killed, undispatched commands dropped, snapshots cancelled and groups
ended. -/
def State.destroyBegin (s : State) (c : CtxId) : State :=
  let s := s.modCtx c fun x => { x with destroying := true, cmds := x.cmds.filter fun k => k.dispatched || k.finished }
  let ks := ((s.ctx? c).map fun x => x.cmds).getD []
  let s := (ks.foldl (fun (s : State) k => s.requestKill c k.seq .destroy) s).settle
  let s := (s.snapsOf c).foldl (fun (s : State) n => s.snapCancel n) s
  (s.groupsOf c).foldl (fun (s : State) g => s.endGroup g) s

/-- Every device-held slot of the context goes back with LEN 0, if port 0 carries its requests (R332). -/
def State.handbackAll (s : State) (c : CtxId) (x : Context) : State :=
  match x.window with
  | some w =>
    if s.mayRequest x.fn then
      (w.slots.filter fun e => e.2.held.isSome).foldl (fun (s : State) e => s.handback c e.1 0 0)
        (s.modCtx c fun x => { x with farPool := [] })
    else s
  | none => s

/-- Slots are still to go back through port 0, which is up, but the function may not issue requests: the request waits (R332;
12_host_attachment.md R316). -/
def State.handbackWaits (s : State) (x : Context) : Bool :=
  s.hub.p0Up && !s.rst.hostFenced && !s.mayRequest x.fn && x.window.any fun w => w.slots.any fun e => e.2.held.isSome

/-- The context's last dispatched command has ended: its Tally is written, its slots go back, and it is forgotten. -/
def State.destroyEnd (s : State) (c : CtxId) (x : Context) : State :=
  (((s.tallyEvent c).handbackAll c x).forgetContext c).settle

/-- CTX_DESTROY. The request ends once no command of the context is left; until then the row repeats its first part (log entry
40). -/
def State.ctxDestroy (s : State) : State :=
  s.mbxRun 0x31 fun s =>
    let c := ctxOf (s.mbxArg 0)
    if s.argReserved 8 || (s.ctx? c).isNone then s.mbxStatus stBad
    else
      let s := s.destroyBegin c
      match s.ctx? c with
      | some x => if x.cmds.isEmpty && !s.handbackWaits x then (s.destroyEnd c x).mbxStatus stOk else s
      | none => s

def execCtxDestroy (s : State) : Host.Outcome State Fault Refusal := .next s.ctxDestroy

/-! ## Function level resets (R316, R130) -/

/-- A group goes without records. -/
def State.dropGroup (s : State) (g : GroupId) : State :=
  let s := (s.group g).scratch.foldl (fun (s : State) f => s.releaseFrame f) s
  s.modGroup g fun _ => groupReset

/-- A context goes without completion records: its commands leave the Field and their shadows are discarded. -/
def State.dropContext (s : State) (c : CtxId) : State :=
  match s.ctx? c with
  | none => s
  | some x =>
    let s := x.cmds.foldl (fun (s : State) k => (s.leaveField c k.seq (.ctx c)).discard c k.seq) s
    let s := s.modCtx c fun x => { x with cmds := [], ends := [] }
    let s := (s.snapsOf c).foldl (fun (s : State) n => s.snapCancel n) s
    let s := (s.groupsOf c).foldl (fun (s : State) g => s.dropGroup g) s
    s.forgetContext c

/-- The contexts of the functions `p` picks. -/
def State.dropContexts (s : State) (p : FnId → Bool) : State :=
  (s.contexts.filter fun e => p e.2.fn).foldl (fun (s : State) e => s.dropContext e.1) s

/-- VF_FLR: the VF's own configuration returns to its reset values, and its contexts go. -/
def State.vfFlr (s : State) (vf : FnId) : State :=
  if vf = 0 || !(vget s.fns vf).enabled then s
  else ({ s with fns := vset s.fns vf { funcReset with enabled := true } }.dropContexts (· == vf)).settle

def execVfFlr (vf : FnId) (s : State) : Host.Outcome State Fault Refusal := .next (s.vfFlr vf)

/-- PF0_FLR: every VF and every context goes, the event rings are disabled and a mailbox request is abandoned. -/
def State.pf0Flr (s : State) : State :=
  let s := ({ s with fns := fnsReset }.dropContexts fun _ => true).settle
  { s with evr := s.evr.map EventRing.disable, mbx.busy := false }

def execPf0Flr (s : State) : Host.Outcome State Fault Refusal := .next s.pf0Flr

end Sys2Proof.Machine
end

