-- ==== Sys2Proof/Machine/Frames.lean ====
section
/-! DEFINITION. Frame boundaries and slot starts: what applies from the next frame, verification, parent loss, plan
choice, and what the links carry slot by slot (08_hall_time.md R223 to R232, 09_links.md R253, 10_collectives.md R267 to
R270). -/

namespace Sys2Proof.Machine

/-! ## What applies from a frame boundary -/

/-- A change of ROLE (R223): a master keeps its counter as it stands and is LOCKED; a former master waits for its parent
link. -/
def State.applyRole (s : State) : State :=
  if s.tkp.role == s.tkp.roleEff then s
  else if s.tkp.role then
    let s := { s with tkp.roleEff := true, tkp.stepBy := none, tkp.owed := 0, tkp.toAcquire := false
                      tkp.holdoverOver := false, tkp.goodRow := 0 }
    if s.tkp.state == tkUnlocked then s else { s with tkp.state := tkLocked }
  else
    let wait := s.tkp.state == tkRack || s.tkp.state == tkLocked
    { s with tkp.roleEff := false, tkp.toAcquire := wait }

/-- TKP_GUARD, FABRIC, LNK_SLICE_EN and BE_START take effect (R229; 01_module.md R24; 09_links.md R254; 10_collectives.md
R270), and what the discovery payload shows of them is sent and evaluated. -/
def State.applySettings (s : State) : State :=
  let s := { s with
    tkp.guardEff := guardOf s.tkp.guard
    profile.fabricEff := s.profile.fabric
    lnk.sliceEff := s.lnk.sliceEn
    lnk.beEff := s.beStart }
  s.announce.evaluateAll

/-- The link fences that begin (13_reset_health.md R358). -/
def State.applyFences (s : State) : State :=
  let new := s.rst.lfence &&& s.rst.lfencePend
  let s := { s with rst.lfencePend := 0 }
  (List.finRange 24).foldl (fun s l =>
    if new.getLsbD l.val then
      { s with tkp.links := vmod s.tkp.links l fun t => { t with verified := false } }.fenceEvent 1 l.val true
    else s) s

/-! ## Verification and parents (R226, R230) -/

/-- An exchange has been valid within the last 4 frames. -/
def LinkTime.valid (t : LinkTime) : Bool := (t.sinceValid.map fun n => decide (n ≤ 4)).getD false

/-- What R230 asks of a link at a frame boundary; the partners' states are those of their exchange, and this module's own
now as well (Table 8.6). -/
def State.verifies (s : State) (l : LinkId) : Bool :=
  let t := vget s.tkp.links l
  usableState (s.link l).state && !s.linkOut l && !(s.link l).beOnly && within t.theta2 s.tkp.guardEff && t.valid &&
    t.partnerOk && t.ownOk && s.timeGood

/-- A frame passes since each link's last valid exchange, and verification is gained or lost. A link that only this boundary
made usable can be verified at the one that follows (09_links.md R254). -/
def State.verifyLinks (s before : State) : State :=
  let s := { s with tkp.links := s.tkp.links.map fun t : LinkTime => { t with sinceValid := t.sinceValid.map (· + 1) } }
  { s with tkp.links := Vector.ofFn fun l => { vget s.tkp.links l with verified := s.verifies l && before.linkUsable l } }

/-- A follower's parent link stops carrying valid exchanges, or a verified one ends HOLDOVER (R226). -/
def State.parentCheck (s : State) : State :=
  let ok := fun (n : BitVec 5) => (vget s.tkp.links (linkOf n.toNat)).valid
  let ver := fun (n : BitVec 5) => (vget s.tkp.links (linkOf n.toNat)).verified
  if s.tkp.roleEff then s
  else if s.tkp.state == tkLocked then
    if s.tkp.toAcquire || ok s.tkp.parentUsed then s
    else if s.tkp.altEn && ver s.tkp.altParent then { s with tkp.parentUsed := s.tkp.altParent }
    else s.enterHoldover
  else if s.tkp.state == tkAcquire then
    if ok s.tkp.parentUsed then s
    else if s.tkp.altEn && ok s.tkp.altParent && s.tkp.parentUsed != s.tkp.altParent then
      { s with tkp.parentUsed := s.tkp.altParent }
    else { s with tkp.parentUsed := s.tkp.parent }
  else if s.tkp.state == tkHoldover && ver s.tkp.parentUsed then { s with tkp.state := tkLocked }
  else s

/-- The step an exchange in ACQUIRE asked for is made in this frame, with its event (R226). -/
def State.timeStep (s : State) : State :=
  match s.tkp.stepBy with
  | none => s
  | some d =>
    let s := { s with
      tkp.stepBy := none
      tkp.ht := (((s.tkp.ht : Int) + d) % (2 : Int) ^ 68).toNat
      tkp.owed := 0
      tkp.steps := satInc s.tkp.steps }
    s.raise 0x42 s.tkp.parentUsed.toNat (leBytes 8 (BitVec.ofInt 64 d).toNat)

/-! ## Streams without a run go by BE (10_collectives.md R269, R277) -/

/-- The two BE flits of a stream flit: bytes 304 × PART to 304 × PART + 303 of its payload. -/
def bePart (g part : Nat) (f : Flit) : List Byte :=
  leBytes 2 g ++ leBytes 2 part ++ leBytes 4 f.seq.toNat ++ slice f.payload (304 * part) 304

/-- A stream flit is sent as two BE flits of CLASS COLLECTIVE. -/
def State.sendByBe (s : State) (t : Topo) (g : GroupId) (d : Nat) (f : Flit) : State :=
  let q := s.group g
  let one := fun (s : State) (part : Nat) =>
    let n := s.lnk.beSeq
    let b := mkFlit fkBe 1 s.lnk.sliceId.toNat (t.neighbour d) (t.x, t.y, t.z) ((vget q.gens (dirFin d)).toNat % 65536)
      (s.lnk.gen.toNat % 65536) 0 n (bePart g.val part f)
    let s := { s with lnk.beSeq := n + 1 }.queueBe b
    s.modGroup g fun q => { q with tx := vmod q.tx (dirFin d) fun y => { y with be := y.be ++ [(n, f.seq)] } }
  let s := one (one s 0) 1
  { s with col.beFlits := s.col.beFlits + 1 }

/-- A stream has a flit to send: one reported missing, or a new one while fewer than 8,192 are unacknowledged. -/
def StreamTx.canSend (y : StreamTx) : Bool := !y.again.isEmpty || (!y.ready.isEmpty && y.kept.length < 8192)

/-- The flit a stream sends next, and the stream then: those reported missing first, unchanged (R278). -/
def StreamTx.send (y : StreamTx) : Option Flit × StreamTx :=
  match y.again, y.ready with
  | q :: r, _ => (y.kept.find? fun f => f.seq == q, { y with again := r })
  | [], f :: r => if y.kept.length < 8192 then (some f, { y with ready := r, kept := y.kept ++ [f] }) else (none, y)
  | [], [] => (none, y)

/-- A group's stream gives up its next flit; one sent again is counted. -/
def State.streamSend (s : State) (g : GroupId) (d : Nat) : Option Flit × State :=
  let y := vget (s.group g).tx (dirFin d)
  let s := s.modGroup g fun q => { q with tx := vset q.tx (dirFin d) y.send.2 }
  (y.send.1, if y.again.isEmpty then s else { s with col.resent := s.col.resent + 1 })

/-- A stream sends what it has by BE, at most `n` flits. -/
def State.drainByBe (t : Topo) (g : GroupId) (d : Nat) : Nat → State → State
  | 0, s => s
  | n + 1, s =>
    match s.streamSend g d with
    | (some f, s) => State.drainByBe t g d n (s.sendByBe t g d f)
    | (none, s) => s

/-- Every stream of an active group that has data and no usable run sends it by BE, up to 8,192 unacknowledged flits. -/
def State.streamsByBe (s : State) : State :=
  match s.lnk.topo with
  | none => s
  | some t =>
    (List.finRange 64).foldl (fun s g =>
      let q := s.group g
      if q.state != 1 then s
      else
        let runs := if q.plan == 31 then [] else s.usableRuns q q.plan.toNat
        (boxDirs t q.args).foldl (fun s d =>
          if runs.any fun e => t.dirOf (linkOf e.link) == d then s
          else
            let y := vget (s.group g).tx (dirFin d)
            State.drainByBe t g d (y.again.length + y.ready.length) s) s) s

/-! ## FRAME_BOUNDARY -/

/-- The first boundary from hall time `t` on that has not passed as one yet. -/
def nextFrame (last : Option Nat) (t : Nat) : Nat := if last == some (frameFrom t) then frameFrom t + 10000 else frameFrom t

/-- The clock moves to the next frame boundary (log entry 5); a stopped counter stays. -/
def State.toFrame (s : State) : State :=
  if s.tkp.state == tkUnlocked then s
  else
    let f := nextFrame s.tkp.frameAt s.ht
    let s := s.passToHt f
    { s with tkp.frameAt := some f }

/-- FRAME_BOUNDARY. -/
def State.frameBoundary (s : State) : State :=
  let s := s.toFrame.applyRole
  (s.applySettings.applyFences.loopBegin.verifyLinks s).parentCheck.cmpFrame.choosePlans.streamsByBe.sendAcks.timeStep.tkpSettle

def execFrameBoundary (s : State) : Host.Outcome State Fault Refusal := .next s.frameBoundary

/-! ## SLOT_START (R228, R229, R232; 10_collectives.md R267, R268; 09_links.md R253) -/

/-- The first slot start from hall time `t` on. -/
def slotFrom (t : Nat) : Nat :=
  let i := (t % 10000 + 63) / 64
  if i ≤ 155 then t / 10000 * 10000 + 64 * i else (t / 10000 + 1) * 10000

/-- The first slot start from `t` on that has not passed as one yet. -/
def nextSlot (last : Option Nat) (t : Nat) : Nat := if last == some (slotFrom t) then slotFrom (slotFrom t + 1) else slotFrom t

/-- Flits that the slot `i` adds to a run that began at slot `r`. -/
def slotFlits (r i guard lanes : Nat) : Nat := runFlits (i + 1 - r) guard lanes - (if i = r then 0 else runFlits (i - r) guard lanes)

/-- Live lanes of a link. -/
def Link.lanes (k : Link) : Nat := ((List.range 16).filter fun i => k.lanesLive.getLsbD i).length

/-- The runs of active groups that cover a slot on a link and may be used. -/
def State.runsAt (s : State) (l : LinkId) (i : Nat) : List (GroupId × PlanEntry) :=
  (List.finRange 64).flatMap fun g =>
    let q := s.group g
    if q.state != 1 || q.plan == 31 then []
    else ((s.usableRuns q q.plan.toNat).filter fun e => e.link == l.val && e.slot ≤ i && i < e.slot + e.run).map (g, ·)

/-- Smooth weighted round robin among the groups of a slot, one flit at a time (R268). -/
def State.fillSlot (l : LinkId) (d : Nat) (gs : List GroupId) : Nat → State → State
  | 0, s => s
  | n + 1, s =>
    let live := gs.filter fun g => (vget (s.group g).tx (dirFin d)).canSend
    match live with
    | [] => s
    | g0 :: _ =>
      let total := (live.map fun g => ((s.group g).weight : Int)).foldl (· + ·) 0
      let s := live.foldl (fun s g => s.modGroup g fun q => { q with
        credit := vmod q.credit l (· + (q.weight : Int)) }) s
      let best := live.foldl (fun b g =>
        if vget (s.group b).credit l < vget (s.group g).credit l then g else b) g0
      let s := s.modGroup best fun q => { q with credit := vmod q.credit l (· - total) }
      match s.streamSend best d with
      | (some f, s) => State.fillSlot l d gs n (s.modLink l (·.emit f))
      | (none, s) => State.fillSlot l d gs n s

/-- A loaded plan gives the slot to the link. -/
def State.slotTaken (s : State) (l : LinkId) (i : Nat) : Bool :=
  s.liveGroups.any fun q => q.plans.any fun p => p.entries.any fun e => e.link == l.val && e.slot ≤ i && i < e.slot + e.run

/-- BE may use the slot: in the best-effort window of MIXED, or in a slot no loaded plan gives to the link (R253). -/
def State.slotForBe (s : State) (l : LinkId) (i : Nat) : Bool :=
  (s.profile.fabricEff && s.lnk.beEff ≤ i) || !s.slotTaken l i

/-- The weight of an egress queue; 0 taken as 1. -/
def State.arbWeight (s : State) (q : Fin 4) : Nat := max 1 (vget s.lnk.arbW q).toNat

/-- The next queue is visited: weight × 640 bytes join its deficit, or nothing where it is empty. -/
def Link.visit (w : Fin 4 → Nat) (k : Link) : Link :=
  let q : Fin 4 := Fin.ofNat 4 (k.turn + 1)
  { k with
    turn := q.val
    deficits := vset k.deficits q (if (vget k.queues q).isEmpty then 0 else vget k.deficits q + w q * 640) }

/-- The egress arbiter sends up to `n` codewords of the four queues by deficit weighted round robin; `fuel` bounds its
visits. -/
def Link.drain (w : Fin 4 → Nat) : Nat → Nat → Link → Link
  | 0, _, k => k
  | _, 0, k => k
  | fuel + 1, n + 1, k =>
    let q : Fin 4 := Fin.ofNat 4 k.turn
    let d := vget k.deficits q
    match vget k.queues q with
    | f :: rest =>
      if 640 ≤ d then
        Link.drain w fuel n { k.emit f.2 with
          queues := vset k.queues q rest
          deficits := vset k.deficits q (if rest.isEmpty then 0 else d - 640) }
      else Link.drain w fuel (n + 1) (k.visit w)
    | [] => Link.drain w fuel (n + 1) (k.visit w)

/-- CONTROL, DISCOVER and STALE flits first come first served, then the queues where BE may use the slot. -/
def Link.openSlot (w : Fin 4 → Nat) (be : Bool) (n : Nat) (k : Link) : Link :=
  let c := min n k.control.length
  let k := (k.control.take c).foldl Link.emit { k with control := k.control.drop c }
  if be then Link.drain w (5 * n + 5) (n - c) k else k

/-- Codewords a link sends in a slot. -/
def Link.slotCodewords (k : Link) : Nat := 64 * k.lanes * 7 / 170

/-- A slot of a run, less the codewords sent again in it. -/
def State.runSlot (s : State) (i : Nat) (l : LinkId) (back : Nat) : State :=
  let runs := s.runsAt l i
  let start := runs.foldl (fun (m : Nat) (e : GroupId × PlanEntry) => min m e.2.slot) i
  State.fillSlot l (s.dirOf l) (runs.map (·.1)) (slotFlits start i s.tkp.guardEff (s.link l).lanes - back) s

/-- One link's slot: codewords asked for again come first (R241; log entry 79), then a run's flits, or outside runs the egress
arbiter's (R253); IDLE flits fill what is left. -/
def State.linkSlot (s : State) (i : Nat) (l : LinkId) : State :=
  let k := s.link l
  if !carriesFlits k.state then s
  else
    let n := k.slotCodewords
    let back := min n k.replayLeft
    let s := s.modLink l fun k => { k with replayLeft := k.replayLeft - back }
    let s : State := if (s.runsAt l i).isEmpty then
        s.modLink l (Link.openSlot s.arbWeight (usableState k.state && s.slotForBe l i) (n - back))
      else s.runSlot i l back
    s.modLink l (·.fillTo (k.cwNext + n - back))

/-- SLOT_START: the comparators agree, and each link sends what its plan or the best-effort capacity allows. -/
def State.slotStart (s : State) : State :=
  if s.tkp.state == tkUnlocked then s
  else
    let t := nextSlot s.tkp.slotAt s.ht
    let s := s.passToHt t
    let s := { s with tkp.slotAt := some t }
    (List.finRange 24).foldl (fun s l => s.linkSlot (t % 10000 / 64) l) s

def execSlotStart (s : State) : Host.Outcome State Fault Refusal := .next s.slotStart

end Sys2Proof.Machine
end

