-- ==== Sys2Proof/Machine/Regs.lean ====
section
/-! DEFINITION. What the host reads: the word of every register of the register file, `none` where an offset is reserved or
unimplemented and the access ends in a bus error (12_host_attachment.md R317 to R323; the register tables of each chapter). -/

namespace Sys2Proof.Machine

/-- The index of a register of an array of `n`, one every `stride` bytes from `base`. -/
def arrayIdx (off base stride n : Nat) : Option Nat :=
  if base ≤ off && off < base + stride * n then some ((off - base) / stride) else none

/-- Fields joined into a register word. -/
def joinWord (l : List Word) : Word := l.foldl (· ||| ·) 0

/-- A counter's number in a 32-bit register. -/
def natWord (n : Nat) : Word := BitVec.ofNat 32 n

/-! ## Words that other chapters quote -/

def State.hubVersion (_s : State) : Word :=
  joinWord [atBit Config.stepping 0, atBit Config.fwMinor 8, atBit Config.fwMajor 16]

def State.hubStatus (s : State) : Word :=
  joinWord [bitAt s.hub.ready 0, bitAt s.hub.p0Up 1, bitAt s.hub.p1Up 2, bitAt s.hub.p1Fenced 3, atBit s.hub.p0Gen 4, atBit s.hub.p1Gen 7]

def State.profileWord (s : State) : Word :=
  joinWord [atBit s.profile.envelope 0, bitAt s.profile.clocking 2, atBit s.profile.determinism 4, bitAt s.profile.seamEcc 8,
    bitAt s.profile.seamEccActive 9, bitAt s.profile.fabric 12, bitAt s.profile.clockPending 31]

/-- RST_STATUS (13_reset_health.md Table 13.11). -/
def State.rstStatus (s : State) : Word :=
  joinWord [bitAt s.posted.rst.isSome 0, bitAt s.rst.coreHeld 1, bitAt s.rst.retired 2, bitAt s.rst.hostFenced 3, bitAt s.rst.blkBusy.isSome 4]

def State.rstCause (s : State) : Word := joinWord [atBit s.rst.cause 0, atBit s.rst.detail 8]

def State.escCfg (s : State) : Word := joinWord [atBit s.rst.escCount 0, atBit s.rst.escWindow 4]

/-- Seconds of ACLK since power-on (R364). -/
def State.islandTime (s : State) : Nat := s.now / 1000000000

/-- COUNT and WINDOW_S as they act. -/
def Rst.countLimit (r : Rst) : Nat := max 1 r.escCount.toNat
def Rst.windowS (r : Rst) : Nat := max 1 (min 86400 r.escWindow.toNat)

/-- Counted resets within the window that ends now (R364, example): stamps later than WINDOW_S seconds ago. -/
def State.escRecent (s : State) : Nat := (s.rst.stamps.filter fun t => s.islandTime < t + s.rst.windowS).length

def State.hltStatus (s : State) : Word :=
  joinWord [bitAt s.posted.hlt.isSome 0, atBit s.hlt.overPort 1, bitAt s.tkp.straggler 3]

/-- SEC_STATUS, SEC_SVN, CAL_STATUS (14_identity_service.md Table 14.10). -/
def State.secStatus (s : State) : Word :=
  joinWord [bitAt s.posted.sec.isSome 0, bitAt s.sec.bank 1, bitAt s.sec.fwFallback 2, bitAt s.sec.islandOnly 3, bitAt s.sec.nextBank 4,
    bitAt s.sec.attestReady 5]

def State.secSvn (s : State) : Word := joinWord [atBit s.sec.svn 0, atBit s.sec.svnMin 16]

def State.calStatus (s : State) : Word :=
  joinWord [bitAt s.posted.cal.isSome 0, atBit s.cal.state 1, bitAt s.cal.origin 3, bitAt s.cal.calBad 4, bitAt s.cal.pendingWrite 5]

/-- The Lamp: the first state of Table 14.6 whose condition holds, as SVC_STATUS.LAMP codes it (R391). -/
def State.lamp (s : State) : Nat :=
  if !s.pwr.auxOn then 0
  else if s.rst.retired then 6
  else if s.pwr.hold == .trip || s.rst.hostFenced || s.fld.frozen || s.sec.islandOnly || s.cal.calBad then 5
  else if s.svc.drained then 4
  else if s.svc.request then 3
  else if s.hub.ready then (if s.ctxCount = 0 then 1 else 2)
  else 0

def State.svcStatus (s : State) : Word :=
  joinWord [bitAt s.posted.svc.isSome 0, natWord (s.lamp * 2), bitAt s.svc.locate 4, bitAt s.svc.request 5, bitAt s.svc.drained 6,
    bitAt s.svc.presence 7, bitAt s.svc.usbConfigured 8, bitAt s.svc.drainRefused 9]

/-- PWR_STATUS (15_power_bringup.md Table 15.8). -/
def State.pwrStatus (s : State) : Word :=
  joinWord [bitAt s.posted.pwr.isSome 0, atBit s.pwr.stage 1, bitAt s.pwr.throttle 4, bitAt s.pwr.emerg 5, bitAt s.pwr.coolWarn 6,
    bitAt (s.pwr.railWarnA || s.pwr.railWarnB) 7]

/-- The hottest die, the lowest of them in Table 14.1 order. -/
def Pwr.hottest (p : Pwr) : Nat × Int :=
  (List.finRange 64).foldl (fun (m : Nat × Int) i => if m.2 < vget p.temps i then (i.val, vget p.temps i) else m) (0, vget p.temps 0)

def Pwr.coolWord (p : Pwr) : Word := joinWord [atBit (BitVec.ofInt 16 p.inlet) 0, atBit (BitVec.ofInt 16 p.outlet) 16]

/-! ## HUB and IRQ (Tables 12.4 to 12.6, 12.15) -/

def EventRing.word (r : EventRing) (o : Nat) : Option Word :=
  match o with
  | 0x00 => some r.baseLo
  | 0x04 => some r.baseHi
  | 0x08 => some (joinWord [atBit r.log2 0, bitAt r.en 8])
  | 0x0C => some r.tail
  | 0x10 => some r.head
  | 0x14 => some r.drops
  | 0x18 => some (natWord r.fifo.length)
  | _ => none

def State.mbxStat (s : State) : Word := joinWord [bitAt s.mbx.busy 0, bitAt s.mbx.valid 1, atBit s.mbx.status 8, atBit s.mbx.len 16]

def State.hubWord (s : State) (o : Nat) : Option Word :=
  match o with
  | 0x000 => some (joinWord [atBit (deviceId (.port0 0)) 0, atBit Config.vendorId 16])
  | 0x004 => some s.hubVersion
  | 0x008 => some s.hubStatus
  | 0x00C => some (bitAt s.hub.p1FenceReg 0)
  | 0x010 => some s.profileWord
  | 0x014 => some (atBit s.hub.winChunk 0)
  | 0x018 => some s.hub.regViol
  | 0x01C => some s.hub.strayCpl
  | 0x020 => some s.hub.cplTimeout
  | 0x024 => some s.hub.postedDrop
  | 0x100 => some (atBit s.mbx.code 0)
  | 0x104 => some s.mbxStat
  | _ =>
    match arrayIdx o 0x200 4 128, arrayIdx o 0x400 0x20 4 with
    | some i, _ => some (if s.mbx.busy then 0 else vget s.mbx.data (Fin.ofNat 128 i))
    | _, some r => (vget s.evr (Fin.ofNat 4 r)).word (o % 0x20)
    | none, none => none

/-- Word `w` of a bit per source. -/
def srcWord (v : BitVec 512) (w : Nat) : Word := v.extractLsb' (32 * w) 32

def State.irqStatusWord (s : State) (w : Nat) : Word :=
  natWord ((List.range 32).foldl (fun n b => n + b2n (s.irqStatus (32 * w + b)) * 2 ^ b) 0)

def SrcCfg.word (c : SrcCfg) : Word := joinWord [atBit c.func 0, atBit c.vec 8, atBit c.cnt 16, atBit c.us 21]

def State.irqWord (s : State) (o : Nat) : Option Word :=
  match arrayIdx o 0x000 4 64, arrayIdx o 0x800 4 512 with
  | some i, _ =>
    some (if i < 16 then s.irqStatusWord i
      else if i < 32 then srcWord s.irq.pending (i - 16)
      else if i < 48 then srcWord s.irq.enable (i - 32)
      else srcWord s.irq.mask (i - 48))
  | _, some i => some (if i < 325 then (vget s.irq.cfg (Fin.ofNat 512 i)).word else 0)
  | none, none =>
    match o with
    | 0x100 => some (atBit s.irq.claimSrc 0)
    | 0x104 => some s.irq.emptyClaims
    | 0x108 => some s.irq.msgs
    | _ => none

/-! ## Contexts, CFE, SCH and STB (Tables 5.10, 5.11, 6.11 to 6.13) -/

/-- A context-slot register; in a slot with no context it reads 0 (R154). -/
def slotWord (c : Option (CtxId × Context)) (o : Nat) : Option Word :=
  let rd := fun (f : CtxId → Context → Word) => some ((c.map fun e => f e.1 e.2).getD 0)
  match o with
  | 0x00 => rd fun n x => joinWord [1, atBit x.det 1, bitAt x.stop 3, natWord (n.val * 2 ^ 4), atBit x.job 16]
  | 0x04 => rd fun _ x => x.sqHead
  | 0x08 => rd fun _ x => x.sqTail
  | 0x0C => rd fun _ x => x.cqTail
  | 0x10 => rd fun _ x => x.cqHead
  | 0x14 => rd fun _ x => natWord (x.cmds.length + (x.cmds.filter (·.dispatched)).length * 2 ^ 8)
  | 0x18 => rd fun _ x => bitAt x.stop 0
  | 0x1C => rd fun _ x => x.killSeq
  | 0x20 => rd fun _ x => x.dbBad
  | _ => none

def State.ctxSel (s : State) : Option (CtxId × Context) :=
  let c := ctxOf s.cfe.ctxSel.toNat
  (s.ctx? c).map fun x => (c, x)

def State.cfeWord (s : State) (o : Nat) : Option Word :=
  match o with
  | 0x00 => some (natWord (s.ctxCount + s.dispatchedCount * 2 ^ 9))
  | 0x04 => some (atBit s.cfe.ctxSel 0)
  | 0x08 => some (atBit s.cfe.rerunMax 0)
  | 0x0C => some (atBit s.cfe.waitLimit 0)
  | 0x10 => some (atBit s.cfe.runLimit 0)
  | 0x14 => some s.cfe.kills
  | 0x18 => some s.cfe.dbBad
  | _ => if 0x100 ≤ o && o < 0x124 then slotWord s.ctxSel (o - 0x100) else none

def State.schWord (s : State) (o : Nat) : Option Word :=
  let rd := fun (i : Nat) (f : Context → Word) => some (((s.ctx? (ctxOf i)).map f).getD 0)
  match o with
  | 0x00 => some (bitAt s.sch.tallyC2 0)
  | 0x04 => some (atBit s.sch.tenureUs 0)
  | 0x08 => some (atBit s.sch.budgetWin 0)
  | 0x0C => some (atBit s.sch.holdoff 0)
  | 0x10 => some (atBit s.sch.tallyPeriod 0)
  | 0x14 => some s.sch.deadlineKills
  | 0x18 => some s.sch.lateSteps
  | 0x1C => some s.sch.unattrib
  | _ =>
    match arrayIdx o 0x400 4 256, arrayIdx o 0x800 4 256, arrayIdx o 0xC00 4 256 with
    | some i, _, _ => rd i fun x =>
        joinWord [natWord x.share, bitAt x.nokillOk 16, bitAt x.overBudget 17, atBit x.stepMax 18]
    | _, some i, _ => rd i fun x => atBit x.killBudget 0
    | _, _, some i => rd i fun x => atBit x.killUsed 0
    | none, none, none => none

def State.stbWord (s : State) (o : Nat) : Option Word :=
  match o with
  | 0x00 => some (natWord (s.stb.entries.length + s.stb.models.length * 2 ^ 16))
  | 0x04 => some s.stb.noRoom
  | 0x08 => some s.stb.missed
  | 0x0C => some s.stb.deferred
  | 0x10 => some s.stb.late
  | _ =>
    match arrayIdx o 0x100 4 64, arrayIdx o 0x200 4 64 with
    | some f, _ => some (atBit (vget s.stb.quota (Fin.ofNat 64 f)) 0)
    | _, some f => some (natWord (s.entriesOfFn (Fin.ofNat 64 f)))
    | none, none => none

/-! ## HST, SEAM and FLD (Tables 4.7 to 4.15, 2.11 to 2.17) -/

def State.hstWord (s : State) (o : Nat) : Option Word :=
  match o with
  | 0x00 => some (joinWord [bitAt s.hst.invBusy.isSome 0, bitAt s.hst.dtwErr 2, bitAt s.hst.evacBusy 3, atBit s.hst.evacState 4])
  | 0x04 => some (joinWord [atBit s.hst.invCtx 0, bitAt s.hst.invAll 8])
  | 0x08 => some (atBit s.hst.dtwVpn 0)
  | 0x0C => some s.hst.dtwLo
  | 0x10 => some s.hst.dtwHi
  | 0x14 => some (atBit s.hst.dtwCtx 0)
  | 0x18 => some (atBit s.hst.evacQuad 0)
  | 0x1C => some s.hst.violCount
  | 0x20 => some (joinWord [atBit s.hst.violCtx 0, bitAt s.hst.violWrite 8])
  | 0x24 => some s.hst.pageins
  | 0x28 => some s.hst.evicts
  | 0x2C => some (natWord s.freeSeam)
  | _ =>
    match arrayIdx o 0x100 4 64, arrayIdx o 0x200 4 64, arrayIdx o 0x300 4 64, arrayIdx o 0x400 4 64 with
    | some f, _, _, _ => some (atBit (vget s.hst.quotaSeam (Fin.ofNat 64 f)) 0)
    | _, some f, _, _ => some (atBit (vget s.hst.quotaFar (Fin.ofNat 64 f)) 0)
    | _, _, some f, _ => some (natWord (s.usedSeam (Fin.ofNat 64 f)))
    | _, _, _, some f => some (natWord (s.usedFar (Fin.ofNat 64 f)))
    | none, none, none, none => none

def State.seamWord (s : State) (o : Nat) : Option Word :=
  match o with
  | 0x00 => some (joinWord [bitAt s.posted.seam.isSome 0, bitAt s.seam.zeroing 1])
  | 0x04 => some (joinWord [atBit s.seam.sbmask 2, bitAt s.seam.autoEn 5, atBit s.seam.maskMax 8])
  | 0x08 => some (joinWord ((List.finRange 5).map fun i => atBit (vget s.seam.burst i) (4 * i.val)))
  | 0x0C => some (joinWord ((List.finRange 4).map fun i => atBit (vget s.seam.waitMax i) (8 * i.val)))
  | 0x10 => some (atBit s.seam.scrubH 0)
  | _ =>
    match arrayIdx o 0x100 0x40 24 with
    | none => none
    | some d =>
      let die := vget s.seam.dies (Fin.ofNat 24 d)
      match o % 0x40 with
      | 0x00 => some die.ceCount
      | 0x04 => some die.ueCount
      | 0x08 => some (natWord (s.freeOnDie d))
      | 0x0C => some die.starve
      | q => if 0x10 ≤ q && q < 0x24 then some (atBit (vget die.waitObs (Fin.ofNat 5 ((q - 0x10) / 4))) 0) else none

def State.fldWord (s : State) (o : Nat) : Option Word :=
  match o with
  | 0x00 => some s.fldStatus
  | 0x04 => some (joinWord [atBit s.fld.fenced 0, atBit s.fld.pend 8])
  | 0x08 => some (atBit s.fld.testQuad 0)
  | 0x0C => some (joinWord ((List.finRange 6).map fun q => atBit (vget s.fld.results q) (4 * q.val)))
  | 0x10 => some (bitAt s.fld.maint 0)
  | 0x14 => some (joinWord [atBit s.fld.capSlot 0, atBit s.fld.capCtx 16, atBit s.fld.capState 28])
  | 0x18 => some s.fld.opsDone
  | 0x1C => some s.fld.intSat
  | 0x20 => some s.fld.fenceKills
  | _ => none

/-! ## OPT and TKP (Tables 7.8, 7.9, 8.7 to 8.9) -/

def TrainUnit.word (t : TrainUnit) (o : Nat) : Option Word :=
  match o with
  | 0x00 => some (joinWord [atBit t.ctx 0, bitAt t.valid 8, bitAt t.normMode 9, atBit t.cleanTarget 16])
  | 0x04 => some t.limit
  | 0x08 => some (joinWord [atBit t.lse 0, atBit t.clean 16])
  | 0x0C => some t.openStep
  | 0x10 => some (atBit t.openLse 0)
  | 0x14 => some t.applied
  | 0x18 => some t.stepDone
  | 0x1C => some (joinWord [atBit t.decision 0, atBit t.skips 16])
  | 0x20 => some t.norm
  | 0x24 => some t.alpha
  | 0x28 => some t.bsimple
  | 0x2C => some t.batch
  | _ => none

def State.optWord (s : State) (o : Nat) : Option Word :=
  match o with
  | 0x00 => some (joinWord [bitAt s.opt.openBusy 0, bitAt s.opt.openErr 1, natWord (s.opt.tracked.length * 2 ^ 4)])
  | 0x04 => some (atBit s.opt.openTu 0)
  | 0x08 => some s.opt.openStep
  | 0x0C => some s.opt.pvaLo
  | 0x10 => some (atBit s.opt.pvaHi 0)
  | 0x14 => some (atBit s.opt.pcount 0)
  | 0x18 => some s.opt.amaxLate
  | 0x1C => some s.opt.amaxNonfinite
  | 0x20 => some (atBit s.opt.amaxLast 0)
  | 0x24 => some s.opt.noiseBad
  | _ => (arrayIdx o 0x100 0x30 64).bind fun t => (vget s.opt.units (Fin.ofNat 64 t)).word ((o - 0x100) % 0x30)

def LinkTime.word (t : LinkTime) : Word := joinWord [atBit (BitVec.ofInt 16 t.theta) 0, bitAt t.verified 16, bitAt t.valid 17]

/-- TKP_STATUS; SCHED_OFF reads 1 whenever scheduled transmission is not allowed (log entry 38). -/
def State.tkpStatus (s : State) : Word :=
  joinWord [bitAt s.posted.tkp.isSome 0, atBit s.tkp.state 1, bitAt s.tkp.rckLoss 4, bitAt s.tkp.codeBad 5, bitAt s.tkp.cmpFault 6,
    bitAt (!s.schedAllowed) 7, bitAt s.tkp.straggler 8, atBit s.tkp.parentUsed 9]

def State.tkpWord (s : State) (o : Nat) : Option Word :=
  match o with
  | 0x00 => some s.tkpStatus
  | 0x04 => some (joinWord [bitAt s.tkp.role 0, atBit s.tkp.parent 1, atBit s.tkp.altParent 6, bitAt s.tkp.altEn 11])
  | 0x08 => some (atBit s.tkp.guard 0)
  | 0x0C => some (atBit s.tkp.holdover 0)
  | 0x10 => some (atBit s.tkp.rckDelay 0)
  | 0x14 => some (joinWord [atBit s.tkp.lateBin 0, atBit s.tkp.latePct 8, atBit s.tkp.window 16])
  | 0x18 => some s.tkp.steps
  | 0x1C => some s.tkp.relocks
  | 0x20 => some s.tkp.cmpFaults
  | _ => (arrayIdx o 0x100 4 24).map fun l => (vget s.tkp.links (Fin.ofNat 24 l)).word

/-! ## LNK, COL and SNP (Tables 9.7, 9.8, 10.16, 10.17, 11.8, 11.9) -/

def State.dirmapWord (s : State) (k : Nat) : Word :=
  joinWord ((List.finRange 8).map fun i => atBit (vget s.lnk.dirmap (Fin.ofNat 24 (8 * k + i.val))) (3 * i.val))

def State.linkWord (s : State) (l : LinkId) (o : Nat) : Option Word :=
  let k := s.link l
  match o with
  | 0x00 => some (joinWord [atBit k.state 0, bitAt k.laneDropped 4, atBit k.droppedLane 5, bitAt (s.inPlan l) 9, bitAt k.sleepRefused 10,
      atBit k.lanesLive 16])
  | 0x04 => some (joinWord [bitAt k.sleep 0, bitAt k.loopFar 3, atBit k.loopMs 16])
  | 0x08 => some (joinWord [atBit k.plink 0, atBit k.pdir 5, atBit k.px 8, atBit k.py 16, atBit k.pz 24])
  | 0x0C => some k.partnerGen
  | 0x10 => some k.fecCorr
  | 0x14 => some k.fecUncorr
  | 0x18 => some k.retry
  | 0x1C => some k.retrains
  | 0x20 => some (joinWord [atBit k.loopResult 0, atBit k.failLanes 16])
  | _ => (arrayIdx o 0x40 4 16).map fun i => vget k.laneErr (Fin.ofNat 16 i)

def State.lnkWord (s : State) (o : Nat) : Option Word :=
  match o with
  | 0x00 => some (joinWord [natWord ((List.finRange 24).foldl (fun n l => n + b2n (usableState (s.link l).state) * 2 ^ l.val) 0),
      bitAt s.lnk.topo.isSome 24, bitAt s.lnk.latchErr 25])
  | 0x04 => some 0
  | 0x08 => some (joinWord [atBit s.lnk.x 0, atBit s.lnk.y 8, atBit s.lnk.z 16])
  | 0x0C => some (joinWord [atBit s.lnk.sx 0, atBit s.lnk.sy 8, atBit s.lnk.sz 16])
  | 0x10 => some (s.dirmapWord 0)
  | 0x14 => some (s.dirmapWord 1)
  | 0x18 => some (s.dirmapWord 2)
  | 0x1C => some s.lnk.gen
  | 0x20 => some (atBit s.lnk.sliceId 0)
  | 0x24 => some (atBit s.lnk.sliceEn 0)
  | 0x28 => some (joinWord [atBit s.lnk.beStart 0, atBit s.lnk.holdUs 16])
  | 0x2C => some (joinWord ((List.finRange 4).map fun i => atBit (vget s.lnk.arbW i) (8 * i.val)))
  | 0x30 => some (atBit s.lnk.dropThr 0)
  | 0x34 => some s.lnk.stale
  | 0x38 => some s.lnk.beDrop
  | _ => (arrayIdx o 0x1000 0x200 24).bind fun l => s.linkWord (Fin.ofNat 24 l) (o % 0x200)

def State.groupWord (s : State) (g : GroupId) (o : Nat) : Option Word :=
  let q := s.group g
  let rd := fun (w : Word) => some (if q.state = 0 then 0 else w)
  match o with
  | 0x0 => rd (joinWord [atBit q.state 0, atBit q.ctx 8, atBit q.plan 16])
  | 0x4 => some 0
  | 0x8 => rd q.lhead
  | 0xC => rd q.chead
  | _ => none

def State.groupsIn (s : State) (st : BitVec 2) : Nat := (s.col.groups.toList.filter fun g => g.state == st).length

def State.colWord (s : State) (o : Nat) : Option Word :=
  match o with
  | 0x00 => some (natWord (s.groupsIn 1 + s.groupsIn 2 * 2 ^ 8))
  | 0x04 => some (bitAt s.col.abortOnTimeout 1)
  | 0x08 => some (atBit s.col.canaryMs 0)
  | 0x0C => some (natWord s.planFree)
  | 0x10 => some s.col.resent
  | 0x14 => some s.col.beFlits
  | 0x18 => some s.col.staleCnt
  | 0x1C => some s.col.beaconTx
  | 0x20 => some s.col.beaconRx
  | 0x24 => some s.col.dbBad
  | _ => (arrayIdx o 0x100 0x10 64).bind fun g => s.groupWord (Fin.ofNat 64 g) (o % 0x10)

def State.snapWord (s : State) (n : SnapId) (o : Nat) : Option Word :=
  let t := s.snap n
  let rd := fun (w : Word) => some (if t.state = 0 then 0 else w)
  match o with
  | 0x0 => rd (joinWord [atBit t.state 0, atBit t.ctx 8, if t.state = 3 then atBit t.status 16 else 0])
  | 0x4 => rd (natWord t.done)
  | 0x8 => rd t.gen
  | 0xC => some 0
  | _ => none

/-- Snapshots not yet ended. -/
def State.snapsLive (s : State) : Nat := (s.snp.slots.toList.filter (·.live)).length

def State.snpWord (s : State) (o : Nat) : Option Word :=
  match o with
  | 0x00 => some (natWord s.snapsLive)
  | 0x04 => some (joinWord [atBit s.snp.rate 0, atBit s.snp.waitMs 16])
  | 0x08 => some (natWord s.heldPages)
  | 0x0C => some s.snp.shardsOk
  | 0x10 => some s.snp.shardsFail
  | 0x14 => some s.snp.cow
  | _ => (arrayIdx o 0x100 0x10 8).bind fun n => s.snapWord (Fin.ofNat 8 n) (o % 0x10)

/-! ## RST, HLT, SEC, CAL, PWR and SVC (Tables 13.11, 13.12, 14.10, 15.8) -/

/-- A quad is fenced and nothing of it is outstanding; no page stands in it and no command that runs uses it (R53, R357). -/
def State.quadIdle (s : State) (q : Nat) : Bool :=
  s.fld.fenced.getLsbD q && (s.holderIn q).isNone && !s.fld.testing.getLsbD q

/-- A link is fenced and no flit waits on it (R357, R358). -/
def State.linkIdle (s : State) (l : LinkId) : Bool :=
  s.linkOut l && (s.link l).control.isEmpty && (s.link l).queues.toList.all (·.isEmpty)

def State.blkIdle (s : State) : Word :=
  natWord ((List.range 6).foldl (fun n q => n + b2n (s.quadIdle q) * 2 ^ q) 0 +
    (List.finRange 24).foldl (fun n l => n + b2n (s.linkIdle l) * 2 ^ (6 + l.val)) 0)

def State.rstWord (s : State) (o : Nat) : Option Word :=
  match o with
  | 0x00 => some s.rstStatus
  | 0x04 => some s.rstCause
  | 0x08 => some 0
  | 0x0C => some s.escCfg
  | 0x10 => some s.rst.escMask
  | 0x14 => some (natWord s.escRecent)
  | 0x18 => some s.rst.epoch
  | 0x1C => some (atBit s.rst.lfence 0)
  | 0x20 => some s.blkIdle
  | 0x24 => some (joinWord [atBit s.rst.blkTarget 0, bitAt s.rst.blkKind 5])
  | 0x28 => some (atBit s.rst.canaryFld 0)
  | 0x2C => some (atBit s.rst.canaryHub 0)
  | 0x30 => some (atBit s.rst.drainUs 0)
  | 0x34 => some s.rst.selfFaults
  | 0x38 => some s.rst.parity
  | 0x3C => some (joinWord [atBit s.rst.lastCanary 0, bitAt s.rst.lastKind 8, atBit s.rst.lastOffset 12])
  | _ => none

def State.hltWord (s : State) (o : Nat) : Option Word :=
  match o with
  | 0x00 => some s.hltStatus
  | 0x04 => some (joinWord [atBit s.hlt.wCe 0, atBit s.hlt.wUncorr 8, atBit s.hlt.wRetry 16, atBit s.hlt.wRetrain 24])
  | 0x08 => some (joinWord [atBit s.hlt.wFecu 0, atBit s.hlt.wLanedrop 8, atBit s.hlt.wPcie 16])
  | 0x0C => some (atBit s.hlt.shift 0)
  | 0x10 => some s.hlt.thrSeam
  | 0x14 => some s.hlt.thrLink
  | 0x18 => some s.hlt.thrPort
  | 0x1C => some (atBit s.hlt.overSeam 0)
  | 0x20 => some (atBit s.hlt.overLink 0)
  | _ =>
    match arrayIdx o 0x100 4 24, arrayIdx o 0x180 4 24, arrayIdx o 0x200 4 2 with
    | some d, _, _ => some (vget s.hlt.scoreSeam (Fin.ofNat 24 d))
    | _, some l, _ => some (vget s.hlt.scoreLink (Fin.ofNat 24 l))
    | _, _, some p => some (vget s.hlt.scorePort (Fin.ofNat 2 p))
    | none, none, none => none

def State.secWord (s : State) (o : Nat) : Option Word :=
  match o with
  | 0x0 => some s.secStatus
  | 0x4 => some s.secSvn
  | 0x8 => some s.sec.spdmCount
  | _ => none

def State.calWord (s : State) (o : Nat) : Option Word :=
  match o with
  | 0x0 => some s.calStatus
  | 0x4 => some s.cal.writes
  | _ => none

def State.svcWord (s : State) (o : Nat) : Option Word :=
  match o with
  | 0x0 => some s.svcStatus
  | 0x4 => some (bitAt s.svc.locate 1)
  | 0x8 => some (joinWord [atBit s.svc.shortPresses 0, atBit s.svc.longPresses 16])
  | _ => none

def State.pwrWord (s : State) (o : Nat) : Option Word :=
  let p := s.pwr
  match o with
  | 0x00 => some s.pwrStatus
  | 0x04 => some (joinWord [bitAt p.railA 0, bitAt p.railB 1, bitAt p.trip 2])
  | 0x08 => some (atBit p.fclk 0)
  | 0x0C => some (atBit p.watts 0)
  | 0x10 => some (joinWord [atBit p.va 0, atBit p.vb 16])
  | 0x14 => some (joinWord [atBit p.ia 0, atBit p.ib 16])
  | 0x18 => some (atBit p.auxMv 0)
  | 0x1C => some (joinWord [atBit (BitVec.ofInt 16 p.hottest.2) 0, natWord (p.hottest.1 * 2 ^ 16)])
  | 0x20 => some p.coolWord
  | 0x24 => some (atBit p.flow 0)
  | 0x28 => some (joinWord [atBit p.inletWarn 0, atBit p.outletWarn 8, atBit p.flowWarn 16])
  | 0x2C => some p.throttleUs
  | 0x30 => some p.emergs
  | 0x34 => some p.trips
  | 0x38 => some p.railFaults
  | _ => none

/-! ## The register file (Table 12.3) -/

/-- The word of a register of PF0's BAR0 once READY reads 1. -/
def State.fileWord (s : State) (o : Nat) : Option Word :=
  if o < 0x1000 then s.hubWord o
  else if o < 0x2000 then s.irqWord (o - 0x1000)
  else if o < 0x3000 then s.cfeWord (o - 0x2000)
  else if o < 0x4000 then s.schWord (o - 0x3000)
  else if o < 0x5000 then s.stbWord (o - 0x4000)
  else if o < 0x6000 then s.hstWord (o - 0x5000)
  else if o < 0x8000 then s.seamWord (o - 0x6000)
  else if o < 0xA000 then s.fldWord (o - 0x8000)
  else if o < 0xB000 then s.optWord (o - 0xA000)
  else if o < 0xC000 then s.tkpWord (o - 0xB000)
  else if o < 0x10000 then s.lnkWord (o - 0xC000)
  else if o < 0x11000 then s.colWord (o - 0x10000)
  else if o < 0x12000 then s.snpWord (o - 0x11000)
  else if o < 0x13000 then s.rstWord (o - 0x12000)
  else if o < 0x14000 then s.hltWord (o - 0x13000)
  else if o < 0x15000 then s.secWord (o - 0x14000)
  else if o < 0x16000 then s.calWord (o - 0x15000)
  else if o < 0x17000 then s.pwrWord (o - 0x16000)
  else if o < 0x18000 then s.svcWord (o - 0x17000)
  else none

/-- BAR4 of a function (R348): the MSI-X table, the pending bits and the window-transfer doorbells. -/
def State.bar4Word (s : State) (fn : FnId) (o : Nat) : Option Word :=
  match arrayIdx o 0 16 32, arrayIdx o 0x1000 8 32 with
  | some v, _ =>
    let e := vget (vget s.fns fn).msix (Fin.ofNat 32 v)
    match o % 16 with
    | 0x0 => some (natWord (e.addr.toNat % 2 ^ 32))
    | 0x4 => some (natWord (e.addr.toNat / 2 ^ 32))
    | 0x8 => some e.data
    | _ => some (bitAt e.masked 0)
  | _, some t =>
    if o % 8 = 0 then some 0
    else some ((((s.ctxAt fn (Fin.ofNat 32 t)).bind fun e => e.2.window).map fun w => w.chead).getD 0)
  | none, none =>
    if o = 0x800 then
      some (natWord (((List.range 325).filter fun i => s.irqWants i && (s.irqRoute i).1 == fn).foldl
        (fun n i => n ||| 2 ^ (vget s.irq.cfg (Fin.ofNat 512 i)).vec.toNat) 0))
    else if o = 0x804 then some 0
    else none

/-- What the dword at an offset (its two low bits left out) of a function's BAR reads, `none` for a bus error (R317 to R322, R348; 05_commands.md
R155, R156). Before READY only the HUB block of BAR0 answers. -/
def State.read (s : State) (fn : FnId) (bar : Bar) (off : Nat) : Option Word :=
  let o := off / 4 * 4
  match bar with
  | .bar0 =>
    let w := if fn = 0 then s.fileWord o
      else if o < 0x1000 then slotWord (s.ctxAt fn (Fin.ofNat 32 (o / 0x80))) (o % 0x80) else none
    if s.hub.ready || (fn = 0 && o < 0x1000) then w else w.map fun _ => 0
  | .bar2 => if o < 0x20000 && o % 0x1000 = 0 then some 0 else none
  | .bar4 => s.bar4Word fn o

end Sys2Proof.Machine
end

