-- ==== Sys2Proof/Machine/Restart.lean ====
section
/-! DEFINITION. What the resets share: the calibration image and the firmware bank a start takes, what a core reset and a
system reset clear, escalation and retirement (13_reset_health.md R353 to R356, R364, R365; 14_identity_service.md R379 to R385). -/

namespace Sys2Proof.Machine

/-! ## The calibration values (14_identity_service.md R385) -/

/-- The island loads the image, or the built-in nominal values with CAL_BAD (R385). -/
def State.loadCal (s : State) : State :=
  let good := !s.cal.torn && match s.cal.stored with
    | none => true
    | some b => calImageOk b
  let v := if good then CalValues.image s.cal.stored else .nominal
  { s with cal.calBad := !good, cal.loaded := v, cal.offsets := v, cal.pendingWrite := false }

/-! ## The firmware bank (14_identity_service.md R380) -/

def State.bankOf (s : State) (b : Bool) : Bank := vget s.sec.banks (if b then 1 else 0)
/-- The bank verifies and its SVN is at least SVN_MIN. -/
def State.bankOk (s : State) (b : Bool) : Bool := (s.bankOf b).good && s.sec.svnMin ≤ (s.bankOf b).svn

/-- The bank selected to boot, else the other one, else the island alone. -/
def State.bootBank (s : State) : State :=
  let sel := s.sec.nextBank
  let s := { s with sec.fwFallback := !s.bankOk sel && s.bankOk !sel, sec.islandOnly := !s.bankOk sel && !s.bankOk !sel
                    sec.bank := if s.bankOk sel then sel else !sel, sec.staged := false, sec.attestReady := false }
  { s with sec.svn := (s.bankOf s.sec.bank).svn }

/-! ## What a core reset clears (R353; 04_seam_hoist.md R91; 05_commands.md R130; 07_training.md R190; 10_collectives.md R265;
11_snapshots.md R304) -/

/-- The core domains return to their reset values, Seam is zero-filled in the ECC mode asked for (01_module.md R23), and the
Seam dies' counters, which are cleared, add nothing to the scores of the present second (R367). -/
def State.coreClear (s : State) : State :=
  { s with
    profile.seamEccActive := s.profile.seamEcc
    posted := { s.posted with seam := none, fld := none }
    cfe := { cfeReset with rerunMax := s.cfe.rerunMax, waitLimit := s.cfe.waitLimit, runLimit := s.cfe.runLimit }
    ctxs := Vector.replicate 256 none
    sch := { s.sch with
      deadlineKills := 0, lateSteps := 0, unattrib := 0, unattribRem := 0, holder := none, tenure := none, intervalNs := [] }
    stb := { stbReset with quota := s.stb.quota }
    hst := { hstReset with quotaSeam := s.hst.quotaSeam, quotaFar := s.hst.quotaFar }
    seam := seamReset
    frames := []
    mem := []
    fld := { fldReset with
      fenced := s.fld.fenced, pend := s.fld.pend
      results := Vector.ofFn fun q => if s.fld.testing.getLsbD q.val then 0 else vget s.fld.results q }
    opt := optReset
    col := { colReset with abortOnTimeout := s.col.abortOnTimeout, canaryMs := s.col.canaryMs, known := s.col.known }
    snp := { snpReset with rate := s.snp.rate, waitMs := s.snp.waitMs }
    rst.badParity := s.rst.badParity.filter fun o => !(0x3400 ≤ o && o < 0x3800)
    hlt.muteSeam := true }

/-- The bytes of a slot that a capture abandoned by the reset was filling are undefined (02_field.md R61). -/
def State.abandonCapture (s : State) : State :=
  match s.captureSlot with
  | some (_, _, w) => s.hostUndefined w.addr.toNat w.size
  | none => s

/-- The slot of the shard that a snapshot was writing is left with undefined bytes (log entry 41). -/
def State.abandonShards (s : State) : State :=
  (List.finRange 8).foldl (fun (s : State) n =>
    let t := s.snap n
    match (s.ctx? (ctxOf t.ctx.toNat)).bind fun x => (t.list[t.done]?).bind fun h => (x.slot? h.slot).map fun w => (h, w) with
    | some (h, w) => if t.live && h.writes && w.busy then s.hostUndefined (w.addr.toNat + h.slotOff) h.len else s
    | none => s) s

/-- Some group is active. -/
def State.groupsActive (s : State) : Bool := s.col.groups.toList.any fun g => g.state == 1

/-- The beacon leaves with cause RESET if any group was active (R354). -/
def State.resetBeacon (s : State) : State := if s.groupsActive then s.raiseBeacon bcReset else s

/-- A mailbox request in progress ends with FENCED and LEN 0 (12_host_attachment.md R324); a calibration image it was having
written is not. -/
def State.mbxCut (s : State) : State :=
  if s.mbx.busy then
    { s.mbxFail stFenced with
      cal.state := if s.cal.writing.any (fun w => !w.2) then 0 else s.cal.state
      cal.writing := if s.cal.writing.any (fun w => !w.2) then none else s.cal.writing }
  else s

/-! ## Escalation (R364) -/

/-- A cause that its mask bit counts; bits 0, 1 and 13 to 31 are ignored (Table 13.11). -/
def State.causeCounted (s : State) (cause : Nat) : Bool :=
  2 ≤ cause && cause ≤ 12 && s.rst.escMask.getLsbD cause

/-- A reset is counted: its stamp is kept, and with COUNT of them in the window a module in service retires at its end. -/
def State.escalate (s : State) (cause : Nat) (counted : Bool) : State :=
  if counted || s.causeCounted cause then
    let s := { s with rst.stamps := (s.islandTime :: s.rst.stamps).take 15 }
    { s with rst.retireAfter := !s.rst.retired && (s.rst.retireAfter || s.rst.countLimit ≤ s.escRecent) }
  else s

/-! ## Retirement (R365) -/

/-- Every link that has light comes into RETIRED; one in training does when it has trained, one asleep wakes first, and one
that failed or is down trains first, unless a fence or a block reset keeps it down. -/
def State.retireLinks (s : State) : State :=
  (List.finRange 24).foldl (fun (s : State) l =>
    let st := (s.link l).state
    if !(s.link l).light then s
    else if st == lsSleep then s.wake l
    else if st == lsTraining || st == lsWaking then s
    else if st == lsDown || st == lsFailed then
      if s.rst.lfence.getLsbD l.val || s.rst.blkBusy == some (true, l.val) then s else s.train l false
    else s.setLink l lsRetired) s

/-- The module retires: storage first, then the beacon; the core domains stay in reset. A retirement whose cause the mask
counts has its stamp (R364). -/
def State.retire (s : State) (cause : Nat) : State :=
  let s := { s.escalate cause false with
    rst.retired := true, rst.coreHeld := true, rst.retireAfter := false, rst.cause := BitVec.ofNat 8 cause, rst.detail := 0 }
  let s := (s.raiseBeacon bcRetire).announce.retireLinks
  let n := s.escRecent
  s.abandonCapture.abandonShards.coreClear.raise 0xD1 0 (leBytes 4 cause ++ leBytes 4 n)

/-! ## The core reset (R354) -/

/-- A core reset starts; one that begins during a system reset only records its cause and its count (R355). -/
def State.coreStart (s : State) (cause : Nat) (counted : Bool) : State :=
  let s := { s.escalate cause counted with rst.cause := BitVec.ofNat 8 cause, rst.detail := 0 }
  if s.rst.inReset == some true then s
  else
    let s := s.resetBeacon.mbxCut.abandonCapture.abandonShards.coreClear
    { s with rst.coreHeld := true, rst.inReset := some false, seam.zeroing := true }

/-- The core domains become usable again, unless the module is or becomes retired (R354, R364). -/
def State.coreDone (s : State) : State :=
  if s.rst.inReset == some false then
    let s := { s with
      rst.inReset := none
      seam.zeroing := false
      rst.coreHeld := s.rst.retired
      rst.epoch := s.rst.epoch + 1 }
    let s := s.raise 0xD0 0 (leBytes 4 s.rst.cause.toNat ++ leBytes 4 s.rst.epoch.toNat)
    if s.rst.retireAfter && !s.rst.retired then s.retire 0x0B else s
  else s

/-! ## The system reset (R353, R354) -/

/-- Everything but what a system reset spares (Table 13.1): the island's record, health weights, thresholds and scores, POWER-ON
registers, non-volatile storage, what stands outside the module, and the queue. A calibration image that was being written is
given up, and the store keeps the one it had (log entry 15). -/
def State.systemClear (s : State) : State :=
  { State.reset with
    perst := s.perst
    host := s.host
    hostFree := s.hostFree
    tkp := { tkpReset with rckLoss := s.tkp.rckLoss }
    lnk := { lnkReset with gen := s.lnk.gen, links := Vector.ofFn fun l => { linkReset with light := (s.link l).light } }
    rst := { s.rst with
      coreHeld := true, hostFenced := false, lfence := 0, blkTarget := 0, blkKind := false, canaryFld := 1000, canaryHub := 100
      drainUs := 1000, lfencePend := 0, badParity := [], blkBusy := none, inReset := some true }
    hlt := { s.hlt with shift := 6, overSeam := 0, overLink := 0, overPort := 0, muteSeam := true, muteLink := true }
    sec := { s.sec with spdmCount := 0, reply := none, attestReady := false }
    cal := { s.cal with state := 0, writing := none }
    svc := { svcReset with
      attached := s.svc.attached, packet := s.svc.packet, reply := s.svc.reply, mgmtReply := s.svc.mgmtReply }
    pwr := { pwrReset with
      railA := s.pwr.railA, railB := s.pwr.railB, trip := s.pwr.trip, throttleUs := s.pwr.throttleUs, emergs := s.pwr.emergs
      trips := s.pwr.trips, railFaults := s.pwr.railFaults, energyTenths := s.pwr.energyTenths, hold := s.pwr.hold
      auxOn := s.pwr.auxOn, mainOn := s.pwr.mainOn, stage := s.pwr.stage, onAsked := s.pwr.onAsked }
    now := s.now
    freeCtr := s.freeCtr
    pending := s.pending }

/-- Links with light start training, uncounted (09_links.md R244). -/
def State.trainAll (s : State) : State :=
  (List.finRange 24).foldl (fun (s : State) l => if (s.link l).light then s.train l false else s) s

/-- A system reset starts. While the dies have no power, or a hold is in effect, only its cause is recorded (log entry 42). -/
def State.systemStart (s : State) (cause detail : Nat) (counted : Bool) : State :=
  let s := { s.escalate cause counted with rst.cause := BitVec.ofNat 8 cause, rst.detail := BitVec.ofNat 3 detail }
  if !s.pwr.mainOn || s.pwr.hold != .none then s
  else
    let s := s.resetBeacon.abandonCapture.abandonShards.systemClear
    let s := { s with lnk.gen := s.lnk.gen + 1, rst.epoch := s.rst.epoch + 1, pwr.stage := 4, seam.zeroing := true }
    s.loadCal.bootBank.trainAll

/-- READY rises: Seam is zero-filled, a new attestation key has been made, and a module whose count is full retires (R354, R364;
14_identity_service.md R379). -/
def State.becomeReady (s : State) : State :=
  if s.rst.inReset == some true && !s.sec.islandOnly && s.pwr.hold == .none && s.pwr.mainOn then
    let s := { s with
      rst.inReset := none
      rst.coreHeld := s.rst.retired
      seam.zeroing := false
      hub.ready := true
      pwr.stage := 6
      sec.attestReady := true
      sec.attestNo := s.sec.attestNo + 1
      sec.attestGen := s.lnk.gen }
    if s.rst.retireAfter && !s.rst.retired then s.retire 0x0B else s
  else s

end Sys2Proof.Machine
end

