-- ==== Sys2Proof/Machine/Health.lean ====
section
/-! DEFINITION. Health scores, and the mailbox requests of the island's records (13_reset_health.md R364, R367, R368, R376). -/

namespace Sys2Proof.Machine

/-! ## Scores (R367, R368) -/

/-- A score after one island second in which its counters added `sum`; SHIFT 0 is taken as 1. -/
def healthNext (shift : BitVec 4) (old : Word) (sum : Nat) : Word :=
  satNat 32 (old.toNat - old.toNat / 2 ^ max 1 shift.toNat + sum)

/-- A threshold as it acts: 0 is taken as 1. -/
def healthThr (w : Word) : Nat := max 1 w.toNat

/-- OVER after a score: it is set at the threshold and clears below half of it. -/
def overNext (was : Bool) (score thr : Nat) : Bool := if was then thr ≤ 2 * score else thr ≤ score

/-- A HEALTH event where a part's OVER flag has changed. -/
def State.healthEvent (s : State) (part : Nat) (score : Word) (thr : Nat) (was new : Bool) : State :=
  if was == new then s else s.raise 0x25 part (leBytes 4 score.toNat ++ leBytes 4 thr ++ leBytes 4 (b2n new))

def State.healthSeam (s : State) (d : DieId) : State :=
  let h := s.hlt
  let score := healthNext h.shift (vget h.scoreSeam d)
    (h.wCe.toNat * vget h.deltas.ce d + h.wUncorr.toNat * vget h.deltas.ue d)
  let was := h.overSeam.getLsbD d.val
  let new := overNext was score.toNat (healthThr h.thrSeam)
  { s with hlt.scoreSeam := vset h.scoreSeam d score, hlt.overSeam := setBit h.overSeam d.val new }.healthEvent
    d.val score (healthThr h.thrSeam) was new

def State.healthLink (s : State) (l : LinkId) : State :=
  let h := s.hlt
  let score := healthNext h.shift (vget h.scoreLink l)
    (h.wRetry.toNat * vget h.deltas.retry l + h.wRetrain.toNat * vget h.deltas.retrain l + h.wFecu.toNat * vget h.deltas.fecu l +
      h.wLanedrop.toNat * vget h.deltas.drop l)
  let was := h.overLink.getLsbD l.val
  let new := overNext was score.toNat (healthThr h.thrLink)
  { s with hlt.scoreLink := vset h.scoreLink l score, hlt.overLink := setBit h.overLink l.val new }.healthEvent
    (32 + l.val) score (healthThr h.thrLink) was new

/-- `errs` are the correctable errors AER logged on the port in the second. -/
def State.healthPort (s : State) (p : Fin 2) (errs : Nat) : State :=
  let h := s.hlt
  let score := healthNext h.shift (vget h.scorePort p) (h.wPcie.toNat * errs)
  let was := h.overPort.getLsbD p.val
  let new := overNext was score.toNat (healthThr h.thrPort)
  { s with hlt.scorePort := vset h.scorePort p score, hlt.overPort := setBit h.overPort p.val new }.healthEvent
    (64 + p.val) score (healthThr h.thrPort) was new

/-- The increases that count in the second: none of a counter that a reset cleared in it (R367). -/
def Hlt.counted (h : Hlt) : Deltas :=
  let d := if h.muteSeam then { h.deltas with ce := deltasReset.ce, ue := deltasReset.ue } else h.deltas
  if h.muteLink then { deltasReset with ce := d.ce, ue := d.ue } else d

/-- The next island second comes and every score is updated. -/
def State.healthUpdate (s : State) (p0 p1 : Nat) : State :=
  let s := s.pass ((s.islandTime + 1) * 1000000000 - s.now)
  let s := { s with hlt.deltas := s.hlt.counted, hlt.muteSeam := false, hlt.muteLink := false }
  let s := (List.finRange 24).foldl (fun (s : State) d => s.healthSeam d) s
  let s := (List.finRange 24).foldl (fun (s : State) l => s.healthLink l) s
  { (s.healthPort 0 p0).healthPort 1 p1 with hlt.deltas := deltasReset }

def execHealthUpdate (p0 p1 : Nat) (s : State) : Host.Outcome State Fault Refusal := .next (s.healthUpdate p0 p1)

/-! ## HEALTH_READ, ESC_READ and ESC_CLEAR (R376) -/

/-- The 212 bytes of HEALTH_READ. -/
def State.healthBytes (s : State) : List Byte :=
  (s.hlt.scoreSeam.toList ++ s.hlt.scoreLink.toList ++ s.hlt.scorePort.toList).flatMap (fun w => leBytes 4 w.toNat) ++
    leBytes 4 s.hlt.overSeam.toNat ++ leBytes 4 s.hlt.overLink.toNat ++ leBytes 4 s.hltStatus.toNat

def State.healthRead (s : State) : State := s.mbxRunAlways 0xA0 fun s => s.mbxOk s.healthBytes

def execHealthRead (s : State) : Host.Outcome State Fault Refusal := .next s.healthRead

/-- The 72 bytes of ESC_READ. -/
def State.escBytes (s : State) : List Byte :=
  leBytes 4 s.escCfg.toNat ++ leBytes 4 s.escRecent ++ leBytes 4 s.islandTime ++
    (List.range 15).flatMap fun i => leBytes 4 (s.rst.stamps.getD i 0)

def State.escRead (s : State) : State := s.mbxRunAlways 0xA1 fun s => s.mbxOk s.escBytes

def execEscRead (s : State) : Host.Outcome State Fault Refusal := .next s.escRead

/-- The escalation record is emptied; retirement stays. -/
def State.emptyStamps (s : State) : State := { s with rst.stamps := [] }

def State.escClear (s : State) : State := s.mbxRunAlways 0xA2 fun s => s.emptyStamps.mbxStatus stOk

def execEscClear (s : State) : Host.Outcome State Fault Refusal := .next s.escClear

end Sys2Proof.Machine
end

