-- ==== Sys2Proof/Machine/Resets.lean ====
section
/-! DEFINITION. Resets, fences, block resets and Canaries (13_reset_health.md R354 to R363, R366, R371). -/

namespace Sys2Proof.Machine

/-! ## Resets and their sources (Table 13.4) -/

/-- RST_CTRL.CORE written with the key (R356). -/
def execCoreReset (counted : Bool) (s : State) : Host.Outcome State Fault Refusal := .next (s.coreStart 0x06 counted)

def execCoreResetComplete (s : State) : Host.Outcome State Fault Refusal := .next s.coreDone

/-- RST_CTRL.SYSTEM written with the key (R356). -/
def execSystemReset (counted : Bool) (s : State) : Host.Outcome State Fault Refusal := .next (s.systemStart 0x05 0 counted)

def execSystemResetReady (s : State) : Host.Outcome State Fault Refusal := .next s.becomeReady

/-- PERST_N asserted on HP0 or the MGMT sideband. -/
def execPerstN (s : State) : Host.Outcome State Fault Refusal := .next ({ s with perst := true }.systemStart 0x02 0 false)

/-- PERST_N deasserted: port 0 may train (15_power_bringup.md R412). -/
def execPerstNDeassert (s : State) : Host.Outcome State Fault Refusal := .next { s with perst := false }

def execHotResetP0 (s : State) : Host.Outcome State Fault Refusal := .next (s.systemStart 0x03 0 false)
def execDlDownP0 (s : State) : Host.Outcome State Fault Refusal := .next (s.systemStart 0x04 0 false)

/-! ## The host fence (R371) -/

def State.hostFence (s : State) : State :=
  if s.rst.hostFenced then s else { s with rst.hostFenced := true }.fenceEvent 2 0 true

def execHostFence (s : State) : Host.Outcome State Fault Refusal := .next s.hostFence

/-! ## Link fences (R358) -/

/-- A bit of RST_LFENCE written 1 (in effect at the next frame boundary) or 0 (the link retrains). -/
def State.linkFence (s : State) (l : LinkId) (on : Bool) : State :=
  if s.rst.lfence.getLsbD l.val == on then s
  else if on then
    { s with rst.lfence := setBit s.rst.lfence l.val true, rst.lfencePend := setBit s.rst.lfencePend l.val true }
  else
    let was := s.linkOut l
    let s := { s with rst.lfence := setBit s.rst.lfence l.val false, rst.lfencePend := setBit s.rst.lfencePend l.val false }
    if was then
      let s := s.fenceEvent 1 l.val false
      if (s.link l).light && s.rst.blkBusy != some (true, l.val) then s.train l false else s
    else s

def execRstLfence (link : LinkId) (on : Bool) (s : State) : Host.Outcome State Fault Refusal := .next (s.linkFence link on)

/-! ## The drain (R357) -/

def domainCode : FenceDomain → Nat
  | .quad _ => 0
  | .link _ => 1
  | .host => 2

def domainIndex : FenceDomain → Nat
  | .quad q => q.val
  | .link l => l.val
  | .host => 0

def State.domainFenced (s : State) (d : FenceDomain) : Bool :=
  match d with
  | .quad q => s.fld.fenced.getLsbD q.val
  | .link l => s.linkOut l
  | .host => s.rst.hostFenced

/-- Flits queued on a link. -/
def Link.queued (k : Link) : Nat := k.control.length + (k.queues.toList.map List.length).foldl (· + ·) 0

/-- The flits left on a fenced link are discarded and counted (R358). -/
def State.dropQueued (s : State) (l : LinkId) : State :=
  let n := (s.link l).queued
  { s.modLink l (fun k => { k with control := [], queues := Vector.replicate 4 [] }) with lnk.beDrop := satAdd s.lnk.beDrop n }

/-- Requests still outstanding in a fenced domain are answered with TIMEOUT, flits left on a link discarded, and DRAIN_TIMEOUT
raised. -/
def State.drainAnswer (s : State) (d : FenceDomain) (works : List TimedWork) : State :=
  let s := match d with
    | .link l => s.dropQueued l
    | _ => s
  let s := works.foldl (fun (s : State) w => s.workTimeout w) s
  s.raise 0x24 (domainIndex d) (leBytes 4 (domainCode d) ++ leBytes 4 works.length)

/-- Requests, or flits of a link, are still outstanding in a domain. -/
def State.drainLeft (s : State) (d : FenceDomain) (works : List TimedWork) : Bool :=
  !works.isEmpty || match d with
    | .link l => (s.link l).queued != 0
    | _ => false

/-- The drain Canary of a fenced domain expires; a domain without outstanding requests is idle, and nothing happens (R357). -/
def State.drainExpiry (s : State) (d : FenceDomain) (works : List TimedWork) : State :=
  if s.domainFenced d && s.drainLeft d works then (s.drainAnswer d works).canaryEvent 0x07 (domainIndex d) else s

def execDrainExpiry (domain : FenceDomain) (works : List TimedWork) (s : State) : Host.Outcome State Fault Refusal :=
  .next (s.drainExpiry domain works)

/-! ## Block reset (R359, R360) -/

/-- The pages that stand in a quad's dies become POISONED in every table, captured version and snapshot that names them, and their
bytes 0. -/
def State.poisonQuad (s : State) (q : Nat) : State :=
  let g := fun (p : DWord) =>
    if (pteState p == psResident || pteState p == psFrozen || pteState p == psTransit) && pteFrame p / dieStride / 4 == q then
      pteMove p psPoisoned (locSeam (pteFrame p))
    else p
  let s := ((s.zeroQuad q).mapCtxs fun x => x.mapPtes g).mapHeld g
  { s with
    hst.pageIns := s.hst.pageIns.filter fun p => p.frame / dieStride / 4 != q
    fld := s.fld.forgetQuad q }

/-- A virtual page no context has: an operation that waits for it waits until a Canary ends it. -/
def lostRequest : Nat := 2 ^ 27

/-- A collective in its data phase has a buffer page or scratch page in the quad. -/
def State.touchesQuad (s : State) (g : Group) (k : Collective) (q : Nat) : Bool :=
  match s.ctx? (ctxOf g.ctx.toNat) with
  | some x => (x.framesOf (s.colPages x g k) ++ g.scratch).any fun f => f / dieStride / 4 == q
  | none => false

/-- Requests in flight to the quad are dropped and their requesters wait: a Field operation that runs on it, a collective in its
data phase with pages in it; page-ins into it are forgotten (R360). -/
def State.dropRequests (s : State) (q : Nat) : State :=
  let t := { s with col.groups := s.col.groups.map fun g => { g with
    cols := g.cols.map fun k => if k.start.isSome && k.ending.isNone && s.touchesQuad g k q then { k with lost := true } else k } }
  match s.holderIn q with
  | some (c, k) => t.modCmd c k.seq fun k => { k with stalled := lostRequest :: k.stalled }
  | none => t

/-- A quad is re-initialised. -/
def State.resetQuad (s : State) (q : Nat) : State := (s.dropRequests q).poisonQuad q

/-- A link's logic is re-initialised: it enters DOWN, its flits lost. -/
def State.resetLink (s : State) (l : LinkId) : State :=
  let light := (s.link l).light
  let s := s.modLink l fun k => { k with control := [], queues := Vector.replicate 4 [] }
  (s.failLink l false).modLink l fun k => { k with light := light }

/-- RST_BLK_RESET with START. -/
def State.blockReset (s : State) (target : BitVec 5) (isLink : Bool) : State :=
  let n := target.toNat
  let s := { s with rst.blkTarget := target, rst.blkKind := isLink }
  if s.rst.blkBusy.isSome || (if isLink then 24 else 6) ≤ n then s
  else
    let s := { s with rst.blkBusy := some (isLink, n) }
    if isLink then s.resetLink (linkOf n) else s.resetQuad n

def execBlockReset (target : BitVec 5) (isLink : Bool) (s : State) : Host.Outcome State Fault Refusal :=
  .next (s.blockReset target isLink)

/-- A block reset completes; an unfenced link with light retrains. -/
def State.blockResetDone (s : State) : State :=
  let t := { s with rst.blkBusy := none }
  match s.rst.blkBusy with
  | some (true, n) =>
    let l := linkOf n
    if (t.link l).light && !t.rst.lfence.getLsbD l.val && (t.link l).state == lsDown then t.train l false else t
  | _ => t

def execBlockResetDone (s : State) : Host.Outcome State Fault Refusal := .next s.blockResetDone

/-! ## Canaries (R361) -/

/-- The Field progress Canary: the Field freezes and the running command ends with TIMEOUT. -/
def State.fieldCanary (s : State) : State :=
  match s.holder? with
  | some (c, _, k) => ((s.freezeField).endWith c k.seq stTimeout k.opNumber).canaryEvent 0x06 c.val
  | none => s

def execFieldProgressExpiry (s : State) : Host.Outcome State Fault Refusal := .next s.fieldCanary

/-- The mailbox Canary: the request ends with TIMEOUT and LEN 0. -/
def State.mbxCanary (s : State) : State := if s.mbx.busy then (s.mbxFail stTimeout).canaryEvent 0x08 0 else s

def execMailboxCanaryExpiry (s : State) : Host.Outcome State Fault Refusal := .next s.mbxCanary

/-- An overseer's heartbeat counts as missing: a system reset with cause WATCHDOG. -/
def State.overseerExpiry (s : State) (hub : Nat) : State := (s.canaryEvent (9 + hub) hub).systemStart 0x07 hub false

def execOverseerCanaryExpiry (hub : Fin 4) (s : State) : Host.Outcome State Fault Refusal :=
  .next (s.overseerExpiry hub.val)

/-! ## Self-faults (R362) -/

def canaryId : CanaryOf → Nat
  | .commandWait _ => 1
  | .commandRun _ => 2
  | .step _ => 3
  | .collective _ => 4
  | .snapshotWait _ => 5
  | .fieldProgress => 6
  | .drain _ _ => 7
  | .mailbox => 8
  | .overseer h => 9 + h.val

/-- The object a Canary watches, as CANARY_EXPIRY gives it (Table 13.14): for Field progress the context whose command holds the
Field, 0 when none does (log entry 66). -/
def State.canaryObject (s : State) : CanaryOf → Nat
  | .commandWait c => c.val
  | .commandRun c => c.val
  | .step c => c.val
  | .collective g => g.val
  | .snapshotWait n => n.val
  | .fieldProgress => (s.sch.holder.map fun h => h.ctx.val).getD 0
  | .drain d _ => domainIndex d
  | .mailbox => 0
  | .overseer h => h.val

/-- The context is fenced: STOP set for good, its fetched commands end with FENCED. -/
def State.fenceContext (s : State) (c : CtxId) : State :=
  (s.modCtx c fun x => { x with
    fenced := true
    stop := true
    cmds := x.cmds.map fun k =>
      if k.ending.isSome then k
      else { k with ending := some stFenced, killing := none, endIdx := k.stopIdx } }).settle

/-- The watched unit is fenced (Table 13.5). -/
def State.selfFaultAct (s : State) (k : CanaryOf) : State :=
  match k with
  | .commandWait c => s.fenceContext c
  | .commandRun c => s.fenceContext c
  | .step c => s.fenceContext c
  | .collective g =>
    if (s.group g).state == 0 then s else s.modGroup g fun q => { q.endAll stFenced with state := 2 }
  | .snapshotWait n => if (s.snap n).live then s.snapEnd n stFenced else s
  | .fieldProgress => s.freeze
  | .drain d works => if s.domainFenced d then s.drainAnswer d works else s
  | .mailbox => { s with mbx.fenced := true }
  | .overseer h => s.systemStart 0x07 h.val false

/-- A Canary's comparators disagree. -/
def State.selfFault (s : State) (k : CanaryOf) : State :=
  let s := { s with
    rst.selfFaults := satInc s.rst.selfFaults
    rst.lastCanary := BitVec.ofNat 8 (canaryId k)
    rst.lastKind := false }
  (s.raise 0x21 (canaryId k) (leBytes 4 (s.canaryObject k))).selfFaultAct k

def execCanarySelfFault (canary : CanaryOf) (s : State) : Host.Outcome State Fault Refusal := .next (s.selfFault canary)

/-! ## Parity of limit registers (R363) -/

/-- The BAR0 offset of a limit register. -/
def limitOffset : LimitReg → Nat
  | .waitLimit => 0x200C
  | .runLimit => 0x2010
  | .stepMax c => offStepMax c
  | .colCanary => 0x10008
  | .snapWait => 0x11004
  | .fieldProgress => 0x12028
  | .drain => 0x12030
  | .overseer => 0x1202C
  | .guard => offGuard
  | .holdover => offHoldover

/-- The Canary that uses a limit register; 0 for TKP registers, and for the overseers' register the first of its four. -/
def limitCanary : LimitReg → Nat
  | .waitLimit => 1
  | .runLimit => 2
  | .stepMax _ => 3
  | .colCanary => 4
  | .snapWait => 5
  | .fieldProgress => 6
  | .drain => 7
  | .overseer => 9
  | .guard => 0
  | .holdover => 0

/-- Every Canary that uses a limit register and watches something takes its expiry action; a bad TKP_GUARD or TKP_HOLDOVER sets
SCHED_OFF, which badParity shows (R363). Of the overseers' four Canaries, which share a register, hub 0's is used first (log
entry 84). -/
def State.expireAll (s : State) (r : LimitReg) : State :=
  match r with
  | .waitLimit => s.contexts.foldl (fun s e => e.2.cmds.foldl (fun s k => s.waitExpiry e.1 k.seq) s) s
  | .runLimit => s.holderTimeout 0x02 fun _ => true
  | .stepMax c => s.stepMaxExpiry c
  | .colCanary => (List.finRange 64).foldl (fun s g => s.colCanary g) s
  | .snapWait => (List.finRange 8).foldl (fun s n => s.snapTimeout n) s
  | .fieldProgress => s.fieldCanary
  | .drain => ((List.finRange 24).map .link).foldl (fun s d => s.drainExpiry d []) s
  | .overseer => s.overseerExpiry 0
  | .guard => s
  | .holdover => s

/-- A use of a limit register whose parity is bad, which counts as an expiry; the first one is recorded (R363). -/
def State.parityFault (s : State) (r : LimitReg) : State :=
  let o := limitOffset r
  let s := if s.rst.badParity.contains o then s
    else
      { s with
        rst.badParity := o :: s.rst.badParity
        rst.parity := satInc s.rst.parity
        rst.lastCanary := BitVec.ofNat 8 (limitCanary r)
        rst.lastKind := true
        rst.lastOffset := BitVec.ofNat 20 o }.raise 0x22 (limitCanary r) (leBytes 4 o)
  s.expireAll r

def execParityFault (limit : LimitReg) (s : State) : Host.Outcome State Fault Refusal := .next (s.parityFault limit)

/-! ## The long press (R366) -/

/-- ATTN held 8 s: the host interface is fenced and the module retires; one that is retired only records the cause, and the
stamp where the mask counts it (R364). -/
def State.longPress (s : State) : State :=
  let s := { s with svc.longPresses := satInc s.svc.longPresses }.hostFence
  if s.rst.retired then { s.escalate 0x09 false with rst.cause := 0x09, rst.detail := 0 } else s.retire 0x09

def execAttnLongPress (s : State) : Host.Outcome State Fault Refusal := .next s.longPress

end Sys2Proof.Machine
end

