-- ==== Sys2Proof/Machine/Power.lean ====
section
/-! DEFINITION. Power, cooling and bring-up (15_power_bringup.md R401 to R417). -/

namespace Sys2Proof.Machine

/-! ## Temperatures and the trip (R406; 13_reset_health.md R370) -/

/-- The readings corrected by the thermal offsets in effect. -/
def State.correct (s : State) : State :=
  { s with pwr.temps := Vector.ofFn fun i => vget s.pwr.raws i + s.cal.offsets.offset i.val }

/-- The sensors read `temps`. -/
def State.readTemps (s : State) (temps : List Int) : State :=
  { s with pwr.raws := Vector.ofFn fun i => temps.getD i.val 0 }.correct

/-- A temperature in °C as the registers count it. -/
def degrees (n : Int) : Int := 64 * n

/-- A hold begins: the dies lose their work, the host interface is fenced and the module stays in system reset. -/
def State.holdReset (s : State) (h : Hold) : State :=
  { s.abandonCapture.abandonShards.systemClear with rst.hostFenced := true, pwr.hold := h, pwr.stage := 7 }

/-- A thermal trip; a trip during a hold keeps the hold. -/
def State.trip (s : State) : State :=
  if s.pwr.hold != .none then s
  else
    let s := (s.hostFence.raiseBeacon bcThermal).holdReset .trip
    { s with pwr.railA := false, pwr.railB := false, pwr.trip := true }

/-- A corrected reading at or above 110 °C trips at once. -/
def State.tripIfHot (s : State) : State := if degrees 110 ≤ s.pwr.hottest.2 then s.trip else s

def execThermalTrip (temps : List Int) (s : State) : Host.Outcome State Fault Refusal := .next (s.readTemps temps).tripIfHot

/-- Every die below 70 °C: the system reset with cause THERMAL; a module whose input switch had not closed yet waits for it
again (log entry 42). -/
def State.tripRelease (s : State) (temps : List Int) : State :=
  let s := s.readTemps temps
  if s.pwr.hold == .trip && s.pwr.hottest.2 < degrees 70 then
    { s with pwr.hold := .none, pwr.stage := if s.pwr.mainOn then 7 else 1, pwr.trips := satInc s.pwr.trips }.systemStart 0x08 0 false
  else s

def execThermalRelease (temps : List Int) (s : State) : Host.Outcome State Fault Refusal := .next (s.tripRelease temps)

/-! ## Rails (R401 to R403) -/

def inRange (volts : Nat) : Bool := 5000 ≤ volts && volts ≤ 5800

def State.clipVolts (s : State) (clipB : Bool) (volts : Nat) : State :=
  if clipB then { s with pwr.vb := BitVec.ofNat 16 volts } else { s with pwr.va := BitVec.ofNat 16 volts }

/-- A clip leaves its operating range for 1 ms, or is back in it. -/
def State.railWarning (s : State) (clipB : Bool) (volts : Nat) : State :=
  let was := if clipB then s.pwr.railWarnB else s.pwr.railWarnA
  let warn := !inRange volts
  let s := s.clipVolts clipB volts
  let s := if clipB then { s with pwr.railWarnB := warn } else { s with pwr.railWarnA := warn }
  if was == warn then s else s.raise 0xF3 (b2n clipB) (leBytes 4 (b2n warn) ++ leBytes 4 volts)

def execRailWarning (clipB : Bool) (volts : Nat) (s : State) : Host.Outcome State Fault Refusal := .next (s.railWarning clipB volts)

/-- A rail fault of a clip below 47 V or above 60 V: the input switch opens (R402). Before it has closed nothing is at fault. -/
def State.railFault (s : State) (clipB : Bool) (volts : Nat) : State :=
  if s.pwr.mainOn && (volts < 4700 || 6000 < volts) then
    let s := s.hostFence.resetBeacon.holdReset .rail
    { s with
      pwr.mainOn := false
      pwr.railA := !clipB
      pwr.railB := clipB
      pwr.trip := false
      pwr.railFaults := satInc s.pwr.railFaults }.clipVolts clipB volts
  else s

def execRailFault (clipB : Bool) (volts : Nat) (s : State) : Host.Outcome State Fault Refusal := .next (s.railFault clipB volts)

/-- The power-on reset (13_reset_health.md R353): everything but non-volatile storage, what stands outside the module, and the queue.
A calibration image that was being written is left failing its digest, its bytes free values (14_identity_service.md R387). -/
def State.powerClear (s : State) : State :=
  let t := { State.reset with
    perst := s.perst
    host := s.host
    hostFree := s.hostFree
    lnk := { lnkReset with gen := s.lnk.gen, links := Vector.ofFn fun l => { linkReset with light := (s.link l).light } }
    rst := { rstReset with retired := s.rst.retired, coreHeld := s.rst.retired }
    sec := { secReset with
      nextBank := s.sec.nextBank, svnMin := s.sec.svnMin, banks := s.sec.banks, attestNo := s.sec.attestNo, bank := s.sec.bank
      svn := s.sec.svn }
    cal := { calReset with origin := s.cal.origin, writes := s.cal.writes, stored := s.cal.stored, torn := s.cal.torn }
    svc := { svcReset with attached := s.svc.attached }
    freeCtr := s.freeCtr + 1
    pending := s.pending }
  if s.cal.writing.isSome then
    { t with
      cal.torn := true
      cal.stored := some ((List.range calSize).map (Config.freeByte t.freeCtr))
      cal.writes := Config.freeWord t.freeCtr
      cal.origin := Config.freeChoice t.freeCtr 0 }
  else t

/-- The auxiliary feed fails: the input switch opens and the whole module is off (R403). -/
def State.auxLoss (s : State) : State := { s.powerClear with pwr.auxOn := false }

def execAuxLoss (s : State) : Host.Outcome State Fault Refusal := .next s.auxLoss

/-- The auxiliary feed is applied: the island boots from ROM (R403, R411). -/
def execPowerOn (s : State) : Host.Outcome State Fault Refusal := .next s.powerClear

/-- Calibration loaded and banks verified (R411, t1). -/
def State.auxReady (s : State) : State :=
  if s.pwr.auxOn && s.pwr.stage == 0 then { s with pwr.stage := 1 }.loadCal.bootBank else s

def execAuxReady (s : State) : Host.Outcome State Fault Refusal := .next s.auxReady

/-- The input switch closes for the first time, GEN steps and the dies start (R411, t3 to t4). -/
def State.switchOn (s : State) : State :=
  { s with
    pwr.mainOn := true, pwr.stage := 4, lnk.gen := s.lnk.gen + 1, rst.inReset := some true, rst.coreHeld := true
    seam.zeroing := true }.trainAll

/-- 54 V in range at both clips: after AUX_READY the module starts; a hold ends if a power-on request waits for it (R402). -/
def State.mainInRange (s : State) (va vb : Nat) : State :=
  if !(inRange va && inRange vb) then s
  else
    let t := { s with pwr.va := BitVec.ofNat 16 va, pwr.vb := BitVec.ofNat 16 vb }
    match s.pwr.hold, s.pwr.onAsked with
    | .none, _ => if s.pwr.stage == 1 && !s.pwr.mainOn then t.switchOn else t
    | .rail, some cause => { t with pwr.mainOn := true, pwr.hold := .none, pwr.onAsked := none }.systemStart cause.toNat 0 false
    | _, _ => t

def execMainPowerInRange (va vb : Nat) (s : State) : Host.Outcome State Fault Refusal := .next (s.mainInRange va vb)

/-- A power-on request with its reset cause: it ends a rail hold once both clips are in range, and is a system reset otherwise; a trip's
hold it leaves (R402, R406). -/
def State.powerRequest (s : State) (cause : Nat) : State :=
  match s.pwr.hold with
  | .none => s.systemStart cause 0 false
  | .rail => { s with pwr.onAsked := some (BitVec.ofNat 8 cause) }
  | .trip => s

/-- STARTUP_READY (R411, t9). -/
def execStartupReady (s : State) : Host.Outcome State Fault Refusal := .next s.becomeReady

/-! ## The Field clock (R404, R405) -/

/-- The power limit in W and the clock ceilings in MHz of an envelope (Table 15.2). -/
def powerLimit (env : BitVec 2) : Nat := if env = 0 then 6800 else if env = 1 then 5600 else 4400
def peakCeiling (env : BitVec 2) : Nat := if env = 0 then 1600 else if env = 1 then 1400 else 1100
def steadyClock (env : BitVec 2) : Nat := if env = 0 then 1450 else if env = 1 then 1250 else 950

/-- The ceiling of a setting (01_module.md R21). -/
def ceilingOf (env : BitVec 2) (steady : Bool) : Nat := if steady then steadyClock env else peakCeiling env

def State.ceiling (s : State) : Nat := ceilingOf s.profile.envelopeEff s.profile.clockingEff

/-- The reason rule 1 of Table 15.3 begins, as the EMERGENCY event codes it: temperature, clip current, STEADY power. -/
def State.emergReason (s : State) (r : Readings) : Option Nat :=
  if degrees 102 ≤ s.pwr.hottest.2 then some 0
  else if 700 < r.ia || 700 < r.ib then some 1
  else if s.profile.clockingEff && 105 * powerLimit s.profile.envelopeEff < 100 * r.watts10 then some 2
  else none

/-- What ends an emergency. -/
def State.emergOver (s : State) (r : Readings) : Bool :=
  s.pwr.hottest.2 < degrees 95 && r.ia < 660 && r.ib < 660 && r.watts ≤ powerLimit s.profile.envelopeEff

/-- Rule 1 holds: an emergency begins, or one goes on. -/
def State.rule1 (s : State) (r : Readings) : Bool := if s.pwr.emerg then !s.emergOver r else (s.emergReason r).isSome

/-- Rules 2 and 3 of Table 15.3. -/
def State.rule2 (s : State) (r : Readings) : Bool :=
  degrees 95 ≤ s.pwr.hottest.2 || powerLimit s.profile.envelopeEff < r.watts
def State.rule3 (s : State) (r : Readings) : Bool :=
  s.pwr.hottest.2 < degrees 92 && 100 * r.watts < 97 * powerLimit s.profile.envelopeEff

/-- FCLK now; a Field whose clock has not run yet starts from 0.95 GHz (log entry 46). -/
def State.fclkNow (s : State) : Nat := if s.pwr.fclk = 0 then 950 else s.pwr.fclk.toNat

/-- Tests of 100 µs between two rises. -/
def riseTests : Nat := 10

/-- FCLK after a test. It is not raised while a change of setting waits (01_module.md R21). -/
def State.fclkNext (s : State) (r : Readings) : Nat :=
  let f := s.fclkNow
  let want := if s.rule1 r then 950
    else if s.profile.clockingEff then steadyClock s.profile.envelopeEff
    else if s.rule2 r then max 950 (f - 25)
    else if s.rule3 r && riseTests ≤ s.pwr.sinceRise + 1 then f + 25
    else f
  let want := min want s.ceiling
  if s.profile.clockPending then min f want else want

/-- THROTTLE after a test: rules 2 and 3 set it while FCLK is below the ceiling. -/
def State.throttleNext (s : State) (r : Readings) : Bool :=
  if s.rule1 r then s.pwr.throttle
  else if s.profile.clockingEff then false
  else if s.rule2 r || s.rule3 r then s.fclkNext r < s.ceiling
  else s.pwr.throttle

/-- The reason of a THROTTLE event: what rule 2 found; otherwise the spec gives none and the bit is a free value. -/
def State.throttleReason (s : State) (r : Readings) : Nat :=
  if s.rule2 r then b2n (degrees 95 ≤ s.pwr.hottest.2) else b2n (Config.freeChoice s.freeCtr 0)

/-- The reason of an EMERGENCY event; at its end the spec gives none and the field is a free value. -/
def State.emergCode (s : State) (r : Readings) : Nat := (s.emergReason r).getD ((Config.freeWord s.freeCtr).toNat % 4)

/-- One test of Table 15.3 on a state that has taken its readings. -/
def State.fclkTest (s : State) (r : Readings) : State :=
  let emerg := s.rule1 r
  let f := s.fclkNext r
  let throttle := s.throttleNext r
  let rose := s.fclkNow < f
  let t := { s with
    pwr.fclk := BitVec.ofNat 12 f
    pwr.emerg := emerg
    pwr.throttle := throttle
    pwr.sinceRise := if rose then 0 else s.pwr.sinceRise + 1
    pwr.throttleUs := if s.pwr.fclk != 0 && s.fclkNow < s.ceiling then s.pwr.throttleUs + 100 else s.pwr.throttleUs
    pwr.emergs := if emerg && !s.pwr.emerg then satInc s.pwr.emergs else s.pwr.emergs
    freeCtr := s.freeCtr + 1 }
  let t := if throttle == s.pwr.throttle then t
    else t.raise 0xF0 0 (leBytes 4 (b2n throttle + 2 * s.throttleReason r) ++ leBytes 4 f)
  if emerg == s.pwr.emerg then t else t.raise 0xF1 s.pwr.hottest.1 (leBytes 4 (b2n emerg + 2 * s.emergCode r))

/-- The monitors' readings, and the energy of 100 µs. -/
def State.takeReadings (s : State) (r : Readings) : State :=
  { s.readTemps r.temps with
    pwr.watts := BitVec.ofNat 16 r.watts
    pwr.va := BitVec.ofNat 16 r.va
    pwr.vb := BitVec.ofNat 16 r.vb
    pwr.ia := BitVec.ofNat 16 r.ia
    pwr.ib := BitVec.ofNat 16 r.ib
    pwr.auxMv := BitVec.ofNat 16 r.auxMv
    pwr.energyTenths := s.pwr.energyTenths + r.watts }

/-- FCLK_CONTROL_TEST: the readings are taken; the clock is set while the Field has power. -/
def State.fclkControl (s : State) (r : Readings) : State :=
  let s := (s.takeReadings r).tripIfHot
  if s.pwr.mainOn && s.pwr.hold == .none then s.fclkTest r else s

def execFclkControlTest (r : Readings) (s : State) : Host.Outcome State Fault Refusal := .next (s.fclkControl r)

/-! ## Cooling (R408) -/

/-- The flow estimate in 0.01 L/min, of power in W and a rise in 1/64 K. Where there is no rise, or the quotient does not fit, the spec
states no result and the estimate is a free value. -/
def flowOf (ctr watts : Nat) (rise : Int) : BitVec 16 :=
  if watts < 2000 then 0xFFFF
  else
    let q := 64000 * watts / (697 * rise.toNat)
    if rise ≤ 0 || 65535 < q then BitVec.ofNat 16 (Config.freeWord ctr).toNat else BitVec.ofNat 16 q

/-- The three conditions of COOL_WARN; FLOW_WARN 0 is taken as 1. -/
def Pwr.coolBad (p : Pwr) (i : Nat) : Bool :=
  match i with
  | 0 => degrees p.inletWarn.toNat < p.inlet
  | 1 => degrees p.outletWarn.toNat < p.outlet
  | _ => p.flow.toNat < 10 * max 1 p.flowWarn.toNat

/-- The second's update of the estimate and of COOL_WARN. -/
def State.coolingUpdate (s : State) (inlet outlet : Int) (watts : Nat) : State :=
  let flow := flowOf s.freeCtr watts (outlet - inlet)
  let s := { s with pwr.inlet := inlet, pwr.outlet := outlet, pwr.flow := flow, freeCtr := s.freeCtr + 1 }
  let run := Vector.ofFn fun (i : Fin 3) => if s.pwr.coolBad i.val then vget s.pwr.coolRun i + 1 else 0
  let quiet := if run.toList.all (· == 0) then s.pwr.coolQuiet + 1 else 0
  let warn := if s.pwr.coolWarn then quiet < 10 else run.toList.any (10 ≤ ·)
  let t := { s with pwr.coolRun := run, pwr.coolQuiet := quiet, pwr.coolWarn := warn }
  if warn == s.pwr.coolWarn then t
  else t.raise 0xF2 0 (leBytes 4 (b2n warn) ++ leBytes 4 t.pwr.coolWord.toNat ++ leBytes 4 flow.toNat)

def execCoolingUpdate (inlet outlet : Int) (watts : Nat) (s : State) : Host.Outcome State Fault Refusal :=
  .next (s.coolingUpdate inlet outlet watts)

/-! ## TEMP_READ and ENERGY_READ (R416) -/

/-- A signed temperature in its two bytes. -/
def tempBytes (t : Int) : List Byte := leBytes 2 (BitVec.ofInt 16 t).toNat

def State.tempRead (s : State) : State :=
  s.mbxRunAlways 0xF0 fun s => s.mbxOk (s.pwr.temps.toList.flatMap tempBytes ++ tempBytes s.pwr.inlet ++ tempBytes s.pwr.outlet)

def execTempRead (s : State) : Host.Outcome State Fault Refusal := .next s.tempRead

def State.energyRead (s : State) : State :=
  s.mbxRunAlways 0xF1 fun s => s.mbxOk (leBytes 8 (s.pwr.energyTenths / 10) ++ leBytes 8 s.ht)

def execEnergyRead (s : State) : Host.Outcome State Fault Refusal := .next s.energyRead

end Sys2Proof.Machine
end

