-- ==== Sys2Proof/Machine/Attest.lean ====
section
/-! DEFINITION. The island's turn, measurements, certificates and SPDM (14_identity_service.md R378, R379, R382, R383, R388). -/

namespace Sys2Proof.Machine

/-! ## The island's requests (R388) -/

/-- A calibration image is being written or exported. -/
def State.islandBusy (s : State) : Bool := s.cal.writing.isSome || s.cal.state == 1

/-- The island serves one request at a time: while an image is being written or exported the next one waits. -/
def State.island (s : State) (k : State → State) : State := if s.islandBusy then s else k s

/-- A mailbox request of 14_identity_service.md: one that holds BUSY is served in its turn. -/
def State.mbxIsland (s : State) (code : Nat) (k : State → State) : State := s.island fun s => s.mbxRunAlways code k

/-- A request over SVC or MGMT, which work whenever 12 V auxiliary is present (R392, 13_reset_health.md R370), in its turn. -/
def State.svcRun (s : State) (k : State → State) : State := if s.pwr.auxOn then s.island k else s

/-! ## Measurements (R383) -/

/-- 48 bytes of a measurement that is no digest of modelled bytes. -/
def givenMeasurement (i : Nat) (of : Option (Bool × Option (List Byte))) : List Byte := (List.range 48).map (Config.measurementByte i of)

/-- Measurement 7: the SHA-384 of the image loaded at the last system reset. -/
def State.loadedDigest (s : State) : List Byte :=
  match s.cal.loaded with
  | .image (some b) => sha384 b
  | .image none => sha384 (withDigest factoryBody)
  | .nominal => givenMeasurement 7 none

/-- Measurement 8, the boot state. -/
def State.bootState (s : State) : List Byte :=
  leBytes 4 (b2n s.sec.bank + 2 * b2n s.sec.fwFallback + 4 * b2n s.cal.calBad + 8 * b2n s.rst.retired)

/-- A measurement of Table 14.3: 1 of the boot ROM, 2 to 6 of the package in the running bank. -/
def State.measurement (s : State) (i : Nat) : List Byte :=
  if i = 8 then s.bootState
  else if i = 7 then s.loadedDigest
  else if i = 1 then givenMeasurement 1 none
  else givenMeasurement i (some (s.sec.bank, (s.bankOf s.sec.bank).data))

/-! ## Certificates (R378, R379) -/

def hexDigit (n : Nat) : Byte := BitVec.ofNat 8 (if n < 10 then 48 + n else 55 + n)

/-- The serial number in 16 upper-case hexadecimal digits. -/
def serialDigits : List Byte := (List.range 16).map fun i => hexDigit (bits Config.serial.toNat (63 - 4 * i) (60 - 4 * i))

/-- The device certificate's notAfter, 99991231235959Z. -/
def notAfter : List Byte := "99991231235959Z".toList.map fun c => BitVec.ofNat 8 c.toNat

/-- 64 entries of 16 bytes, one for each die in the order A00 to A23, S00 to S23, L00 to L11, H0 to H3. -/
def dieIdentities : List Byte := (List.range 64).flatMap fun d => (List.range 16).map (Config.dieIdByte d)

/-- What the spec fixes in a certificate of Table 14.1, in the order it stands there (log entry 85). -/
def State.certParts (s : State) (level : Nat) : List (List Byte) :=
  if level = 2 then [notAfter, serialDigits, dieIdentities]
  else if level = 3 then [(List.range 7).flatMap fun i => s.measurement (i + 1), leBytes 4 s.sec.attestGen.toNat]
  else []

/-- The attestation key a certificate is issued for; the others depend on none. -/
def State.certKey (s : State) (level : Nat) : Nat := if level = 3 then s.sec.attestNo else 0

/-- The stretch of a certificate before its part `k`. -/
def State.certGap (s : State) (level k : Nat) : List Byte :=
  let n := s.certKey level
  (List.range (Config.certGapLength level n k)).map (Config.certGapByte level n (s.certParts level).flatten k)

/-- A certificate: its parts, each after a stretch of other bytes, and the stretch that ends it. -/
def State.cert (s : State) (level : Nat) : List Byte :=
  let ps := s.certParts level
  (ps.zipIdx.flatMap fun p => s.certGap level p.2 ++ p.1) ++ s.certGap level ps.length

/-- Slot 0 holds levels 0 to 2; slot 1 levels 0 to 3, once this boot's attestation certificate has been issued. -/
def State.certSlot (s : State) (slot : Nat) : Bool := slot == 0 || (slot == 1 && s.sec.attestReady)

/-- A slot's certificate chain. -/
def State.chain (s : State) (slot : Nat) : List Byte :=
  if s.certSlot slot then (List.range (3 + slot)).flatMap s.cert else []

/-- Up to `n` bytes of a slot's chain from an offset. -/
def State.certBytes (s : State) (slot off n : Nat) : List Byte := ((s.chain slot).drop off).take n

def State.certRead (s : State) : State :=
  s.mbxIsland 0xD0 fun s =>
    let w := s.mbxArg 0
    if bits w 15 1 != 0 then s.mbxFail stBad else s.mbxOk (s.certBytes (bits w 0 0) (512 * bits w 31 16) 512)

def execCertRead (s : State) : Host.Outcome State Fault Refusal := .next s.certRead

/-! ## SPDM (R382, R383) -/

/-- An SPDM request is answered: over MGMT by the island in its turn, over DOE on PF0 at once. -/
def State.spdm (s : State) (mgmt : Bool) (r : State → SpdmReply) : State :=
  let ans := fun (s : State) => { s with sec.spdmCount := s.sec.spdmCount + 1, sec.reply := some (r s) }.bumpFree
  if mgmt then s.svcRun ans else if s.pwr.auxOn && !s.sec.islandOnly then ans s else s

def execGetVersion (mgmt : Bool) (s : State) : Host.Outcome State Fault Refusal := .next (s.spdm mgmt fun _ => .version 1 3)

/-- CERT_CAP, CHAL_CAP and MEAS_CAP (signed); no KEY_EX_CAP, no PSK_CAP. -/
def execGetCapabilities (mgmt : Bool) (s : State) : Host.Outcome State Fault Refusal :=
  .next (s.spdm mgmt fun _ => .capabilities true true true false false)

/-- BaseAsymAlgo, BaseHashAlgo and MeasurementHashAlgo; there is no other choice. -/
def execNegotiateAlgorithms (mgmt : Bool) (s : State) : Host.Outcome State Fault Refusal :=
  .next (s.spdm mgmt fun _ => .algorithms .ecdsaP384 .sha384 .sha384)

/-- The slots that hold a chain, with its digest. -/
def State.digests (s : State) : List (Nat × List Byte) := ([0, 1].filter s.certSlot).map fun n => (n, sha384 (s.chain n))

def execGetDigests (mgmt : Bool) (s : State) : Host.Outcome State Fault Refusal := .next (s.spdm mgmt fun s => .digests s.digests)

def State.getCertificate (s : State) (slot off n : Nat) : SpdmReply :=
  if s.certSlot slot then .certificate slot (s.certBytes slot off n) ((s.chain slot).length - (off + n)) else .error .unstated

def execGetCertificate (mgmt : Bool) (slot offset length : Nat) (s : State) : Host.Outcome State Fault Refusal :=
  .next (s.spdm mgmt fun s => s.getCertificate slot offset length)

/-- A signature of this boot's attestation key (log entry 34). -/
def State.attestSignature (s : State) (signed : List Byte) : List Byte :=
  (List.range 96).map fun i => Config.attestSignByte s.sec.attestNo (sha384 signed) s.freeCtr i

/-- A CHALLENGE response: slot 0 is signed with the device key, slot 1 with the attestation key. -/
def State.challengeReply (s : State) (slot : Nat) : SpdmReply :=
  let d := sha384 (s.chain slot)
  if s.certSlot slot then .challengeAuth slot d (if slot = 0 then s.signature d else s.attestSignature d) else .error .unstated

def execChallenge (mgmt : Bool) (slot : Nat) (s : State) : Host.Outcome State Fault Refusal :=
  .next (s.spdm mgmt fun s => s.challengeReply slot)

def State.measure (s : State) (indices : List Nat) : SpdmReply :=
  let ms := indices.map fun i => (i, s.measurement i)
  if s.sec.attestReady && indices.all fun i => 1 ≤ i && i ≤ 8 then
    .measurements ms (s.attestSignature (ms.flatMap (·.2)))
  else .error .unstated

def execGetMeasurements (mgmt : Bool) (indices : List Nat) (s : State) : Host.Outcome State Fault Refusal :=
  .next (s.spdm mgmt fun s => s.measure indices)

def execSpdmUnsupported (mgmt : Bool) (s : State) : Host.Outcome State Fault Refusal :=
  .next (s.spdm mgmt fun _ => .error .unsupportedRequest)

end Sys2Proof.Machine
end

