-- ==== Sys2Proof/Machine/Service.lean ====
section
/-! DEFINITION. Identity, firmware, the calibration store, the button and the ports SVC and MGMT (14_identity_service.md R380,
R381, R384 to R400; 15_power_bringup.md R402, R413). -/

namespace Sys2Proof.Machine

/-- The key of Table 14.7. -/
def svcKey : BitVec 16 := 0x6480

/-! ## The attention button (R389) and the drain (R390) -/

/-- A service request is set or cleared, with its event. -/
def State.serviceEvent (s : State) (on : Bool) : State := s.raise 0xE0 0 (leBytes 4 (b2n on))

/-- A short press, at its release. -/
def State.shortPress (s : State) : State :=
  let s := { s with svc.shortPresses := satInc s.svc.shortPresses, svc.presence := true }
  if s.rst.retired then s
  else if s.svc.request || s.svc.drained then { s with svc.request := false, svc.drained := false }.serviceEvent false
  else { s with svc.request := true }.serviceEvent true

def execAttnShortPress (s : State) : Host.Outcome State Fault Refusal := .next s.shortPress

def execPresenceWindowExpiry (s : State) : Host.Outcome State Fault Refusal := .next { s with svc.presence := false }

/-- SVC_CTRL.DRAINED. -/
def State.drainedWrite (s : State) : State :=
  if s.ctxCount = 0 && s.groupsIn 1 = 0 && s.snapsLive = 0 then { s with svc.drained := true, svc.drainRefused := false }
  else { s with svc.drainRefused := true }

def execDrained (s : State) : Host.Outcome State Fault Refusal := .next s.drainedWrite

/-- SVC_CTRL.CANCEL_REQUEST. -/
def State.cancelRequest (s : State) : State :=
  if s.svc.request then { s with svc.request := false }.serviceEvent false else s

def execCancelRequest (s : State) : Host.Outcome State Fault Refusal := .next s.cancelRequest

/-! ## Identity (Table 14.8) -/

/-- The identity record. -/
def State.identity (s : State) : List Byte :=
  leBytes 8 Config.serial.toNat ++ leBytes 4 s.lnk.gen.toNat ++ leBytes 4 s.hubVersion.toNat ++ leBytes 4 s.rstStatus.toNat ++
    leBytes 4 s.rstCause.toNat ++ leBytes 4 s.secSvn.toNat ++ leBytes 4 s.calStatus.toNat ++ leBytes 4 s.svcStatus.toNat ++
    List.replicate 28 0

def State.identityRead (s : State) : State := s.mbxIsland 0xD1 fun s => s.mbxOk s.identity

def execIdentityRead (s : State) : Host.Outcome State Fault Refusal := .next s.identityRead

/-! ## Overseer firmware (R381) -/

/-- A slot the island reads or writes for a request (word 0: CTX and SLOT): defined, not in another endpoint's memory, and made
device-held by its flag word. -/
def State.islandSlot (s : State) (w0 : Nat) (flag : List Byte) : Option (State × CtxId × Nat × WinSlot) :=
  let c := ctxOf (bits w0 7 0)
  let n := bits w0 31 16
  if bits w0 15 8 != 0 then none
  else ((s.ctx? c).bind fun x => x.slot? n).bind fun w =>
    if w.p2p then none else (s.acquire c n flag).map fun s => (s, c, n, w)

/-- The request needs a slot of a function that may not issue requests, and waits (12_host_attachment.md R316). -/
def State.islandWaits (s : State) (w0 : Nat) : Bool :=
  bits w0 15 8 == 0 && (s.ctx? (ctxOf (bits w0 7 0))).any fun x =>
    (x.slot? (bits w0 31 16)).any (fun w : WinSlot => !w.p2p) && !s.mayRequest x.fn

/-- The package goes to the bank that does not run; one that does not verify, or whose SVN is too low, changes nothing. -/
def State.stage (s : State) (package : List Byte) (verified : Bool) (svn : BitVec 16) : State × Byte :=
  if verified && s.sec.svnMin ≤ svn then
    ({ s with
      sec.banks := vset s.sec.banks (if s.sec.bank then 0 else 1) { good := true, svn := svn, data := some package }
      sec.staged := true }, stOk)
  else (s, stBad)

/-- FW_STAGE: the slot's flag word and bytes as read, whether the package verifies, and its SVN. -/
def State.fwStage (s : State) (flag package : List Byte) (verified : Bool) (svn : BitVec 16) (portFault : Bool) : State :=
  s.mbxIsland 0xD4 fun s =>
    let len := s.mbxArg 1
    if s.islandWaits (s.mbxArg 0) then s
    else match s.islandSlot (s.mbxArg 0) flag with
    | none => s.mbxStatus stBad
    | some (t, c, _, w) =>
      if 2 ^ 26 < len || w.size < len then t.mbxStatus stBad
      else if portFault then t.mbxStatus stFenced
      else
        let (t, st) := (t.tallyHost c len).stage (slice package 0 len) verified svn
        (t.raise 0xE2 (b2n (!t.sec.bank)) (leBytes 4 st.toNat ++ leBytes 4 svn.toNat)).mbxStatus st

def execFwStage (flag package : List Byte) (verified : Bool) (svn : BitVec 16) (portFault : Bool) (s : State) :
    Host.Outcome State Fault Refusal := .next (s.fwStage flag package verified svn portFault)

/-- FW_ACTIVATE. -/
def State.fwActivate (s : State) : State :=
  s.mbxIsland 0xD5 fun s =>
    let w := s.mbxArg 0
    let bank := s.bankOf (!s.sec.bank)
    if bits w 31 1 != 0 || !s.sec.staged || !s.bankOk (!s.sec.bank) then s.mbxStatus stBad
    else
      { s with
        sec.nextBank := !s.sec.bank
        sec.svnMin := if bit w 0 then bank.svn else s.sec.svnMin }.mbxStatus stOk

def execFwActivate (s : State) : Host.Outcome State Fault Refusal := .next s.fwActivate

/-! ## The calibration store (R386, R387) -/

/-- CAL_EXPORT: the image to a slot, handed back with LEN 16,384. -/
def State.calExport (s : State) (flag : List Byte) (portFault : Bool) : State :=
  s.mbxIsland 0xD8 fun s =>
    if s.islandWaits (s.mbxArg 0) then s
    else match s.islandSlot (s.mbxArg 0) flag with
    | none => s.mbxStatus stBad
    | some (t, c, n, w) =>
      if portFault then (t.hostUndefined w.addr.toNat calSize).mbxStatus stFenced
      else (((t.hostWrite w.addr.toNat t.calImage).tallyHost c calSize).handback c n calSize 0).mbxStatus stOk

def execCalExport (flag : List Byte) (portFault : Bool) (s : State) : Host.Outcome State Fault Refusal :=
  .next (s.calExport flag portFault)

/-- An image is accepted and begins to be written, `svc` telling its path. -/
def State.calAccept (s : State) (img : List Byte) (svc : Bool) : State := { s with cal.writing := some (img, svc), cal.state := 2 }

/-- CAL_WRITE: the request stays in progress until the image is written. -/
def State.calWrite (s : State) (flag data : List Byte) (portFault : Bool) : State :=
  s.mbxIsland 0xD9 fun s =>
    if s.islandWaits (s.mbxArg 0) then s
    else match s.islandSlot (s.mbxArg 0) flag with
    | none => s.mbxStatus stBad
    | some (t, c, _, _) =>
      let img := slice data 0 calSize
      if portFault then t.mbxStatus stFenced
      else if calImageOk img then (t.tallyHost c calSize).calAccept img false
      else (t.tallyHost c calSize).mbxStatus stBad

def execCalWrite (flag data : List Byte) (portFault : Bool) (s : State) : Host.Outcome State Fault Refusal :=
  .next (s.calWrite flag data portFault)

/-- An accepted image as it is stored: ORIGIN 1, WRITES one higher, the digest recomputed. -/
def calStored (img : List Byte) (writes : Word) : List Byte :=
  withDigest (slice img 0 16 ++ leBytes 4 writes.toNat ++ leBytes 4 (fieldAt img 20 4 ||| 1) ++ slice img 24 (calSize - 24))

/-- CAL_IMAGE_WRITTEN: the thermal offsets apply at once, the other values at the next system reset. -/
def State.calWritten (s : State) : State :=
  match s.cal.writing with
  | none => s
  | some (img, svc) =>
    let n := s.cal.writes + 1
    let b := calStored img n
    let s := { s with
      cal.writing := none
      cal.state := 0
      cal.origin := true
      cal.writes := n
      cal.stored := some b
      cal.torn := false
      cal.offsets := .image (some b)
      cal.pendingWrite := true }
    let s := s.correct.tripIfHot.raise 0xE1 0 (leBytes 4 (b2n svc) ++ leBytes 4 n.toNat)
    if svc then { s with svc.lastStatus := stOk, svc.lastRequest := 0x31 }
    else if s.mbxIs 0xD9 then s.mbxStatus stOk
    else s

def execCalImageWritten (s : State) : Host.Outcome State Fault Refusal := .next s.calWritten

/-! ## The vendor requests of Table 14.7 -/

/-- An IN request's answer. -/
def State.svcIn (s : State) (r : State → PortReply) : State := s.svcRun fun s => { s with svc.reply := r s }

/-- The outcome of an OUT request, kept for GET_LAST. -/
def State.svcLast (s : State) (code : Nat) (st : Byte) : State :=
  { s with svc.lastStatus := st, svc.lastRequest := BitVec.ofNat 8 code, svc.reply := .data [] }

/-- An OUT request with its outcome and effect. -/
def State.svcOut (s : State) (code : Nat) (k : State → State × Byte) : State :=
  s.svcRun fun s => let (t, st) := k s
                    t.svcLast code st

/-- An OUT request that acts only with the key; a wrong one stalls. -/
def State.svcKeyed (s : State) (code : Nat) (value : BitVec 16) (k : State → State × Byte) : State :=
  if value == svcKey then s.svcOut code k
  else s.svcRun fun s => { s.svcLast code stBad with svc.reply := .stall }

/-- [7:0] status and [15:8] bRequest of the last OUT request. -/
def State.lastBytes (s : State) : List Byte := leBytes 4 (s.svc.lastStatus.toNat + 256 * s.svc.lastRequest.toNat)

def execGetLast (s : State) : Host.Outcome State Fault Refusal := .next (s.svcIn fun s => .data s.lastBytes)

def execGetIdentity (s : State) : Host.Outcome State Fault Refusal := .next (s.svcIn fun s => .data s.identity)

/-- Certificate bytes for a request that asks for `length` of them; a slot without a chain cannot be answered. -/
def State.certReply (s : State) (slot offset length : Nat) : Option (List Byte) :=
  if s.certSlot slot then some (s.certBytes slot (512 * offset) (min 4096 length)) else none

/-- An answer with these bytes, or a stall. -/
def replyOf (o : Option (List Byte)) : PortReply := match o with
  | some b => .data b
  | none => .stall

def execGetCert (slot offset length : Nat) (s : State) : Host.Outcome State Fault Refusal :=
  .next (s.svcIn fun s => replyOf (s.certReply slot offset length))

def execGetHealth (s : State) : Host.Outcome State Fault Refusal := .next (s.svcIn fun s => .data s.healthBytes)

def execGetEsc (s : State) : Host.Outcome State Fault Refusal := .next (s.svcIn fun s => .data s.escBytes)

/-- `n` packets of 512 bytes. -/
def packetsOf (b : List Byte) (n : Nat) : List (List Byte) := (List.range n).map fun i => slice b (512 * i) 512

/-- The 1,024 event records of 64 bytes of the island log, which the spec does not fill (log entry 54). -/
def State.islandLog (s : State) : List Byte := (List.range 65536).map (Config.logByte s.freeCtr)

/-- A stream that was running ends, and with it an export (R386). -/
def State.endStream (s : State) : State :=
  { s with svc.stream := none, svc.bulk := [], cal.state := if s.cal.state == 1 then 0 else s.cal.state }

/-- STREAM: value 0 the island log, 1 the calibration image exactly as stored, in 32 packets; either begins anew (R386, R392). -/
def State.startStream (s : State) (value : BitVec 16) : State × Byte :=
  match value.toNat with
  | 0 => ({ s with svc.stream := some .islandLog, svc.bulk := packetsOf s.islandLog 128 }.bumpFree, stOk)
  | 1 => ({ s with svc.stream := some .calImage, svc.bulk := packetsOf s.calImage 32, cal.state := 1 }, stOk)
  | _ => (s, stBad)

/-- The stream's next packet leaves on endpoint 0x81; the stream ends with its last one (R386). No row of the command table takes
packets: one leaves in a step that finds the queue empty (log entry 1). -/
def State.bulkIn (s : State) : State :=
  match s.svc.bulk with
  | [] => s
  | [p] => { s.endStream with svc.packet := p }
  | p :: rest => { s with svc.bulk := rest, svc.packet := p }

/-- What comes about in a step that finds no command waiting: one nanosecond of ACLK passes and a packet leaves. -/
def State.idle (s : State) : State := (s.pass 1).bulkIn

def execStreamOut (value : BitVec 16) (s : State) : Host.Outcome State Fault Refusal :=
  .next (s.svcOut 0x10 fun s => s.startStream value)

/-- LOCATE 0 or 1. -/
def State.setLocate (s : State) (value : BitVec 16) : State × Byte :=
  if value.toNat < 2 then ({ s with svc.locate := value == 1 }, stOk) else (s, stBad)

def execLocate (value : BitVec 16) (s : State) : Host.Outcome State Fault Refusal := .next (s.svcOut 0x20 fun s => s.setLocate value)

def execSvcSystemReset (value : BitVec 16) (s : State) : Host.Outcome State Fault Refusal :=
  .next (s.svcKeyed 0x21 value fun s => (s.systemStart 0x0A 0 false, stOk))

/-- POWER_ON over SVC: the board management controller is asked for 54 V (R402). -/
def execSvcPowerOn (value : BitVec 16) (s : State) : Host.Outcome State Fault Refusal :=
  .next (s.svcKeyed 0x22 value fun s => ({ s.powerRequest 0x0A with svc.askedPower := true }, stOk))

/-- Retirement is cleared: the record is emptied, GEN steps, and a system reset follows (13_reset_health.md R365). -/
def State.clearRetirement (s : State) : State × Byte :=
  if !s.rst.retired then (s, stBad)
  else if !s.svc.presence then (s, stFenced)
  else ({ s.emptyStamps with rst.retired := false, lnk.gen := s.lnk.gen + 1 }.systemStart 0x0A 0 false, stOk)

def execClearRetirement (value : BitVec 16) (s : State) : Host.Outcome State Fault Refusal :=
  .next (s.svcKeyed 0x23 value fun s => s.clearRetirement)

def execSvcEscClear (value : BitVec 16) (s : State) : Host.Outcome State Fault Refusal :=
  .next (s.svcKeyed 0x24 value fun s => (s.emptyStamps, stOk))

/-- CAL_CHUNK: 4,096 bytes into the chunk buffer. -/
def State.putChunk (s : State) (chunk : BitVec 16) (data : List Byte) : State × Byte :=
  if chunk.toNat < 4 && data.length == 4096 then
    ({ s with svc.chunks := vset s.svc.chunks (Fin.ofNat 4 chunk.toNat) (some data) }, stOk)
  else (s, stBad)

def execCalChunk (chunk : BitVec 16) (data : List Byte) (s : State) : Host.Outcome State Fault Refusal :=
  .next (s.svcOut 0x30 fun s => s.putChunk chunk data)

/-- The image in the chunk buffer, once all four chunks have come. -/
def State.chunkImage (s : State) : Option (List Byte) :=
  s.svc.chunks.toList.foldl (fun a c => a.bind fun l => c.map fun d => l ++ d) (some [])

/-- CAL_COMMIT: an accepted image is written; its outcome is kept when it has been. -/
def State.calCommit (s : State) (value : BitVec 16) : State :=
  if value == svcKey && s.pwr.auxOn && !s.islandBusy && s.chunkImage.any calImageOk then
    (s.calAccept (s.chunkImage.getD []) true)
  else s.svcKeyed 0x31 value fun s => (s, stBad)

def execCalCommit (value : BitVec 16) (s : State) : Host.Outcome State Fault Refusal := .next (s.calCommit value)

/-! ## The USB port (R392, R393, R400) -/

/-- A bus reset: the chunk buffer is emptied, streams end, the device is unconfigured. -/
def execUsbBusReset (s : State) : Host.Outcome State Fault Refusal :=
  .next { s.endStream with svc.chunks := Vector.replicate 4 none, svc.usbConfigured := false }

/-- VBUS comes or goes; a detachment has its event. -/
def State.usbAttach (s : State) (on : Bool) : State :=
  if on then { s with svc.attached := true }
  else
    let t := { s.endStream with svc.attached := false, svc.usbConfigured := false }
    if s.svc.attached then t.raise 0xE3 0 (leBytes 4 0) else t

def execUsbAttach (on : Bool) (s : State) : Host.Outcome State Fault Refusal := .next (s.usbAttach on)

/-- A host configures SVC. -/
def execUsbConfigured (s : State) : Host.Outcome State Fault Refusal :=
  .next ({ s with svc.attached := true, svc.usbConfigured := true }.raise 0xE3 0 (leBytes 4 1))

/-! ## The management connector (R395, R402, R413) -/

/-- A vendor-defined message's response: a status byte, then the data of Table 14.7. -/
def State.mgmtAnswer (s : State) (st : Byte) (data : List Byte) : State := { s with svc.mgmtReply := .data (st :: data) }

/-- An IN code's data, if it can be answered. -/
def State.mgmtIn (s : State) (o : Option (List Byte)) : State := match o with
  | some d => s.mgmtAnswer stOk d
  | none => s.mgmtAnswer stBad []

/-- A code that acts only with the key. -/
def State.mgmtKeyed (s : State) (value : BitVec 16) (k : State → State) : State :=
  if value == svcKey then (k s).mgmtAnswer stOk [] else s.mgmtAnswer stBad []

/-- A power-on request over MGMT, the clips at these voltages now. -/
def State.mgmtPower (s : State) (va vb : Nat) : State := (s.powerRequest 0x0C).mainInRange va vb

def State.mgmtRequest (s : State) (code value index : BitVec 16) (va vb : Nat) : State :=
  match code.toNat with
  | 0x01 => s.mgmtIn (some s.lastBytes)
  | 0x02 => s.mgmtIn (some s.identity)
  | 0x03 => s.mgmtIn (s.certReply value.toNat index.toNat 4096)
  | 0x04 => s.mgmtIn (some s.healthBytes)
  | 0x05 => s.mgmtIn (some s.escBytes)
  | 0x20 => let (t, st) := s.setLocate value
            t.mgmtAnswer st []
  | 0x21 => s.mgmtKeyed value fun s => s.systemStart 0x0C 0 false
  | 0x22 => s.mgmtKeyed value fun s => s.mgmtPower va vb
  | 0x24 => s.mgmtKeyed value fun s => s.emptyStamps
  | _ => s.mgmtAnswer stBad []

def execMgmtVendorRequest (code value index : BitVec 16) (va vb : Nat) (s : State) : Host.Outcome State Fault Refusal :=
  .next (s.svcRun fun s => s.mgmtRequest code value index va vb)

def execMgmtPowerOn (va vb : Nat) (s : State) : Host.Outcome State Fault Refusal :=
  .next (s.svcRun fun s => s.mgmtPower va vb)

/-- An MCTP control message is answered; MCTP lays down the answer's content. -/
def execMctpControl (s : State) : Host.Outcome State Fault Refusal :=
  .next (s.svcRun fun s => { s with svc.mgmtReply := .control })

/-- A sensor's reading in the resolution of Table 15.7. -/
def State.sensor (s : State) (id : Nat) : Option Int :=
  let p := s.pwr
  if 1 ≤ id && id ≤ 64 then some (vget p.temps (Fin.ofNat 64 (id - 1)))
  else match id with
    | 65 => some p.inlet
    | 66 => some p.outlet
    | 67 => some p.watts.toNat
    | 68 => some p.va.toNat
    | 69 => some p.vb.toNat
    | 70 => some p.ia.toNat
    | 71 => some p.ib.toNat
    | 72 => some p.auxMv.toNat
    | 73 => some p.flow.toNat
    | 74 => some p.stage.toNat
    | _ => none

def execPldmSensorRead (sensor : Nat) (s : State) : Host.Outcome State Fault Refusal :=
  .next (s.svcRun fun s => { s with svc.mgmtReply := .sensor (s.sensor sensor) })

end Sys2Proof.Machine
end

