-- ==== Sys2Proof/Machine/RegWrite.lean ====
section
/-! DEFINITION. What the host writes: every writable field of the register file, posted writes, the operating profile, the MSI-X table
and the doorbells (12_host_attachment.md R317 to R323, R342 to R349; 01_module.md R19 to R21; the register tables of each chapter). -/

namespace Sys2Proof.Machine

/-- A fault a bus error leaves: the function logs Unsupported Request in AER (R319). -/
def State.busError (s : State) (fn : FnId) : State := { s with fns := vmod s.fns fn fun f => { f with aerUnsupported := true } }

/-! ## HUB_PROFILE (01_module.md R19 to R24) -/

/-- FCLK lowered to a ceiling. -/
def State.lowerClock (s : State) (mhz : Nat) : State := { s with pwr.fclk := BitVec.ofNat 12 (min s.pwr.fclk.toNat mhz) }

/-- A write of HUB_PROFILE; a reserved encoding has it ignored as a whole. A change that replaces one not yet in effect lowers the clock
to the lower of their two ceilings. -/
def State.profileWrite (s : State) (v : Word) : State :=
  let env : BitVec 2 := wfield v 0
  let det : BitVec 2 := wfield v 4
  let steady := wbit v 2
  if env == 3 || det == 3 then s
  else
    let p := s.profile
    let changed := env != p.envelope || steady != p.clocking
    let s := if changed && p.clockPending then s.lowerClock (min (ceilingOf p.envelope p.clocking) (ceilingOf env steady)) else s
    { s with
      profile.envelope := env
      profile.clocking := steady
      profile.determinism := det
      profile.seamEcc := wbit v 8
      profile.fabric := wbit v 12
      profile.clockPending := p.clockPending || changed }

def execHubProfileWrite (value : Word) (s : State) : Host.Outcome State Fault Refusal := .next (s.profileWrite value)

/-- The pending ENVELOPE and CLOCKING take effect: under STEADY the Field runs at the STEADY clock, unless an emergency lasts. -/
def State.clockEffect (s : State) : State :=
  if s.profile.clockPending then
    let s := { s with
      profile.clockPending := false
      profile.envelopeEff := s.profile.envelope
      profile.clockingEff := s.profile.clocking }
    if s.profile.clockingEff && !s.pwr.emerg && s.pwr.fclk != 0 then { s with pwr.fclk := BitVec.ofNat 12 s.ceiling }
    else s.lowerClock s.ceiling
  else s

def execClockChangeEffect (s : State) : Host.Outcome State Fault Refusal := .next s.clockEffect

/-! ## Registers of the HCLK blocks, which act at once -/

/-- A write of one register of an event ring (Table 12.6); while EN is 1 only a write that just clears EN acts. -/
def State.ringWrite (s : State) (r : RingId) (o : Nat) (v : Word) : State :=
  let q := vget s.evr r
  let log : BitVec 5 := wfield v 0
  match o with
  | 0x00 => if q.en || v.toNat % 4096 != 0 then s else s.modRing r fun q => { q with baseLo := v }
  | 0x04 => if q.en then s else s.modRing r fun q => { q with baseHi := v }
  | 0x08 =>
    if log.toNat < 6 || 16 < log.toNat then s
    else if q.en then (if !wbit v 8 && log == q.log2 then s.modRing r EventRing.disable else s)
    else
      let s := s.modRing r fun q => { q with log2 := log }
      if wbit v 8 then s.modRing r EventRing.enable else s
  | 0x10 => s.evrHead r v
  | _ => s

/-- HUB_MBX_CTRL: CODE, then ACK and GO. -/
def State.mbxCtrl (s : State) (v : Word) : State :=
  let s := { s with mbx.code := wfield v 0 }
  let s := if wbit v 17 then s.mbxAck else s
  if wbit v 16 then s.mbxGo else s

def State.writeHub (s : State) (o : Nat) (v : Word) : State :=
  match o with
  | 0x00C => s.writeP1Fence (wbit v 0)
  | 0x010 => s.profileWrite v
  | 0x014 => { s with hub.winChunk := wfield v 0 }
  | 0x100 => s.mbxCtrl v
  | _ =>
    match arrayIdx o 0x200 4 128, arrayIdx o 0x400 0x20 4 with
    | some i, _ => if s.mbx.busy then s else { s with mbx.data := vset s.mbx.data (Fin.ofNat 128 i) v }
    | _, some r => s.ringWrite (Fin.ofNat 4 r) (o % 0x20) v
    | none, none => s

/-- Word `w` of a bit per source replaced; sources 325 to 511 keep 0 (R342). -/
def putSrcWord (b : BitVec 512) (w : Nat) (v : Word) : BitVec 512 :=
  let m : BitVec 512 := BitVec.ofNat 512 (2 ^ 325 - 1)
  (b &&& ~~~(BitVec.ofNat 512 ((2 ^ 32 - 1) * 2 ^ (32 * w)))) ||| (BitVec.ofNat 512 (v.toNat * 2 ^ (32 * w)) &&& m)

/-- Messages that a write has let go leave for the sources of a list. -/
def State.irqRelease (s : State) (srcs : List Nat) : State := srcs.foldl (fun (s : State) i => s.irqSend i) s

/-- EV and the timer of sources whose ENABLE is 0 are held at 0 (R343). -/
def State.irqQuiet (s : State) (srcs : List Nat) : State :=
  srcs.foldl (fun (s : State) i =>
    if s.irq.enable.getLsbD i then s
    else { s with
      irq.ev := vset s.irq.ev (Fin.ofNat 512 i) 0
      irq.first := vset s.irq.first (Fin.ofNat 512 i) none
      irq.fired := setBit s.irq.fired i false }) s

def State.writeIrq (s : State) (o : Nat) (v : Word) : State :=
  match arrayIdx o 0x000 4 64, arrayIdx o 0x800 4 512 with
  | some i, _ =>
    let srcs := (List.range 32).map (32 * (i % 16) + ·)
    if i < 16 then s
    else if i < 32 then { s with irq.pending := putSrcWord s.irq.pending (i - 16) v }.irqRelease srcs
    else if i < 48 then ({ s with irq.enable := putSrcWord s.irq.enable (i - 32) v }.irqQuiet srcs).irqRelease srcs
    else { s with irq.mask := putSrcWord s.irq.mask (i - 48) v }.irqRelease srcs
  | _, some i =>
    if 325 ≤ i then s
    else { s with irq.cfg := vmod s.irq.cfg (Fin.ofNat 512 i) fun c => { c with vec := wfield v 8, cnt := wfield v 16, us := wfield v 21 } }
  | none, none =>
    if o = 0x100 then
      if wbit v 31 then s.irqClaim (wfield v 0) else { s with irq.claimSrc := wfield v 0 }
    else s

/-- A write of a context-slot register; a slot with no context obeys the silent rule (05_commands.md R154, Table 5.10). -/
def State.writeSlot (s : State) (c : Option (CtxId × Context)) (o : Nat) (v : Word) : State :=
  match c with
  | none => s.regViol
  | some (c, _) =>
    match o with
    | 0x10 => s.cqHeadWrite c v
    | 0x18 =>
      let s := s.writeStop c (wbit v 0)
      let s := if wbit v 1 then s.killOne c else s
      if wbit v 2 then s.killAll c else s
    | 0x1C => s.modCtx c fun x => { x with killSeq := v }
    | _ => s

def State.writeCfe (s : State) (o : Nat) (v : Word) : State :=
  match o with
  | 0x04 => { s with cfe.ctxSel := wfield v 0 }
  | 0x08 => { s with cfe.rerunMax := wfield v 0 }
  | 0x0C => { s with cfe.waitLimit := wfield v 0 }
  | 0x10 => { s with cfe.runLimit := wfield v 0 }
  | _ => if 0x100 ≤ o && o < 0x124 then s.writeSlot s.ctxSel (o - 0x100) v else s

/-- A write of a per-context register of SCH; a context that does not exist obeys the silent rule. A REM that a lower SHARE no
longer exceeds stays as it is until the next charge (log entry 78, the model's choice). -/
def State.writeSchCtx (s : State) (i : Nat) (f : Context → Context) : State :=
  match s.ctx? (ctxOf i) with
  | none => s.regViol
  | some _ => s.modCtx (ctxOf i) f

def State.writeSch (s : State) (o : Nat) (v : Word) : State :=
  match o with
  | 0x00 => { s with sch.tallyC2 := wbit v 0 }
  | 0x04 => { s with sch.tenureUs := wfield v 0 }
  | 0x08 => { s with sch.budgetWin := wfield v 0 }
  | 0x0C => { s with sch.holdoff := wfield v 0 }
  | 0x10 => { s with sch.tallyPeriod := wfield v 0 }
  | _ =>
    match arrayIdx o 0x400 4 256, arrayIdx o 0x800 4 256, arrayIdx o 0xC00 4 256 with
    | some i, _, _ => s.writeSchCtx i fun x =>
        { x with share := shareOf (v.toNat % 2 ^ 16), nokillOk := wbit v 16, stepMax := wfield v 18 }
    | _, some i, _ => s.writeSchCtx i fun x => { x with killBudget := wfield v 0 }
    | _, _, some i => s.writeSchCtx i id
    | none, none, none => s

def State.writeStb (s : State) (o : Nat) (v : Word) : State :=
  match arrayIdx o 0x100 4 64 with
  | some f => { s with stb.quota := vset s.stb.quota (Fin.ofNat 64 f) (wfield v 0) }
  | none => s

def State.writeHst (s : State) (o : Nat) (v : Word) : State :=
  match o with
  | 0x04 =>
    if wbit v 9 then s.invalidate (wfield v 0) (wbit v 8) else { s with hst.invCtx := wfield v 0, hst.invAll := wbit v 8 }
  | 0x08 => { s with hst.dtwVpn := wfield v 0 }
  | 0x0C => { s with hst.dtwLo := v }
  | 0x10 => { s with hst.dtwHi := v }
  | 0x14 => if wbit v 8 then s.directWrite (wfield v 0) else { s with hst.dtwCtx := wfield v 0 }
  | 0x18 =>
    let s := { s with hst.evacQuad := wfield v 0 }
    if wbit v 3 then s.evacuate (wfield v 0) { ue := [], ce := [] } else s
  | _ =>
    match arrayIdx o 0x100 4 64, arrayIdx o 0x200 4 64 with
    | some f, _ => { s with hst.quotaSeam := vset s.hst.quotaSeam (Fin.ofNat 64 f) (wfield v 0) }
    | _, some f => { s with hst.quotaFar := vset s.hst.quotaFar (Fin.ofNat 64 f) (wfield v 0) }
    | none, none => s

/-- A write of a training unit's register (Table 7.9); one that places a value outside −24 to 24 in LSE is ignored as a
whole (07_training.md R197). -/
def TrainUnit.write (t : TrainUnit) (o : Nat) (v : Word) : TrainUnit :=
  match o with
  | 0x00 => { t with ctx := wfield v 0, valid := wbit v 8, normMode := wbit v 9, cleanTarget := wfield v 16 }
  | 0x04 => { t with limit := v }
  | 0x08 =>
    let e : BitVec 6 := wfield v 0
    if e.toInt < -24 || 24 < e.toInt then t else { t with lse := e, clean := wfield v 16 }
  | 0x14 => { t with applied := v }
  | 0x18 => { t with stepDone := v }
  | 0x24 => { t with alpha := v }
  | _ => t

def State.writeOpt (s : State) (o : Nat) (v : Word) : State :=
  match o with
  | 0x04 =>
    let s := { s with opt.openTu := wfield v 0 }
    if wbit v 8 then s.openUnit (wfield v 0 : BitVec 6).toFin else s
  | 0x08 => { s with opt.openStep := v }
  | 0x0C => { s with opt.pvaLo := v }
  | 0x10 => { s with opt.pvaHi := wfield v 0 }
  | 0x14 => { s with opt.pcount := wfield v 0 }
  | _ =>
    match arrayIdx o 0x100 0x30 64 with
    | some t => { s with opt.units := vmod s.opt.units (Fin.ofNat 64 t) fun u => u.write ((o - 0x100) % 0x30) v }
    | none => s

/-- LNK_LCTRL: SLEEP acts when it changes, then RETRAIN and LOOP_START (Table 9.8). -/
def State.linkCtrl (s : State) (l : LinkId) (v : Word) : State :=
  let s := s.modLink l fun k => { k with loopFar := wbit v 3, loopMs := wfield v 16 }
  let k := s.link l
  let s := if !wbit v 0 && (k.sleep || k.state == lsSleep) then s.wakeWrite l
    else if wbit v 0 && !k.sleep then s.sleepWrite l else s
  let s := if wbit v 1 then s.retrainWrite l else s
  if wbit v 2 then s.loopStart l else s

/-- Eight directions of LNK_DIRMAP. -/
def State.dirmapWrite (s : State) (k : Nat) (v : Word) : State :=
  { s with lnk.dirmap := Vector.ofFn fun l => if l.val / 8 = k then wfield v (3 * (l.val % 8)) else vget s.lnk.dirmap l }

def State.writeLnk (s : State) (o : Nat) (v : Word) : State :=
  match o with
  | 0x04 => if wbit v 0 then s.topoLatch else s
  | 0x08 => { s with lnk.x := wfield v 0, lnk.y := wfield v 8, lnk.z := wfield v 16 }
  | 0x0C => { s with lnk.sx := wfield v 0, lnk.sy := wfield v 8, lnk.sz := wfield v 16 }
  | 0x10 => s.dirmapWrite 0 v
  | 0x14 => s.dirmapWrite 1 v
  | 0x18 => s.dirmapWrite 2 v
  | 0x20 => { s with lnk.sliceId := wfield v 0 }.announce.evaluateAll
  | 0x24 => { s with lnk.sliceEn := wfield v 0 }
  | 0x28 => { s with lnk.beStart := wfield v 0, lnk.holdUs := wfield v 16 }
  | 0x2C => { s with lnk.arbW := Vector.ofFn fun i => wfield v (8 * i.val) }
  | 0x30 => { s with lnk.dropThr := wfield v 0 }
  | _ =>
    match arrayIdx o 0x1000 0x200 24 with
    | some l => if o % 0x200 = 4 then s.linkCtrl (Fin.ofNat 24 l) v else s
    | none => s

def State.writeCol (s : State) (o : Nat) (v : Word) : State :=
  match o with
  | 0x04 =>
    let s := { s with col.abortOnTimeout := wbit v 1 }
    if wbit v 0 then s.raiseBeacon bcSoftware else s
  | 0x08 => { s with col.canaryMs := wfield v 0 }
  | _ =>
    match arrayIdx o 0x100 0x10 64 with
    | none => s
    | some g =>
      let g : GroupId := Fin.ofNat 64 g
      match o % 0x10 with
      | 0x4 => s.launchDoorbell g v
      | 0xC => s.colHead g v
      | _ => if (s.group g).state == 0 then s.regViol else s

/-- SNP_S_CTRL: CANCEL, then RELEASE (Table 11.9). -/
def State.snapCtrl (s : State) (n : SnapId) (v : Word) : State :=
  let s := if wbit v 0 then s.snapCancel n else s
  if wbit v 1 then s.snapRelease n else s

def State.writeSnp (s : State) (o : Nat) (v : Word) : State :=
  match o with
  | 0x04 => { s with snp.rate := wfield v 0, snp.waitMs := wfield v 16 }
  | _ =>
    match arrayIdx o 0x100 0x10 8 with
    | none => s
    | some n =>
      let n : SnapId := Fin.ofNat 8 n
      if (s.snap n).state == 0 then s.regViol else if o % 0x10 = 0xC then s.snapCtrl n v else s

/-! ## Registers of the posted blocks, when the write takes effect (R321) -/

def State.effectSeam (s : State) (o : Nat) (v : Word) : State :=
  match o with
  | 0x04 => { s with seam.sbmask := wfield v 2, seam.autoEn := wbit v 5, seam.maskMax := wfield v 8 }
  | 0x08 => { s with seam.burst := Vector.ofFn fun i => wfield v (4 * i.val) }
  | 0x0C => { s with seam.waitMax := Vector.ofFn fun i => wfield v (8 * i.val) }
  | 0x10 => { s with seam.scrubH := wfield v 0 }
  | _ =>
    match arrayIdx o 0x100 0x40 24, arrayIdx (o % 0x40) 0x10 4 5 with
    | some d, some k => { s with
        seam.dies := vmod s.seam.dies (Fin.ofNat 24 d) fun x => { x with waitObs := vset x.waitObs (Fin.ofNat 5 k) (wfield v 0) } }
    | _, _ => s

/-- FLD_QFENCE: a request for every bit that differs from the state in effect. -/
def State.qfenceWrite (s : State) (v : Word) : State :=
  (List.finRange 6).foldl (fun (s : State) q => if wbit v q.val then s.fenceRequest q else s.unfenceRequest q) s

/-- FLD_QTEST; QUAD 6 or 7 has it ignored as a whole. -/
def State.qtestWrite (s : State) (v : Word) : State :=
  let q : BitVec 3 := wfield v 0
  if 6 ≤ q.toNat then s
  else
    let s := { s with fld.testQuad := q }
    if wbit v 3 then s.testStart q else s

/-- FLD_CTRL. -/
def State.fldCtrl (s : State) (v : Word) : State :=
  let s := s.writeMaint (wbit v 0)
  if wbit v 1 then s.freeze else s

/-- The posted writes of FLD; FLD_CAPT's START asks for a capture, whose flag word FIELD_CAPTURE brings (log entry 43). -/
def State.effectFld (s : State) (o : Nat) (v : Word) : State :=
  match o with
  | 0x04 => s.qfenceWrite v
  | 0x08 => s.qtestWrite v
  | 0x10 => s.fldCtrl v
  | 0x14 => if wbit v 24 then s.captureAsk (wfield v 16) (wfield v 0)
    else { s with fld.capSlot := wfield v 0, fld.capCtx := wfield v 16 }
  | _ => s

/-- TKP_CTRL; a reserved PARENT or ALT_PARENT has it ignored as a whole. A new PARENT is used at once. -/
def State.tkpCtrl (s : State) (v : Word) : State :=
  let p : BitVec 5 := wfield v 1
  let a : BitVec 5 := wfield v 6
  if 24 ≤ p.toNat || 24 ≤ a.toNat then s
  else
    let s := { s with
      tkp.role := wbit v 0
      tkp.parent := p
      tkp.parentUsed := if p == s.tkp.parent then s.tkp.parentUsed else p
      tkp.altParent := a
      tkp.altEn := wbit v 11 }
    if wbit v 12 then s.cmpClear else s

def State.effectTkp (s : State) (o : Nat) (v : Word) : State :=
  match o with
  | 0x04 => s.tkpCtrl v
  | 0x08 => { s with tkp.guard := wfield v 0 }
  | 0x0C => { s with tkp.holdover := wfield v 0 }
  | 0x10 => { s with tkp.rckDelay := wfield v 0 }
  | 0x14 => { s with tkp.lateBin := wfield v 0, tkp.latePct := wfield v 8, tkp.window := wfield v 16 }
  | _ => s

/-- RST_CTRL: without the key ignored and counted; SYSTEM goes before CORE (13_reset_health.md R356, R371). -/
def State.rstCtrl (s : State) (v : Word) : State :=
  if v.toNat / 65536 != 0x6480 then s.regViol
  else
    let s := if wbit v 2 then s.hostFence else s
    if wbit v 1 then s.systemStart 0x05 0 (wbit v 3)
    else if wbit v 0 then s.coreStart 0x06 (wbit v 3)
    else s

/-- RST_LFENCE, link by link. -/
def State.lfenceWrite (s : State) (v : Word) : State :=
  (List.finRange 24).foldl (fun (s : State) l => s.linkFence l (wbit v l.val)) s

/-- RST_BLK_RESET. -/
def State.blkResetWrite (s : State) (v : Word) : State :=
  if wbit v 6 then s.blockReset (wfield v 0) (wbit v 5) else { s with rst.blkTarget := wfield v 0, rst.blkKind := wbit v 5 }

def State.effectRst (s : State) (o : Nat) (v : Word) : State :=
  match o with
  | 0x08 => s.rstCtrl v
  | 0x0C => { s with rst.escCount := wfield v 0, rst.escWindow := wfield v 4 }
  | 0x10 => { s with rst.escMask := v }
  | 0x1C => s.lfenceWrite v
  | 0x24 => s.blkResetWrite v
  | 0x28 => { s with rst.canaryFld := wfield v 0 }
  | 0x2C => { s with rst.canaryHub := wfield v 0 }
  | 0x30 => { s with rst.drainUs := wfield v 0 }
  | _ => s

def State.effectHlt (s : State) (o : Nat) (v : Word) : State :=
  match o with
  | 0x04 => { s with hlt.wCe := wfield v 0, hlt.wUncorr := wfield v 8, hlt.wRetry := wfield v 16, hlt.wRetrain := wfield v 24 }
  | 0x08 => { s with hlt.wFecu := wfield v 0, hlt.wLanedrop := wfield v 8, hlt.wPcie := wfield v 16 }
  | 0x0C => { s with hlt.shift := wfield v 0 }
  | 0x10 => { s with hlt.thrSeam := v }
  | 0x14 => { s with hlt.thrLink := v }
  | 0x18 => { s with hlt.thrPort := v }
  | _ => s

def State.effectPwr (s : State) (o : Nat) (v : Word) : State :=
  match o with
  | 0x28 => { s with pwr.inletWarn := wfield v 0, pwr.outletWarn := wfield v 8, pwr.flowWarn := wfield v 16 }
  | _ => s

/-- SVC_CTRL. -/
def State.effectSvc (s : State) (o : Nat) (v : Word) : State :=
  match o with
  | 0x4 =>
    let s := { s with svc.locate := wbit v 1 }
    let s := if wbit v 2 then s.cancelRequest else s
    if wbit v 0 then s.drainedWrite else s
  | _ => s

/-! ## Posting (R321) -/

/-- The posted block of a BAR0 offset, and where it begins. -/
def blockOf (o : Nat) : Option (PBlock × Nat) :=
  if o < 0x6000 then none
  else if o < 0x8000 then some (.seam, 0x6000)
  else if o < 0xA000 then some (.fld, 0x8000)
  else if o < 0xB000 then none
  else if o < 0xC000 then some (.tkp, 0xB000)
  else if o < 0x12000 then none
  else if o < 0x13000 then some (.rst, 0x12000)
  else if o < 0x14000 then some (.hlt, 0x13000)
  else if o < 0x15000 then some (.sec, 0x14000)
  else if o < 0x16000 then some (.cal, 0x15000)
  else if o < 0x17000 then some (.pwr, 0x16000)
  else if o < 0x18000 then some (.svc, 0x17000)
  else none

/-- The register at an offset of a posted block has a writable field (R8). -/
def hasWritable (b : PBlock) (o : Nat) : Bool :=
  match b with
  | .seam => [0x04, 0x08, 0x0C, 0x10].contains o || (0x100 ≤ o && (arrayIdx (o % 0x40) 0x10 4 5).isSome)
  | .fld => [0x04, 0x08, 0x10, 0x14].contains o
  | .tkp => [0x04, 0x08, 0x0C, 0x10, 0x14].contains o
  | .rst => [0x08, 0x0C, 0x10, 0x1C, 0x24, 0x28, 0x2C, 0x30].contains o
  | .hlt => [0x04, 0x08, 0x0C, 0x10, 0x14, 0x18].contains o
  | .sec => false
  | .cal => false
  | .pwr => o == 0x28
  | .svc => o == 0x4

def Posted.get (p : Posted) (b : PBlock) : Option PostedWrite :=
  match b with
  | .seam => p.seam
  | .fld => p.fld
  | .tkp => p.tkp
  | .rst => p.rst
  | .hlt => p.hlt
  | .sec => p.sec
  | .cal => p.cal
  | .pwr => p.pwr
  | .svc => p.svc

def Posted.put (p : Posted) (b : PBlock) (w : Option PostedWrite) : Posted :=
  match b with
  | .seam => { p with seam := w }
  | .fld => { p with fld := w }
  | .tkp => { p with tkp := w }
  | .rst => { p with rst := w }
  | .hlt => { p with hlt := w }
  | .sec => { p with sec := w }
  | .cal => { p with cal := w }
  | .pwr => { p with pwr := w }
  | .svc => { p with svc := w }

/-- The registers that carry a parity bit: the limits of Table 13.5, TKP_GUARD and TKP_HOLDOVER (13_reset_health.md R363). -/
def carriesParity (o : Nat) : Bool :=
  [0x200C, 0x2010, 0x10008, 0x11004, 0x12028, 0x1202C, 0x12030, offGuard, offHoldover].contains o || (0x3400 ≤ o && o < 0x3800)

/-- A write to a limit register restores its parity (13_reset_health.md R363). -/
def State.restoreParity (s : State) (o : Nat) : State :=
  if carriesParity o then { s with rst.badParity := s.rst.badParity.filter (· != o) } else s

/-- A write to a posted block: BUSY, or dropped and counted while BUSY is 1; without a writable field it has no effect. -/
def State.post (s : State) (b : PBlock) (base o : Nat) (v : Word) : State :=
  if !hasWritable b (o - base) then s
  else if (s.posted.get b).isSome then { s with hub.postedDrop := satInc s.hub.postedDrop }
  else { s with posted := s.posted.put b (some { offset := o, value := v }) }

/-- The write posted in a block takes effect and BUSY clears. -/
def State.postedEffect (s : State) (b : PBlock) : State :=
  match s.posted.get b with
  | none => s
  | some w =>
    let s := { s with posted := s.posted.put b none }.restoreParity w.offset
    match b with
    | .seam => s.effectSeam (w.offset - 0x6000) w.value
    | .fld => s.effectFld (w.offset - 0x8000) w.value
    | .tkp => s.effectTkp (w.offset - 0xB000) w.value
    | .rst => s.effectRst (w.offset - 0x12000) w.value
    | .hlt => s.effectHlt (w.offset - 0x13000) w.value
    | .sec => s
    | .cal => s
    | .pwr => s.effectPwr (w.offset - 0x16000) w.value
    | .svc => s.effectSvc (w.offset - 0x17000) w.value

def execPostedWriteEffect (block : PBlock) (s : State) : Host.Outcome State Fault Refusal := .next (s.postedEffect block)

/-! ## The write of one dword (R317 to R319, R322) -/

/-- A write of PF0's register file at an implemented offset, READY being 1 or the block HUB. -/
def State.fileWrite (s : State) (o : Nat) (v : Word) : State :=
  match blockOf o with
  | some (b, base) => s.post b base o v
  | none =>
    let s := s.restoreParity o
    if o < 0x1000 then s.writeHub o v
    else if o < 0x2000 then s.writeIrq (o - 0x1000) v
    else if o < 0x3000 then s.writeCfe (o - 0x2000) v
    else if o < 0x4000 then s.writeSch (o - 0x3000) v
    else if o < 0x5000 then s.writeStb (o - 0x4000) v
    else if o < 0x6000 then s.writeHst (o - 0x5000) v
    else if o < 0xB000 then s.writeOpt (o - 0xA000) v
    else if o < 0x10000 then s.writeLnk (o - 0xC000) v
    else if o < 0x11000 then s.writeCol (o - 0x10000) v
    else s.writeSnp (o - 0x11000) v

/-- One word of an MSI-X table entry. -/
def MsixEntry.write (e : MsixEntry) (o : Nat) (v : Word) : MsixEntry :=
  match o with
  | 0x0 => { e with addr := BitVec.ofNat 64 (e.addr.toNat / 2 ^ 32 * 2 ^ 32 + v.toNat) }
  | 0x4 => { e with addr := BitVec.ofNat 64 (v.toNat * 2 ^ 32 + e.addr.toNat % 2 ^ 32) }
  | 0x8 => { e with data := v }
  | _ => { e with masked := wbit v 0 }

/-- A write to a function's BAR4 (R348): an MSI-X entry, whose held messages then leave, or a window-transfer doorbell. -/
def State.bar4Write (s : State) (fn : FnId) (o : Nat) (v : Word) : State :=
  match arrayIdx o 0 16 32, arrayIdx o 0x1000 8 32 with
  | some e, _ =>
    let s := { s with fns := vmod s.fns fn fun f => { f with msix := vmod f.msix (Fin.ofNat 32 e) fun m => m.write (o % 16) v } }
    s.irqRelease ((List.range 325).filter fun i => (s.irqRoute i).1 == fn)
  | _, some t => if o % 8 = 0 then s.wxDb fn (Fin.ofNat 32 t) v else s.wxChead fn (Fin.ofNat 32 t) v
  | none, none => s

/-- One dword written at an implemented offset with all its bytes enabled. -/
def State.write (s : State) (fn : FnId) (bar : Bar) (o : Nat) (v : Word) : State :=
  match bar with
  | .bar0 =>
    if fn = 0 then (if s.hub.ready || o < 0x1000 then s.fileWrite o v else s)
    else if s.hub.ready then s.writeSlot (s.ctxAt fn (Fin.ofNat 32 (o / 0x80))) (o % 0x80) v
    else s
  | .bar2 => s.sqDb fn (Fin.ofNat 32 (o / 0x1000)) v
  | .bar4 => s.bar4Write fn o v

/-- Accesses that R322 has ignored and not counted. -/
def State.beforeReady (s : State) (fn : FnId) (bar : Bar) (o : Nat) : Bool :=
  !s.hub.ready && bar == .bar0 && !(fn == 0 && o < 0x1000)

/-- One dword of a write: a bus error, a partial write, or the write itself (R318, R319). -/
def State.writeDword (s : State) (fn : FnId) (bar : Bar) (off : Nat) (be : BitVec 4) (v : Word) : State :=
  let o := off / 4 * 4
  if (s.read fn bar o).isNone then s.busError fn
  else if s.beforeReady fn bar o then s
  else if be != 0xF then s.regViol
  else s.write fn bar o v

/-- A write of one dword, or of two in ascending address order. -/
def State.registerWrite (s : State) (fn : FnId) (bar : Bar) (off : Nat) (be : BitVec 4) (v : Word)
    (second : Option (BitVec 4 × Word)) : State :=
  let s := s.writeDword fn bar off be v
  match second with
  | some (b2, v2) => s.writeDword fn bar (off / 4 * 4 + 4) b2 v2
  | none => s

def execRegisterWrite (fn : FnId) (bar : Bar) (offset : Nat) (be : BitVec 4) (value : Word) (second : Option (BitVec 4 × Word))
    (s : State) : Host.Outcome State Fault Refusal := .next (s.registerWrite fn bar offset be value second)

/-- The dword at an implemented offset belongs to a register that the function may not use: a context slot, a doorbell page or a
BAR4 doorbell without a context, or a free group's or snapshot slot's registers (R319; 05_commands.md R154). -/
def State.silent (s : State) (fn : FnId) (bar : Bar) (o : Nat) : Bool :=
  let empty := fun (t : Nat) => (s.ctxAt fn (Fin.ofNat 32 t)).isNone
  match bar with
  | .bar0 =>
    if fn ≠ 0 then empty (o / 0x80)
    else (0x2100 ≤ o && o < 0x2124 && s.ctxSel.isNone) ||
      (arrayIdx (o - 0x10000) 0x100 0x10 64).any (fun g => 0x10000 ≤ o && (s.group (Fin.ofNat 64 g)).state == 0) ||
      (arrayIdx (o - 0x11000) 0x100 0x10 8).any fun n => 0x11000 ≤ o && (s.snap (Fin.ofNat 8 n)).state == 0
  | .bar2 => empty (o / 0x1000)
  | .bar4 => (arrayIdx o 0x1000 8 32).any empty

/-- A dword read under the silent rule reads 0 and is counted (R319); one that R322 has read 0 is not. -/
def State.readCounted (s : State) (fn : FnId) (bar : Bar) (o : Nat) : State :=
  if s.silent fn bar o && !s.beforeReady fn bar o then s.regViol else s

/-- BUS_ERROR_ACCESS: an access of more than two dwords, or one that reaches a reserved or unimplemented offset, is logged as Unsupported
Request; the dwords of a write that are dropped are dropped here, those that land are REGISTER_WRITE's. A read of implemented
offsets is no bus error, and is judged under the silent rule (log entry 72). -/
def State.busErrorAccess (s : State) (fn : FnId) (bar : Bar) (off : Nat) (write : Bool) (dwords : Nat) : State :=
  let o := off / 4 * 4
  if 2 < dwords || (s.read fn bar o).isNone || (dwords == 2 && (s.read fn bar (o + 4)).isNone) then s.busError fn
  else if write then s
  else
    let s := s.readCounted fn bar o
    if dwords == 2 then s.readCounted fn bar (o + 4) else s

def execBusErrorAccess (fn : FnId) (bar : Bar) (offset : Nat) (write : Bool) (dwords : Nat) (s : State) :
    Host.Outcome State Fault Refusal := .next (s.busErrorAccess fn bar offset write dwords)

end Sys2Proof.Machine
end

