-- ==== Sys2Proof/Machine/Dispatch.lean ====
section
/-! DEFINITION. What each command does: one arm per constructor of `Instr`, each one direct call of its meaning. -/

namespace Sys2Proof.Machine

/-- The effect of a command on everything but the queue. -/
def exec (i : Instr) (s : State) : Host.Outcome State Fault Refusal :=
  match i with
  | .registerWrite fn bar offset be value second => Sys2Proof.Machine.execRegisterWrite fn bar offset be value second s
  | .busErrorAccess fn bar offset write dwords => Sys2Proof.Machine.execBusErrorAccess fn bar offset write dwords s
  | .postedWriteEffect block => Sys2Proof.Machine.execPostedWriteEffect block s
  | .hubProfileWrite value => Sys2Proof.Machine.execHubProfileWrite value s
  | .clockChangeEffect => Sys2Proof.Machine.execClockChangeEffect s
  | .matmul hits => Sys2Proof.Machine.execMatmul hits s
  | .bmatmul hits => Sys2Proof.Machine.execBmatmul hits s
  | .conv hits => Sys2Proof.Machine.execConv hits s
  | .dwconv hits => Sys2Proof.Machine.execDwconv hits s
  | .attend hits => Sys2Proof.Machine.execAttend hits s
  | .elem hits => Sys2Proof.Machine.execElem hits s
  | .reduce hits => Sys2Proof.Machine.execReduce hits s
  | .norm hits => Sys2Proof.Machine.execNorm hits s
  | .repack hits => Sys2Proof.Machine.execRepack hits s
  | .gather hits => Sys2Proof.Machine.execGather hits s
  | .scatter hits => Sys2Proof.Machine.execScatter hits s
  | .optstep hits => Sys2Proof.Machine.execOptstep hits s
  | .sumsq hits => Sys2Proof.Machine.execSumsq hits s
  | .sumsq2 hits => Sys2Proof.Machine.execSumsq2 hits s
  | .check hits => Sys2Proof.Machine.execCheck hits s
  | .noise hits => Sys2Proof.Machine.execNoise hits s
  | .pageInDone ctx vpn => Sys2Proof.Machine.execPageInDone ctx vpn s
  | .quadFenceRequest quad => Sys2Proof.Machine.execQuadFenceRequest quad s
  | .quadFenceEffect quad => Sys2Proof.Machine.execQuadFenceEffect quad s
  | .quadUnfenceRequest quad => Sys2Proof.Machine.execQuadUnfenceRequest quad s
  | .quadUnfenceEffect quad => Sys2Proof.Machine.execQuadUnfenceEffect quad s
  | .quadTestStart quad => Sys2Proof.Machine.execQuadTestStart quad s
  | .quadTestDone quad result => Sys2Proof.Machine.execQuadTestDone quad result s
  | .maint on => Sys2Proof.Machine.execMaint on s
  | .freeze => Sys2Proof.Machine.execFreeze s
  | .fieldCapture ctx slot flag => Sys2Proof.Machine.execFieldCapture ctx slot flag s
  | .captureDone => Sys2Proof.Machine.execCaptureDone s
  | .seamRefresh die => Sys2Proof.Machine.execSeamRefresh die s
  | .seamScrub hits => Sys2Proof.Machine.execSeamScrub hits s
  | .seamArbGrant die waiting waitedNs => Sys2Proof.Machine.execSeamArbGrant die waiting waitedNs s
  | .alloc ctx => Sys2Proof.Machine.execAlloc ctx s
  | .freeHandle ctx => Sys2Proof.Machine.execFreeHandle ctx s
  | .handleRelease ctx handle => Sys2Proof.Machine.execHandleRelease ctx handle s
  | .place ctx hits => Sys2Proof.Machine.execPlace ctx hits s
  | .load ctx flag data portFault => Sys2Proof.Machine.execLoad ctx flag data portFault s
  | .farslotAdd ctx flag => Sys2Proof.Machine.execFarslotAdd ctx flag s
  | .farslotRelease ctx => Sys2Proof.Machine.execFarslotRelease ctx s
  | .setflags ctx => Sys2Proof.Machine.execSetflags ctx s
  | .directTableWrite ctx => Sys2Proof.Machine.execDirectTableWrite ctx s
  | .tableRead => Sys2Proof.Machine.execTableRead s
  | .invalidate ctx all => Sys2Proof.Machine.execInvalidate ctx all s
  | .invalidateDone => Sys2Proof.Machine.execInvalidateDone s
  | .evacuate quad hits => Sys2Proof.Machine.execEvacuate quad hits s
  | .evacuationDone => Sys2Proof.Machine.execEvacuationDone s
  | .ctxCreate => Sys2Proof.Machine.execCtxCreate s
  | .ctxDestroy => Sys2Proof.Machine.execCtxDestroy s
  | .sqDb fn slot value => Sys2Proof.Machine.execSqDb fn slot value s
  | .commandFetch ctx desc => Sys2Proof.Machine.execCommandFetch ctx desc s
  | .commandDispatch ctx hits => Sys2Proof.Machine.execCommandDispatch ctx hits s
  | .marker ctx => Sys2Proof.Machine.execMarker ctx s
  | .cqHeadWrite ctx value => Sys2Proof.Machine.execCqHeadWrite ctx value s
  | .stopFetch ctx on => Sys2Proof.Machine.execStopFetch ctx on s
  | .killOne ctx => Sys2Proof.Machine.execKillOne ctx s
  | .killAll ctx => Sys2Proof.Machine.execKillAll ctx s
  | .killComplete ctx seq => Sys2Proof.Machine.execKillComplete ctx seq s
  | .commandEnd ctx seq => Sys2Proof.Machine.execCommandEnd ctx seq s
  | .waitLimitExpiry ctx seq => Sys2Proof.Machine.execWaitLimitExpiry ctx seq s
  | .runLimitExpiry => Sys2Proof.Machine.execRunLimitExpiry s
  | .tenureExpiry => Sys2Proof.Machine.execTenureExpiry s
  | .stepFetch ctx desc => Sys2Proof.Machine.execStepFetch ctx desc s
  | .stepReady ctx => Sys2Proof.Machine.execStepReady ctx s
  | .workListBuild ctx => Sys2Proof.Machine.execWorkListBuild ctx s
  | .deadlineKill ctx => Sys2Proof.Machine.execDeadlineKill ctx s
  | .stepInvocation ctx => Sys2Proof.Machine.execStepInvocation ctx s
  | .stepMaxExpiry ctx => Sys2Proof.Machine.execStepMaxExpiry ctx s
  | .admitStream ctx => Sys2Proof.Machine.execAdmitStream ctx s
  | .releaseStream ctx => Sys2Proof.Machine.execReleaseStream ctx s
  | .modelSet ctx => Sys2Proof.Machine.execModelSet ctx s
  | .budgetWindowReset => Sys2Proof.Machine.execBudgetWindowReset s
  | .tallyInterval nanojoules => Sys2Proof.Machine.execTallyInterval nanojoules s
  | .tallyPeriod => Sys2Proof.Machine.execTallyPeriod s
  | .vtimeRead => Sys2Proof.Machine.execVtimeRead s
  | .tallyRead => Sys2Proof.Machine.execTallyRead s
  | .stbRead => Sys2Proof.Machine.execStbRead s
  | .openStep unit => Sys2Proof.Machine.execOpenStep unit s
  | .openComplete => Sys2Proof.Machine.execOpenComplete s
  | .optTrack => Sys2Proof.Machine.execOptTrack s
  | .optUntrack => Sys2Proof.Machine.execOptUntrack s
  | .optHistRead => Sys2Proof.Machine.execOptHistRead s
  | .optHistWrite => Sys2Proof.Machine.execOptHistWrite s
  | .optNoiseRead => Sys2Proof.Machine.execOptNoiseRead s
  | .optNoiseWrite => Sys2Proof.Machine.execOptNoiseWrite s
  | .timeCodeFrame frame since => Sys2Proof.Machine.execTimeCodeFrame frame since s
  | .rckLoss => Sys2Proof.Machine.execRckLoss s
  | .rckLossClear => Sys2Proof.Machine.execRckLossClear s
  | .frameBoundary => Sys2Proof.Machine.execFrameBoundary s
  | .timeExchange link t1 t2 t3 t4 asA partnerOk partnerLocked partnerParent => Sys2Proof.Machine.execTimeExchange link t1 t2 t3 t4 asA partnerOk partnerLocked partnerParent s
  | .holdoverExpiry => Sys2Proof.Machine.execHoldoverExpiry s
  | .counterParityError => Sys2Proof.Machine.execCounterParityError s
  | .slotCmpFault => Sys2Proof.Machine.execSlotCmpFault s
  | .cmpClear => Sys2Proof.Machine.execCmpClear s
  | .htRead => Sys2Proof.Machine.execHtRead s
  | .lateRead => Sys2Proof.Machine.execLateRead s
  | .codewordReceive link lseq lanes sched => Sys2Proof.Machine.execCodewordReceive link lseq lanes sched s
  | .replayRequest link codeword => Sys2Proof.Machine.execReplayRequest link codeword s
  | .beFlitReceive link flit => Sys2Proof.Machine.execBeFlitReceive link flit s
  | .schedFlitReceive link flit bad => Sys2Proof.Machine.execSchedFlitReceive link flit bad s
  | .staleFlitReceive link flit => Sys2Proof.Machine.execStaleFlitReceive link flit s
  | .discoverFlitReceive link payload => Sys2Proof.Machine.execDiscoverFlitReceive link payload s
  | .discoverPeriod link => Sys2Proof.Machine.execDiscoverPeriod link s
  | .lightDetected link => Sys2Proof.Machine.execLightDetected link s
  | .trainingComplete link lanes light => Sys2Proof.Machine.execTrainingComplete link lanes light s
  | .autoRetrain link => Sys2Proof.Machine.execAutoRetrain link s
  | .retrain link => Sys2Proof.Machine.execRetrain link s
  | .topoLatch => Sys2Proof.Machine.execTopoLatch s
  | .laneLossOfLock link lanes light => Sys2Proof.Machine.execLaneLossOfLock link lanes light s
  | .laneErrorInterval link => Sys2Proof.Machine.execLaneErrorInterval link s
  | .laneMap link lane => Sys2Proof.Machine.execLaneMap link lane s
  | .laneMapAck link => Sys2Proof.Machine.execLaneMapAck link s
  | .restripe link => Sys2Proof.Machine.execRestripe link s
  | .laneMapTimeout link => Sys2Proof.Machine.execLaneMapTimeout link s
  | .fibreUnplug port => Sys2Proof.Machine.execFibreUnplug port s
  | .beHoldExpiry link => Sys2Proof.Machine.execBeHoldExpiry link s
  | .sleep link => Sys2Proof.Machine.execSleep link s
  | .wake link => Sys2Proof.Machine.execWake link s
  | .wakeTone link => Sys2Proof.Machine.execWakeTone link s
  | .loopStart link => Sys2Proof.Machine.execLoopStart link s
  | .loopTestEnd link errors => Sys2Proof.Machine.execLoopTestEnd link errors s
  | .linkPartnerRead => Sys2Proof.Machine.execLinkPartnerRead s
  | .groupLaunch => Sys2Proof.Machine.execGroupLaunch s
  | .groupEnd => Sys2Proof.Machine.execGroupEnd s
  | .groupRead => Sys2Proof.Machine.execGroupRead s
  | .colGLdb group value => Sys2Proof.Machine.execColGLdb group value s
  | .collectiveAccept group desc => Sys2Proof.Machine.execCollectiveAccept group desc s
  | .allreduce group trees contribs hits => Sys2Proof.Machine.execAllreduce group trees contribs hits s
  | .reduceScatter group trees contribs hits => Sys2Proof.Machine.execReduceScatter group trees contribs hits s
  | .allgather group contribs hits => Sys2Proof.Machine.execAllgather group contribs hits s
  | .allgatherv group contribs hits => Sys2Proof.Machine.execAllgatherv group contribs hits s
  | .broadcast group contribs hits => Sys2Proof.Machine.execBroadcast group contribs hits s
  | .alltoall group contribs hits => Sys2Proof.Machine.execAlltoall group contribs hits s
  | .alltoallv group contribs hits => Sys2Proof.Machine.execAlltoallv group contribs hits s
  | .readinessEntry group num dir entry => Sys2Proof.Machine.execReadinessEntry group num dir entry s
  | .dataPhaseStart group sends => Sys2Proof.Machine.execDataPhaseStart group sends s
  | .streamAck group dir seq missing => Sys2Proof.Machine.execStreamAck group dir seq missing s
  | .collectiveComplete group => Sys2Proof.Machine.execCollectiveComplete group s
  | .collectiveCanaryExpiry group => Sys2Proof.Machine.execCollectiveCanaryExpiry group s
  | .colGCheadWrite group value => Sys2Proof.Machine.execColGCheadWrite group value s
  | .abort => Sys2Proof.Machine.execAbort s
  | .beaconReceive link payload => Sys2Proof.Machine.execBeaconReceive link payload s
  | .snapBegin flag => Sys2Proof.Machine.execSnapBegin flag s
  | .snapshotFreeze slot => Sys2Proof.Machine.execSnapshotFreeze slot s
  | .shardProcess slot flag hits => Sys2Proof.Machine.execShardProcess slot flag hits s
  | .snapshotWaitExpiry slot => Sys2Proof.Machine.execSnapshotWaitExpiry slot s
  | .cancel slot => Sys2Proof.Machine.execCancel slot s
  | .snapshotRelease slot => Sys2Proof.Machine.execSnapshotRelease slot s
  | .snapRead => Sys2Proof.Machine.execSnapRead s
  | .digestSlot flag data portFault => Sys2Proof.Machine.execDigestSlot flag data portFault s
  | .slotFlagPoll slot flag => Sys2Proof.Machine.execSlotFlagPoll slot flag s
  | .mbxAck => Sys2Proof.Machine.execMbxAck s
  | .mbxReservedCode => Sys2Proof.Machine.execMbxReservedCode s
  | .winCfg => Sys2Proof.Machine.execWinCfg s
  | .winSlot => Sys2Proof.Machine.execWinSlot s
  | .winReclaim => Sys2Proof.Machine.execWinReclaim s
  | .wxDb fn slot value => Sys2Proof.Machine.execWxDb fn slot value s
  | .wxCheadWrite fn slot value => Sys2Proof.Machine.execWxCheadWrite fn slot value s
  | .store ctx desc flag hits portFault => Sys2Proof.Machine.execStore ctx desc flag hits portFault s
  | .wxComplete ctx => Sys2Proof.Machine.execWxComplete ctx s
  | .p1Fence on => Sys2Proof.Machine.execP1Fence on s
  | .hp1PerstN => Sys2Proof.Machine.execHp1PerstN s
  | .port1HotReset what => Sys2Proof.Machine.execPort1HotReset what s
  | .port1FenceDrained => Sys2Proof.Machine.execPort1FenceDrained s
  | .completionTimeout port1 second work => Sys2Proof.Machine.execCompletionTimeout port1 second work s
  | .strayCompletion fn => Sys2Proof.Machine.execStrayCompletion fn s
  | .busMasterDisable fn d3hot => Sys2Proof.Machine.execBusMasterDisable fn d3hot s
  | .vfFlr vf => Sys2Proof.Machine.execVfFlr vf s
  | .pf0Flr => Sys2Proof.Machine.execPf0Flr s
  | .irqCoalesceTimer src => Sys2Proof.Machine.execIrqCoalesceTimer src s
  | .msixHeldSend src => Sys2Proof.Machine.execMsixHeldSend src s
  | .irqClaim src => Sys2Proof.Machine.execIrqClaim src s
  | .eventRingEnable ring => Sys2Proof.Machine.execEventRingEnable ring s
  | .eventRingDisable ring => Sys2Proof.Machine.execEventRingDisable ring s
  | .evrHeadWrite ring value => Sys2Proof.Machine.execEvrHeadWrite ring value s
  | .eventRecordWrite ring => Sys2Proof.Machine.execEventRecordWrite ring s
  | .overflowRecord ring => Sys2Proof.Machine.execOverflowRecord ring s
  | .coreReset counted => Sys2Proof.Machine.execCoreReset counted s
  | .coreResetComplete => Sys2Proof.Machine.execCoreResetComplete s
  | .systemReset counted => Sys2Proof.Machine.execSystemReset counted s
  | .systemResetReady => Sys2Proof.Machine.execSystemResetReady s
  | .perstN => Sys2Proof.Machine.execPerstN s
  | .perstNDeassert => Sys2Proof.Machine.execPerstNDeassert s
  | .hotResetP0 => Sys2Proof.Machine.execHotResetP0 s
  | .dlDownP0 => Sys2Proof.Machine.execDlDownP0 s
  | .hostFence => Sys2Proof.Machine.execHostFence s
  | .rstLfence link on => Sys2Proof.Machine.execRstLfence link on s
  | .drainExpiry domain works => Sys2Proof.Machine.execDrainExpiry domain works s
  | .blockReset target isLink => Sys2Proof.Machine.execBlockReset target isLink s
  | .blockResetDone => Sys2Proof.Machine.execBlockResetDone s
  | .fieldProgressExpiry => Sys2Proof.Machine.execFieldProgressExpiry s
  | .mailboxCanaryExpiry => Sys2Proof.Machine.execMailboxCanaryExpiry s
  | .overseerCanaryExpiry hub => Sys2Proof.Machine.execOverseerCanaryExpiry hub s
  | .canarySelfFault canary => Sys2Proof.Machine.execCanarySelfFault canary s
  | .parityFault limit => Sys2Proof.Machine.execParityFault limit s
  | .attnLongPress => Sys2Proof.Machine.execAttnLongPress s
  | .attnShortPress => Sys2Proof.Machine.execAttnShortPress s
  | .presenceWindowExpiry => Sys2Proof.Machine.execPresenceWindowExpiry s
  | .healthUpdate p0 p1 => Sys2Proof.Machine.execHealthUpdate p0 p1 s
  | .healthRead => Sys2Proof.Machine.execHealthRead s
  | .escRead => Sys2Proof.Machine.execEscRead s
  | .escClear => Sys2Proof.Machine.execEscClear s
  | .certRead => Sys2Proof.Machine.execCertRead s
  | .identityRead => Sys2Proof.Machine.execIdentityRead s
  | .fwStage flag package verified svn portFault => Sys2Proof.Machine.execFwStage flag package verified svn portFault s
  | .fwActivate => Sys2Proof.Machine.execFwActivate s
  | .calExport flag portFault => Sys2Proof.Machine.execCalExport flag portFault s
  | .calWrite flag data portFault => Sys2Proof.Machine.execCalWrite flag data portFault s
  | .calImageWritten => Sys2Proof.Machine.execCalImageWritten s
  | .getVersion mgmt => Sys2Proof.Machine.execGetVersion mgmt s
  | .getCapabilities mgmt => Sys2Proof.Machine.execGetCapabilities mgmt s
  | .negotiateAlgorithms mgmt => Sys2Proof.Machine.execNegotiateAlgorithms mgmt s
  | .getDigests mgmt => Sys2Proof.Machine.execGetDigests mgmt s
  | .getCertificate mgmt slot offset length => Sys2Proof.Machine.execGetCertificate mgmt slot offset length s
  | .challenge mgmt slot => Sys2Proof.Machine.execChallenge mgmt slot s
  | .getMeasurements mgmt indices => Sys2Proof.Machine.execGetMeasurements mgmt indices s
  | .spdmUnsupported mgmt => Sys2Proof.Machine.execSpdmUnsupported mgmt s
  | .getLast => Sys2Proof.Machine.execGetLast s
  | .getIdentity => Sys2Proof.Machine.execGetIdentity s
  | .getCert slot offset length => Sys2Proof.Machine.execGetCert slot offset length s
  | .getHealth => Sys2Proof.Machine.execGetHealth s
  | .getEsc => Sys2Proof.Machine.execGetEsc s
  | .streamOut value => Sys2Proof.Machine.execStreamOut value s
  | .locate value => Sys2Proof.Machine.execLocate value s
  | .svcSystemReset value => Sys2Proof.Machine.execSvcSystemReset value s
  | .svcPowerOn value => Sys2Proof.Machine.execSvcPowerOn value s
  | .clearRetirement value => Sys2Proof.Machine.execClearRetirement value s
  | .svcEscClear value => Sys2Proof.Machine.execSvcEscClear value s
  | .calChunk chunk data => Sys2Proof.Machine.execCalChunk chunk data s
  | .calCommit value => Sys2Proof.Machine.execCalCommit value s
  | .usbBusReset => Sys2Proof.Machine.execUsbBusReset s
  | .usbAttach on => Sys2Proof.Machine.execUsbAttach on s
  | .drained => Sys2Proof.Machine.execDrained s
  | .cancelRequest => Sys2Proof.Machine.execCancelRequest s
  | .mgmtVendorRequest code value index va vb => Sys2Proof.Machine.execMgmtVendorRequest code value index va vb s
  | .mgmtPowerOn va vb => Sys2Proof.Machine.execMgmtPowerOn va vb s
  | .mctpControl => Sys2Proof.Machine.execMctpControl s
  | .pldmSensorRead sensor => Sys2Proof.Machine.execPldmSensorRead sensor s
  | .railWarning clipB volts => Sys2Proof.Machine.execRailWarning clipB volts s
  | .railFault clipB volts => Sys2Proof.Machine.execRailFault clipB volts s
  | .auxLoss => Sys2Proof.Machine.execAuxLoss s
  | .powerOn => Sys2Proof.Machine.execPowerOn s
  | .auxReady => Sys2Proof.Machine.execAuxReady s
  | .mainPowerInRange va vb => Sys2Proof.Machine.execMainPowerInRange va vb s
  | .startupReady => Sys2Proof.Machine.execStartupReady s
  | .fclkControlTest r => Sys2Proof.Machine.execFclkControlTest r s
  | .thermalTrip temps => Sys2Proof.Machine.execThermalTrip temps s
  | .thermalRelease temps => Sys2Proof.Machine.execThermalRelease temps s
  | .coolingUpdate inlet outlet watts => Sys2Proof.Machine.execCoolingUpdate inlet outlet watts s
  | .tempRead => Sys2Proof.Machine.execTempRead s
  | .energyRead => Sys2Proof.Machine.execEnergyRead s
  | .maskMaxExpiry => Sys2Proof.Machine.execMaskMaxExpiry s
  | .slotStart => Sys2Proof.Machine.execSlotStart s
  | .pcieLinkUp port1 gen width => Sys2Proof.Machine.execPcieLinkUp port1 gen width s
  | .busMasterEnable fn d3hot => Sys2Proof.Machine.execBusMasterEnable fn d3hot s
  | .sleepRequestReceive link => Sys2Proof.Machine.execSleepRequestReceive link s
  | .sleepReplyReceive link accept => Sys2Proof.Machine.execSleepReplyReceive link accept s
  | .farLoopRequestReceive link => Sys2Proof.Machine.execFarLoopRequestReceive link s
  | .usbConfigured => Sys2Proof.Machine.execUsbConfigured s

end Sys2Proof.Machine
end

