-- ==== Sys2Proof/Safety.lean ====
section
/-! DEFINITION. What the claims are stated in: the canonical form of the memories, the invariants of the state, and runs. -/

namespace Sys2Proof.Machine

/-- The byte memories of the state are in canonical form: addresses strictly rising, no listed byte 0. -/
def State.memoriesWf (s : State) : Bool := s.mem.wf && s.host.wf && s.fld.plate.wf

/-- A retired module holds its core domains in reset (13_reset_health.md R365). -/
def State.retiredHeld (s : State) : Bool := !s.rst.retired || s.rst.coreHeld

/-- A mailbox request in progress has no result: BUSY and VALID never both read 1 (12_host_attachment.md R324). -/
def State.mailboxSane (s : State) : Bool := !(s.mbx.busy && s.mbx.valid)

/-- The module after `n` steps; none where one of them stops. -/
def run : Nat → State → Option State
  | 0, s => some s
  | n + 1, s => match step s with
    | .next t => run n t
    | .fault _ => none
    | .refused _ => none

/-- A run that never stops. -/
def Safe (s : State) : Prop := ∀ n, (run n s).isSome

/-! ## A Field operation that starts and one that writes (02_field.md R48; 05_commands.md R140, R142) -/

/-- The command `k` of context `c` holds the Field and may start its next operation `o`, the one at index `opIdx` of a list of `count`:
nothing stops the Field, the 128 bytes of the descriptor can be read at once, the descriptor is well formed, and no wait point
holds it. `s1` is the state once the descriptor has been read. -/
def OpReady (s s1 : State) (c : CtxId) (k : Cmd) (o : FOp) (count : Nat) (errs : SeamErrs) : Prop :=
  ∃ (x : Context) (va : Nat), s.holder? = some (c, x, k) ∧ k.canRun = true ∧ s.fld.frozen = false ∧
    s.opSource c k = some (va, count) ∧ s.gate c k.seq [(va, 128)] { errs with ce := [] } = .go s1 ∧
    o = fop (s.cmdBytes x k va 128) ∧ s.opBad c k o = false ∧ (o.wait = false ∨ k.passedWait = true)

/-- The writes of an operation whose outputs are `out`: its extra bytes, and its output rows unless they stay in Plate. -/
def opWritten (o : FOp) (k : Cmd) (out : OpOut) : List (Nat × List Byte) :=
  out.extra ++ (if o.plateLive then [] else outWrites o k.stepNo.toNat out.rows)

/-- The bytes that writes cover, as ranges. -/
def rangesOf (ws : List (Nat × List Byte)) : List (Nat × Nat) := ws.map fun w => (w.1, w.2.length)

/-- Every page that operation `o` reads or writes is there, so that from `s` it writes its outputs, its live tile, its accumulators,
INT_SAT and its maxima at once: `t` is the state with them written, before the operation is counted. -/
def OpWrites (s t : State) (c : CtxId) (k : Cmd) (o : FOp) (errs : SeamErrs) (rd : Nat → Byte) : Prop :=
  ∃ (x : Context) (s2 s3 s4 : State), s.ctx? c = some x ∧ rd = s.cmdByte x k ∧
    let plate := k.prev?.any (·.plateLive)
    let reads := opReads o plate rd
    let out := s2.opOut rd k o plate
    let ws := opWritten o k out
    s.gate c k.seq reads errs = .go s2 ∧
    s2.gate c k.seq (rangesOf ws) { errs with ce := [] } = .go s3 ∧
    (s3.violations c (unmappedBytes x k s.freeCtr reads) false).cmdWrite c k.seq ws = some s4 ∧
    t = (({ (((s4.setTiles c k o out.rows).setAccs k o out.accs).noteImageWrite c k.seq ws) with
        fld.intSat := satAdd s4.fld.intSat out.sats }).noteAmax c k o out.ys).modCmd c k.seq
      fun (j : Cmd) => { j with seamBytes := j.seamBytes + (reads.map fun (r : Nat × Nat) => r.2).foldl (· + ·) 0 }

/-- Command `k` of context `x` can access the ranges at once: every page-table entry it goes by stands in Seam or is unmapped, none is
POISONED, and no uncorrectable error shows in the pages. -/
def Accessible (s : State) (x : Context) (k : Cmd) (errs : SeamErrs) (ranges : List (Nat × Nat)) : Prop :=
  (∀ e ∈ x.entriesFor k s.freeCtr ranges, pteState e.2 ≠ psFar ∧ pteState e.2 ≠ psTransit ∧ pteState e.2 ≠ psPoisoned) ∧
    ∀ f ∈ x.framesFor k s.freeCtr ranges, f ∉ errs.ue

/-- Every page that the ranges touch has its shadow, or one reserved for it at dispatch, or takes no writes. -/
def Shadowed (s : State) (x : Context) (k : Cmd) (ranges : List (Nat × Nat)) : Prop :=
  ∀ v ∈ rangePages ranges, k.shadows.has v = true ∨ k.reserved.has v = true ∨ pteDrops (x.writeView k s.freeCtr v) = true

/-- Command `k` holds the Field and its next operation `o`, of a list of `count`, executes now: the Field is not stopped, the descriptor
is well formed and not held at a wait point, and descriptor, operands and outputs lie on pages that can be accessed, those written to
with their shadows. All of it is said of the state `s` and the bad codewords `hits` alone. -/
def OpExecutes (s : State) (c : CtxId) (k : Cmd) (o : FOp) (count : Nat) (hits : List SeamHit) : Prop :=
  ∃ (x : Context) (va : Nat), s.holder? = some (c, x, k) ∧ k.canRun = true ∧ s.fld.frozen = false ∧
    s.opSource c k = some (va, count) ∧ o = fop (s.cmdBytes x k va 128) ∧ s.opBad c k o = false ∧
    (o.wait = false ∨ k.passedWait = true) ∧
    let plate := k.prev?.any (·.plateLive)
    let ws := rangesOf (opWritten o k (s.opOut (s.cmdByte x k) k o plate))
    Accessible s x k (s.seamErrs hits) [(va, 128)] ∧
      Accessible s x k (s.seamErrs hits) (opReads o plate (s.cmdByte x k)) ∧
      Accessible s x k (s.seamErrs hits) ws ∧ Shadowed s x k ws

end Sys2Proof.Machine
end

