-- ==== Sys2Proof/Certificates/Slice0/Obligations.lean ====
section
/-! DEFINITION. The statements for the provers. -/

open Sys2Proof Sys2Proof.Machine

/-- A step runs the command at the front of the queue. Rests on spec/opcode_table.json. -/
def Obligations.StepRunsFrontCommand : Prop :=
  ∀ (c : Instr) (rest : List Instr) (s : State),
    step { s with pending := c :: rest } = exec c { s with pending := rest }

/-- On an empty queue one nanosecond passes and the next packet of a running stream leaves (the model's choice, log entry 1).
Rests on 08_hall_time.md R222, 14_identity_service.md R386, log entry 1. -/
def Obligations.EmptyQueueLetsTimePass : Prop :=
  ∀ s : State, s.pending = [] → ∃ t, step s = .next t ∧ t.now = s.now + 1 ∧
    (s.tkp.state = 0 → t.tkp = s.tkp) ∧
    (s.tkp.state ≠ 0 → s.tkp.owed = 0 → t.tkp = { s.tkp with ht := (s.tkp.ht + 16) % 2 ^ 68, owed := 0 }) ∧
    (s.svc.bulk = [] → t = { s with now := s.now + 1, tkp := t.tkp }) ∧
    (∀ p q rest, s.svc.bulk = p :: q :: rest →
      t = { s with now := s.now + 1, tkp := t.tkp, svc := { s.svc with bulk := q :: rest, packet := p } }) ∧
    (∀ p, s.svc.bulk = [p] → t = { s with
      now := s.now + 1, tkp := t.tkp
      svc := { s.svc with stream := none, bulk := [], packet := p }
      cal := { s.cal with state := if s.cal.state = 1 then 0 else s.cal.state } })

/-- Every command, in every state, answers a next state with the same queue. Rests on spec/opcode_table.json. -/
def Obligations.EveryCommandCompletesAndSparesTheQueue : Prop :=
  ∀ (c : Instr) (s : State), ∃ t, exec c s = .next t ∧ t.pending = s.pending

/-- Every step keeps Seam, host memory and the Plate in canonical form. Rests on 04_seam_hoist.md R91, 05_commands.md R104, 12_host_attachment.md R331. -/
def Obligations.StepKeepsMemoriesCanonical : Prop :=
  ∀ s t : State, s.memoriesWf = true → step s = .next t → t.memoriesWf = true

/-- A retired module never leaves the core reset by a step. Rests on 13_reset_health.md R365. -/
def Obligations.StepKeepsRetiredModuleHeld : Prop :=
  ∀ s t : State, s.retiredHeld = true → step s = .next t → t.retiredHeld = true

/-- BUSY and VALID of the mailbox never both read 1. Rests on 12_host_attachment.md R324. -/
def Obligations.StepKeepsMailboxSane : Prop :=
  ∀ s t : State, s.mailboxSane = true → step s = .next t → t.mailboxSane = true

/-- The state after the power-on reset meets the three invariants and is empty. Rests on 13_reset_health.md R353, 04_seam_hoist.md R91, 12_host_attachment.md Table 12.4. -/
def Obligations.ResetMeetsTheInvariants : Prop :=
  State.reset.memoriesWf = true ∧ State.reset.retiredHeld = true ∧ State.reset.mailboxSane = true ∧
  (∀ c : CtxId, State.reset.ctx? c = none) ∧ State.reset.frames = [] ∧
  (∀ a : Nat, State.reset.mem.read a = 0 ∧ State.reset.host.read a = 0 ∧ State.reset.fld.plate.read a = 0) ∧
  State.reset.pending = [] ∧ State.reset.hub.ready = false

/-- What a host write to an implemented register does before any field sees it. Rests on R8, R318, R319, R321, R322. -/
def Obligations.HostWritesAreJudged : Prop :=
  (∀ (s : State) (fn : FnId) (bar : Bar) (o : Nat) (be : BitVec 4) (v : Word),
    s.hub.ready = true → (s.read fn bar (o / 4 * 4)).isSome = true → be ≠ 0xF →
    exec (.registerWrite fn bar o be v none) s =
      .next { s with hub := { s.hub with regViol := satInc s.hub.regViol } }) ∧
  (∀ (s : State) (o : Nat) (v : Word) (b : PBlock) (base : Nat),
    s.hub.ready = true → (s.read 0 .bar0 (o / 4 * 4)).isSome = true → blockOf (o / 4 * 4) = some (b, base) →
    (hasWritable b (o / 4 * 4 - base) = false → exec (.registerWrite 0 .bar0 o 0xF v none) s = .next s) ∧
    (hasWritable b (o / 4 * 4 - base) = true → s.posted.get b = none →
      exec (.registerWrite 0 .bar0 o 0xF v none) s =
        .next { s with posted := s.posted.put b (some { offset := o / 4 * 4, value := v }) }) ∧
    (hasWritable b (o / 4 * 4 - base) = true → s.posted.get b ≠ none →
      exec (.registerWrite 0 .bar0 o 0xF v none) s =
        .next { s with hub := { s.hub with postedDrop := satInc s.hub.postedDrop } })) ∧
  (∀ (s : State) (fn : FnId) (o : Nat) (be : BitVec 4) (v : Word),
    s.hub.ready = false → (s.read fn .bar0 (o / 4 * 4)).isSome = true → (fn ≠ 0 ∨ 0x1000 ≤ o / 4 * 4) →
    exec (.registerWrite fn .bar0 o be v none) s = .next s) ∧
  (∀ (s : State) (fn : FnId) (bar : Bar) (o : Nat) (be : BitVec 4) (v : Word),
    s.read fn bar (o / 4 * 4) = none →
    exec (.registerWrite fn bar o be v none) s =
      .next { s with fns := vmod s.fns fn fun f => { f with aerUnsupported := true } }) ∧
  (∀ (s : State) (fn : FnId) (bar : Bar) (o dwords : Nat) (write : Bool),
    2 < dwords ∨ s.read fn bar (o / 4 * 4) = none →
    exec (.busErrorAccess fn bar o write dwords) s =
      .next { s with fns := vmod s.fns fn fun f => { f with aerUnsupported := true } }) ∧
  (∀ (s : State) (fn : FnId) (bar : Bar) (o : Nat), (s.read fn bar (o / 4 * 4)).isSome = true → s.beforeReady fn bar (o / 4 * 4) = false →
    exec (.busErrorAccess fn bar o false 1) s = .next (if s.silent fn bar (o / 4 * 4) = true then
      { s with hub := { s.hub with regViol := satInc s.hub.regViol } } else s))

/-- A posted write reaches the fields of its register, and BUSY clears. Rests on 12_host_attachment.md R321, 13_reset_health.md R363, 08_hall_time.md Table 8.7, 13_reset_health.md Table 13.11. -/
def Obligations.PostedWritesTakeEffect : Prop :=
  (∀ (s : State) (v : Word), s.posted.pwr = some { offset := 0x16028, value := v } →
    exec (.postedWriteEffect .pwr) s = .next { s with
      posted := { s.posted with pwr := none }
      pwr := { s.pwr with inletWarn := wfield v 0, outletWarn := wfield v 8, flowWarn := wfield v 16 } }) ∧
  (∀ (s : State) (v : Word), s.posted.tkp = some { offset := 0xB008, value := v } →
    exec (.postedWriteEffect .tkp) s = .next { s with
      posted := { s.posted with tkp := none }
      rst := { s.rst with badParity := s.rst.badParity.filter (· != 0xB008) }
      tkp := { s.tkp with guard := wfield v 0 } }) ∧
  (∀ (s : State) (v : Word), s.posted.hlt = some { offset := 0x13010, value := v } →
    exec (.postedWriteEffect .hlt) s = .next { s with
      posted := { s.posted with hlt := none }
      hlt := { s.hlt with thrSeam := v } }) ∧
  (∀ (s : State) (v : Word), s.posted.seam = some { offset := 0x6010, value := v } →
    exec (.postedWriteEffect .seam) s = .next { s with
      posted := { s.posted with seam := none }
      seam := { s.seam with scrubH := wfield v 0 } }) ∧
  (∀ (s : State) (v : Word), s.posted.rst = some { offset := 0x12010, value := v } →
    exec (.postedWriteEffect .rst) s = .next { s with
      posted := { s.posted with rst := none }
      rst := { s.rst with escMask := v } }) ∧
  (∀ (s : State) (v : Word), s.posted.fld = some { offset := 0x8014, value := v } →
    exec (.postedWriteEffect .fld) s = .next { s with
      posted := { s.posted with fld := none }
      fld := { s.fld with
        capSlot := if wbit v 24 = true ∧ s.fld.capState = 1 then s.fld.capSlot else wfield v 0
        capCtx := if wbit v 24 = true ∧ s.fld.capState = 1 then s.fld.capCtx else wfield v 16
        capAsk := if wbit v 24 = true ∧ s.fld.capState ≠ 1 then
          !State.captureRefused { s with fld := { s.fld with capSlot := wfield v 0, capCtx := wfield v 16 } } else s.fld.capAsk
        capState := if wbit v 24 = true ∧ s.fld.capState ≠ 1 ∧
          State.captureRefused { s with fld := { s.fld with capSlot := wfield v 0, capCtx := wfield v 16 } } = true then 3
          else s.fld.capState } }) ∧
  (∀ (s : State) (v : Word), s.posted.svc = some { offset := 0x17004, value := v } →
    wbit v 0 = false → wbit v 2 = false →
    exec (.postedWriteEffect .svc) s = .next { s with
      posted := { s.posted with svc := none }
      svc := { s.svc with locate := wbit v 1 } }) ∧
  (∀ (s : State) (b : PBlock), s.posted.get b = none → exec (.postedWriteEffect b) s = .next s)

/-- HUB_PROFILE: a reserved encoding is ignored as a whole; a change pends until it takes effect. Rests on 01_module.md R20, 01_module.md R21, log entry 46. -/
def Obligations.ProfileWritesAndClockChange : Prop :=
  (∀ (s : State) (v : Word), (wfield v 0 : BitVec 2) = 3 ∨ (wfield v 4 : BitVec 2) = 3 →
    exec (.hubProfileWrite v) s = .next s) ∧
  (∀ (s : State) (v : Word), (wfield v 0 : BitVec 2) ≠ 3 → (wfield v 4 : BitVec 2) ≠ 3 →
    (s.profile.clockPending = false ∨ ((wfield v 0 : BitVec 2) = s.profile.envelope ∧ wbit v 2 = s.profile.clocking)) →
    exec (.hubProfileWrite v) s = .next { s with profile := { s.profile with
      envelope := wfield v 0, clocking := wbit v 2, determinism := wfield v 4, seamEcc := wbit v 8, fabric := wbit v 12
      clockPending := s.profile.clockPending || ((wfield v 0 : BitVec 2) != s.profile.envelope || wbit v 2 != s.profile.clocking) } }) ∧
  (∀ (s : State) (v : Word), (wfield v 0 : BitVec 2) ≠ 3 → (wfield v 4 : BitVec 2) ≠ 3 → s.profile.clockPending = true →
    ((wfield v 0 : BitVec 2) ≠ s.profile.envelope ∨ wbit v 2 ≠ s.profile.clocking) →
    exec (.hubProfileWrite v) s = .next { s with
      pwr := { s.pwr with fclk := BitVec.ofNat 12 (min s.pwr.fclk.toNat
        (min (ceilingOf s.profile.envelope s.profile.clocking) (ceilingOf (wfield v 0) (wbit v 2)))) }
      profile := { s.profile with
        envelope := wfield v 0, clocking := wbit v 2, determinism := wfield v 4, seamEcc := wbit v 8, fabric := wbit v 12
        clockPending := true } }) ∧
  (∀ s : State, s.profile.clockPending = true → ∃ f : BitVec 12, exec .clockChangeEffect s = .next { s with
    profile := { s.profile with
      clockPending := false, envelopeEff := s.profile.envelope, clockingEff := s.profile.clocking }
    pwr := { s.pwr with fclk := f } }) ∧
  (∀ s : State, s.profile.clockPending = false → exec .clockChangeEffect s = .next s)

/-- Port 1 is fenced by P1_FENCE, HP1_PERST_N, a reset or link loss, drains, and returns. Rests on 12_host_attachment.md R340, 12_host_attachment.md Table 12.17. -/
def Obligations.PortOneFences : Prop :=
  (∀ s : State, s.hub.p1Fenced = false →
    exec (.p1Fence true) s = .next { s with
      hub := { s.hub with p1FenceReg := true, p1Fenced := true }
      port1 := { s.port1 with draining := some 1, lastCause := 1 } } ∧
    exec .hp1PerstN s = .next { s with
      hub := { s.hub with p1Up := false, p1Gen := 0, p1Width := 0, p1FenceReg := true, p1Fenced := true }
      port1 := { s.port1 with draining := some 6, lastCause := 6 } } ∧
    exec (.port1HotReset .hotReset) s = .next { s with
      hub := { s.hub with p1Up := false, p1Gen := 0, p1Width := 0, p1FenceReg := true, p1Fenced := true }
      port1 := { s.port1 with draining := some 2, lastCause := 2 } } ∧
    exec (.port1HotReset .dlDown) s = .next { s with
      hub := { s.hub with p1Up := false, p1Gen := 0, p1Width := 0, p1FenceReg := true, p1Fenced := true }
      port1 := { s.port1 with draining := some 3, lastCause := 3 } } ∧
    exec (.port1HotReset .flr) s = .next { s with
      hub := { s.hub with p1FenceReg := true, p1Fenced := true }
      port1 := { s.port1 with draining := some 5, lastCause := 5 } }) ∧
  (∀ s : State, s.hub.p1Fenced = true →
    exec (.p1Fence true) s = .next { s with hub := { s.hub with p1FenceReg := true } } ∧
    exec .hp1PerstN s = .next { s with hub := { s.hub with p1Up := false, p1Gen := 0, p1Width := 0, p1FenceReg := true } } ∧
    exec (.port1HotReset .hotReset) s = .next { s with hub := { s.hub with p1Up := false, p1Gen := 0, p1Width := 0, p1FenceReg := true } } ∧
    exec (.port1HotReset .dlDown) s = .next { s with hub := { s.hub with p1Up := false, p1Gen := 0, p1Width := 0, p1FenceReg := true } } ∧
    exec (.port1HotReset .flr) s = .next { s with hub := { s.hub with p1FenceReg := true } }) ∧
  (∀ (s : State) (cause : BitVec 4), s.port1.draining = some cause → s.hub.p1FenceReg = true →
    exec .port1FenceDrained s =
      .next ({ s with port1 := { s.port1 with draining := none } }.raise 0xC0 1 (leBytes 4 (cause.toNat + 16)))) ∧
  (∀ s : State, s.hub.p1Fenced = true → s.hub.p1Up = true → s.port1.busMaster = true → s.port1.d3hot = false →
    s.port1.draining = none →
    (s.port1.lastCause = 0 → exec (.p1Fence false) s = .next { s with hub := { s.hub with p1FenceReg := false, p1Fenced := false } }) ∧
    (s.port1.lastCause ≠ 0 → exec (.p1Fence false) s = .next ({ s with hub := { s.hub with p1FenceReg := false, p1Fenced := false } }.raise 0xC0 1
      (leBytes 4 s.port1.lastCause.toNat))))

/-- Link-up, Bus Master Enable, D3hot, completion timeouts and stray completions at the host ports. Rests on 12_host_attachment.md R316, 12_host_attachment.md R341, 15_power_bringup.md R412. -/
def Obligations.PortsLinksAndCompletions : Prop :=
  (∀ (s : State) (gen : BitVec 3) (width : BitVec 5), gen.toNat ∈ [5, 6, 7] → width.toNat ∈ [4, 8, 16] →
    s.pwr.mainOn = true → s.pwr.hold = .none → s.sec.islandOnly = false →
    (s.perst = false → exec (.pcieLinkUp false gen width) s = .next { s with
      pwr := { s.pwr with stage := if s.pwr.stage = 4 then 5 else s.pwr.stage }
      hub := { s.hub with p0Up := true, p0Gen := gen, p0Width := width } }) ∧
    (s.perst = true → exec (.pcieLinkUp false gen width) s = .next s) ∧
    (s.hub.p1FenceReg = true → exec (.pcieLinkUp true gen width) s = .next { s with
      pwr := { s.pwr with stage := if s.pwr.stage = 4 then 5 else s.pwr.stage }
      hub := { s.hub with p1Up := true, p1Gen := gen, p1Width := width } })) ∧
  (∀ (s : State) (p1 : Bool) (gen : BitVec 3) (width : BitVec 5),
    gen.toNat ∉ [5, 6, 7] ∨ width.toNat ∉ [4, 8, 16] ∨ s.pwr.mainOn = false ∨ s.pwr.hold ≠ .none ∨ s.sec.islandOnly = true →
    exec (.pcieLinkUp p1 gen width) s = .next s) ∧
  (∀ (s : State) (f : FnId),
    exec (.busMasterDisable (.port0 f) false) s = .next { s with fns := vmod s.fns f fun x => { x with busMaster := false } } ∧
    exec (.busMasterDisable (.port0 f) true) s = .next { s with fns := vmod s.fns f fun x => { x with d3hot := true } } ∧
    exec (.busMasterEnable (.port0 f) true) s = .next ({ s with fns := vmod s.fns f fun x => { x with d3hot := false } }.flushFn f)) ∧
  (∀ (s : State) (f : FnId), (∀ e ∈ s.contexts, e.2.fn ≠ f) → s.snp.debts = [] →
    exec (.busMasterEnable (.port0 f) false) s =
      .next { s with fns := vmod s.fns f fun x => { x with busMaster := true, enabled := true } }) ∧
  (∀ s : State, s.hub.p1Fenced = false →
    exec (.busMasterDisable .data false) s = .next { s with
      hub := { s.hub with p1Fenced := true }
      port1 := { s.port1 with busMaster := false, draining := some 5, lastCause := 5 } }) ∧
  (∀ s : State, s.hub.p1Fenced = true → s.hub.p1FenceReg = true →
    exec (.busMasterEnable .data false) s = .next { s with port1 := { s.port1 with busMaster := true } }) ∧
  (∀ (s : State) (w : TimedWork), s.hub.p1Fenced = false →
    exec (.completionTimeout true false w) s = .next { s with
      hub := { s.hub with cplTimeout := satInc s.hub.cplTimeout, p1FenceReg := true, p1Fenced := true }
      port1 := { s.port1 with draining := some 4, lastCause := 4 } }) ∧
  (∀ (s : State) (w : TimedWork),
    exec (.completionTimeout false false w) s = .next { s with hub := { s.hub with cplTimeout := satInc s.hub.cplTimeout } }) ∧
  (∀ (s : State) (c : CtxId),
    exec (.completionTimeout false true (.ringFetch c)) s = .next ({ s with
      hub := { s.hub with cplTimeout := satInc s.hub.cplTimeout } }.modCtx c fun x => { x with stop := true })) ∧
  (∀ (s : State) (f : FnId),
    exec (.strayCompletion (.port0 f)) s = .next { s with
      hub := { s.hub with strayCpl := satInc s.hub.strayCpl }
      fns := vmod s.fns f fun x => { x with aerUnexpected := true } }) ∧
  (∀ s : State,
    exec (.strayCompletion .data) s = .next { s with
      hub := { s.hub with strayCpl := satInc s.hub.strayCpl }
      port1 := { s.port1 with aerUnexpected := true } })

/-- GO starts the request in CODE, ACK clears VALID, a reserved code ends with BAD_DESCRIPTOR, and a retired module answers FENCED. Rests on 12_host_attachment.md R324, 12_host_attachment.md R342, 13_reset_health.md R361, 13_reset_health.md R365. -/
def Obligations.MailboxControl : Prop :=
  (∀ s : State, exec .mbxAck s = .next { s with mbx := { s.mbx with valid := false } }) ∧
  (∀ (s : State) (v : Word), s.mbx.busy = false → wbit v 16 = true → wbit v 17 = false →
    exec (.registerWrite 0 .bar0 0x100 0xF v none) s = .next { s with
      mbx := { s.mbx with
        code := wfield v 0, busy := true, valid := false, running := wfield v 0, htGo := s.tkp.ht, stGo := s.tkp.state } }) ∧
  (∀ s : State, s.mbx.busy = true → mailboxCodes.contains s.mbx.running.toNat = false →
    exec .mbxReservedCode s = .next (s.mbxEnd (if s.mbx.fenced then stFenced else stBad) [])) ∧
  (∀ (s : State), s.mbx.busy = true → s.mbx.running = 0x30 → s.mbx.fenced = false → s.rst.retired = true →
    exec .ctxCreate s = .next (s.mbxEnd stFenced [])) ∧
  (∀ (s : State), s.mbx.busy = true → s.mbx.running = 0x30 → s.mbx.fenced = false → s.rst.retired = false → s.rst.coreHeld = true →
    exec .ctxCreate s = .next s) ∧
  (∀ (s : State) (st : Byte) (bs : List Byte),
    (s.mbxEnd st bs).mbx = { s.mbx with
      data := mbxFill s.mbx.data bs, len := BitVec.ofNat 10 bs.length, status := st, valid := true, busy := false })

/-- A coalescing timer sets the pending bit, a held message leaves, and a claim clears a source. Rests on 12_host_attachment.md R343, 12_host_attachment.md R344, log entry 36. -/
def Obligations.SieveTimersAndClaims : Prop :=
  (∀ (s : State) (src : BitVec 9) (t : Nat), vget s.irq.first src.toFin = some t → s.irq.enable.getLsbD src.toNat = true →
    t + 1000 * (vget s.irq.cfg src.toFin).micros ≤ s.now → s.tkp.ht < 2 ^ 68 →
    (s.irq.fired.getLsbD src.toNat = false → exec (.irqCoalesceTimer src) s =
      .next ({ s with irq := { s.irq with
        pending := setBit s.irq.pending src.toNat true, fired := setBit s.irq.fired src.toNat true } }.irqSend src.toNat)) ∧
    (s.irq.fired.getLsbD src.toNat = true → exec (.irqCoalesceTimer src) s = .next s)) ∧
  (∀ (s : State) (src : BitVec 9), vget s.irq.first src.toFin = none → exec (.irqCoalesceTimer src) s = .next s) ∧
  (∀ (s : State) (src : Nat), s.irqCanSend src = true →
    s.irqSend src =
      (let t := (s.hostWrite (s.irqRoute src).2.addr.toNat (leBytes 4 (s.irqRoute src).2.data.toNat)).irqClear src
       { t with irq := { t.irq with msgs := s.irq.msgs + 1 } })) ∧
  (∀ (s : State) (src : Nat), s.irqCanSend src = false → s.irqSend src = s) ∧
  (∀ (s : State) (src : BitVec 9),
    exec (.irqClaim src) s = .next { s with irq := { s.irq with
      claimSrc := src
      pending := setBit s.irq.pending src.toNat false
      fired := setBit s.irq.fired src.toNat false
      ev := vset s.irq.ev src.toFin 0
      first := vset s.irq.first src.toFin none
      emptyClaims := if s.irqStatus src.toNat then s.irq.emptyClaims else satInc s.irq.emptyClaims } }) ∧
  (∀ (s : State) (src : BitVec 9),
    exec (.msixHeldSend src) s = .next ({ s with
      fns := vmod s.fns (s.irqRoute src.toNat).1 fun x => { x with msixEnable := true } }.irqSend src.toNat))

/-- Event rings: EN, the FIFO of 256, the overflow marker, record writes and the head. Rests on 12_host_attachment.md R349, 12_host_attachment.md R350, 12_host_attachment.md R351. -/
def Obligations.EventRingsRecordInOrder : Prop :=
  (∀ (s : State) (r : RingId), (vget s.evr r).en = false →
    exec (.eventRingEnable r) s = .next { s with evr := vset s.evr r { (vget s.evr r) with
      en := true, tail := 0, head := 0, fifo := [], marker := none } } ∧
    exec (.eventRingDisable r) s = .next { s with evr := vset s.evr r (vget s.evr r) }) ∧
  (∀ (s : State) (r : RingId), (vget s.evr r).en = true →
    exec (.eventRingDisable r) s = .next { s with evr := vset s.evr r { (vget s.evr r) with
      en := false, drops := satAdd (vget s.evr r).drops (vget s.evr r).fifo.length, fifo := [], marker := none } } ∧
    exec (.eventRingEnable r) s = .next { s with evr := vset s.evr r (vget s.evr r) }) ∧
  (∀ (s : State) (r : RingId) (v : Word),
    ((vget s.evr r).tail - v).toNat ≤ ((vget s.evr r).tail - (vget s.evr r).head).toNat →
    exec (.evrHeadWrite r v) s = .next { s with evr := vset s.evr r { (vget s.evr r) with head := v } }) ∧
  (∀ (s : State) (r : RingId) (v : Word),
    ((vget s.evr r).tail - (vget s.evr r).head).toNat < ((vget s.evr r).tail - v).toNat →
    exec (.evrHeadWrite r v) s = .next { s with hub := { s.hub with regViol := satInc s.hub.regViol } }) ∧
  (∀ (s : State) (code subject : Nat) (p : List Byte), code < 256 →
    let r : RingId := Fin.ofNat 4 (code / 64)
    let e : Event := { code := BitVec.ofNat 8 code, subject := BitVec.ofNat 16 subject, payload := p,
                       ht := if s.tkp.state = 0 then 0 else s.ht64 }
    ((vget s.evr r).en = true → (vget s.evr r).fifo.length < 256 →
      s.raise code subject p = { s with evr := vset s.evr r { (vget s.evr r) with fifo := (vget s.evr r).fifo ++ [e] } }) ∧
    ((vget s.evr r).en = false →
      s.raise code subject p = { s with evr := vset s.evr r { (vget s.evr r) with drops := satInc (vget s.evr r).drops } })) ∧
  (∀ (s : State) (r : RingId) (e : Event) (rest : List Event), (vget s.evr r).fifo = e :: rest → (vget s.evr r).marker = none →
    s.ringOpen r = true →
    exec (.eventRecordWrite r) s =
      .next ({ s with evr := vset s.evr r { (vget s.evr r) with fifo := rest } }.putEvent r e)) ∧
  (∀ (s : State) (r : RingId) (m : Marker), (vget s.evr r).marker = some m → m.ahead = 0 → s.ringOpen r = true →
    exec (.overflowRecord r) s = .next ({ s with evr := vset s.evr r { (vget s.evr r) with marker := none } }.putEvent r
      { code := 1, subject := 0, ht := m.firstHt
        payload := leBytes 4 m.count.toNat ++ leBytes 4 0 ++ leBytes 8 m.firstHt.toNat ++ leBytes 8 m.lastHt.toNat }))

/-- WIN_CFG creates a window, WIN_SLOT defines and removes slots, WIN_RECLAIM hands one back. Rests on 12_host_attachment.md R327, 12_host_attachment.md R328, 12_host_attachment.md R331, 12_host_attachment.md R332. -/
def Obligations.WindowRequestsDefineAndReclaim : Prop :=
  (∀ (s : State) (x : Context), s.mbxIs 0x10 = true → s.mbx.fenced = false → s.rst.retired = false → s.rst.coreHeld = false →
    winCfgBad s.mbxBytes = false → s.ctx? (ctxOf (fieldAt s.mbxBytes 0 1)) = some x → x.window = none →
    exec .winCfg s = .next ((s.modCtx (ctxOf (fieldAt s.mbxBytes 0 1)) fun x => { x with window := some { windowReset with
      nslots := bits (fieldAt s.mbxBytes 4 4) 16 0, wxLog2 := bits (fieldAt s.mbxBytes 4 4) 27 24
      flagBase := BitVec.ofNat 64 (fieldAt s.mbxBytes 8 8), wxBase := BitVec.ofNat 64 (fieldAt s.mbxBytes 16 8)
      wxcBase := BitVec.ofNat 64 (fieldAt s.mbxBytes 24 8) } }).mbxEnd stOk [0, 0, 0, 0])) ∧
  (∀ (s : State) (x : Context) (w : Window), s.mbxIs 0x11 = true → s.mbx.fenced = false → s.rst.retired = false → s.rst.coreHeld = false →
    s.ctx? (ctxOf (fieldAt s.mbxBytes 0 1)) = some x → x.window = some w →
    exec .winSlot s = .next ((s.modCtx (ctxOf (fieldAt s.mbxBytes 0 1)) fun x =>
      { x with window := some { w with slots := (w.slotRequest s.mbxBytes).2 } }).mbxEnd stOk
        (leBytes 4 (w.slotRequest s.mbxBytes).1.toNat))) ∧
  (∀ (w : Window) (n k : Nat) (addr : Nat) (p2p : Bool) (a : List Byte),
    fieldAt a 0 4 = n * 2 ^ 16 + fieldAt a 0 1 → fieldAt a 0 1 < 256 → fieldAt a 4 4 = k + b2n p2p * 2 ^ 8 → fieldAt a 8 8 = addr →
    n < w.nslots → n < 65536 → 16 ≤ k → k ≤ 30 → addr % 65536 = 0 → w.slots.get? n = none → w.total + 2 ^ k ≤ 2 ^ 36 →
    w.slotRequest a = (stOk, w.slots.put n { log2 := k, p2p := p2p, addr := BitVec.ofNat 64 addr, held := none
                                             flagLen := 0, flagCrc := 0, busy := false })) ∧
  (∀ (s : State) (x : Context) (t : WinSlot), s.mbxIs 0x12 = true → s.mbx.fenced = false → s.rst.retired = false → s.rst.coreHeld = false →
    bits (s.mbxArg 0) 15 8 = 0 → s.ctx? (ctxOf (bits (s.mbxArg 0) 7 0)) = some x → x.slot? (bits (s.mbxArg 0) 31 16) = some t →
    (t.held.isSome = true → t.busy = false → x.farPool.contains (bits (s.mbxArg 0) 31 16) = false → s.mayRequest x.fn = false →
      exec .winReclaim s = .next s) ∧
    (t.held.isSome = true → t.busy = false → x.farPool.contains (bits (s.mbxArg 0) 31 16) = false → s.mayRequest x.fn = true →
      exec .winReclaim s =
        .next ((s.handback (ctxOf (bits (s.mbxArg 0) 7 0)) (bits (s.mbxArg 0) 31 16) 0 0).mbxEnd stOk [0, 0, 0, 0])) ∧
    (t.held = none → exec .winReclaim s = .next (s.mbxEnd stOk [stBad, 0, 0, 0])) ∧
    (t.held.isSome = true → (t.busy = true ∨ x.farPool.contains (bits (s.mbxArg 0) 31 16) = true) →
      exec .winReclaim s = .next (s.mbxEnd stOk [stNoRoom, 0, 0, 0]))) ∧
  (∀ (s : State) (c : CtxId) (x : Context) (w : Window) (n : Nat) (t : WinSlot) (seq : BitVec 31) (len : Nat) (crc : Word),
    s.ctx? c = some x → x.window = some w → w.slots.get? n = some t → x.farPool.contains n = true →
    s.handback c n len crc = s.modSlot c n fun t => { t with busy := false }) ∧
  (∀ (s : State) (c : CtxId) (x : Context) (w : Window) (n : Nat) (t : WinSlot) (seq : BitVec 31) (len : Nat) (crc : Word),
    s.ctx? c = some x → x.window = some w → w.slots.get? n = some t → x.farPool.contains n = false → t.held = some seq →
    s.handback c n len crc =
      (((s.hostWrite (w.flagBase.toNat + 16 * n + 4) (leBytes 4 len ++ leBytes 4 crc.toNat)).hostWrite
        (w.flagBase.toNat + 16 * n) (leBytes 4 ((seq + 1).toNat * 2))).modSlot c n fun t =>
          { t with held := none, busy := false }).tallyHost c 12)

/-- WX_DB and WX_CHEAD follow the ring rules; STORE copies Seam bytes into a slot; WX_COMPLETE writes the record. Rests on 12_host_attachment.md R336, 12_host_attachment.md R337, 12_host_attachment.md R338, 05_commands.md R131. -/
def Obligations.WindowRingsAndTransfers : Prop :=
  (∀ (s : State) (fn : FnId) (slot : Fin 32) (v : Word), s.ctxAt fn slot = none →
    exec (.wxDb fn slot v) s = .next { s with hub := { s.hub with regViol := satInc s.hub.regViol } } ∧
    exec (.wxCheadWrite fn slot v) s = .next { s with hub := { s.hub with regViol := satInc s.hub.regViol } }) ∧
  (∀ (s : State) (fn : FnId) (slot : Fin 32) (v : Word) (c : CtxId) (x : Context) (w : Window),
    s.ctxAt fn slot = some (c, x) → x.window = some w →
    ((v - w.head).toNat ≤ 2 ^ w.wxLog2 → (v - w.tail).toNat ≤ 2 ^ w.wxLog2 →
      exec (.wxDb fn slot v) s = .next (s.modWindow c fun w => { w with tail := v })) ∧
    (2 ^ w.wxLog2 < (v - w.head).toNat ∨ 2 ^ w.wxLog2 < (v - w.tail).toNat → exec (.wxDb fn slot v) s = .next (s.dbBad c)) ∧
    ((w.ctail - v).toNat ≤ (w.ctail - w.chead).toNat →
      exec (.wxCheadWrite fn slot v) s = .next (s.modCtx c fun x => { x with
        window := some { w with chead := v }, wxIrqs := unconsumed x.wxIrqs v w.ctail })) ∧
    ((w.ctail - w.chead).toNat < (w.ctail - v).toNat → exec (.wxCheadWrite fn slot v) s = .next (s.dbBad c))) ∧
  (∀ (s : State) (fn : FnId) (slot : Fin 32) (v : Word) (c : CtxId) (x : Context),
    s.ctxAt fn slot = some (c, x) → x.window = none →
    exec (.wxDb fn slot v) s = .next (s.dbBad c) ∧ exec (.wxCheadWrite fn slot v) s = .next (s.dbBad c)) ∧
  (∀ (s : State) (c : CtxId) (x : Context) (w : Window) (t : WinSlot) (desc flag : List Byte), desc.length = 64 →
    s.ctx? c = some x → x.window = some w → s.mayTransfer x w = true → transferBad desc = false →
    w.slots.get? (fieldAt desc 4 2) = some t → t.held.isSome = true → fieldAt desc 0x18 4 + fieldAt desc 0x20 4 ≤ t.size →
    (∀ v ∈ pagesOf (fieldAt desc 0x10 6) (fieldAt desc 0x20 4), pteState (x.pt.getD v 0) = psResident) →
    bit (fieldAt desc 0 4) 8 = false →
    exec (.store c desc flag [] false) s =
      .next (((((s.tallyHost c 64).hostWrite (t.addr.toNat + fieldAt desc 0x18 4)
        (s.committedBytes x (fieldAt desc 0x10 6) (fieldAt desc 0x20 4))).tallyHost c (fieldAt desc 0x20 4)).tallySeam c
          (fieldAt desc 0x20 4)).modWindow c fun u => { u with
            head := w.head + 1
            transfers := [{ seq := w.head, desc := desc, status := some stOk, written := fieldAt desc 0x20 4 }] })) ∧
  (∀ (s : State) (c : CtxId) (x : Context) (w : Window) (desc flag : List Byte) (hits : List SeamHit) (pf : Bool), desc.length = 64 →
    s.ctx? c = some x → x.window = some w → s.mayTransfer x w = true → transferBad desc = true →
    exec (.store c desc flag hits pf) s = .next ((s.tallyHost c 64).modWindow c fun u => { u with
      head := w.head + 1, transfers := [{ seq := w.head, desc := desc, status := some stBad, written := 0 }] })) ∧
  (∀ (s : State) (c : CtxId) (x : Context) (w : Window) (t : Transfer) (st : Byte),
    s.ctx? c = some x → x.window = some w → w.transfers = [t] → t.status = some st → s.mayRequest x.fn = true →
    bit (fieldAt t.desc 0 4) 9 = false →
    exec (.wxComplete c) s = .next (((s.hostWrite (w.wxcBase.toNat + 32 * (w.ctail.toNat % 2 ^ w.wxLog2))
      (transferRecord t (phaseOf w.ctail (2 ^ w.wxLog2)) s.ht)).modCtx c fun x => { x with
        window := some { w with ctail := w.ctail + 1, transfers := [] } }).tallyHost c 32))

/-- A Field operation of each class completes whenever its pages are there: it writes its outputs and is counted. Rests on 02_field.md R28, 02_field.md R44, 02_field.md R45, 02_field.md R48, 07_training.md R193, 07_training.md R205. -/
def Obligations.FieldOperationsRun : Prop :=
  (∀ (s : State) (c : CtxId) (k : Cmd) (o : FOp) (count : Nat) (hits : List SeamHit),
    let ends : State → (Nat → Byte) → Prop := fun t rd =>
      (o.cls = 1 → exec (.matmul hits) s = .next (t.opDone c k o count)) ∧
      (o.cls = 2 → exec (.bmatmul hits) s = .next (t.opDone c k o count)) ∧
      (o.cls = 3 → exec (.conv hits) s = .next (t.opDone c k o count)) ∧
      (o.cls = 4 → exec (.dwconv hits) s = .next (t.opDone c k o count)) ∧
      (o.cls = 5 → exec (.attend hits) s = .next (t.opDone c k o count)) ∧
      (o.cls = 6 → exec (.elem hits) s = .next (t.opDone c k o count)) ∧
      (o.cls = 7 → exec (.reduce hits) s = .next (t.opDone c k o count)) ∧
      (o.cls = 8 → exec (.norm hits) s = .next (t.opDone c k o count)) ∧
      (o.cls = 9 → exec (.repack hits) s = .next (t.opDone c k o count)) ∧
      (o.cls = 10 → exec (.gather hits) s = .next (t.opDone c k o count)) ∧
      (o.cls = 11 → exec (.scatter hits) s = .next (t.opDone c k o count)) ∧
      (o.cls = 12 → exec (.optstep hits) s = .next (t.opDone c k o count)) ∧
      (o.cls = 13 → o.smode = 0 → exec (.sumsq hits) s = .next (t.opDone c k o count)) ∧
      (o.cls = 13 → o.smode = 1 → exec (.sumsq2 hits) s = .next (t.opDone c k o count)) ∧
      (o.cls = 13 → o.smode = 2 → exec (.check hits) s = .next ((t.runCheck c k o rd).opDone c k o count)) ∧
      (o.cls = 13 → o.smode = 3 → exec (.noise hits) s = .next ((t.runNoise c k o rd).opDone c k o count))
    (∀ s1 t rd, OpReady s s1 c k o count (s.seamErrs hits) → OpWrites s1 t c k o (s.seamErrs hits) rd → ends t rd) ∧
    (OpExecutes s c k o count hits → ∃ s1 t rd, OpReady s s1 c k o count (s.seamErrs hits) ∧ OpWrites s1 t c k o (s.seamErrs hits) rd ∧
      ends t rd)) ∧
  (∀ (s s1 : State) (c : CtxId) (k : Cmd) (o : FOp) (count : Nat) (hits : List SeamHit),
    OpReady s s1 c k o count (s.seamErrs hits) → o.known = true → o.cls ≠ 1 → exec (.matmul hits) s = .next s)

/-- A malformed operation ends its command, a wait point parks it, and the list ends with LAST. Rests on 05_commands.md R140, 05_commands.md R142, 02_field.md R38, 02_field.md R50, 02_field.md R59. -/
def Obligations.FieldOperationsStopOrWait : Prop :=
  (∀ (s s1 : State) (c : CtxId) (x : Context) (k : Cmd) (va count : Nat) (hits : List SeamHit),
    s.holder? = some (c, x, k) → k.canRun = true → s.fld.frozen = false → s.opSource c k = some (va, count) →
    s.gate c k.seq [(va, 128)] { s.seamErrs hits with ce := [] } = .go s1 → s.opBad c k (fop (s.cmdBytes x k va 128)) = true →
    (fop (s.cmdBytes x k va 128)).cls = 1 →
    exec (.matmul hits) s = .next (s1.endWith c k.seq stBad k.opNumber)) ∧
  (∀ (s s1 : State) (c : CtxId) (x : Context) (k : Cmd) (va count : Nat) (hits : List SeamHit),
    s.holder? = some (c, x, k) → k.canRun = true → s.fld.frozen = false → s.opSource c k = some (va, count) →
    s.gate c k.seq [(va, 128)] { s.seamErrs hits with ce := [] } = .go s1 → s.opBad c k (fop (s.cmdBytes x k va 128)) = false →
    (fop (s.cmdBytes x k va 128)).cls = 9 → (fop (s.cmdBytes x k va 128)).wait = true → k.passedWait = false →
    (x.tagDone (fop (s.cmdBytes x k va 128)).waitTag = none →
      exec (.repack hits) s = .next (s1.park c k (fop (s.cmdBytes x k va 128)).waitTag)) ∧
    (∀ st, x.tagDone (fop (s.cmdBytes x k va 128)).waitTag = some st → st ≠ stOk →
      exec (.repack hits) s = .next (s1.endWith c k.seq st k.opNumber)) ∧
    (x.tagDone (fop (s.cmdBytes x k va 128)).waitTag = some stOk →
      exec (.repack hits) s = .next ((s1.modCmd c k.seq fun k => { k with passedWait := true }).opRun c { k with passedWait := true }
        (fop (s.cmdBytes x k va 128)) count (s.seamErrs hits)))) ∧
  (∀ (s : State) (c : CtxId) (k : Cmd), k.step = none → s.cmd? c k.seq = some k →
    s.listDone c k.seq = s.endWith c k.seq k.goodStatus k.opIdx) ∧
  (∀ (s : State) (hits : List SeamHit), s.holder? = none →
    exec (.matmul hits) s = .next s ∧ exec (.optstep hits) s = .next s ∧ exec (.noise hits) s = .next s) ∧
  (∀ (s : State) (hits : List SeamHit), s.fld.frozen = true → exec (.conv hits) s = .next s ∧ exec (.reduce hits) s = .next s)

/-- What MATMUL, ELEM, REDUCE, REPACK and GATHER put out, element by element. Rests on 02_field.md R28, 02_field.md R36, 02_field.md R44, 02_field.md R45, log entry 21. -/
def Obligations.FieldOutputsByClass : Prop :=
  (∀ (rd : Nat → Byte) (o : FOp), o.cls = 1 → (matmulOut rd o).rows =
    (List.range o.m).map fun i => .vals ((List.range o.n).map fun j =>
      fmul (epilogueY o (cellValue o (fun k => elemAt rd o.fmtA (o.addrA + i * o.strideA) k)
        (fun k => elemDown rd o.fmtB o.addrB o.strideB k j)).1
        (elemAt rd o.fmtC (o.addrC + i * o.strideC) j) (elemAt rd o.fmtC o.addrBias j)) o.scaleOut)) ∧
  (∀ (rd : Nat → Byte) (o : FOp) (a : Nat → Nat → FNum), o.binop = 1 → (elemOut rd o a).rows =
    (List.range o.m).map fun i => .vals ((List.range o.n).map fun j =>
      rimFn o.act (fadd (rn32 (a i j)) (rn32 (elemAt rd o.fmtB (o.addrB + i * o.strideB) j))))) ∧
  (∀ (rd : Nat → Byte) (o : FOp), (reduceOut rd o).rows =
    (List.range o.m).map fun i => .vals
      [rimFn o.act ((reduceRow (ropOf o.binop) (rowF rd o.fmtA (o.addrA + i * o.strideA) o.n)).getD
        (ofBits (Config.emptyReduce o.binop).toNat))]) ∧
  (∀ (rd : Nat → Byte) (o : FOp) (i : Nat), i < o.m →
    (repackOut rd o).rows[i]? = some (takeRow rd o (o.addrA + i * o.strideA))) ∧
  (∀ (rd : Nat → Byte) (o : FOp) (i : Nat), i < o.k →
    (rowIndex rd o i < o.m → (gatherOut rd o).rows[i]? = some (takeRow rd o (o.addrA + rowIndex rd o i * o.strideA))) ∧
    (o.m ≤ rowIndex rd o i → (gatherOut rd o).rows[i]? = some (.vals (List.replicate o.n .zero))))

/-- CHECK and NOISE: the decision in the unit and the command, or a bad estimate counted. Rests on 07_training.md R194, 07_training.md R210. -/
def Obligations.NormChecksDecide : Prop :=
  (∀ (s : State) (c : CtxId) (k : Cmd) (o : FOp) (rd : Nat → Byte) (g f : FNum) (d : NormDecision),
    checkNorm (elemAt rd 0 o.addrA 0) (lseOf (vget s.opt.units (unitOf o.tu)).openLse)
      (ofBits (vget s.opt.units (unitOf o.tu)).limit.toNat) (vget s.opt.units (unitOf o.tu)).normMode = .decided g d f →
    s.runCheck c k o rd =
      ({ s with opt := { s.opt with units := vset s.opt.units (unitOf o.tu) { (vget s.opt.units (unitOf o.tu)) with
          decision := (match d with
            | .apply => 1
            | .clip => 2
            | .skip => 3)
          norm := toBits g } } }).modCmd c k.seq fun k => { k with
        unit := some o.tu, decision := some d, normG := toBits g, multiplier := toBits f
        tLatch := if (vget s.opt.units (unitOf o.tu)).stepDone < k.stepNo then (vget s.opt.units (unitOf o.tu)).applied + 1
          else (vget s.opt.units (unitOf o.tu)).applied }) ∧
  (∀ (sum limit : FNum) (lse : Int), sum.isFinite = true → posFinite limit = false → ∀ mode,
    checkNorm sum lse limit mode = .decided (fmul (fsqrt sum) (FNum.pow2 (-lse))) .apply one) ∧
  (∀ (sum limit : FNum) (lse : Int), sum.isFinite = true → posFinite limit = true →
    limit.lt (fmul (fsqrt sum) (FNum.pow2 (-lse))) = true →
    checkNorm sum lse limit true = .decided (fmul (fsqrt sum) (FNum.pow2 (-lse))) .skip one ∧
    checkNorm sum lse limit false =
      .decided (fmul (fsqrt sum) (FNum.pow2 (-lse))) .clip (fmul limit (rcp (fmul (fsqrt sum) (FNum.pow2 (-lse)))))) ∧
  (∀ (sum limit : FNum) (lse : Int) (mode : Bool), sum.isFinite = false → checkNorm sum lse limit mode = .skipNonfinite) ∧
  (∀ (s : State) (c : CtxId) (k : Cmd) (o : FOp) (rd : Nat → Byte),
    noiseEstimate (elemAt rd 0 o.addrA 0) (elemAt rd 0 o.addrA 1) (o.word 0x70) (o.word 0x74) (o.word 0x78)
      (lseOf (vget s.opt.units (unitOf o.tu)).openLse) = none →
    s.runNoise c k o rd = { s with opt := { s.opt with noiseBad := satInc s.opt.noiseBad } })

/-- Quad fences, unfences and self-tests: when each takes effect and what it changes. Rests on 02_field.md R53, 02_field.md R54, 02_field.md R55, 02_field.md R57, 02_field.md R58. -/
def Obligations.QuadFencesAndSelfTests : Prop :=
  (∀ (s : State) (q : QuadId), s.fld.fenced.getLsbD q.val = false →
    exec (.quadFenceRequest q) s = .next { s with fld := { s.fld with pend := setBit s.fld.pend q.val true } } ∧
    exec (.quadUnfenceRequest q) s = .next s) ∧
  (∀ (s : State) (q : QuadId), s.fld.fenced.getLsbD q.val = true →
    exec (.quadUnfenceRequest q) s = .next { s with fld := { s.fld with pend := setBit s.fld.pend q.val true } } ∧
    exec (.quadFenceRequest q) s = .next s) ∧
  (∀ (s : State) (q : QuadId), s.fld.pend.getLsbD q.val = true → s.fld.fenced.getLsbD q.val = false → s.quadHasPages q.val = false →
    (s.holderIn q.val = none → exec (.quadFenceEffect q) s = .next (({ s with fld := { s.fld with
      fenced := setBit s.fld.fenced q.val true, pend := setBit s.fld.pend q.val false } }).killWideParked.raise 0x23 q.val
        (leBytes 4 4))) ∧
    (∀ c k, s.holderIn q.val = some (c, k) → exec (.quadFenceEffect q) s = .next (s.requestKill c k.seq .fence))) ∧
  (∀ (s : State) (q : QuadId), s.quadHasPages q.val = true → exec (.quadFenceEffect q) s = .next s) ∧
  (∀ (s : State) (q : QuadId), s.fld.pend.getLsbD q.val = true → s.fld.fenced.getLsbD q.val = true →
    s.fld.testing.getLsbD q.val = false →
    exec (.quadUnfenceEffect q) s = .next (({ s with
      mem := s.mem.clear (4 * q.val * dieStride * pageSize) (4 * dieStride * pageSize)
      ctxs := s.ctxs.map fun (o : Option Context) => o.map fun (x : Context) => { x with stale := [] }
      fld := { s.fld with fenced := setBit s.fld.fenced q.val false, pend := setBit s.fld.pend q.val false }
      rst := { s.rst with epoch := s.rst.epoch + 1 } }).raise 0x23 q.val (leBytes 4 0))) ∧
  (∀ (s : State) (q : QuadId),
    (s.fld.testing.getLsbD q.val = true → exec (.quadTestStart (BitVec.ofNat 3 q.val)) s = .next { s with fld := { s.fld with
      testQuad := BitVec.ofNat 3 q.val, results := vset s.fld.results q 6 } }) ∧
    (s.fld.testing.getLsbD q.val = false → s.fld.fenced.getLsbD q.val = false →
      exec (.quadTestStart (BitVec.ofNat 3 q.val)) s = .next { s with fld := { s.fld with
        testQuad := BitVec.ofNat 3 q.val, results := vset s.fld.results q 5 } }) ∧
    (s.fld.testing.getLsbD q.val = false → s.fld.fenced.getLsbD q.val = true →
      exec (.quadTestStart (BitVec.ofNat 3 q.val)) s = .next { s with
        mem := s.mem.writeBytes (q.val * (4 * dieStride * pageSize))
          ((List.range (4 * dieStride * pageSize)).map (Config.testByte s.freeCtr))
        fld := { (({ s.fld with testQuad := BitVec.ofNat 3 q.val, results := vset s.fld.results q 1 } : Fld).forgetQuad q.val) with
          testing := setBit s.fld.testing q.val true }
        freeCtr := s.freeCtr + 1 })) ∧
  (∀ (s : State) (quad : BitVec 3), 6 ≤ quad.toNat → exec (.quadTestStart quad) s = .next s) ∧
  (∀ (s : State) (q : QuadId) (r : QuadTest), s.fld.testing.getLsbD q.val = true →
    exec (.quadTestDone q r) s = .next (({ s with fld := { s.fld with
      testing := setBit s.fld.testing q.val false, results := vset s.fld.results q (quadCode r) } }).raise 0x03 q.val
        (leBytes 4 (quadCode r).toNat)))

/-- MAINT, FREEZE and the capture of the Field. Rests on 02_field.md R56, 02_field.md R59, 02_field.md R60, 02_field.md R61. -/
def Obligations.FieldMaintenanceAndCapture : Prop :=
  (∀ s : State, (∀ e ∈ s.contexts, e.2.stop = true ∧ e.2.cmds = []) →
    exec (.maint true) s = .next { s with fld := { s.fld with maint := true } }) ∧
  (∀ (s : State) (e : CtxId × Context), e ∈ s.contexts → (e.2.stop = false ∨ e.2.cmds ≠ []) → exec (.maint true) s = .next s) ∧
  (∀ s : State, exec (.maint false) s = .next ({ s with fld := { s.fld with maint := false } }).settle) ∧
  (∀ s : State, s.fld.frozen = false →
    (s.holder? = none → exec .freeze s = .next { s with fld := { s.fld with frozen := true, frozenOp := none } }) ∧
    (∀ c x k, s.holder? = some (c, x, k) → exec .freeze s =
      .next (({ s with fld := { s.fld with frozen := true, frozenOp := some (BitVec.ofNat 32 k.opNumber) } }).requestKill c k.seq .freeze))) ∧
  (∀ (s : State) (ctx : Byte) (slot : BitVec 16) (flag : List Byte), s.fld.capAsk = false → s.fld.capState = 1 →
    exec (.fieldCapture ctx slot flag) s = .next s) ∧
  (∀ (s : State) (ctx : Byte) (slot : BitVec 16) (flag : List Byte) (x : Context) (w : WinSlot), s.fld.capAsk = false →
    s.fld.capState ≠ 1 → s.ctx? (ctxOf ctx.toNat) = some x → x.slot? slot.toNat = some w →
    let asked : State := { s with fld := { s.fld with capCtx := ctx, capSlot := slot, capAsk := true } }
    (30 ≤ w.log2 → w.p2p = false → s.fld.testing = 0 → (s.fld.maint = true ∨ s.fld.frozen = true) →
      (s.mayRequest 0 = false → exec (.fieldCapture ctx slot flag) s = .next asked) ∧
      (s.mayRequest 0 = true → w.held.isSome = true → exec (.fieldCapture ctx slot flag) s = .next (({ s with fld := { s.fld with
        capCtx := ctx, capSlot := slot, capAsk := false, capState := 1, capRun := some (ctx, slot) } }).modSlot (ctxOf ctx.toNat)
          slot.toNat fun w => { w with busy := true })) ∧
      (s.mayRequest 0 = true → w.held = none → flagOwner flag = true →
        exec (.fieldCapture ctx slot flag) s = .next { (((s.modSlot (ctxOf ctx.toNat) slot.toNat fun w => { w with
            held := some (flagSeq flag), flagLen := flagLenOf flag, flagCrc := flagCrcOf flag }).tallyHost (ctxOf ctx.toNat) 16).modSlot
              (ctxOf ctx.toNat) slot.toNat fun w => { w with busy := true }) with
          fld := { s.fld with capCtx := ctx, capSlot := slot, capAsk := false, capState := 1, capRun := some (ctx, slot) } }) ∧
      (s.mayRequest 0 = true → w.held = none → flagOwner flag = false → exec (.fieldCapture ctx slot flag) s =
        .next { s with fld := { s.fld with capCtx := ctx, capSlot := slot, capAsk := false, capState := 3 } })) ∧
    (w.log2 < 30 ∨ w.p2p = true ∨ s.fld.testing ≠ 0 ∨ (s.fld.maint = false ∧ s.fld.frozen = false) →
      exec (.fieldCapture ctx slot flag) s =
        .next { s with fld := { s.fld with capCtx := ctx, capSlot := slot, capAsk := false, capState := 3 } })) ∧
  (∀ (s : State) (ctx : Byte) (slot : BitVec 16) (flag : List Byte), s.fld.capAsk = true →
    (s.mayRequest 0 = false → exec (.fieldCapture ctx slot flag) s = .next s) ∧
    (∀ ctx' slot', exec (.fieldCapture ctx slot flag) s = exec (.fieldCapture ctx' slot' flag) s)) ∧
  (∀ s : State, s.mayRequest 0 = false → exec .captureDone s = .next s) ∧
  (∀ (s : State) (c : CtxId) (n : Nat) (w : WinSlot), s.mayRequest 0 = true → s.captureSlot = some (c, n, w) →
    exec .captureDone s = .next { ((s.writeImage w.addr.toNat).handback c n 832049152 0) with
      fld := { ((s.writeImage w.addr.toNat).handback c n 832049152 0).fld with capState := 2, capRun := none } })

/-- Refresh, scrub, the port arbiter, the mask limit and page-ins of Seam. Rests on 04_seam_hoist.md R88, 04_seam_hoist.md R89, 04_seam_hoist.md R90, 04_seam_hoist.md R113, 04_seam_hoist.md R119, 04_seam_hoist.md R120. -/
def Obligations.SeamUpkeepAndArbitration : Prop :=
  (∀ (s : State) (d : DieId), exec (.seamRefresh d) s = .next { s with seam := { s.seam with refreshes := s.seam.refreshes + 1 } }) ∧
  (∀ (s : State) (hits : List SeamHit), (∀ h ∈ hits, 0 < h.symbols ∧ h.symbols ≤ if s.profile.seamEccActive then 2 else 1) →
    let ds : List DieId := hits.map fun h => Fin.ofNat 24 (h.page / 12288)
    exec (.seamScrub hits) s = .next { s with
    seam := { s.seam with dies := ds.foldl (fun v d => vmod v d fun e => { e with ceCount := satInc e.ceCount }) s.seam.dies }
    hlt := { s.hlt with deltas := { s.hlt.deltas with ce := ds.foldl (fun v d => vmod v d (· + 1)) s.hlt.deltas.ce } } }) ∧
  (∀ (s : State) (f n : Nat), s.ownerOf f = none → s.frames.has f = false → (if s.profile.seamEccActive then 2 else 1) < n →
    exec (.seamScrub [{ page := f, symbols := n }]) s = .next { s with
      seam := { s.seam with dies := vmod s.seam.dies (Fin.ofNat 24 (f / dieStride)) fun e => { e with ueCount := satInc e.ueCount } }
      hlt := { s.hlt with deltas := { s.hlt.deltas with ue := vmod s.hlt.deltas.ue (Fin.ofNat 24 (f / dieStride)) (· + 1) } }
      frames := s.frames.put f { use := .withheld, charge := none, lastUse := s.now, far := none } }) ∧
  (∀ (s : State) (f n : Nat) (c : CtxId) (vpn : Nat) (p : DWord), s.ownerOf f = some (c, vpn, p) →
    (if s.profile.seamEccActive then 2 else 1) < n →
    let g := fun q => if pteAt f q then pteMove q psPoisoned (locSeam f) else q
    exec (.seamScrub [{ page := f, symbols := n }]) s = .next (((({ s with
      seam := { s.seam with dies := vmod s.seam.dies (Fin.ofNat 24 (f / dieStride)) fun e => { e with ueCount := satInc e.ueCount } }
      hlt := { s.hlt with deltas := { s.hlt.deltas with ue := vmod s.hlt.deltas.ue (Fin.ofNat 24 (f / dieStride)) (· + 1) } }
      } : State).modCtx c fun x => x.mapPtes g).mapHeld g).raise 0x02 (Fin.ofNat 24 (f / dieStride) : DieId).val
        (leBytes 4 (c.val + pteHandle p * 2 ^ 16) ++ leBytes 4 vpn ++ leBytes 4 (f % dieStride)))) ∧
  (∀ (s : State) (d : DieId) (waiting : BitVec 5) (ns k : Nat) (byCounter : Bool), s.arbChoice d waiting = some (k, byCounter) →
    ∃ e : SeamDie, exec (.seamArbGrant d waiting ns) s = .next { s with seam := { s.seam with dies := vset s.seam.dies d e } } ∧
      e.starve = (if byCounter then (vget s.seam.dies d).starve + 1 else (vget s.seam.dies d).starve) ∧
      e.ceCount = (vget s.seam.dies d).ceCount ∧ e.ueCount = (vget s.seam.dies d).ueCount ∧
      (∀ i : Fin 5, vget e.waits i = (if i.val = k then 0
        else if waiting.getLsbD i.val && !s.classMasked i.val then vget (vget s.seam.dies d).waits i + 1
        else vget (vget s.seam.dies d).waits i)) ∧
      (∀ i : Fin 5, i.val ≠ k → vget e.waitObs i = vget (vget s.seam.dies d).waitObs i)) ∧
  (∀ (s : State) (d : DieId) (waiting : BitVec 5) (k : Nat), k < 5 → waiting.getLsbD k = true → s.classMasked k = false →
    (∀ j : Nat, j < k → waiting.getLsbD j = false) → (∀ j : Nat, j < 5 → s.classExpired d j = false) →
    s.arbChoice d waiting = some (k, false)) ∧
  (∀ (s : State) (d : DieId) (waiting : BitVec 5) (ns : Nat), waiting = 0 → exec (.seamArbGrant d waiting ns) s = .next s) ∧
  (∀ s : State, exec .maskMaxExpiry s = .next { s with seam := { s.seam with autoMask := maskSpent s.seam.autoMask } }) ∧
  (∀ (s : State) (c : CtxId) (vpn : Nat) (p : PageIn) (x : Context),
    s.hst.pageIns.find? (fun p => p.ctx == c && p.vpn == vpn) = some p → s.ctx? c = some x →
    (s.mayRequest x.fn = true → exec (.pageInDone c vpn) s = .next (s.finishPageIn p).settle) ∧
    (s.mayRequest x.fn = false → exec (.pageInDone c vpn) s = .next s) ∧
    (s.finishPageIn p).hst = { s.hst with
      pageins := s.hst.pageins + 1, pageIns := s.hst.pageIns.filter fun q => q.frame != p.frame })

/-- The requests of the Hoist: ALLOC, FREE, PLACE, LOAD, the far pool and SETFLAGS. Rests on 04_seam_hoist.md R97, 04_seam_hoist.md R98, 04_seam_hoist.md R100, 04_seam_hoist.md R101, 04_seam_hoist.md R102, 04_seam_hoist.md R112. -/
def Obligations.HoistRequestsPlaceAndCopy : Prop :=
  (∀ (s : State) (c : CtxId) (x : Context) (k : Cmd), s.ctx? c = some x → x.hoistOp 1 = some k → hreqReserved k.args = true →
    exec (.alloc c) s = .next (s.endWith c k.seq stBad 0)) ∧
  (∀ (s : State) (c : CtxId) (x : Context) (k : Cmd), s.ctx? c = some x → hreqReserved k.args = false →
    x.hoistNeedsHost (hreq k.args) = true → s.mayRequest x.fn = false →
    (x.hoistOp 1 = some k → exec (.alloc c) s = .next s) ∧ (x.hoistOp 3 = some k → exec (.place c []) s = .next s) ∧
    (x.hoistOp 6 = some k → exec (.farslotRelease c) s = .next s) ∧
    (∀ flag data fault, x.hoistOp 4 = some k → exec (.load c flag data fault) s = .next s) ∧
    (∀ flag, x.hoistOp 5 = some k → exec (.farslotAdd c flag) s = .next s)) ∧
  (∀ (s : State) (c : CtxId) (x : Context) (k : Cmd), s.ctx? c = some x → x.hoistOp 1 = some k → hreqReserved k.args = false →
    ((hreq k.args).place ≠ 3 ∨ s.mayRequest x.fn = true) → (hreq k.args).pages ≠ 0 → (hreq k.args).vpn + (hreq k.args).pages ≤ 2 ^ 27 →
    (∀ e ∈ x.pt, (hreq k.args).vpn ≤ e.1 → e.1 < (hreq k.args).vpn + (hreq k.args).pages → pteState e.2 = psUnmapped) →
    s.placeRefused (hreq k.args) = none → lowestFreeKey x.handles 0 < 65536 →
    (s.allocPages c (hreq k.args) (lowestFreeKey x.handles 0) (hreq k.args).pages 0 = none →
      exec (.alloc c) s = .next (s.endWith c k.seq stNoRoom 0)) ∧
    ((s.allocPages c (hreq k.args) (lowestFreeKey x.handles 0) (hreq k.args).pages 0).isSome = true → ∃ t,
      s.allocPages c (hreq k.args) (lowestFreeKey x.handles 0) (hreq k.args).pages 0 = some t ∧
    exec (.alloc c) s = .next (((t.modCtx c fun y => { y with handles := y.handles.put (lowestFreeKey x.handles 0) {
      vpn := (hreq k.args).vpn, pages := (hreq k.args).pages, freed := false, held := [] } }).modCmd c k.seq
        fun j => { j with handle := lowestFreeKey x.handles 0 }).endWith c k.seq stOk 0))) ∧
  (∀ (s : State) (c : CtxId) (x : Context) (k : Cmd) (h : Handle), s.ctx? c = some x → x.hoistOp 2 = some k → hreqReserved k.args = false →
    x.live (hreq k.args).handle = some h →
    exec (.freeHandle c) s = .next ((s.freeHandle c (hreq k.args).handle).endWith c k.seq stOk 0) ∧
    (h.freed = true → s.freeHandle c (hreq k.args).handle = s)) ∧
  (∀ (s : State) (c : CtxId) (x : Context) (k : Cmd) (h : Handle), s.ctx? c = some x → x.hoistOp 3 = some k → hreqReserved k.args = false →
    x.live (hreq k.args).handle = some h → s.placeRefused (hreq k.args) = none →
    (x.hoistNeedsHost (hreq k.args) = false ∨ s.mayRequest x.fn = true) →
    ((s.placePages c (hreq k.args) h.vpn (x.handlePages (hreq k.args).handle h).keys).isSome = true → ∃ t,
      s.placePages c (hreq k.args) h.vpn (x.handlePages (hreq k.args).handle h).keys = some t ∧
      exec (.place c []) s = .next (t.endWith c k.seq stOk 0)) ∧
    (s.placePages c (hreq k.args) h.vpn (x.handlePages (hreq k.args).handle h).keys = none →
      exec (.place c []) s = .next (s.endWith c k.seq stNoRoom 0))) ∧
  (∀ (s : State) (c : CtxId) (x : Context) (k : Cmd) (h : Handle) (w : WinSlot) (flag data : List Byte), s.mayRequest x.fn = true →
    s.ctx? c = some x → x.hoistOp 4 = some k → hreqReserved k.args = false → x.live (hreq k.args).handle = some h →
    x.slot? (hreq k.args).slot = some w → w.held.isSome = true → w.p2p = false → (hreq k.args).len ≠ 0 →
    (hreq k.args).dstOff + (hreq k.args).len ≤ h.pages * pageSize → (hreq k.args).slotOff + (hreq k.args).len ≤ w.size →
    (hreq k.args).check = false →
    (h.freed = true → exec (.load c flag data false) s = .next ((s.tallyHost c (hreq k.args).len).endWith c k.seq stOk 0)) ∧
    (h.freed = false →
      (∀ v ∈ pagesOf (h.vpn * pageSize + (hreq k.args).dstOff) (hreq k.args).len, pteState (x.pt.getD v 0) ≠ psPoisoned) →
      (s.writeCommittedAt c true (h.vpn * pageSize + (hreq k.args).dstOff)
        (slice data (hreq k.args).slotOff (hreq k.args).len)).isSome = true → ∃ t,
      s.writeCommittedAt c true (h.vpn * pageSize + (hreq k.args).dstOff) (slice data (hreq k.args).slotOff (hreq k.args).len) = some t ∧
      exec (.load c flag data false) s =
        .next ((((t.tallyHost c (hreq k.args).len).tallySeam c (hreq k.args).len).modCtx c fun y => y.dropStale
          (pagesOf (h.vpn * pageSize + (hreq k.args).dstOff) (hreq k.args).len).contains).endWith c k.seq stOk 0))) ∧
  (∀ (s : State) (c : CtxId) (x : Context) (k : Cmd) (w : WinSlot) (flag : List Byte),
    s.ctx? c = some x → x.hoistOp 5 = some k → hreqReserved k.args = false → x.slot? (hreq k.args).slot = some w →
    s.mayRequest x.fn = true → w.p2p = false → pageSize ≤ w.size → x.farPool.contains (hreq k.args).slot = false →
    (w.held.isSome = true → exec (.farslotAdd c flag) s = .next ((s.modCtx c fun y => { y with
      farPool := y.farPool.filter (fun p => p < (hreq k.args).slot) ++ (hreq k.args).slot ::
        y.farPool.filter fun p => (hreq k.args).slot < p }).endWith c k.seq stOk 0)) ∧
    (w.held = none → flagOwner flag = false → exec (.farslotAdd c flag) s = .next (s.endWith c k.seq stBad 0))) ∧
  (∀ (s : State) (c : CtxId) (x : Context) (k : Cmd), s.ctx? c = some x → x.hoistOp 6 = some k → hreqReserved k.args = false →
    x.farPool.contains (hreq k.args).slot = true → s.mayRequest x.fn = true →
    let s1 := (s.hst.pageIns.filter fun p => p.ctx == c && p.slot == (hreq k.args).slot).foldl
      (fun (s : State) p => s.finishPageIn p) s
    ∃ x1, s1.ctx? c = some x1 ∧
      (s1.farPageIn c x1 (hreq k.args).slot = false →
        exec (.farslotRelease c) s = .next ((((s1.dropCopies c (hreq k.args).slot).modCtx c fun y => { y with
          farPool := y.farPool.filter (· != (hreq k.args).slot) }).handback c (hreq k.args).slot 0 0).endWith c k.seq stOk 0)) ∧
      (s1.farPageIn c x1 (hreq k.args).slot = true → exec (.farslotRelease c) s = .next (s.endWith c k.seq stNoRoom 0))) ∧
  (∀ (s : State) (c : CtxId) (x : Context) (k : Cmd) (h : Handle), s.ctx? c = some x → x.hoistOp 7 = some k → hreqReserved k.args = false →
    x.live (hreq k.args).handle = some h →
    exec (.setflags c) s = .next ((s.modCtx c fun y => { y.dropStale (x.handlePages (hreq k.args).handle h).has with
      pt := y.pt.map fun e => if (x.handlePages (hreq k.args).handle h).has e.1 then
          (e.1, (e.2 &&& ~~~(0x30#64)) ||| BitVec.ofNat 64 (b2n (hreq k.args).ro * 16 + b2n (hreq k.args).pin * 32)) else e }).endWith c k.seq stOk 0)) ∧
  (∀ (s : State) (c : CtxId) (x : Context) (h : Nat) (e : Handle), s.ctx? c = some x → x.handles.get? h = some e → e.freed = true →
    x.handleInUse h = false → exec (.handleRelease c h) s = .next (s.releaseHandle c h)) ∧
  (∀ (s : State) (f : Nat) (e : Frame) (a : Nat),
    (f * pageSize ≤ a → a < f * pageSize + pageSize → (s.claim f e).mem.read a = 0) ∧
    (a < f * pageSize ∨ f * pageSize + pageSize ≤ a → (s.claim f e).mem.read a = s.mem.read a))

/-- Direct table writes, table reads, invalidation and evacuation. Rests on 04_seam_hoist.md R109, 04_seam_hoist.md R110, 04_seam_hoist.md R111, 04_seam_hoist.md R116. -/
def Obligations.TableWritesInvalidateEvacuate : Prop :=
  (∀ (s : State) (c : Byte) (x : Context), s.ctx? (ctxOf c.toNat) = some x →
    let new : DWord := s.hst.dtwHi ++ s.hst.dtwLo
    let old := x.pt.getD s.hst.dtwVpn.toNat 0
    let t := { s with hst := { s.hst with dtwCtx := c, dtwErr := false } }
    (pteState new < 6 → pteState new ≠ psTransit → pteState old ≠ psTransit → x.tables.has (s.hst.dtwVpn.toNat / 262144) = true →
      exec (.directTableWrite c) s = .next (t.modCtx (ctxOf c.toNat) fun y => { y with
        pt := if new = 0 then y.pt.del s.hst.dtwVpn.toNat else y.pt.put s.hst.dtwVpn.toNat new
        released := y.released.del s.hst.dtwVpn.toNat
        stale := noteStale y.stale s.hst.dtwVpn.toNat (y.pt.getD s.hst.dtwVpn.toNat 0) new })) ∧
    (x.tables.has (s.hst.dtwVpn.toNat / 262144) = false →
      exec (.directTableWrite c) s = .next { s with hst := { s.hst with dtwCtx := c, dtwErr := true } })) ∧
  (∀ (s : State) (c : Byte), s.ctx? (ctxOf c.toNat) = none →
    exec (.directTableWrite c) s = .next { s with hst := { s.hst with dtwCtx := c, dtwErr := true } }) ∧
  (∀ s : State, s.mbxIs 0x21 = true → s.mbx.fenced = false → s.rst.retired = false → s.rst.coreHeld = false →
    (∀ x, s.mbxArg 0 < 256 → s.mbxArg 1 < 2 ^ 27 → s.ctx? (ctxOf (s.mbxArg 0)) = some x →
      exec .tableRead s = .next (s.mbxEnd stOk (leBytes 4 0 ++ leBytes 8 (x.pt.getD (s.mbxArg 1) 0).toNat))) ∧
    (256 ≤ s.mbxArg 0 ∨ 2 ^ 27 ≤ s.mbxArg 1 ∨ s.ctx? (ctxOf (s.mbxArg 0)) = none →
      exec .tableRead s = .next (s.mbxEnd stOk (leBytes 4 8 ++ leBytes 8 0)))) ∧
  (∀ (s : State) (c : Byte) (all : Bool),
    (s.hst.invBusy = none → exec (.invalidate c all) s =
      .next { s with hst := { s.hst with invCtx := c, invAll := all, invBusy := some (all, c) } }) ∧
    (s.hst.invBusy ≠ none → exec (.invalidate c all) s = .next { s with hst := { s.hst with invCtx := c, invAll := all } })) ∧
  (∀ (s : State) (c : Byte),
    (s.hst.invBusy = some (true, c) → exec .invalidateDone s = .next { s with
      ctxs := s.ctxs.map fun (o : Option Context) => o.map fun (x : Context) => { x with stale := [] }
      hst := { s.hst with invBusy := none } }) ∧
    (s.hst.invBusy = some (false, c) → exec .invalidateDone s = .next { s with
      ctxs := vmod s.ctxs (ctxOf c.toNat) fun (o : Option Context) => o.map fun (x : Context) => { x with stale := [] }
      hst := { s.hst with invBusy := none } }) ∧
    (s.hst.invBusy = none → exec .invalidateDone s = .next s)) ∧
  (∀ (s : State) (q : BitVec 3), q.toNat < 6 → s.hst.evacBusy = false → (∀ f ∈ s.frames.keys, f / dieStride / 4 ≠ q.toNat) →
    exec (.evacuate q []) s =
      .next { s with hst := { s.hst with evacQuad := q, evacBusy := true, evacState := 1, evacFull := false } }) ∧
  (∀ (s : State) (q : BitVec 3) (hits : List SeamHit), q.toNat < 6 → s.hst.evacBusy = false →
    let s0 : State := { s with hst := { s.hst with evacQuad := q, evacBusy := true, evacState := 1, evacFull := false } }
    exec (.evacuate q hits) s = .next ((s0.quadFrames q.toNat).foldl (fun s f => s.evacuatePage q.toNat f)
      (s0.hoistErrs (s0.quadFrames q.toNat) (s.seamErrs hits)))) ∧
  (∀ (s : State) (q f d g : Nat) (e : Frame), s.hst.evacFull = false → s.frames.get? f = some e → e.use ≠ .withheld →
    s.poisonedAt f = none → s.anyDieBut q = some d → s.freeFrame d = some g → s.evacuatePage q f = s.moveFrame f g) ∧
  (∀ (s : State) (q : BitVec 3) (hits : List SeamHit), s.hst.evacBusy = true ∨ 6 ≤ q.toNat → exec (.evacuate q hits) s = .next s) ∧
  (∀ s : State, s.hst.evacBusy = true →
    (s.hst.evacFull = true → exec .evacuationDone s = .next { s with hst := { s.hst with evacBusy := false, evacState := 3 } }) ∧
    (s.hst.evacFull = false → s.quadFrames s.hst.evacQuad.toNat = [] →
      exec .evacuationDone s = .next { s with hst := { s.hst with evacBusy := false, evacState := 2 } }))

/-- CTX_CREATE makes the lowest free context; CTX_DESTROY and function level resets end contexts. Rests on 05_commands.md R127, 05_commands.md R128, 05_commands.md R129, 12_host_attachment.md R316. -/
def Obligations.ContextsCreatedAndDestroyed : Prop :=
  (∀ s : State, s.mbxIs 0x30 = true → s.mbx.fenced = false → s.rst.retired = false → s.rst.coreHeld = false →
    (s.createBad s.mbxBytes = true → exec .ctxCreate s = .next (s.mbxEnd stOk [8, 0, 0, 0])) ∧
    (s.createBad s.mbxBytes = false → (256 ≤ s.ctxCount ∨ 32 ≤ s.ctxCountFn (Fin.ofNat 64 (bits (fieldAt s.mbxBytes 0 4) 5 0))) →
      exec .ctxCreate s = .next (s.mbxEnd stOk [4, 0, 0, 0])) ∧
    (∀ (fn : FnId) (c : CtxId) (slot : Fin 32), s.createBad s.mbxBytes = false → fn = Fin.ofNat 64 (bits (fieldAt s.mbxBytes 0 4) 5 0) →
      s.ctxCount < 256 → s.ctxCountFn fn < 32 → s.freeCtxNumber = some c → s.freeSlotOf fn = some slot →
      exec .ctxCreate s = .next (({ ((s.setCtx c (s.newContext s.mbxBytes fn slot)).irqForCtx c fn slot) with
        svc := { s.svc with drained := false } }).mbxEnd stOk (leBytes 4 (c.val * 2 ^ 8 + slot.val * 2 ^ 16))))) ∧
  (∀ (s : State) (c : CtxId), s.freeCtxNumber = some c → s.ctx? c = none ∧ ∀ d : CtxId, d < c → s.ctx? d ≠ none) ∧
  (∀ s : State, s.mbxIs 0x31 = true → s.mbx.fenced = false → s.rst.retired = false → s.rst.coreHeld = false →
    (256 ≤ s.mbxArg 0 ∨ s.ctx? (ctxOf (s.mbxArg 0)) = none → exec .ctxDestroy s = .next (s.mbxEnd stOk [8, 0, 0, 0])) ∧
    (∀ c : CtxId, s.mbxArg 0 = c.val → s.ctx? c ≠ none → ∃ x, (s.destroyBegin c).ctx? c = some x ∧
      (x.cmds = [] → (s.destroyBegin c).handbackWaits x = false →
        exec .ctxDestroy s = .next (((s.destroyBegin c).destroyEnd c x).mbxEnd stOk [0, 0, 0, 0])) ∧
      (x.cmds ≠ [] ∨ (s.destroyBegin c).handbackWaits x = true → exec .ctxDestroy s = .next (s.destroyBegin c)))) ∧
  (∀ (s : State) (c : CtxId) (x : Context), s.ctx? c = some x → x.cmds = [] → s.snapsOf c = [] → s.groupsOf c = [] →
    s.destroyBegin c = (s.modCtx c fun x => { x with destroying := true, cmds := [] }).settle) ∧
  (∀ (s : State) (c : CtxId) (x : Context), (s.destroyEnd c x).ctx? c = none) ∧
  (∀ (s : State) (vf : FnId), vf ≠ 0 → (vget s.fns vf).enabled = true → (∀ e ∈ s.contexts, e.2.fn ≠ vf) →
    exec (.vfFlr vf) s = .next ({ s with fns := vset s.fns vf { funcReset with enabled := true } }).settle) ∧
  (∀ (s : State) (vf : FnId), vf ≠ 0 → (vget s.fns vf).enabled = true → ∃ t, exec (.vfFlr vf) s = .next t ∧
    (∀ e ∈ t.contexts, e.2.fn ≠ vf) ∧ vget t.fns vf = { funcReset with enabled := true } ∧
    (∀ fn, fn ≠ vf → vget t.fns fn = vget s.fns fn)) ∧
  (∀ (s : State) (vf : FnId), vf = 0 ∨ (vget s.fns vf).enabled = false → exec (.vfFlr vf) s = .next s) ∧
  (∀ s : State, ∃ t, exec .pf0Flr s = .next t ∧ t.mbx.busy = false ∧ (∀ r : RingId, (vget t.evr r).en = false) ∧ t.fns = fnsReset ∧
    t.contexts = [])

/-- Doorbells, ring heads, STOP, and the fetch of command descriptors. Rests on 05_commands.md R131, 05_commands.md R132, 05_commands.md R133, 05_commands.md R134, 05_commands.md R135, 05_commands.md R140. -/
def Obligations.RingsFetchAndStop : Prop :=
  (∀ (s : State) (fn : FnId) (slot : Fin 32) (v : Word),
    (s.ctxAt fn slot = none → exec (.sqDb fn slot v) s = .next { s with hub := { s.hub with regViol := satInc s.hub.regViol } }) ∧
    (∀ c x, s.ctxAt fn slot = some (c, x) → (v - x.sqHead).toNat ≤ 2 ^ x.sqLog → (v - x.sqTail).toNat ≤ 2 ^ x.sqLog →
      exec (.sqDb fn slot v) s = .next (s.modCtx c fun x => { x with sqTail := v })) ∧
    (∀ c x, s.ctxAt fn slot = some (c, x) → (2 ^ x.sqLog < (v - x.sqHead).toNat ∨ 2 ^ x.sqLog < (v - x.sqTail).toNat) →
      exec (.sqDb fn slot v) s = .next { (s.modCtx c fun x => { x with dbBad := satInc x.dbBad }) with
        cfe := { s.cfe with dbBad := satInc s.cfe.dbBad } })) ∧
  (∀ (s : State) (c : CtxId) (x : Context) (h : Word), s.ctx? c = some x →
    ((x.cqTail - h).toNat ≤ (x.cqTail - x.cqHead).toNat → exec (.cqHeadWrite c h) s =
      .next (s.modCtx c fun y => { y with cqHead := h, cqIrqs := unconsumed y.cqIrqs h y.cqTail })) ∧
    ((x.cqTail - x.cqHead).toNat < (x.cqTail - h).toNat → exec (.cqHeadWrite c h) s = .next (s.dbBad c)) ∧
    (∀ on, exec (.stopFetch c on) s = .next (s.modCtx c fun y => { y with stop := on || y.fenced }))) ∧
  (∀ (s : State) (c : CtxId), s.ctx? c = none → ∀ (h : Word) (on : Bool),
    exec (.cqHeadWrite c h) s = .next { s with hub := { s.hub with regViol := satInc s.hub.regViol } } ∧
    exec (.stopFetch c on) s = .next { s with hub := { s.hub with regViol := satInc s.hub.regViol } }) ∧
  (∀ (s : State) (c : CtxId) (x : Context) (desc : List Byte), s.ctx? c = some x → desc.length = 128 →
    let k := { cmdReset with seq := x.sqHead, stamp := s.cfe.stamp, desc := desc, endIdx := noOp }
    let t := fun (j : Cmd) => (({ (s.modCtx c fun y => { y with sqHead := y.sqHead + 1, cmds := y.cmds ++ [j] }) with
      cfe := { s.cfe with stamp := s.cfe.stamp + 1 } }).tallyHost c 128).settle
    (s.mayFetch x = true → descriptorBad k = false → exec (.commandFetch c desc) s = .next (t k) ∧
      (isStepDesc desc = true → exec (.stepFetch c desc) s = .next (t k))) ∧
    (s.mayFetch x = true → descriptorBad k = true → exec (.commandFetch c desc) s = .next (t { k with bad := true, ending := some stBad })) ∧
    (s.mayFetch x = false → exec (.commandFetch c desc) s = .next s) ∧
    (isStepDesc desc = false → exec (.stepFetch c desc) s = .next s))

/-- Dispatch, MARKER, kills, the end of a command and its record, and the command Canaries. Rests on 05_commands.md R139, 05_commands.md R140, 05_commands.md R143, 05_commands.md R146, 05_commands.md R148, 05_commands.md R149, 05_commands.md R152, 06_scheduling_streams.md R163. -/
def Obligations.CommandsDispatchAndEnd : Prop :=
  (∀ (s : State) (c : CtxId) (x : Context) (k : Cmd), s.ctx? c = some x → x.nextCmd = some k → s.dispatchable x k = true →
    k.stalled = [] → s.fld.maint = false → s.rst.coreHeld = false → k.usesField = false → s.listWaits x k = false →
    ∀ hits, let t := s.modCmd c k.seq fun j =>
      { j with phase := .running, versions := x.pt, touched := [], opIdx := 0, endIdx := noOp }
    exec (.commandDispatch c hits) s = .next (if k.hoistUnknown then t.endWith c k.seq stBad 0 else t).settle) ∧
  (∀ (s : State) (c : CtxId) (x : Context) (k : Cmd) (r3 : Bool), s.ctx? c = some x → x.nextCmd = some k → s.dispatchable x k = true →
    k.stalled = [] → s.fld.maint = false → s.rst.coreHeld = false → k.isField = true → k.footCount = 0 → s.choice = some (c, k, r3) →
    (s.dispatchChecks c x k = none → s.seamRoom x.fn 0 = true → exec (.commandDispatch c []) s =
      .next (((s.modCmd c k.seq fun j => { j with touched := [] }).startRun c k [] r3).settle)) ∧
    (∀ st, s.dispatchChecks c x k = some st → exec (.commandDispatch c []) s = .next (s.endWith c k.seq st noOp).settle)) ∧
  (∀ (s : State) (c : CtxId) (hits : List SeamHit), (s.fld.maint = true ∨ s.rst.coreHeld = true) →
    exec (.commandDispatch c hits) s = .next s) ∧
  (∀ (s : State) (c : CtxId) (x : Context) (k : Cmd), s.ctx? c = some x →
    x.cmds.find? (fun k => k.isMarker && k.phase == .running && k.ending.isNone) = some k →
    exec (.marker c) s = .next (s.endWith c k.seq stOk 0)) ∧
  (∀ (s : State) (c : CtxId) (x : Context), s.ctx? c = some x →
    exec (.killOne c) s = .next (s.requestKill c x.killSeq .software).settle ∧
    exec (.killAll c) s = .next (x.cmds.foldl (fun s k => s.requestKill c k.seq .software) s).settle) ∧
  (∀ (s : State) (c : CtxId) (seq : Word), s.requestKill c seq .software = s.modCmd c seq fun k =>
    if k.usesField = true ∧ k.ending = none ∧ k.killing.all (·.isDeadline) = true then { k with killing := some .software } else k) ∧
  (∀ (x : Context) (k : Cmd), x.nextCmd = some k → k.phase = .fetched ∧ k.ending = none ∧ k.killing = none) ∧
  (∀ (s : State) (c : CtxId) (seq : Word) (k : Cmd) (why : KillCause), s.cmd? c seq = some k → k.killing = some why →
    exec (.killComplete c seq) s = .next (if ((s.killDone c k why).cmd? c seq).any (·.finished) then (s.killDone c k why).recordDue c seq
      else s.killDone c k why).settle) ∧
  (∀ (s : State) (c : CtxId) (seq : Word) (k : Cmd) (st : Byte), s.cmd? c seq = some k → k.ending = some st →
    (k.finished = false → exec (.commandEnd c seq) s = .next ((s.conclude c k st).recordDue c seq).settle) ∧
    (k.finished = true → exec (.commandEnd c seq) s = .next (s.flushRecords c).settle)) ∧
  (∀ (s : State) (c : CtxId) (seq : Word) (x : Context), s.ctx? c = some x → x.ends = [] →
    s.recordDue c seq = (s.modCtx c fun y => { y with ends := [seq] }).writeRecord c seq) ∧
  (∀ (s : State) (c : CtxId) (seq : Word) (x : Context) (k : Cmd), s.ctx? c = some x → x.cmd? seq = some k →
    (s.mayRequest x.fn = false → s.writeRecord c seq = s) ∧
    (s.mayRequest x.fn = true → s.writeRecord c seq =
      (let t := ((s.hostWrite (x.cqBase.toNat + 32 * (x.cqTail.toNat % 2 ^ x.cqLog))
        (recordBytes k (k.ending.getD stOk) (phaseOf x.cqTail (2 ^ x.cqLog)) s.ht)).modCtx c fun y => { y with
          cqTail := y.cqTail + 1, cmds := y.cmds.filter fun j => j.seq != seq
          cqIrqs := if k.irq then y.cqIrqs ++ [y.cqTail] else y.cqIrqs, ends := y.ends.filter (· != seq)
          tally := { y.tally with jobs := y.tally.jobs + 1 } }).tallyHost c 32
      (if k.irq then t.irqEvent c.val else t).gcReplaced))) ∧
  (∀ (s : State) (c : CtxId) (seq : Word) (x : Context) (k : Cmd), s.ctx? c = some x → x.cmd? seq = some k →
    k.phase = .parked → k.ending = none → k.killing = none → x.tagDone k.tag = none →
    exec (.waitLimitExpiry c seq) s = .next ((s.endWith c seq stTimeout k.opNumber).raise 0x20 1 (leBytes 4 c.val))) ∧
  (∀ (s : State) (c : CtxId) (x : Context) (k : Cmd), s.holder? = some (c, x, k) → k.ending = none → k.killing = none →
    exec .runLimitExpiry s = .next ((s.endWith c k.seq stTimeout k.stopIdx).raise 0x20 2 (leBytes 4 c.val))) ∧
  (∀ s : State, exec .tenureExpiry s = .next { s with sch := { s.sch with
    tenure := s.sch.tenure.filter fun t => t.charged < max 1 s.sch.tenureUs.toNat * 1000 } })

/-- ADMIT, RELEASE and MODEL_SET decide by their tables and take effect all at once. Rests on 06_scheduling_streams.md R165, 06_scheduling_streams.md R166, 06_scheduling_streams.md R167, 06_scheduling_streams.md R171, 06_scheduling_streams.md R172. -/
def Obligations.ServingTablesChangeWhole : Prop :=
  (∀ (s : State) (c : CtxId) (x : Context) (k : Cmd), s.ctx? c = some x → x.tableOp 2 = some k →
    let model := bits (k.word 0x40) 15 8
    let num := bits (k.word 0x50) 15 0
    let den := bits (k.word 0x50) 31 16
    let bad := admitReserved k false = true ∨ num = 0 ∨ den = 0 ∨ s.model? c model = none ∨
      ∃ e ∈ s.stb.entries, e.2.ctx = c ∧ e.2.model.toNat = model ∧ e.2.row.toNat = k.word 0x44 % 2 ^ 32
    let full := 32768 ≤ s.stb.entries.length ∨ min 32768 (vget s.stb.quota x.fn).toNat ≤ s.entriesOfFn x.fn
    (bad → exec (.admitStream c) s = .next (s.endWith c k.seq stBad 0)) ∧
    (¬ bad → full → exec (.admitStream c) s =
      .next ({ s with stb := { s.stb with noRoom := satInc s.stb.noRoom } }.endWith c k.seq stNoRoom 0)) ∧
    (¬ bad → ¬ full → exec (.admitStream c) s = .next ({ s with stb := { s.stb with
      entries := s.stb.entries.put (lowestFreeKey s.stb.entries 0)
        { model := BitVec.ofNat 8 model, ctx := c, row := BitVec.ofNat 32 (k.word 0x44), t0 := BitVec.ofNat 64 (fieldAt k.desc 0x48 8)
          rateNum := BitVec.ofNat 16 num, rateDen := BitVec.ofNat 16 den, frame := BitVec.ofNat 32 (k.word 0x54)
          served := 0, missed := 0, late := 0, userTag := BitVec.ofNat 64 (fieldAt k.desc 0x58 8), lastHt := 0 : Stream } } }.endWith c k.seq stOk 0))) ∧
  (∀ (s : State) (c : CtxId) (x : Context) (k : Cmd), s.ctx? c = some x → x.tableOp 3 = some k →
    let mine := fun (e : Nat × Stream) => e.2.model.toNat == bits (k.word 0x40) 15 8 && e.2.row == BitVec.ofNat 32 (k.word 0x44)
    ((s.entriesOf c).find? mine = none ∨ admitReserved k true = true → exec (.releaseStream c) s = .next (s.endWith c k.seq stBad 0)) ∧
    (∀ i e, (s.entriesOf c).find? mine = some (i, e) → admitReserved k true = false →
      exec (.releaseStream c) s = .next ({ s with stb := { s.stb with entries := s.stb.entries.del i } }.endWith c k.seq stOk 0))) ∧
  (∀ (s : State) (c : CtxId) (x : Context) (k : Cmd), s.ctx? c = some x → x.tableOp 4 = some k →
    let number := bits (k.word 0x40) 15 8
    let others := s.stb.models.filter fun m => !(m.ctx == c && m.number == number)
    let plain := bits (k.word 0x40) 31 19 = 0 ∧ (∀ b ∈ k.args.drop 0x24, b = 0)
    let zeros := bits (k.word 0x40) 18 17 = 0 ∧ k.word 0x44 = 0 ∧ fieldAt k.desc 0x48 8 = 0 ∧ fieldAt k.desc 0x50 8 = 0 ∧
      fieldAt k.desc 0x58 8 = 0 ∧ k.word 0x60 = 0
    let formed := bits (k.word 0x40) 18 17 ≠ 3 ∧ bits (k.word 0x44) 15 0 ≠ 0 ∧ bits (k.word 0x44) 31 29 = 0 ∧
      1 ≤ bits (k.word 0x44) 28 16 ∧ bits (k.word 0x44) 28 16 ≤ 4096 ∧
      fieldAt k.desc 0x48 8 < 2 ^ 48 ∧ fieldAt k.desc 0x48 8 % 128 = 0 ∧ fieldAt k.desc 0x50 8 < 2 ^ 48 ∧ fieldAt k.desc 0x50 8 % 4 = 0 ∧
      fieldAt k.desc 0x58 8 < 2 ^ 48 ∧ fieldAt k.desc 0x58 8 % 4096 = 0 ∧ k.word 0x60 ≤ 2048
    (¬ plain → exec (.modelSet c) s = .next (s.endWith c k.seq stBad 0)) ∧
    (plain → bit (k.word 0x40) 16 = true → zeros → (s.model? c number).isSome = true → (∀ e ∈ s.entriesOf c, e.2.model.toNat ≠ number) →
      exec (.modelSet c) s = .next ({ s with stb := { s.stb with models := others } }.endWith c k.seq stOk 0)) ∧
    (plain → bit (k.word 0x40) 16 = true → (¬ zeros ∨ s.model? c number = none ∨ ∃ e ∈ s.entriesOf c, e.2.model.toNat = number) →
      exec (.modelSet c) s = .next (s.endWith c k.seq stBad 0)) ∧
    (plain → bit (k.word 0x40) 16 = false → ¬ formed → exec (.modelSet c) s = .next (s.endWith c k.seq stBad 0)) ∧
    (plain → bit (k.word 0x40) 16 = false → formed → s.model? c number = none → 256 ≤ s.stb.models.length →
      exec (.modelSet c) s = .next ({ s with stb := { s.stb with noRoom := satInc s.stb.noRoom } }.endWith c k.seq stNoRoom 0)) ∧
    (plain → bit (k.word 0x40) 16 = false → formed → (s.model? c number ≠ none ∨ s.stb.models.length < 256) →
      exec (.modelSet c) s = .next ({ s with stb := { s.stb with models := others ++ [
        { ctx := c, number := number, mwidth := BitVec.ofNat 2 (bits (k.word 0x40) 18 17), opcount := bits (k.word 0x44) 15 0
          batch := bits (k.word 0x44) 28 16, oplist := fieldAt k.desc 0x48 8, index := fieldAt k.desc 0x50 8
          img := fieldAt k.desc 0x58 8, imgPages := k.word 0x60 : Model }] } }.endWith c k.seq stOk 0))) ∧
  (∀ (s : State) (c : CtxId),
    ((∀ x, s.ctx? c = some x → x.tableOp 2 = none) → exec (.admitStream c) s = .next s) ∧
    ((∀ x, s.ctx? c = some x → x.tableOp 3 = none) → exec (.releaseStream c) s = .next s) ∧
    ((∀ x, s.ctx? c = some x → x.tableOp 4 = none) → exec (.modelSet c) s = .next s))

/-- A serving step becomes ready, gets its work list and kill point, runs its invocations and kills for its deadline. Rests on 06_scheduling_streams.md R163, 06_scheduling_streams.md R173, 06_scheduling_streams.md R174, 06_scheduling_streams.md R175, 06_scheduling_streams.md R176, 06_scheduling_streams.md R178, 04_seam_hoist.md R120, 13_reset_health.md Table 13.14. -/
def Obligations.ServingStepsBuiltInvokedKilledFor : Prop :=
  (∀ (s : State) (x : Context) (k : Cmd), k.isStep = true → k.phase = .fetched → k.ending = none → k.killing = none →
    s.stepReady x k = true → k.step.any (fun (r : StepRun) => r.built) = false →
    (x.cmds = [k] ∨ x.nextCmd = some k → s.unbuiltStep x = some k) ∧ (k ∈ x.cmds → (s.unbuiltStep x).isSome = true)) ∧
  (∀ (s : State) (c : CtxId) (x : Context) (k : Cmd), s.ctx? c = some x → s.unbuiltStep x = some k →
    exec (.stepReady c) s = .next { s with
      sch := { s.sch with tenure := none }
      seam := { s.seam with autoMask := if s.seam.autoMask.any (fun e => e.1 == c && e.2.1 == k.seq) then s.seam.autoMask
        else s.seam.autoMask ++ [(c, k.seq, true)] } }.settle ∧
    exec (.workListBuild c) s = .next (s.modCmd c k.seq fun j => { j with step := some (s.buildList c k) }).settle) ∧
  (∀ (s : State) (c : CtxId) (k : Cmd),
    let r := s.buildList c k
    r.built = true ∧ r.estNs = k.estBase + r.invs.length * k.estInv ∧
      r.killAt = (k.htStart : Int) + k.lenNs - r.estNs - 20000 ∧ r.served.length ≤ k.maxStreams ∧
      r.served = r.invs.flatMap (·.2) ∧
      ∀ v ∈ r.served, ∃ e, (v.entry, e) ∈ s.stb.entries ∧ e.ctx = c ∧ v.row = e.row ∧ v.model = e.model.toNat) ∧
  (∀ (s : State) (c : CtxId) (x : Context), s.ctx? c = some x → s.unbuiltStep x = none →
    exec (.stepReady c) s = .next s.settle ∧ exec (.workListBuild c) s = .next s.settle) ∧
  (∀ (s : State) (c : CtxId) (x : Context) (k : Cmd) (r : StepRun), s.ctx? c = some x → k.step = some r →
    x.cmds.find? (fun k => k.isStep && k.phase == .fetched && k.ending.isNone && k.killing.isNone && k.step.any (·.built)) = some k →
    let t := s.passToHt r.killAt.toNat
    (∀ d y j, t.holder? = some (d, y, j) → j.isStep = false → (j.killable = true ∨ y.nokillOk = false) →
      exec (.deadlineKill c) s = .next (t.modCmd d j.seq fun (j : Cmd) =>
        if j.usesField = true ∧ j.ending = none ∧ j.killing = none ∧ j.dispatched = true then { j with killing := some (.deadline c) } else j)) ∧
    (∀ d y j, t.holder? = some (d, y, j) → (j.isStep = true ∨ (j.killable = false ∧ y.nokillOk = true)) → exec (.deadlineKill c) s = .next t) ∧
    (t.holder? = none → exec (.deadlineKill c) s = .next t)) ∧
  (∀ (s : State) (c : CtxId) (x : Context) (k : Cmd) (r : StepRun), s.ctx? c = some x →
    x.cmds.find? (fun k => k.isStep && k.canRun) = some k → x.cmd? k.seq = some k → k.step = some r → r.current = none →
    (∀ m sv rest mo, r.invs = (m, sv) :: rest → s.holds c k.seq = true → s.model? c m = some mo →
      let bs := indexVector mo.batch sv
      let reads := (mo.index, bs.length) :: imageReads x k s.freeCtr mo
      let begun := fun (s2 : State) => exec (.stepInvocation c) s =
        .next ((s2.loadImage c ((s2.cmd? c k.seq).getD k) mo).modCmd c k.seq fun k => { k with
          opIdx := 0, prevOp := [], passedWait := false, step := some { r with invs := rest, current := some m } })
      (∀ s1 s2, s.gate c k.seq reads { ue := [], ce := [] } = .go s1 → s1.cmdWrite c k.seq [(mo.index, bs)] = some s2 → begun s2) ∧
      (Accessible s x k { ue := [], ce := [] } reads → Shadowed s x k [(mo.index, bs.length)] → ∃ s1 s2,
        s.gate c k.seq reads { ue := [], ce := [] } = .go s1 ∧ s1.cmdWrite c k.seq [(mo.index, bs)] = some s2 ∧ begun s2)) ∧
    (r.invs = [] →
      let report := [(k.reportVa, (stepReport r).length)]
      let ended := fun (s2 : State) => exec (.stepInvocation c) s = .next (s2.endWith c k.seq k.goodStatus r.opsTotal)
      (∀ s1 s2, s.gate c k.seq report { ue := [], ce := [] } = .go s1 → s1.cmdWrite c k.seq [(k.reportVa, stepReport r)] = some s2 →
        ended s2) ∧
      (Accessible s x k { ue := [], ce := [] } report → Shadowed s x k report → ∃ s1 s2,
        s.gate c k.seq report { ue := [], ce := [] } = .go s1 ∧ s1.cmdWrite c k.seq [(k.reportVa, stepReport r)] = some s2 ∧
        ended s2))) ∧
  (∀ (s : State) (c : CtxId) (x y : Context) (k : Cmd), s.ctx? c = some x → s.holder? = some (c, y, k) → k.isStep = true →
    k.ending = none → k.killing = none →
    (x.stepMax ≠ 0 ∨ s.rst.badParity.contains (offStepMax c) = true →
      exec (.stepMaxExpiry c) s = .next ((s.endWith c k.seq stTimeout k.stopIdx).raise 0x20 3 (leBytes 4 c.val))) ∧
    (x.stepMax = 0 → s.rst.badParity.contains (offStepMax c) = false → exec (.stepMaxExpiry c) s = .next s))

/-- The kill budget returns to 0, energy is divided by holding time, Tally events and the reads of the Scheduler. Rests on 06_scheduling_streams.md R169, 06_scheduling_streams.md R179, 06_scheduling_streams.md R184, 06_scheduling_streams.md R185, 06_scheduling_streams.md R189. -/
def Obligations.BudgetsAndTally : Prop :=
  (∀ s : State, s.tkp.ht / 16 % (max 1 s.sch.budgetWin.toNat * 1000000) = 0 →
    exec .budgetWindowReset s = .next (s.mapCtxs fun x => { x with killUsed := 0 }).settle) ∧
  (∀ s : State, ∃ t : State, exec .budgetWindowReset s = .next t.settle ∧ (∀ c x, t.ctx? c = some x → x.killUsed = 0) ∧
    (∀ c, (t.ctx? c).isSome = (s.ctx? c).isSome) ∧ t.host = s.host ∧ t.mem = s.mem ∧ t.stb = s.stb) ∧
  (∀ (s : State) (nj : Nat), s.tkp.ht / 16 % 10000 = 0 → s.sch.holder = none → s.sch.intervalNs = [] →
    exec (.tallyInterval nj) s = .next { s with sch := { s.sch with
      tallyC2Eff := s.sch.tallyC2
      unattrib := if s.sch.tallyC2Eff then s.sch.unattrib + BitVec.ofNat 32 ((s.sch.unattribRem + nj * 10000) / 10000000000) else s.sch.unattrib
      unattribRem := if s.sch.tallyC2Eff then (s.sch.unattribRem + nj * 10000) % 10000000000 else s.sch.unattribRem } }) ∧
  (∀ (s : State) (nj : Nat) (c : CtxId) (x : Context) (n : Nat), s.tkp.ht / 16 % 10000 = 0 → s.sch.holder = none →
    s.sch.tallyC2Eff = true → s.ctx? c = some x → s.sch.intervalNs = [(c.val, n)] → n ≤ 10000 →
    ∃ t, exec (.tallyInterval nj) s = .next t ∧ t.sch.intervalNs = [] ∧
      t.ctxs = (s.modCtx c fun y => { y with tally := { y.tally with
        energyMj := y.tally.energyMj + BitVec.ofNat 64 ((y.tally.energyRem + nj * n) / 10000000000)
        energyRem := (y.tally.energyRem + nj * n) % 10000000000 } }).ctxs ∧
      t.sch.unattrib = s.sch.unattrib + BitVec.ofNat 32 ((s.sch.unattribRem + nj * (10000 - n)) / 10000000000)) ∧
  (∀ s : State, (s.sch.tallyPeriod = 0 → exec .tallyPeriod s = .next s) ∧
    (∀ c x, s.sch.tallyPeriod ≠ 0 → s.contexts = [(c, x)] → s.ctx? c = some x → exec .tallyPeriod s = .next (s.raise 0x81 c.val x.tally.bytes))) ∧
  (∀ s : State, s.mbxIs 0x40 = true → s.mbx.fenced = false → s.rst.retired = false → s.rst.coreHeld = false →
    (256 ≤ s.mbxArg 0 → exec .vtimeRead s = .next (s.mbxEnd stBad [])) ∧
    (∀ x, s.mbxArg 0 < 256 → s.ctx? (ctxOf (s.mbxArg 0)) = some x →
      exec .vtimeRead s = .next (s.mbxEnd stOk (leBytes 8 x.vt.toNat ++ leBytes 2 x.rem))) ∧
    (s.mbxArg 0 < 256 → s.ctx? (ctxOf (s.mbxArg 0)) = none → exec .vtimeRead s = .next (s.mbxEnd stOk (List.replicate 10 0)))) ∧
  (∀ s : State, s.mbxIs 0x41 = true → s.mbx.fenced = false → s.rst.retired = false → s.rst.coreHeld = false →
    (256 ≤ s.mbxArg 0 → exec .tallyRead s = .next (s.mbxEnd stBad [])) ∧
    (∀ x, s.mbxArg 0 < 256 → s.ctx? (ctxOf (s.mbxArg 0)) = some x →
      exec .tallyRead s = .next (s.mbxEnd stOk (leBytes 8 x.tally.jobs.toNat ++ leBytes 8 x.tally.fieldNs.toNat ++
        leBytes 8 x.tally.seamBytes.toNat ++ leBytes 8 x.tally.hostBytes.toNat ++ leBytes 8 x.tally.fabricBytes.toNat ++ leBytes 8 x.tally.energyMj.toNat))) ∧
    (s.mbxArg 0 < 256 → s.ctx? (ctxOf (s.mbxArg 0)) = none → exec .tallyRead s = .next (s.mbxEnd stOk (List.replicate 48 0)))) ∧
  (∀ s : State, s.mbxIs 0x42 = true → s.mbx.fenced = false → s.rst.retired = false → s.rst.coreHeld = false →
    let w := s.mbxArg 0
    (bit w 15 = true ∨ 2 ^ 17 ≤ w → exec .stbRead s = .next (s.mbxEnd stBad [])) ∧
    (∀ e, bit w 15 = false → w < 2 ^ 17 → bit w 16 = false → s.stb.entries.get? (w % 32768) = some e →
      exec .stbRead s = .next (s.mbxEnd stOk e.bytes)) ∧
    (bit w 15 = false → w < 2 ^ 17 → (bit w 16 = true ∨ s.stb.entries.get? (w % 32768) = none) →
      exec .stbRead s = .next (s.mbxEnd stOk (List.replicate 64 0))))

/-- OPT_OPEN opens a step of a unit; tensors are tracked, their histories and the noise averages read and written. Rests on 07_training.md R197, 07_training.md R198, 07_training.md R200, 07_training.md R201, 07_training.md R217. -/
def Obligations.StepsOpenedAndTensorsTracked : Prop :=
  (∀ (s : State) (u : UnitId), s.opt.openBusy = true → exec (.openStep u) s = .next s) ∧
  (∀ (s : State) (u : UnitId), s.opt.openBusy = false →
    ((vget s.opt.units u).valid = false ∨ s.ctx? (ctxOf (vget s.opt.units u).ctx.toNat) = none ∨ 4096 < s.opt.pcount.toNat ∨
      s.opt.pvaLo.toNat % 16 ≠ 0 ∨
      (∃ x, s.ctx? (ctxOf (vget s.opt.units u).ctx.toNat) = some x ∧ ∃ b ∈ s.patchList x, s.patchBad u b = true)) →
    exec (.openStep u) s = .next { s with opt := { s.opt with
      openTu := BitVec.ofNat 6 u.val, openNow := BitVec.ofNat 6 u.val, openErr := true } }) ∧
  (∀ (s : State) (u : UnitId) (x : Context),
    let unit := vget s.opt.units u
    s.opt.openBusy = false → unit.valid = true → s.ctx? (ctxOf unit.ctx.toNat) = some x → s.opt.pcount.toNat ≤ 4096 →
    s.opt.pvaLo.toNat % 16 = 0 → (∀ b ∈ s.patchList x, s.patchBad u b = false) →
    exec (.openStep u) s = .next ((s.patchList x).foldl
      (fun (t : State) b => t.patchWord (ctxOf unit.ctx.toNat) (lseOf unit.lse) (patchOf b))
      ({ s with opt := { s.opt with
        openTu := BitVec.ofNat 6 u.val, openNow := BitVec.ofNat 6 u.val, openErr := false, openBusy := true
        units := vset s.opt.units u { unit with openStep := s.opt.openStep, openLse := unit.lse } } }.fixExponents u s.opt.openStep))) ∧
  (∀ (s : State) (u : UnitId) (step : Word) (i : Nat) (t : Tracked), s.opt.tracked = [(i, t)] → t.unit = u →
    ∃ (s' : State) (t' : Tracked), s' = s.fixExponents u step ∧ s'.opt.tracked = [(i, t')] ∧
      t'.eCur = BitVec.ofInt 8 (encodeExponent (if t.e5m2 then 57344 else 448) t.margin (t'.hist.take t.h)) ∧
      (t.pendValid = false ∨ ¬ t.pstep < step → t' = { t with eCur := t'.eCur }) ∧
      (t.pendValid = true → t.pstep < step →
        t' = { t with eCur := t'.eCur, pendValid := false, pendNonfinite := false, lastStep := t.pstep
                      hist := if t.pendNonfinite then t.hist else (t.pend :: t.hist).take 64 })) ∧
  (∀ (t : TrainUnit) (v : Word), ((wfield v 0 : BitVec 6).toInt < -24 ∨ 24 < (wfield v 0 : BitVec 6).toInt) → t.write 0x08 v = t) ∧
  (∀ s : State,
    (s.opt.owed = [] → exec .openComplete s = .next { s with opt := { s.opt with openBusy := false } }) ∧
    ((∃ p ∈ s.opt.owed, s.patchWaits p.1 p.2.1 = true) → exec .openComplete s = .next s) ∧
    ((∀ p ∈ s.opt.owed, s.patchWaits p.1 p.2.1 = false) →
      let t := s.opt.owed.foldl (fun (t : State) p => t.patchPut p.1 p.2.1 p.2.2) s
      exec .openComplete s = .next { t with opt := { t.opt with owed := [], openBusy := false } })) ∧
  (∀ s : State, s.mbxIs 0x50 = true → s.mbx.fenced = false → s.rst.retired = false → s.rst.coreHeld = false →
    let w := s.mbxArg 0
    let id : Word := BitVec.ofNat 32 (s.mbxArg 1)
    let u := unitOf (bits w 5 0)
    let bad := bit w 7 = true ∨ bit w 15 = true ∨ bits w 31 20 ≠ 0 ∨ bits w 14 8 = 0 ∨ 64 < bits w 14 8 ∨ (vget s.opt.units u).valid = false ∨
      ∃ e ∈ s.opt.tracked, e.2.unit = u ∧ e.2.tensorId = id
    let n := lowestFreeKey s.opt.tracked 0
    let new : Tracked := {
      unit := u, tensorId := id, e5m2 := bit w 6, h := bits w 14 8, margin := bits w 19 16, hist := [], eCur := 0
      pendValid := false, pendNonfinite := false, pstep := 0, pend := 0, lastStep := 0 }
    (bad → exec .optTrack s = .next (s.mbxEnd stOk [8, 0, 0, 0])) ∧
    (¬ bad → 4096 ≤ n → exec .optTrack s = .next (s.mbxEnd stOk [4, 0, 0, 0])) ∧
    (¬ bad → n < 4096 → exec .optTrack s = .next ({ s with opt := { s.opt with tracked := s.opt.tracked.put n new } }.mbxEnd stOk (leBytes 4 (n * 256))))) ∧
  (∀ s : State, s.mbxIs 0x51 = true → s.mbx.fenced = false → s.rst.retired = false → s.rst.coreHeld = false →
    (s.mbxArg 0 < 4096 → s.opt.tracked.get? (s.mbxArg 0) ≠ none →
      exec .optUntrack s = .next ({ s with opt := { s.opt with tracked := s.opt.tracked.del (s.mbxArg 0) } }.mbxEnd stOk [0, 0, 0, 0])) ∧
    (4096 ≤ s.mbxArg 0 ∨ s.opt.tracked.get? (s.mbxArg 0) = none → exec .optUntrack s = .next (s.mbxEnd stOk [8, 0, 0, 0]))) ∧
  (∀ s : State, s.mbxIs 0x52 = true → s.mbx.fenced = false → s.rst.retired = false → s.rst.coreHeld = false → s.mbxArg 0 < 4096 →
    (∀ t, s.opt.tracked.get? (s.mbxArg 0) = some t → exec .optHistRead s = .next (s.mbxEnd stOk t.bytes)) ∧
    (s.opt.tracked.get? (s.mbxArg 0) = none → exec .optHistRead s = .next (s.mbxEnd stOk (List.replicate 272 0)))) ∧
  (∀ s : State, s.mbxIs 0x53 = true → s.mbx.fenced = false → s.rst.retired = false → s.rst.coreHeld = false →
    let a := s.mbxBytes.drop 4
    let w := fieldAt a 0 4
    let new := fun (t : Tracked) => { t with
      hist := (List.range (bits w 6 0)).map fun i => BitVec.ofNat 32 (fieldAt a (0x10 + 4 * i) 4)
      eCur := BitVec.ofNat 8 (bits w 15 8), pendValid := bit w 16, pendNonfinite := bit w 17
      pstep := BitVec.ofNat 32 (fieldAt a 4 4), pend := BitVec.ofNat 32 (fieldAt a 8 4)
      lastStep := BitVec.ofNat 32 (fieldAt a 12 4) }
    (4096 ≤ s.mbxArg 0 ∨ s.opt.tracked.get? (s.mbxArg 0) = none ∨ bit w 7 = true ∨ 64 < bits w 6 0 ∨ bits w 31 18 ≠ 0 →
      exec .optHistWrite s = .next (s.mbxEnd stOk [8, 0, 0, 0])) ∧
    (∀ t, s.mbxArg 0 < 4096 → s.opt.tracked.get? (s.mbxArg 0) = some t → bit w 7 = false → bits w 6 0 ≤ 64 → bits w 31 18 = 0 →
      exec .optHistWrite s = .next ({ s with opt := { s.opt with tracked := s.opt.tracked.put (s.mbxArg 0) (new t) } }.mbxEnd stOk [0, 0, 0, 0]))) ∧
  (∀ s : State, s.mbxIs 0x54 = true → s.mbx.fenced = false → s.rst.retired = false → s.rst.coreHeld = false →
    (∀ u : UnitId, s.mbxArg 0 = u.val → exec .optNoiseRead s = .next (s.mbxEnd stOk
      (leBytes 4 (vget s.opt.units u).g2e.toNat ++ leBytes 4 (vget s.opt.units u).se.toNat ++ leBytes 4 (vget s.opt.units u).ncount.toNat))) ∧
    (64 ≤ s.mbxArg 0 → exec .optNoiseRead s = .next (s.mbxEnd stBad []))) ∧
  (∀ s : State, s.mbxIs 0x55 = true → s.mbx.fenced = false → s.rst.retired = false → s.rst.coreHeld = false →
    (∀ u : UnitId, s.mbxArg 0 = u.val → exec .optNoiseWrite s = .next ({ s with opt := { s.opt with
      units := vmod s.opt.units u fun (t : TrainUnit) => { t with
        g2e := BitVec.ofNat 32 (s.mbxArg 1), se := BitVec.ofNat 32 (s.mbxArg 2), ncount := BitVec.ofNat 32 (s.mbxArg 3) } } }.mbxEnd stOk [0, 0, 0, 0])) ∧
    (64 ≤ s.mbxArg 0 → exec .optNoiseWrite s = .next (s.mbxEnd stOk [8, 0, 0, 0])))

/-- The rack time code sets hall time in UNLOCKED; loss of the reference; parity; holdover; the slot comparators. Rests on 08_hall_time.md R220, 08_hall_time.md R221, 08_hall_time.md R223, 08_hall_time.md R224, 08_hall_time.md R226, 08_hall_time.md R232. -/
def Obligations.TimeCodeSetsHallTime : Prop :=
  (∀ (s : State) (f : BitVec 72) (since : Nat), (s.tkp.state ≠ 0 ∨ s.sec.islandOnly = true) →
    exec (.timeCodeFrame f since) s = .next s) ∧
  (∀ (s : State) (f : BitVec 72) (since : Nat), s.tkp.state = 0 → s.sec.islandOnly = false →
    (frameAccepted f = false → exec (.timeCodeFrame f since) s = .next { s with tkp := { s.tkp with
      badFrames := s.tkp.badFrames + 1, codeBad := s.tkp.codeBad || decide (2 ≤ s.tkp.badFrames) } }) ∧
    (frameAccepted f = true → s.tkp.rckLoss = true →
      exec (.timeCodeFrame f since) s = .next { s with tkp := { s.tkp with badFrames := 0, codeBad := false } }) ∧
    (frameAccepted f = true → s.tkp.rckLoss = false →
      let ht := ((f.extractLsb' 0 48).toNat * 1000000000 * 16 + since + 2 ^ 68 - s.tkp.rckDelay.toNat) % 2 ^ 68
      (s.tkp.roleEff = true → exec (.timeCodeFrame f since) s = .next { s with tkp := { s.tkp with
        badFrames := 0, codeBad := false, ht := ht, owed := 0, state := tkLocked } }) ∧
      (s.tkp.roleEff = false → carriesTime (s.link (linkOf s.tkp.parentUsed.toNat)).state = false →
        exec (.timeCodeFrame f since) s = .next { s with tkp := { s.tkp with
          badFrames := 0, codeBad := false, ht := ht, owed := 0, state := tkRack } }) ∧
      (s.tkp.roleEff = false → carriesTime (s.link (linkOf s.tkp.parentUsed.toNat)).state = true →
        exec (.timeCodeFrame f since) s = .next { s with tkp := { s.tkp with
          badFrames := 0, codeBad := false, ht := ht, owed := 0, state := tkAcquire, goodRow := 0, toAcquire := false, holdoverOver := false
          relocks := satInc s.tkp.relocks } }))) ∧
  (∀ s : State, exec .rckLoss s = .next { s with tkp := { s.tkp with rckLoss := true } }) ∧
  (∀ s : State, s.tkp.roleEff = true ∨ carriesTime (s.link (linkOf s.tkp.parentUsed.toNat)).state = false →
    exec .rckLossClear s = .next { s with tkp := { s.tkp with rckLoss := false } }) ∧
  (∀ s : State, s.tkp.roleEff = false → carriesTime (s.link (linkOf s.tkp.parentUsed.toNat)).state = true → s.tkp.state = 0 →
    exec .rckLossClear s = .next { s with tkp := { s.tkp with
      rckLoss := false, state := tkAcquire, goodRow := 0, toAcquire := false, holdoverOver := false, relocks := satInc s.tkp.relocks } }) ∧
  (∀ s : State, (s.tkp.state = 0 → exec .counterParityError s = .next s) ∧
    (s.tkp.state ≠ 0 → s.tkp.roleEff = true → exec .counterParityError s = .next { s with tkp := { s.tkp with state := tkLocked } }) ∧
    (s.tkp.state ≠ 0 → s.tkp.roleEff = false → exec .counterParityError s = .next { s with tkp := { s.tkp with
      state := tkAcquire, goodRow := 0, toAcquire := false, holdoverOver := false, relocks := satInc s.tkp.relocks } })) ∧
  (∀ s : State, (s.tkp.state = tkHoldover → ∃ t, exec .holdoverExpiry s = .next t ∧ t = { s with tkp := { s.tkp with holdoverOver := true } } ∧
      t.schedAllowed = false) ∧
    (s.tkp.state ≠ tkHoldover → exec .holdoverExpiry s = .next s)) ∧
  (∀ s : State, ∃ t, exec .slotCmpFault s = .next t ∧ t.schedAllowed = false ∧
    t = { s with tkp := { s.tkp with cmpFault := true, cmpFaults := satInc s.tkp.cmpFaults, cmpWait := 0 } }.raise 0x44 0
      (leBytes 4 (satInc s.tkp.cmpFaults).toNat)) ∧
  (∀ s : State, (s.tkp.cmpFault = true → exec .cmpClear s = .next { s with tkp := { s.tkp with cmpWait := 2 } }) ∧
    (s.tkp.cmpFault = false → exec .cmpClear s = .next s))

/-- Time exchanges: θ is recorded, a follower slews, steps or returns to ACQUIRE, and partners that differ raise TIME_FAULT. Rests on 08_hall_time.md R223, 08_hall_time.md R225, 08_hall_time.md R226, 08_hall_time.md R230. -/
def Obligations.FollowersSteerToTheirParent : Prop :=
  (∀ (s : State) (l : LinkId) (t1 t2 t3 t4 : Int) (a ok lk par : Bool), (s.tkp.state = 0 ∨ carriesTime (s.link l).state = false) →
    exec (.timeExchange l t1 t2 t3 t4 a ok lk par) s = .next s) ∧
  (∀ (s : State) (l : LinkId) (t1 t2 t3 t4 : Int),
    let trim := fun receive => s.cal.loaded.trim l.val (s.timeLane l) receive
    s.theta2 l t1 t2 t3 t4 true = (t2 - (t1 + trim false)) - ((t4 + trim true) - t3) ∧
    s.theta2 l t1 t2 t3 t4 false = ((t4 - (t3 + trim false)) - ((t2 + trim true) - t1))) ∧
  (∀ (s : State) (l : LinkId) (t1 t2 t3 t4 : Int) (a ok lk par : Bool), s.tkp.state ≠ 0 → carriesTime (s.link l).state = true →
    9984 ≤ s.tkp.ht / 16 % 10000 → s.tkp.toAcquire = false →
    let th2 := s.theta2 l t1 t2 t3 t4 a
    let th := th2 / 2 + (if th2 % 2 ≠ 0 ∧ Config.freeChoice s.freeCtr 0 = true then 1 else 0)
    let guard := 32 * s.tkp.guardEff
    let u : State := { s with
      freeCtr := if th2 % 2 = 0 then s.freeCtr else s.freeCtr + 1
      tkp := { s.tkp with links := vmod s.tkp.links l fun (k : LinkTime) => { k with
        theta2 := th2, theta := max (-32767) (min 32767 th), sinceValid := some 0, partnerOk := ok, ownOk := s.timeGood } } }
    let reacquire : State := { u with tkp := { u.tkp with
      state := tkAcquire, goodRow := 0, toAcquire := false, holdoverOver := false, relocks := satInc s.tkp.relocks } }
    let slewed := fun (most : Int) => if 0 ≤ max (-most) (min most (-th)) then
        { u with tkp := { u.tkp with ht := (s.tkp.ht + (max (-most) (min most (-th))).toNat) % 2 ^ 68 } }
      else { u with tkp := { u.tkp with owed := s.tkp.owed + (max (-most) (min most (-th))).natAbs } }
    (¬ (s.tkp.roleEff = false ∧ l = linkOf s.tkp.parentUsed.toNat) →
      (s.tkp.state = tkLocked → lk = true → par = false → guard < th2.natAbs →
        exec (.timeExchange l t1 t2 t3 t4 a ok lk par) s = .next (u.raise 0x43 l.val (leBytes 4 (BitVec.ofInt 32 th).toNat))) ∧
      (s.tkp.state = tkLocked → (lk = false ∨ par = true ∨ th2.natAbs ≤ guard) →
        exec (.timeExchange l t1 t2 t3 t4 a ok lk par) s = .next u) ∧
      (s.tkp.state ≠ tkLocked → exec (.timeExchange l t1 t2 t3 t4 a ok lk par) s = .next u.tkpSettle)) ∧
    (s.tkp.roleEff = false → l = linkOf s.tkp.parentUsed.toNat →
      (s.tkp.state = tkLocked → th2.natAbs ≤ guard → exec (.timeExchange l t1 t2 t3 t4 a ok lk par) s = .next (slewed 4)) ∧
      (s.tkp.state = tkLocked → guard < th2.natAbs → exec (.timeExchange l t1 t2 t3 t4 a ok lk par) s = .next reacquire) ∧
      (s.tkp.state = tkRack → exec (.timeExchange l t1 t2 t3 t4 a ok lk par) s = .next reacquire) ∧
      (s.tkp.state = tkHoldover → th2.natAbs ≤ guard → s.tkp.holdoverOver = false →
        exec (.timeExchange l t1 t2 t3 t4 a ok lk par) s = .next u) ∧
      (s.tkp.state = tkHoldover → (guard < th2.natAbs ∨ s.tkp.holdoverOver = true) →
        exec (.timeExchange l t1 t2 t3 t4 a ok lk par) s = .next reacquire) ∧
      (s.tkp.state = tkAcquire → th2.natAbs ≤ 2048 →
        let n := if th2.natAbs ≤ 64 then s.tkp.goodRow + 1 else 0
        exec (.timeExchange l t1 t2 t3 t4 a ok lk par) s = .next { slewed 80 with tkp := { (slewed 80).tkp with
          goodRow := n, state := if 4 ≤ n then tkLocked else tkAcquire } }) ∧
      (s.tkp.state = tkAcquire → 2048 < th2.natAbs →
        exec (.timeExchange l t1 t2 t3 t4 a ok lk par) s = .next { u with tkp := { u.tkp with goodRow := 0, stepBy := some (-th) } })))

/-- A frame boundary makes the waiting settings take effect, a slot start lets the links send, and their clocks stand at 10,000 ns and 64 ns. Rests on 08_hall_time.md R222, 08_hall_time.md R228, 08_hall_time.md R229, 08_hall_time.md R237, 01_module.md R24, 09_links.md R253, 09_links.md R254. -/
def Obligations.FramesAndSlotsPass : Prop :=
  (∀ s : State, ∃ t, exec .frameBoundary s = .next t ∧
    t.profile = { s.profile with fabricEff := s.profile.fabric } ∧ t.lnk.sliceEff = s.lnk.sliceEn ∧
    t.tkp.guardEff = max 8 (min 48 s.tkp.guard.toNat) ∧ t.tkp.roleEff = s.tkp.role ∧
    (s.tkp.state ≠ 0 → s.tkp.stepBy = none → 16 * s.ht = s.tkp.ht → s.ht + 20000 < 2 ^ 64 → t.ht % 10000 = 0 ∧ s.ht ≤ t.ht ∧ t.ht ≤ s.ht + 20000 ∧ t.tkp.frameAt = some t.ht) ∧
    t.mem = s.mem ∧ t.host = s.host ∧ t.ctxs = s.ctxs ∧ t.stb = s.stb ∧ t.frames = s.frames ∧ t.fld = s.fld ∧ t.opt = s.opt ∧ t.sch = s.sch ∧
    t.mbx = s.mbx ∧ t.sec = s.sec ∧ t.hlt = s.hlt ∧ t.pwr = s.pwr) ∧
  (∀ s : State, s.tkp.state = 0 → exec .slotStart s = .next s) ∧
  (∀ s : State, s.tkp.state ≠ 0 → ∃ t, exec .slotStart s = .next t ∧
    (s.ht + 20000 < 2 ^ 64 → t.tkp.slotAt = some t.ht ∧ s.ht ≤ t.ht ∧ (t.ht % 10000) % 64 = 0 ∧ t.ht % 10000 / 64 ≤ 155) ∧ t.mem = s.mem ∧ t.host = s.host ∧ t.ctxs = s.ctxs ∧ t.evr = s.evr ∧
    t.frames = s.frames ∧ t.fld = s.fld) ∧
  (∀ s : State, s.tkp.state ≠ 0 → (∀ g, (s.group g).state ≠ 1) → ∃ t, exec .slotStart s = .next t ∧
    t = { s with lnk := t.lnk, tkp := t.tkp, now := t.now } ∧
    ∀ l, ∃ n, (t.link l).control = (s.link l).control.drop n ∧
      t.link l = { s.link l with
        control := (t.link l).control, queues := (t.link l).queues, deficits := (t.link l).deficits, turn := (t.link l).turn
        cwNext := (t.link l).cwNext, codewords := (t.link l).codewords, replayLeft := (t.link l).replayLeft } ∧
      (carriesFlits (s.link l).state = false → t.link l = s.link l) ∧
      (carriesFlits (s.link l).state = true →
        (t.link l).replayLeft = (s.link l).replayLeft - min (s.link l).slotCodewords (s.link l).replayLeft ∧
        (t.link l).cwNext = (s.link l).cwNext + ((s.link l).slotCodewords - min (s.link l).slotCodewords (s.link l).replayLeft)) ∧
      ∀ q, ∃ m, vget (t.link l).queues q = (vget (s.link l).queues q).drop m) ∧
  (∀ s : State, s.mbxIs 0x60 = true → s.mbx.fenced = false → s.rst.retired = false →
    exec .htRead s = .next (s.mbxEnd stOk (leBytes 16
      (s.mbx.htGo / 16 % 2 ^ 64 + s.mbx.htGo % 16 * 2 ^ 64 + s.mbx.stGo.toNat * 2 ^ 68)))) ∧
  (∀ s : State, s.mbxIs 0x61 = true → s.mbx.fenced = false → s.rst.retired = false →
    let out := s.tkp.bins.toList.flatMap fun w => leBytes 4 w.toNat
    (s.mbxArg 0 = 0 → exec .lateRead s = .next (s.mbxEnd stOk out)) ∧
    (s.mbxArg 0 = 1 → s.tkp.straggler = false →
      exec .lateRead s = .next ({ s with tkp := { s.tkp with bins := Vector.replicate 16 0, recent := [] } }.mbxEnd stOk out)) ∧
    (s.mbxArg 0 = 1 → s.tkp.straggler = true →
      exec .lateRead s = .next (({ s with tkp := { s.tkp with bins := Vector.replicate 16 0, recent := [], straggler := false } }.raise 0x45 0
        [0, 0, 0, 0]).mbxEnd stOk out)) ∧
    (2 ≤ s.mbxArg 0 → exec .lateRead s = .next (s.mbxEnd stBad [])))

/-- Links start training, are found by discovery, evaluated, and latched into a topology. Rests on 09_links.md R243, 09_links.md R244, 09_links.md R245, 09_links.md R246, 09_links.md R247, 09_links.md R248, 09_links.md R260, 13_reset_health.md R358. -/
def Obligations.LinksTrainAndDiscover : Prop :=
  (∀ (s : State) (l : LinkId) (new : BitVec 4),
    let t := s.setLink l new
    t = { s with lnk := t.lnk, tkp := t.tkp, evr := t.evr } ∧ (t.link l).state = new ∧ (∀ m, m ≠ l → (t.link m).state = (s.link m).state) ∧
      ((s.link l).state ≠ new → t.evr = (s.raise 0x40 l.val
        (leBytes 4 ((s.link l).state.toNat + new.toNat * 16 + (s.link l).lanesLive.toNat * 65536))).evr) ∧
      ((s.link l).state = new → t = s)) ∧
  (∀ (s : State) (l : LinkId) (counted : Bool),
    let k0 := fun (k : Link) => { k with
      lanesLive := 0, laneDropped := false, droppedLane := 0, dropping := none, ackHt := none, seen := false
      retrains := if counted then satInc k.retrains else k.retrains }
    s.train l counted = ({ (s.modLink l k0) with hlt := if counted then { s.hlt with deltas := { s.hlt.deltas with
      retrain := vmod s.hlt.deltas.retrain l (· + 1) } } else s.hlt }).setLink l lsTraining) ∧
  (∀ (s : State) (l : LinkId),
    ((s.link l).state = lsDown ∨ (s.link l).state = lsFailed → s.pwr.mainOn = true →
      exec (.lightDetected l) s = .next ((s.modLink l fun (k : Link) => { k with light := true, retries := 0 }).train l false)) ∧
    ((s.link l).state ≠ lsDown → (s.link l).state ≠ lsFailed →
      exec (.lightDetected l) s = .next (s.modLink l fun (k : Link) => { k with light := true })) ∧
    ((s.link l).state = lsFailed → (s.link l).retries < 2 →
      exec (.autoRetrain l) s = .next ((s.modLink l fun (k : Link) => { k with retries := k.retries + 1 }).train l true)) ∧
    ((s.link l).state ≠ lsFailed ∨ 2 ≤ (s.link l).retries → exec (.autoRetrain l) s = .next s) ∧
    ((s.link l).state ≠ lsLoop → (s.link l).loopPend = false → s.linkOut l = false →
      exec (.retrain l) s = .next ((s.modLink l fun (k : Link) => { k with retries := 0 }).train l true)) ∧
    ((s.link l).state = lsLoop ∨ (s.link l).loopPend = true ∨ s.linkOut l = true → exec (.retrain l) s = .next s)) ∧
  (∀ (s : State) (l : LinkId) (lanes : BitVec 16),
    ((s.link l).state = lsTraining ∨ (s.link l).state = lsWaking → exec (.trainingComplete l lanes false) s = .next (s.failLink l false)) ∧
    ((s.link l).state = lsTraining ∨ (s.link l).state = lsWaking → 2 ≤ (lanesOff lanes).length →
      exec (.trainingComplete l lanes true) s = .next (s.failLink l true)) ∧
    ((s.link l).state = lsTraining → (lanesOff lanes).length < 2 → s.rst.retired = false →
      exec (.trainingComplete l lanes true) s =
        .next (((s.modLink l fun (k : Link) => { k.trained lanes with light := true }).setLink l lsDiscover).evaluate l)) ∧
    ((s.link l).state = lsTraining ∨ (s.link l).state = lsWaking → (lanesOff lanes).length < 2 → s.rst.retired = true →
      exec (.trainingComplete l lanes true) s =
        .next ((s.modLink l fun (k : Link) => { k.trained lanes with light := true }).setLink l lsRetired)) ∧
    ((s.link l).state ≠ lsTraining → (s.link l).state ≠ lsWaking → ∀ light, exec (.trainingComplete l lanes light) s = .next s) ∧
    ((s.link l).state = lsWaking → (lanesOff lanes).length < 2 → s.rst.retired = false → ∃ t, exec (.trainingComplete l lanes true) s = .next t ∧
      (t.link l).state = (if lanes = 0xFFFF then lsUp else lsDegraded) ∧ (t.link l).lanesLive = lanes)) ∧
  (∀ (s : State) (l : LinkId) (p : List Byte), evaluates (s.link l).state = true → (s.link l).awaited = none →
    let heard := fun (t : State) => ({ t with lnk := { t.lnk with heard := l.val :: t.lnk.heard.filter (· != l.val) } } : State)
    exec (.discoverFlitReceive l p) s = .next ((heard (s.modLink l fun (k : Link) => { k with
      seen := true, payload := slice p 0 32
      plink := BitVec.ofNat 5 (bits (fieldAt (slice p 0 32) 0x0C 4) 4 0), pdir := BitVec.ofNat 3 (bits (fieldAt (slice p 0 32) 0x0C 4) 7 5)
      px := BitVec.ofNat 5 (bits (fieldAt (slice p 0 32) 0x0C 4) 12 8), py := BitVec.ofNat 4 (bits (fieldAt (slice p 0 32) 0x0C 4) 19 16)
      pz := BitVec.ofNat 4 (bits (fieldAt (slice p 0 32) 0x0C 4) 27 24), partnerGen := BitVec.ofNat 32 (fieldAt (slice p 0 32) 8 4) })).evaluate l)) ∧
  (∀ (s : State) (l : LinkId) (p : List Byte), (evaluates (s.link l).state = false ∨ (s.link l).awaited ≠ none) → exec (.discoverFlitReceive l p) s = .next s) ∧
  (∀ (s : State) (l : LinkId), (discovers (s.link l).state = true →
      exec (.discoverPeriod l) s = .next { s with lnk := { s.lnk with
        beSeq := s.lnk.beSeq + 1
        links := vmod s.lnk.links l fun (k : Link) => { k with
          control := k.control ++ [s.linkFlit l fkDiscover (s.discovery l)], sent := s.discovery l } } }) ∧
    (discovers (s.link l).state = false → exec (.discoverPeriod l) s = .next s)) ∧
  (∀ (s : State) (l : LinkId), (s.evaluate l) = { s with lnk := (s.evaluate l).lnk, tkp := (s.evaluate l).tkp, evr := (s.evaluate l).evr } ∧
    (∀ st why odd, evaluates (s.link l).state = true → s.rst.retired = false → s.verdict l = some (st, why, odd) →
      ((s.evaluate l).link l).state = st ∧ ((s.evaluate l).link l).reason = why ∧ ((s.evaluate l).link l).beOnly = odd) ∧
    (s.verdict l = none → s.evaluate l = s)) ∧
  (∀ s : State, (topoBad s.topoRegs = true ∨ (∃ g, (s.group g).state = 1) →
      exec .topoLatch s = .next { s with lnk := { s.lnk with latchErr := true } }) ∧
    (topoBad s.topoRegs = false → (∀ g, (s.group g).state ≠ 1) →
      exec .topoLatch s = .next ({ s with lnk := { s.lnk with
        topo := some s.topoRegs, latchErr := false, gen := s.lnk.gen + 1 } }.announce.evaluateAll))) ∧
  (∀ s : State, s.mbxIs 0x70 = true → s.mbx.fenced = false → s.rst.retired = false →
    (24 ≤ s.mbxArg 0 → exec .linkPartnerRead s = .next (s.mbxEnd stBad [])) ∧
    (∀ l : LinkId, s.mbxArg 0 = l.val → (s.link l).state = lsLoop → exec .linkPartnerRead s = .next (s.mbxEnd stBusyTest [])) ∧
    (∀ l : LinkId, s.mbxArg 0 = l.val → (s.link l).state ≠ lsLoop → s.linkOut l = true → exec .linkPartnerRead s = .next (s.mbxEnd stFenced [])) ∧
    (∀ l : LinkId, s.mbxArg 0 = l.val → (s.link l).state ≠ lsLoop → s.linkOut l = false →
      exec .linkPartnerRead s = .next (s.mbxEnd stOk (slice (s.link l).payload 0 32))))

/-- Corrected and lost symbols are counted, a lane is dropped at a frame boundary, a second loss fails the link. Rests on 09_links.md R241, 09_links.md R244, 09_links.md R250, 09_links.md R251, 09_links.md R257. -/
def Obligations.LanesDropAndLinksFail : Prop :=
  (∀ (s : State) (l : LinkId) (lseq : BitVec 12) (ls : List (Fin 16)) (sched : Bool), evaluates (s.link l).state = true →
    (ls.length ≤ 15 → exec (.codewordReceive l lseq ls sched) s = .next (s.modLink l fun (k : Link) => { k with
      fecCorr := if ls = [] then k.fecCorr else k.fecCorr + 1
      laneNow := ls.foldl (fun v i => vmod v i (· + 1)) k.laneNow
      awaited := if k.awaited = some lseq then none else k.awaited })) ∧
    (15 < ls.length →
      let u : State := { (s.modLink l fun (k : Link) => { k with fecUncorr := satInc k.fecUncorr }) with
        hlt := { s.hlt with deltas := { s.hlt.deltas with fecu := vmod s.hlt.deltas.fecu l (· + 1) } } }
      (sched = true ∨ ((s.link l).awaited ≠ none ∧ (s.link l).awaited ≠ some lseq) →
        exec (.codewordReceive l lseq ls sched) s = .next u) ∧
      (sched = false → ((s.link l).awaited = none ∨ (s.link l).awaited = some lseq) → exec (.codewordReceive l lseq ls sched) s =
        .next ((u.modLink l fun (k : Link) => { k with awaited := some lseq }).sendControl l .replay lseq.toNat)))) ∧
  (∀ (s : State) (l : LinkId) (n : Nat), carriesFlits (s.link l).state = true →
    (n < (s.link l).cwNext → (s.link l).cwNext ≤ n + 4096 → exec (.replayRequest l n) s = .next { (s.modLink l fun (k : Link) => { k with
        retry := satInc k.retry, replayLeft := k.cwNext - n }) with
      hlt := { s.hlt with deltas := { s.hlt.deltas with retry := vmod s.hlt.deltas.retry l (· + 1) } } }) ∧
    ((s.link l).cwNext ≤ n ∨ n + 4096 < (s.link l).cwNext → exec (.replayRequest l n) s = .next (s.train l true))) ∧
  (∀ (s : State) (l : LinkId) (lseq : BitVec 12) (ls : List (Fin 16)) (u : Bool) (n : Nat) (lane : BitVec 4),
    (evaluates (s.link l).state = false → exec (.codewordReceive l lseq ls u) s = .next s) ∧
    (carriesFlits (s.link l).state = false → exec (.replayRequest l n) s = .next s ∧ exec (.laneMap l lane) s = .next s)) ∧
  (∀ (s : State) (l : LinkId) (light : Bool),
    let t := s.failLink l light
    (t.link l).state = (if light then lsFailed else lsDown) ∧ (t.link l).lanesLive = 0 ∧ (t.link l).laneDropped = false ∧
      (t.link l).dropping = none ∧ (t.link l).light = light ∧ (∀ m, m ≠ l → (t.link m).state = (s.link m).state) ∧
      t = { s with lnk := t.lnk, tkp := t.tkp, evr := t.evr }) ∧
  (∀ (s : State) (l : LinkId) (lanes : BitVec 16), carriesFlits (s.link l).state = true →
    let lost := (List.range 16).filter fun i =>
      (s.link l).lanesLive.getLsbD i && lanes.getLsbD i && (s.link l).dropping != some (BitVec.ofNat 4 i)
    (lost ≠ [] → exec (.laneLossOfLock l lanes false) s = .next (s.failLink l false)) ∧
    (2 ≤ lost.length → exec (.laneLossOfLock l lanes true) s = .next (s.failLink l true)) ∧
    (lost ≠ [] → ((s.link l).laneDropped = true ∨ (s.link l).dropping ≠ none) →
      exec (.laneLossOfLock l lanes true) s = .next (s.failLink l true)) ∧
    (∀ i, lost = [i] → (s.link l).laneDropped = false → (s.link l).dropping = none →
      exec (.laneLossOfLock l lanes true) s = .next ((s.modLink l fun (k : Link) => { k with
        dropping := some (BitVec.ofNat 4 i), ackHt := none }).sendControl l .laneMap i)) ∧
    (lost = [] → ∀ light, exec (.laneLossOfLock l lanes light) s = .next s)) ∧
  (∀ (s : State) (l : LinkId) (lanes : BitVec 16) (light : Bool), carriesFlits (s.link l).state = false →
    ((s.link l).state = lsDisabled → (light = false ∨ lanes.getLsbD (s.timeLane l) = true) →
      exec (.laneLossOfLock l lanes light) s = .next (s.failLink l light)) ∧
    ((s.link l).state ≠ lsDisabled ∨ (light = true ∧ lanes.getLsbD (s.timeLane l) = false) →
      exec (.laneLossOfLock l lanes light) s = .next s)) ∧
  (∀ (s : State) (l : LinkId),
    let t := s.modLink l fun (k : Link) => { k with
      laneErr := Vector.ofFn fun i => satNat 32 (vget k.laneNow i), laneNow := Vector.replicate 16 0 }
    ((∀ i, vget (s.link l).laneNow i ≤ max 1 s.lnk.dropThr.toNat) ∨ carriesFlits (s.link l).state = false →
      exec (.laneErrorInterval l) s = .next t) ∧
    (∀ i : Fin 16, carriesFlits (s.link l).state = true → max 1 s.lnk.dropThr.toNat < vget (s.link l).laneNow i →
      (∀ j, j ≠ i → vget (s.link l).laneNow j ≤ max 1 s.lnk.dropThr.toNat) → (s.link l).lanesLive.getLsbD i.val = true →
      (s.link l).laneDropped = false → (s.link l).dropping = none → (s.link l).light = true →
      exec (.laneErrorInterval l) s = .next ((t.modLink l fun (k : Link) => { k with
        dropping := some (BitVec.ofNat 4 i.val), ackHt := none }).sendControl l .laneMap i.val))) ∧
  (∀ (s : State) (l : LinkId) (lane : BitVec 4), carriesFlits (s.link l).state = true →
    ((s.link l).awaited ≠ none → exec (.laneMap l lane) s = .next s) ∧
    ((s.link l).awaited = none → ((s.link l).laneDropped = false ∨ (s.link l).droppedLane = lane) →
      ((s.link l).dropping = none ∨ (s.link l).dropping = some lane) →
      exec (.laneMap l lane) s = .next ((s.modLink l fun (k : Link) => { k with
        dropping := some lane, ackHt := some s.ht }).sendControl l .laneMapAck lane.toNat)) ∧
    ((s.link l).awaited = none → (s.link l).laneDropped = true → (s.link l).droppedLane ≠ lane →
      exec (.laneMap l lane) s = .next (s.failLink l (s.link l).light))) ∧
  (∀ (s : State) (l : LinkId) (lane : BitVec 4), (s.link l).dropping = some lane →
    ((s.link l).ackHt = none →
      ((s.link l).awaited = none →
        exec (.laneMapAck l) s = .next (s.modLink l fun (k : Link) => { k with ackHt := some s.ht })) ∧
      ((s.link l).awaited ≠ none → exec (.laneMapAck l) s = .next s) ∧
      exec (.laneMapTimeout l) s = .next (s.failLink l (s.link l).light) ∧ exec (.restripe l) s = .next s) ∧
    (∀ a, (s.link l).ackHt = some a → exec (.laneMapAck l) s = .next s ∧ exec (.laneMapTimeout l) s = .next s ∧
      ∃ t, exec (.restripe l) s = .next t ∧ (t.link l).laneDropped = true ∧ (t.link l).droppedLane = lane ∧ (t.link l).dropping = none ∧
        (t.link l).lanesLive = setBit (s.link l).lanesLive lane.toNat false ∧
        (t.link l).state = (if (s.link l).state = lsUp then lsDegraded else (s.link l).state) ∧
        (s.tkp.state ≠ 0 → frameFrom (a + 2000) < 2 ^ 64 → frameFrom (a + 2000) ≤ t.ht) ∧ t.mem = s.mem ∧ t.host = s.host ∧ t.ctxs = s.ctxs)) ∧
  (∀ (s : State) (p : Fin 6), (∀ j : Fin 4, usableState (s.link (linkOf (4 * p.val + j.val))).state = true) → ∃ t, exec (.fibreUnplug p) s = .next t ∧
    (∀ j : Fin 4, (t.link (linkOf (4 * p.val + j.val))).state = lsDown ∧ (t.link (linkOf (4 * p.val + j.val))).lanesLive = 0) ∧
    (∀ m : LinkId, m.val / 4 ≠ p.val → (t.link m).state = (s.link m).state) ∧ t = { s with lnk := t.lnk, tkp := t.tkp, evr := t.evr })

/-- Links sleep and wake by agreement, and run near-end and far-end loop tests. Rests on 09_links.md R255, 09_links.md R256, 13_reset_health.md R358. -/
def Obligations.LinksSleepWakeAndLoop : Prop :=
  (∀ (s : State) (l : LinkId), (s.link l).state ≠ lsLoop → (s.link l).loopPend = false → s.linkOut l = false →
    (usableState (s.link l).state = true → s.inPlan l = false →
      exec (.sleep l) s = .next ((s.modLink l fun (k : Link) => { k with
        sleepRefused := false, sleep := true, sleepAsked := true }).sendControl l .sleepAsk 0)) ∧
    (usableState (s.link l).state = false ∨ s.inPlan l = true →
      exec (.sleep l) s = .next (s.modLink l fun (k : Link) => { k with sleepRefused := true, sleep := false, sleepAsked := false })) ∧
    ((s.link l).state = lsSleep →
      exec (.wake l) s = .next ((s.modLink l fun (k : Link) => { k with sleep := false, sleepAsked := false }).setLink l lsWaking)) ∧
    ((s.link l).state ≠ lsSleep →
      exec (.wake l) s = .next (s.modLink l fun (k : Link) => { k with sleep := false, sleepAsked := false })) ∧
    ((s.link l).loopFar = false → (s.link l).state ≠ lsSleep → (s.link l).state ≠ lsWaking →
      exec (.loopStart l) s = .next (s.modLink l fun (k : Link) => { k with loopResult := 1, failLanes := 0, loopPend := true, loopOwn := true })) ∧
    ((s.link l).loopFar = true → usableState (s.link l).state = true →
      exec (.loopStart l) s = .next ((s.modLink l fun (k : Link) => { k with
        loopResult := 1, failLanes := 0, loopPend := true, loopOwn := true }).sendControl l .farLoop 0)) ∧
    ((s.link l).loopFar = true → usableState (s.link l).state = false →
      exec (.loopStart l) s = .next (s.modLink l fun (k : Link) => { k with loopResult := 4 })) ∧
    ((s.link l).state = lsSleep ∨ (s.link l).state = lsWaking →
      exec (.loopStart l) s = .next (s.modLink l fun (k : Link) => { k with loopResult := 4 }))) ∧
  (∀ (s : State) (l : LinkId), (s.link l).state = lsLoop ∨ (s.link l).loopPend = true ∨ s.linkOut l = true →
    exec (.sleep l) s = .next s ∧ exec (.wake l) s = .next s ∧ exec (.loopStart l) s = .next s) ∧
  (∀ (s : State) (l : LinkId),
    (usableState (s.link l).state = true → s.inPlan l = false → (s.link l).loopPend = false →
      exec (.sleepRequestReceive l) s = .next ((s.sendNext l fkControl (ControlKind.sleepReply.payload 1)).setLink l lsSleep)) ∧
    (usableState (s.link l).state = false ∨ s.inPlan l = true ∨ (s.link l).loopPend = true →
      exec (.sleepRequestReceive l) s = .next (s.sendControl l .sleepReply 0)) ∧
    ((s.link l).sleepAsked = true →
      exec (.sleepReplyReceive l true) s = .next ((s.modLink l fun (k : Link) => { k with sleepAsked := false }).setLink l lsSleep) ∧
      exec (.sleepReplyReceive l false) s = .next (s.modLink l fun (k : Link) => { k with sleepRefused := true, sleep := false, sleepAsked := false })) ∧
    ((s.link l).sleepAsked = false → ∀ a, exec (.sleepReplyReceive l a) s = .next s) ∧
    ((s.link l).state = lsSleep →
      exec (.wakeTone l) s = .next ((s.modLink l fun (k : Link) => { k with sleep := false, sleepAsked := false }).setLink l lsWaking)) ∧
    ((s.link l).state ≠ lsSleep → exec (.wakeTone l) s = .next s) ∧
    (usableState (s.link l).state = true →
      exec (.farLoopRequestReceive l) s = .next ((s.modLink l fun (k : Link) => { k with loopOwn := false }).setLink l lsLoop)) ∧
    (usableState (s.link l).state = false → exec (.farLoopRequestReceive l) s = .next s)) ∧
  (∀ (s : State) (errors : List Nat) (i : Nat), (s.lanesFailed errors).getLsbD i =
    (decide (i < 16) && decide (max 1 s.lnk.dropThr.toNat < errors.getD i 0))) ∧
  (∀ (s : State) (l : LinkId) (errors : List Nat), ((s.link l).state ≠ lsLoop → exec (.loopTestEnd l errors) s = .next s) ∧
    ((s.link l).state = lsLoop → let failed := s.lanesFailed errors
      ∃ t, exec (.loopTestEnd l errors) s = .next t ∧ (t.link l).state = (if (s.link l).light then lsTraining else lsDown) ∧
      (t.link l).retrains = (s.link l).retrains ∧ (∀ m, m ≠ l → (t.link m).state = (s.link m).state) ∧
      (t.link l).loopResult = (if (s.link l).loopOwn then (if failed = 0 then 2 else 3) else (s.link l).loopResult) ∧
      (t.link l).failLanes = (if (s.link l).loopOwn then failed else (s.link l).failLanes) ∧ t = { s with lnk := t.lnk, tkp := t.tkp, evr := t.evr }))

/-- Best-effort and scheduled flits are delivered, forwarded, dropped or refused as stale; streams release and resend. Rests on 09_links.md R249, 09_links.md R252, 09_links.md R253, 10_collectives.md R277, 10_collectives.md R278, 10_collectives.md R279. -/
def Obligations.FlitsDeliverForwardOrDrop : Prop :=
  (∀ (s : State) (l : LinkId) (f : List Byte), usableState (s.link l).state = true → (s.link l).awaited = none →
    (Flit.slice f ≠ s.lnk.sliceId.toNat →
      exec (.beFlitReceive l f) s = .next (s.dropBe 1) ∧ exec (.staleFlitReceive l f) s = .next (s.dropBe 1)) ∧
    (∀ t, Flit.slice f = s.lnk.sliceId.toNat → s.lnk.topo = some t → t.beDir f ≠ none → 63 ≤ Flit.hops f →
      exec (.beFlitReceive l f) s = .next (s.dropBe 1) ∧ exec (.staleFlitReceive l f) s = .next (s.dropBe 1)) ∧
    (∀ t m, Flit.slice f = s.lnk.sliceId.toNat → s.lnk.topo = some t → t.beDir f ≠ none → Flit.hops f < 63 →
      s.beLink t (hopped f) = some m →
      exec (.beFlitReceive l f) s =
        .next (s.modLink m fun (k : Link) => { k with queues := vmod k.queues (t.queueOf (hopped f)) (· ++ [(s.now, hopped f)]) }) ∧
      exec (.staleFlitReceive l f) s = .next (s.modLink m fun (k : Link) => { k with control := k.control ++ [hopped f] })) ∧
    (∀ t, Flit.slice f = s.lnk.sliceId.toNat → s.lnk.topo = some t → t.beDir f ≠ none → Flit.hops f < 63 → s.beLink t (hopped f) = none →
      exec (.beFlitReceive l f) s = .next { s with lnk := { s.lnk with waiting := s.lnk.waiting ++ [(s.now, hopped f)] } } ∧
      exec (.staleFlitReceive l f) s = .next { s with lnk := { s.lnk with waiting := s.lnk.waiting ++ [(s.now, hopped f)] } }) ∧
    (∀ t, Flit.slice f = s.lnk.sliceId.toNat → s.lnk.topo = some t → t.beDir f = none → Flit.dstGen f ≠ s.lnk.gen.toNat % 65536 →
      let u := ({ s with lnk := { s.lnk with stale := satInc s.lnk.stale } }.queueStale
        (mkFlit fkStale 0 s.lnk.sliceId.toNat (Flit.sx f, Flit.sy f, Flit.sz f) (Flit.dx f, Flit.dy f, Flit.dz f) (Flit.srcGen f)
          (s.lnk.gen.toNat % 65536) 0 (Flit.seq f) []))
      (Flit.cls f ≠ 1 ∨ s.sourceDir f = none → exec (.beFlitReceive l f) s = .next u) ∧
      (Flit.cls f = 1 → s.sourceDir f ≠ none →
        exec (.beFlitReceive l f) s = .next (u.staleFlit (groupOf (fieldAt (Flit.payload f) 0 2 % 64))))) ∧
    (∀ t, Flit.slice f = s.lnk.sliceId.toNat → s.lnk.topo = some t → t.beDir f = none → Flit.dstGen f = s.lnk.gen.toNat % 65536 →
      let g := groupOf (fieldAt (Flit.payload f) 0 2 % 64)
      (Flit.cls f ≠ 1 ∨ s.sourceDir f = none →
        exec (.beFlitReceive l f) s = .next { s with lnk := { s.lnk with arrived := arriveInOrder f s.lnk.arrived } }) ∧
      (∀ d, Flit.cls f = 1 → s.sourceDir f = some d →
        ((s.group g).state ≠ 1 → exec (.beFlitReceive l f) s = .next s) ∧
        ((s.group g).state = 1 → Flit.srcGen f ≠ (vget (s.group g).gens (dirFin d)).toNat % 65536 →
          exec (.beFlitReceive l f) s = .next (s.staleFlit g)) ∧
        ((s.group g).state = 1 → Flit.srcGen f = (vget (s.group g).gens (dirFin d)).toNat % 65536 →
          exec (.beFlitReceive l f) s = .next (s.partTake g d (Flit.payload f)))))) ∧
  (∀ (s : State) (l : LinkId) (f : List Byte) (bad : Bool), (usableState (s.link l).state = false ∨ (s.link l).awaited ≠ none) →
    exec (.beFlitReceive l f) s = .next s ∧ exec (.schedFlitReceive l f bad) s = .next s ∧ exec (.staleFlitReceive l f) s = .next s) ∧
  (∀ (s : State) (l : LinkId) (f : List Byte), usableState (s.link l).state = true → (s.link l).awaited = none →
    let g := groupOf (Flit.group f % 64)
    let d := s.dirOf l
    exec (.schedFlitReceive l f true) s = .next s ∧
    (Flit.dstGen f ≠ s.lnk.gen.toNat % 65536 →
      exec (.schedFlitReceive l f false) s = .next ({ s with lnk := { s.lnk with stale := satInc s.lnk.stale } }.staleFlit g)) ∧
    (Flit.dstGen f = s.lnk.gen.toNat % 65536 → (s.group g).state ≠ 1 → exec (.schedFlitReceive l f false) s = .next s) ∧
    (Flit.dstGen f = s.lnk.gen.toNat % 65536 → (s.group g).state = 1 →
      Flit.srcGen f ≠ (vget (s.group g).gens (dirFin d)).toNat % 65536 →
      exec (.schedFlitReceive l f false) s = .next (s.staleFlit g)) ∧
    (∀ n, Flit.dstGen f = s.lnk.gen.toNat % 65536 → (s.group g).state = 1 →
      Flit.srcGen f = (vget (s.group g).gens (dirFin d)).toNat % 65536 → (s.group g).numOf ((Flit.seq f).toNat / 2 ^ 24) = some n →
      exec (.schedFlitReceive l f false) s = .next (s.modGroup g fun (q : Group) => { q with
        rx := vmod q.rx (dirFin d) fun (r : StreamRx) => r.take (streamKey n (bit (Flit.seq f).toNat 23)) ((Flit.seq f).toNat % 2 ^ 23)
          (if bit (Flit.seq f).toNat 23 || n < (s.group g).ctail.toNat then none else some (Flit.payload f)) }))) ∧
  (∀ (r : StreamRx) (key n : Nat) (held : Option (List Byte)), r.got.getD key 0 = n → r.later = [] → n < 2 ^ 22 →
    r.take key n held = { r with got := r.got.put key (n + 1), data := r.data ++ (held.map fun p => (key, n, p)).toList } ∧
    (∀ j, 0 < j → j < 2 ^ 22 → r.take key (n + j) held =
      { r with later := [(key, n + j)], data := r.data ++ (held.map fun p => (key, n + j, p)).toList }) ∧
    (∀ i, i < n → r.take key i held = r)) ∧
  (∀ (s : State) (g : GroupId) (k : Collective), (s.group g).cols = [k] → k.accepted = true → k.ending = none →
    s.staleFlit g = ({ s with col := { s.col with staleCnt := satInc s.col.staleCnt } }.modGroup g fun (q : Group) =>
      { q with cols := [{ k with ending := some stStale, hold := [] }] }).raiseBeacon bcStale) ∧
  (∀ (s : State) (l : LinkId) (f : List Byte) (t : Topo) (g : GroupId) (k : Collective),
    usableState (s.link l).state = true → (s.link l).awaited = none → Flit.slice f = s.lnk.sliceId.toNat → s.lnk.topo = some t →
    t.beDir f = none →
    ((List.finRange 64).find? (fun g => (s.group g).state == 1 && (s.group g).tx.toList.any fun y => y.be.any fun b => b.1 == Flit.seq f)
        = some g → (s.group g).cols = [k] → k.accepted = true → k.ending = none →
      exec (.staleFlitReceive l f) s =
        .next (s.modGroup g fun (q : Group) => { q with cols := [{ k with ending := some stStale, hold := [] }] })) ∧
    ((∀ g, (s.group g).state ≠ 1) → exec (.staleFlitReceive l f) s = .next s)) ∧
  (∀ (q : List (Nat × Flit)) (f : Nat × Flit), (longestWait q = none → q = []) ∧
    (longestWait q = some f → f ∈ q ∧ ∀ e ∈ q, f.1 ≤ e.1)) ∧
  (∀ s : State,
    let mayGo := s.lnk.waiting.filter fun f => Flit.kind f.2 != fkStale
    (mayGo = [] → exec (.beHoldExpiry none) s = .next s) ∧
    (∀ f, longestWait mayGo = some f →
      exec (.beHoldExpiry none) s = .next (({ s with lnk := { s.lnk with waiting := s.lnk.waiting.erase f } } : State).dropBe 1)) ∧
    (∀ l, (∀ i, vget (s.link l).queues i = []) → exec (.beHoldExpiry (some l)) s = .next s) ∧
    (∀ l f, longestWait ((s.link l).queues.toList.flatMap id) = some f → ∃ i, f ∈ vget (s.link l).queues i ∧
      exec (.beHoldExpiry (some l)) s =
        .next ((s.modLink l fun (k : Link) => { k with queues := vmod k.queues i (·.erase f) }).dropBe 1))) ∧
  (∀ (s : State) (g : GroupId) (d : BitVec 3) (n : Word) (missing : BitVec 64),
    ((s.group g).state = 0 → exec (.streamAck g d n missing) s = .next s) ∧
    ((s.group g).state ≠ 0 → ∃ t, exec (.streamAck g d n missing) s = .next t ∧
      t = { s with col := { s.col with groups := t.col.groups } } ∧ (∀ h, h ≠ g → t.group h = s.group h) ∧
      let y := vget (s.group g).tx (dirFin d.toNat)
      let z := vget (t.group g).tx (dirFin d.toNat)
      let gone := fun (q : Word) => q.toNat / 2 ^ 23 = n.toNat / 2 ^ 23 ∧ q.toNat ≤ n.toNat
      z.ready = y.ready ∧ (∀ f, f ∈ z.kept ↔ f ∈ y.kept ∧ ¬ gone (Flit.seq f)) ∧
      (∀ q, q ∈ z.again ↔ (q ∈ y.again ∧ ¬ gone q) ∨
        ∃ f ∈ z.kept, Flit.seq f = q ∧ (q - n - 1).toNat < 64 ∧ missing.getLsbD (q - n - 1).toNat = true)))

/-- The abort beacon is raised, recognised and acted on: every group aborts, and the commands of bound contexts. Rests on 10_collectives.md R288, 10_collectives.md R289, 05_commands.md R150, 05_commands.md R151. -/
def Obligations.AbortEndsTheSlice : Prop :=
  (∀ s : State, ∃ t : State, s.abortSlice = t.settle ∧
    (∀ g, (s.group g).state ≠ 0 → (t.group g).state = 2 ∧ ∀ k ∈ (t.group g).cols, k.ending ≠ none) ∧
    (∀ g, (s.group g).state = 0 → t.group g = s.group g) ∧
    (∀ c x, s.ctx? c = some x → s.col.bound.contains c.val = true → t.ctx? c = some { x with stop := true, cmds := x.cmds.map Cmd.abort }) ∧
    (∀ c, s.col.bound.contains c.val = false → t.ctx? c = s.ctx? c) ∧ t = { s with col := { s.col with groups := t.col.groups }, ctxs := t.ctxs }) ∧
  (∀ k : Cmd, (k.ending ≠ none → k.abort = k) ∧ (k.ending = none → (k.phase = .fetched ∨ k.usesField = true) →
    k.abort = { k with ending := some stAborted, killing := none, endIdx := k.stopIdx }) ∧
    (k.ending = none → k.phase ≠ .fetched → k.usesField = false → k.abort = k) ∧ (k.phase = .fetched → k.stopIdx = noOp)) ∧
  (∀ (s : State) (p : List Byte) (but : Option LinkId), let t := s.floodBeacon p but
    t = { s with lnk := t.lnk } ∧ ∀ l, let k := s.link l
      ((usableState k.state = true ∨ k.state = lsRetired) → some l ≠ but → ∃ n,
        t.link l = k.emit (({ s with lnk := { s.lnk with beSeq := n } } : State).linkFlit l fkBeacon p)) ∧
      ((usableState k.state = false ∧ k.state ≠ lsRetired) ∨ some l = but → t.link l = k)) ∧
  (∀ s : State, let p := s.beaconPayload 1
    let u := ({ s with col := { s.col with beaconTx := satInc s.col.beaconTx } } : State).floodBeacon p none
    exec .abort s = .next ({ u.abortSlice with col := { u.abortSlice.col with known := (beaconId p :: s.col.known).take 32 } }.raise 0x46 0
      (leBytes 4 1 ++ List.replicate 12 0 ++ slice p 0 24))) ∧
  (∀ (s : State) (l : LinkId) (p : List Byte), usableState (s.link l).state = true ∨ (s.link l).state = lsRetired → (s.link l).awaited = none →
    s.col.known.contains (beaconId p) = false → fieldAt p 0 2 = s.lnk.sliceId.toNat → s.ht ≤ fieldAt p 0x10 8 + 1000000 →
    let u := ({ s with col := { s.col with beaconRx := satInc s.col.beaconRx } } : State).floodBeacon p (some l)
    exec (.beaconReceive l p) s =
      .next ({ u.abortSlice with col := { u.abortSlice.col with known := (beaconId p :: s.col.known).take 32 } }.raise 0x46 0
        (leBytes 4 0 ++ List.replicate 12 0 ++ slice p 0 24))) ∧
  (∀ (s : State) (l : LinkId) (p : List Byte), (usableState (s.link l).state = false ∧ (s.link l).state ≠ lsRetired) ∨ (s.link l).awaited ≠ none ∨
    s.col.known.contains (beaconId p) = true ∨ fieldAt p 0 2 ≠ s.lnk.sliceId.toNat ∨ fieldAt p 0x10 8 + 1000000 < s.ht →
    exec (.beaconReceive l p) s = .next s)

/-- GROUP_LAUNCH makes the lowest free group or refuses, GROUP_END and GROUP_READ, doorbell and ring head. Rests on 10_collectives.md R263, 10_collectives.md R264, 10_collectives.md R265, 10_collectives.md R271, 10_collectives.md R287, 10_collectives.md R292. -/
def Obligations.GroupsLaunchAndEnd : Prop :=
  (∀ s : State, s.mbxIs 0x80 = true → s.mbx.fenced = false → s.rst.retired = false → s.rst.coreHeld = false →
    let a := slice s.mbxBytes 0 64
    let c := ctxOf (fieldAt a 0 1)
    (s.ctx? c = none ∨ s.lnk.topo = none → exec .groupLaunch s = .next (s.mbxEnd stOk [8, 0, 0, 0])) ∧
    (∀ x t, s.ctx? c = some x → s.lnk.topo = some t →
      (s.launchBad a x t = true ∨ s.planImage x t a = none ∨ (∃ p, s.planImage x t a = some p ∧ p.fabric ≠ s.profile.fabricEff) →
        exec .groupLaunch s = .next (s.mbxEnd stOk [8, 0, 0, 0])) ∧
      (∀ p, s.launchBad a x t = false → s.planImage x t a = some p → p.fabric = s.profile.fabricEff →
        ((∀ g, (s.group g).state ≠ 0) → exec .groupLaunch s = .next (s.mbxEnd stOk [4, 0, 0, 0])) ∧
        (∀ g, (s.group g).state = 0 → (s.planFree < p.total ∨ s.liveGroups.any (fun q => planConflict p.plans q.plans) = true ∨
          s.takeScratch x.fn (fieldAt a 0x28 4) = none) → exec .groupLaunch s = .next (s.mbxEnd stOk [4, 0, 0, 0])) ∧
        (∀ g : GroupId, (s.group g).state = 0 → (∀ h : GroupId, h < g → (s.group h).state ≠ 0) → p.total ≤ s.planFree →
          s.liveGroups.any (fun q => planConflict p.plans q.plans) = false → (s.takeScratch x.fn (fieldAt a 0x28 4)).isSome = true →
          ∃ (fs : List Nat) (u : State), s.takeScratch x.fn (fieldAt a 0x28 4) = some (fs, u) ∧
          exec .groupLaunch s = .next ({ (u.modGroup g fun _ => { groupReset with
              state := 1, ctx := BitVec.ofNat 8 c.val, scratch := fs, args := a, rank := boxRank t a, det := x.det
              fabric := p.fabric, beStart := p.beStart, total := p.total, plans := p.plans
              gens := Vector.ofFn fun d => if (boxDirs t a).contains d.val then (s.dirGen d.val).getD 0 else 0 }) with
            col := { (u.modGroup g fun _ => { groupReset with
              state := 1, ctx := BitVec.ofNat 8 c.val, scratch := fs, args := a, rank := boxRank t a, det := x.det
              fabric := p.fabric, beStart := p.beStart, total := p.total, plans := p.plans
              gens := Vector.ofFn fun d => if (boxDirs t a).contains d.val then (s.dirGen d.val).getD 0 else 0 }).col with
                bound := if s.col.bound.contains c.val then s.col.bound else s.col.bound ++ [c.val] } }.mbxEnd stOk (leBytes 4 (g.val * 256)))))) ) ∧
  (∀ (s : State) (fn : FnId) (n : Nat) (fs : List Nat) (u : State), s.takeScratch fn n = some (fs, u) →
    fs.length = n ∧ u = { s with frames := u.frames, mem := u.mem }) ∧
  (∀ s : State, s.mbxIs 0x81 = true → s.mbx.fenced = false → s.rst.retired = false → s.rst.coreHeld = false →
    (64 ≤ s.mbxArg 0 → exec .groupEnd s = .next (s.mbxEnd stOk [8, 0, 0, 0])) ∧
    (∀ g : GroupId, s.mbxArg 0 = g.val → (s.group g).state = 0 → exec .groupEnd s = .next (s.mbxEnd stOk [8, 0, 0, 0])) ∧
    (∀ g : GroupId, s.mbxArg 0 = g.val → (s.group g).state ≠ 0 → exec .groupEnd s = .next ((s.endGroup g).settle.mbxEnd stOk [0, 0, 0, 0]))) ∧
  (∀ (s : State) (g : GroupId), (s.endGroup g).group g = groupReset ∧ (∀ h, h ≠ g → (s.endGroup g).group h = s.group h)) ∧
  (∀ (s : State) (g : GroupId), (s.group g).cols = [] → (s.group g).scratch = [] → s.endGroup g = s.modGroup g fun _ => groupReset) ∧
  (∀ s : State, s.mbxIs 0x82 = true → s.mbx.fenced = false → s.rst.retired = false → s.rst.coreHeld = false →
    (64 ≤ s.mbxArg 0 → exec .groupRead s = .next (s.mbxEnd stBad [])) ∧
    (∀ g : GroupId, s.mbxArg 0 = g.val → (s.group g).state = 0 → exec .groupRead s = .next (s.mbxEnd stBad [])) ∧
    (∀ g : GroupId, s.mbxArg 0 = g.val → (s.group g).state ≠ 0 → exec .groupRead s = .next (s.mbxEnd stOk
      ((s.group g).args ++ ((s.group g).gens.toList.flatMap fun w => leBytes 4 w.toNat) ++ leBytes 8 (s.group g).done)))) ∧
  (∀ (s : State) (g : GroupId) (v : Word),
    ((s.group g).state = 0 → exec (.colGLdb g v) s = .next { s with hub := { s.hub with regViol := satInc s.hub.regViol } } ∧
      exec (.colGCheadWrite g v) s = .next { s with hub := { s.hub with regViol := satInc s.hub.regViol } }) ∧
    ((s.group g).state ≠ 0 → (v - (s.group g).lhead).toNat ≤ 64 → (v - (s.group g).ldb).toNat ≤ 64 →
      exec (.colGLdb g v) s = .next (s.modGroup g fun (q : Group) => { q with ldb := v })) ∧
    ((s.group g).state ≠ 0 → (64 < (v - (s.group g).lhead).toNat ∨ 64 < (v - (s.group g).ldb).toNat) →
      exec (.colGLdb g v) s = .next { s with col := { s.col with dbBad := satInc s.col.dbBad } }) ∧
    ((s.group g).state ≠ 0 → ((s.group g).ctail - v).toNat ≤ ((s.group g).ctail - (s.group g).chead).toNat →
      exec (.colGCheadWrite g v) s = .next (s.modGroup g fun (q : Group) => { q with chead := v, irqs := unconsumed q.irqs v q.ctail })) ∧
    ((s.group g).state ≠ 0 → ((s.group g).ctail - (s.group g).chead).toNat < ((s.group g).ctail - v).toNat →
      exec (.colGCheadWrite g v) s = .next { s with col := { s.col with dbBad := satInc s.col.dbBad } }))

/-- A collective is fetched, accepted, agreed on by every rank and started at a frame boundary; its record; its Canary. Rests on 10_collectives.md R271, 10_collectives.md R275, 10_collectives.md R276, 10_collectives.md R287, 05_commands.md R141. -/
def Obligations.CollectivesAcceptedAndStarted : Prop :=
  (∀ (s : State) (g : GroupId) (x : Context) (desc : List Byte),
    let q := s.group g
    let c := ctxOf q.ctx.toNat
    let k : Collective := { num := q.lhead, desc := slice desc 0 128, status := stOk, accepted := false, hold := [], entries := []
                            start := none, ending := none, endHt := 0, sent := 0, lost := false }
    let u := ((s.setTag c k.tag .pending).tallyHost c 128).modGroup g fun (q : Group) => { q with lhead := q.lhead + 1 }
    let with' := fun (s : State) (k : Collective) => s.modGroup g fun (q : Group) => { q with cols := q.cols ++ [k] }
    s.ctx? c = some x → (∀ j ∈ q.cols, j.accepted = true) → q.state ≠ 0 → q.lhead ≠ q.ldb → (q.lhead - q.chead).toNat < 64 → s.mayRequest 0 = true →
    (q.state = 2 → exec (.collectiveAccept g desc) s = .next (with' u { k with accepted := true, ending := some stAborted }).settle) ∧
    (q.state ≠ 2 → u.entryStatus x q k ≠ stOk →
      exec (.collectiveAccept g desc) s = .next ((with' u { k with status := u.entryStatus x q k }).colAccept g { k with status := u.entryStatus x q k }).settle) ∧
    (q.state ≠ 2 → u.entryStatus x q k = stOk → x.notResident (u.colPages x q k) = [] →
      exec (.collectiveAccept g desc) s = .next ((with' u { k with hold := u.colPages x q k }).colAccept g { k with hold := u.colPages x q k }).settle)) ∧
  (∀ (s : State) (g : GroupId) (desc : List Byte) (x : Context) (k : Collective), s.ctx? (ctxOf (s.group g).ctx.toNat) = some x →
    (s.group g).cols.find? (fun k => !k.accepted && k.ending.isNone) = some k →
    (x.notResident k.hold = [] → exec (.collectiveAccept g desc) s = .next (s.colAccept g k).settle) ∧
    (x.notResident k.hold ≠ [] → exec (.collectiveAccept g desc) s = .next s.settle)) ∧
  (∀ (s : State) (g : GroupId) (x : Context) (k : Collective), s.ctx? (ctxOf (s.group g).ctx.toNat) = some x → (s.group g).cols = [k] →
    (s.group g).early = [] → 2 ≤ (s.group g).count → ∃ j, ((s.colAccept g k).group g).cols = [j] ∧
      j = { k with
        accepted := true, status := if k.status = stOk then s.entryStatus x (s.group g) k else k.status
        entries := [((s.group g).rank, s.ownEntry x (s.group g) (s.acceptStatus x (s.group g) k))] } ∧
      (s.colAccept g k).tkp = (s.recordLateness ((s.ht : Int) - k.startHt)).tkp) ∧
  (∀ (s : State) (g : GroupId) (num : Byte) (d : BitVec 3) (e : List Byte) (k : Collective), (s.group g).state = 1 → entryRank e < (s.group g).count →
    entryOk e = true → (s.group g).cols = [k] → (s.group g).numOf num.toNat = some k.num.toNat → (s.group g).ctail.toNat ≤ k.num.toNat →
    (k.entries.has (entryRank e) = true → exec (.readinessEntry g num d e) s = .next s) ∧
    (k.entries.has (entryRank e) = false → exec (.readinessEntry g num d e) s = .next ((s.modGroup g fun (q : Group) =>
      { q with cols := [(s.group g).settleEntries { k with entries := k.entries.put (entryRank e) e }] }).floodEntry g k.num.toNat e (some d.toNat)))) ∧
  (∀ (s : State) (g : GroupId) (num : Byte) (d : BitVec 3) (e : List Byte) (n : Nat), (s.group g).state = 1 → entryRank e < (s.group g).count →
    entryOk e = true → (s.group g).numOf num.toNat = some n →
    (n < (s.group g).ctail.toNat → exec (.readinessEntry g num d e) s = .next s) ∧
    ((s.group g).ctail.toNat ≤ n → (s.group g).cols = [] → (s.group g).early = [] → exec (.readinessEntry g num d e) s =
      .next ((s.modGroup g fun (q : Group) => { q with early := [(n, e)] }).floodEntry g n e (some d.toNat)))) ∧
  (∀ (s : State) (g : GroupId) (num : Byte) (d : BitVec 3) (e : List Byte),
    ((s.group g).state ≠ 1 ∨ (s.group g).count ≤ entryRank e ∨ 0x0C ≤ fieldAt e 2 1) → exec (.readinessEntry g num d e) s = .next s) ∧
  (∀ (g : Group) (k : Collective), k.accepted = true → k.ending = none → k.entries.length = g.count →
    (∀ st, g.decide k = some st → g.settleEntries k = { k with ending := some st, hold := [] }) ∧ (g.decide k = none → g.settleEntries k = k)) ∧
  (∀ (s : State) (g : GroupId) (k : Collective) (x : Context) (sends : List (BitVec 3 × List Byte)), (s.group g).cols = [k] →
    (s.group g).state = 1 → k.accepted = true → k.ending = none → k.start = none → s.ctx? (ctxOf (s.group g).ctx.toNat) = some x →
    k.entries.length = (s.group g).count → s.tkp.state ≠ 0 →
    let f := frameFrom ((k.entries.map fun e => entryStart e.2).foldl max s.ht)
    let pages := s.colPages x (s.group g) k
    (x.notResident pages = [] → exec (.dataPhaseStart g sends) s =
      .next (((s.passToHt f).modGroup g fun (q : Group) => { q with cols := [{ k with
        start := some f, hold := pages, sent := (sends.map fun d => d.2.length).foldl (· + ·) 0 }] }).pushData g k.num.toNat sends)) ∧
    (x.notResident pages ≠ [] → exec (.dataPhaseStart g sends) s = .next (((s.startPageIns (ctxOf (s.group g).ctx.toNat) (x.notResident pages)).map
      fun (t : State) => t.modGroup g fun (q : Group) => { q with cols := q.cols.map fun j => if j.num == k.num then { j with hold := pages } else j }).getD s)) ∧
      f % 10000 = 0 ∧ s.ht ≤ f ∧ ∀ e ∈ k.entries, entryStart e.2 ≤ f) ∧
  (∀ (s : State) (g : GroupId) (k : Collective) (st : Byte), (s.group g).cols = [k] → k.ending = some st →
    (s.mayRequest 0 = false → exec (.collectiveComplete g) s = .next s.settle) ∧
    (s.mayRequest 0 = true → exec (.collectiveComplete g) s = .next
      (let t := ((((s.hostWrite ((s.group g).crBase + 32 * ((s.group g).ctail.toNat % 64))
        (leBytes 4 (st.toNat + k.op * 2 ^ 8 + b2n (phaseOf (s.group g).ctail 64) * 2 ^ 31) ++ leBytes 4 k.num.toNat ++ slice k.desc 8 8 ++
          leBytes 8 (k.start.getD 0) ++ leBytes 8 s.ht)).modGroup g fun (q : Group) => { q with
            ctail := q.ctail + 1, done := q.done + 1, cols := [], irqs := if k.irq then q.irqs ++ [q.ctail] else q.irqs }).modGroup g fun (q : Group) =>
              q.closeStreams k.num.toNat).tallyHost (ctxOf (s.group g).ctx.toNat) 32).setTag (ctxOf (s.group g).ctx.toNat) k.tag (.done st)
       State.settle (if k.irq then t.irqEvent (256 + g.val) else t)))) ∧
  (∀ (s : State) (g : GroupId) (k : Collective), (s.group g).cols = [k] → k.accepted = true → k.ending = none →
    let t := (s.modGroup g fun (q : Group) => { q with cols := [{ k with ending := some stTimeout, hold := [] }] }).raise 0x20 4 (leBytes 4 g.val)
    exec (.collectiveCanaryExpiry g) s = .next (if s.col.abortOnTimeout then t.raiseBeacon bcTimeout else t)) ∧
  (∀ (s : State) (g : GroupId), (s.group g).cols = [] → exec (.collectiveCanaryExpiry g) s = .next s ∧
    ∀ sends, exec (.dataPhaseStart g sends) s = .next s)

/-- The seven collectives: what each writes at DST_VA, and how partial sums combine. Rests on 10_collectives.md R273, 10_collectives.md R276, 10_collectives.md R280, 10_collectives.md R281, 10_collectives.md R282, 10_collectives.md R283, 04_seam_hoist.md R118. -/
def Obligations.CollectivesMoveAndReduce : Prop :=
  (∀ (s : State) (g : GroupId) (trees : List RedTree) (cs : List (Nat × List Byte)) (i : List SeamHit → Instr) (op : Nat) (tr : List RedTree),
    (i, op, tr) ∈ [((fun h => .allreduce g trees cs h), 1, trees), ((fun h => .reduceScatter g trees cs h), 2, trees),
      ((fun h => .allgather g cs h), 3, []), ((fun h => .allgatherv g cs h), 4, []), ((fun h => .broadcast g cs h), 5, []),
      ((fun h => .alltoall g cs h), 6, []), ((fun h => .alltoallv g cs h), 7, [])] →
    let q := s.group g
    let c := ctxOf q.ctx.toNat
    (∀ hits, q.running op = none → exec (i hits) s = .next s) ∧
    (∀ (k : Collective) (x : Context), q.running op = some k → s.ctx? c = some x →
      let out := s.colResult x q k tr cs
      let rd := (s.colBuffers x q k).1
      let wr := (s.colBuffers x q k).2.map fun (r : Nat × Nat) => (r.1, out.length)
      let v := (s.violations c (unmappedIn x false rd) false).violations c (unmappedIn x true wr) true
      let u := if s.sch.tallyC2Eff then
          v.modCtx c fun (x : Context) => { x with tally := { x.tally with fabricBytes := x.tally.fabricBytes + BitVec.ofNat 64 k.sent } }
        else v
      let moved := fun (t : State) => ((t.tallySeam c (((rd ++ wr).map fun (r : Nat × Nat) => r.2).foldl (· + ·) 0)).colEnd g k.num stOk)
      ((∀ p ∈ rangePages (rd ++ wr), pteState (x.pt.getD p 0) ≠ psPoisoned) →
        ((u.writeCommittedAt c false k.dst out).isSome = true →
          ∃ t, u.writeCommittedAt c false k.dst out = some t ∧ exec (i []) s = .next (moved t)) ∧
        (u.writeCommittedAt c false k.dst out = none → exec (i []) s = .next (u.colEnd g k.num stNoRoom)) ∧
        ((∀ p ∈ rangePages wr, pteState (x.pt.getD p 0) = psUnmapped ∨ pteState (x.pt.getD p 0) = psResident) →
          (u.writeCommittedAt c false k.dst out).isSome = true)) ∧
      ((∃ p ∈ rangePages (rd ++ wr), pteState (x.pt.getD p 0) = psPoisoned) →
        exec (i []) s = .next ((s.colEnd g k.num stFenced).raiseBeacon bcSeamUe)) ∧
      (∀ f n, (f ∈ x.framesOf (rangePages (rd ++ wr)) ∨ (k.reduces = true ∧ f ∈ q.scratch)) →
        (if s.profile.seamEccActive then 2 else 1) < n →
        exec (i [{ page := f, symbols := n }]) s = .next (((s.seamUe f).colEnd g k.num stFenced).raiseBeacon bcSeamUe)))) ∧
  (∀ (s : State) (x : Context) (q : Group) (k : Collective) (tr : List RedTree) (cs : List (Nat × List Byte)),
    let got := fun (r : Nat) => ((cs.find? fun c => c.1 == r).map (·.2)).getD []
    (k.op = 3 → s.colResult x q k tr cs = (List.range q.count).flatMap fun r =>
      if r = q.rank then s.committedBytes x k.src k.n else slice (got r) 0 k.n) ∧
    (k.op = 4 → s.colResult x q k tr cs = (List.range q.count).flatMap fun r =>
      if r = q.rank then s.committedBytes x k.src k.n else slice (got r) 0 (entryCount (k.entries.getD r []))) ∧
    (k.op = 5 → q.rank ≠ k.root → s.colResult x q k tr cs = slice (got k.root) 0 k.n) ∧
    (k.op = 5 → q.rank = k.root → s.colResult x q k tr cs = s.committedBytes x k.src k.n) ∧
    (k.op = 6 → s.colResult x q k tr cs = (List.range q.count).flatMap fun r =>
      if r = q.rank then slice (s.committedBytes x k.src (q.count * k.n)) (q.rank * k.n) k.n else slice (got r) 0 k.n) ∧
    (k.op = 1 → s.colResult x q k tr cs =
      q.reduceBytes k tr (fun r => if r = q.rank then s.ownData x q k else got r) 0 k.n) ∧
    (k.op = 2 → s.colResult x q k tr cs = q.reduceBytes k tr (fun r => if r = q.rank then s.ownData x q k else got r)
      (q.rank * k.n / q.count) ((q.rank + 1) * k.n / q.count))) ∧
  (∀ (q : Group) (k : Collective) (tr : List RedTree) (contrib : Nat → List Byte) (i : Nat),
    let leaf := fun (r : Nat) => (scalarFmt k.fmt).decode (fieldAt (contrib r) (colWidth k.fmt * i) (colWidth k.fmt))
    let f := combine k.red k.wfmt
    (q.det = 1 → q.count = 2 → q.reduceElem k tr contrib i = f (leaf 0) (leaf 1)) ∧
    (q.det = 1 → q.count = 3 → q.reduceElem k tr contrib i = f (f (leaf 0) (leaf 1)) (leaf 2)) ∧
    (q.det = 1 → q.count = 4 → q.reduceElem k tr contrib i = f (f (leaf 0) (leaf 1)) (f (leaf 2) (leaf 3))) ∧
    (q.det = 0 → ∀ a b : Nat, q.count = 2 → tr[i]? = some (.node (.leaf a) (.leaf b)) → a + b = 1 →
      q.reduceElem k tr contrib i = f (leaf a) (leaf b))) ∧
  (∀ (w : Nat) (a b : FNum), combine 0 w a b = (scalarFmt w).decode ((scalarFmt w).encode false none (rn32 (sumX [a, b]))) ∧
    combine 1 w a b = fmax a b ∧ combine 2 w a b = fmin a b)

/-- SNAP_BEGIN starts a snapshot or refuses; the freeze instant holds every page of its ranges. Rests on 11_snapshots.md R293, 11_snapshots.md R294, 11_snapshots.md R296, 11_snapshots.md R297, 11_snapshots.md R313. -/
def Obligations.SnapshotsBeginAndFreeze : Prop :=
  (∀ (s : State) (flag : List Byte), s.mbxIs 0x90 = true → s.mbx.fenced = false → s.rst.retired = false → s.rst.coreHeld = false →
    let a := slice s.mbxBytes 0 64
    let c := ctxOf (fieldAt a 0 1)
    let r := fieldAt a 0x18 2
    let full := (∀ i, (s.snap i).state ≠ 0) ∨ 2 ≤ (s.snp.slots.toList.filter fun q => q.live && q.ctx.toNat == c.val).length
    (s.snapArgsBad a = true → exec (.snapBegin flag) s = .next (s.mbxEnd stOk [8, 0, 0, 0])) ∧
    (∀ x w, s.snapArgsBad a = false → s.ctx? c = some x → x.slot? r = some w →
      (w.held = none → s.mayRequest x.fn = false → exec (.snapBegin flag) s = .next s) ∧
      (w.held = none → s.mayRequest x.fn = true → flagOwner flag = false → exec (.snapBegin flag) s = .next (s.mbxEnd stOk [8, 0, 0, 0])) ∧
      (w.held ≠ none ∨ (s.mayRequest x.fn = true ∧ flagOwner flag = true) → ∃ t, s.acquire c r flag = some t ∧
        (full → exec (.snapBegin flag) s = .next (t.mbxEnd stOk [4, 0, 0, 0])) ∧
        (¬ full → ∃ i : SnapId, (s.snap i).state = 0 ∧ (∀ j : SnapId, j < i → (s.snap j).state ≠ 0) ∧
          exec (.snapBegin flag) s = .next (((t.modSlot c r fun (w : WinSlot) => { w with busy := true }).modSnap i fun _ => { snapSlotReset with
            state := 1, ctx := BitVec.ofNat 8 c.val, gen := BitVec.ofNat 32 (fieldAt a 4 4), step := BitVec.ofNat 32 (fieldAt a 8 4), record := r
            list := (List.range (fieldAt a 0x0C 4)).map fun i => shardOf (s.committedBytes x (fieldAt a 0x10 6 + 32 * i) 32) }).mbxEnd stOk
              (leBytes 4 (i.val * 256)))))) ∧
    (s.snapArgsBad a = false → ∃ x w, s.ctx? c = some x ∧ x.slot? r = some w ∧ 512 * fieldAt a 0x0C 4 ≤ w.size)) ∧
  (∀ (s : State) (c : CtxId) (n : Nat) (flag : List Byte) (x : Context) (w : WinSlot), s.ctx? c = some x → x.slot? n = some w →
    (w.held ≠ none → s.acquire c n flag = some s) ∧ (w.held = none → flagOwner flag = false → s.acquire c n flag = none) ∧
    (w.held = none → flagOwner flag = true → s.acquire c n flag = some ((s.modSlot c n fun (w : WinSlot) => { w with
      held := some (flagSeq flag), flagLen := flagLenOf flag, flagCrc := flagCrcOf flag }).tallyHost c 16))) ∧
  (∀ (s : State) (n : SnapId), (s.snap n).state ≠ 1 ∨ s.openInProgress (s.snap n).list = true → exec (.snapshotFreeze n) s = .next s) ∧
  (∀ (s : State) (n : SnapId) (x : Context), (s.snap n).state = 1 → s.openInProgress (s.snap n).list = false →
    s.ctx? (ctxOf (s.snap n).ctx.toNat) = some x →
    ∃ t, exec (.snapshotFreeze n) s = .next t ∧ (t.snap n).state = 2 ∧ (t.snap n).ht = s.ht ∧ (t.snap n).modGen = s.lnk.gen ∧
      (t.snap n).list = (s.snap n).list ∧ (t.snap n).done = (s.snap n).done ∧ (∀ m, m ≠ n → t.snap m = s.snap m) ∧
      (∀ i h, (s.snap n).list[i]? = some h → h.kind = 2 → (t.snap n).control.get? i = some (s.controlBytes h.unit)) ∧
      (∀ h ∈ (s.snap n).list, h.isRange = true → ∀ v ∈ pagesOf h.va h.len,
        (1 ≤ pteState (x.pt.getD v 0) → pteState (x.pt.getD v 0) ≤ 5 → (t.snap n).held.has v = true) ∧
        (pteState (x.pt.getD v 0) = psResident → pteFrame (x.pt.getD v 0) < 24 * dieStride →
          pteState ((t.snap n).held.getD v 0) = psFrozen ∧ pteFrame ((t.snap n).held.getD v 0) = pteFrame (x.pt.getD v 0) ∧
          ∃ y, t.ctx? (ctxOf (s.snap n).ctx.toNat) = some y ∧ pteState (y.pt.getD v 0) = psFrozen ∧ pteFrame (y.pt.getD v 0) = pteFrame (x.pt.getD v 0))) ∧
      t.mem = s.mem ∧ t.host = s.host ∧ t.frames = s.frames ∧ t.opt = s.opt ∧ ∀ d, d ≠ ctxOf (s.snap n).ctx.toNat → t.ctx? d = s.ctx? d) ∧
  (∀ s : State, s.mbxIs 0x91 = true → s.mbx.fenced = false → s.rst.retired = false → s.rst.coreHeld = false →
    (8 ≤ s.mbxArg 0 → exec .snapRead s = .next (s.mbxEnd stBad [])) ∧
    (∀ i : SnapId, s.mbxArg 0 = i.val → exec .snapRead s = .next (s.mbxEnd stOk
      (leBytes 8 (s.snap i).ht ++ leBytes 8 (s.snap i).digested ++ leBytes 8 (s.snap i).written ++ leBytes 8 (s.snap i).endHt))))

/-- Shards are written, digested and recorded in list order; waits, cancellation, release, and the digest of a slot range. Rests on 11_snapshots.md R300, 11_snapshots.md R301, 11_snapshots.md R302, 11_snapshots.md R303, 11_snapshots.md R304, 11_snapshots.md R313, 12_host_attachment.md R330. -/
def Obligations.SnapshotsWriteAndEnd : Prop :=
  (∀ (s : State) (n : SnapId) (flag : List Byte) (x : Context) (h : Shard),
    let t := s.snap n
    let c := ctxOf t.ctx.toNat
    let bs := s.shardBytes x t t.done h
    let whole := ∀ v ∈ shardPages [h], pteState (t.held.getD v 0) ≠ psPoisoned
    let fin := fun (u : State) => let v := u.keepHeld n (shardPages (t.list.drop (t.done + 1)))
      if t.done + 1 = t.list.length then v.snapEnd n stOk else v
    let good := fun (u : State) (f : SnapSlot → SnapSlot) =>
      let r := ((u.hostWrite (x.slotAddr t.record + 512 * t.done) (u.shardRecord x t h bs ++ u.signature (u.shardRecord x t h bs))).tallyHost c 512).bumpFree
      let w := r.modSnap n fun (t : SnapSlot) => f { t with done := t.done + 1, digested := t.digested + bs.length }
      fin { w with snp := { w.snp with shardsOk := w.snp.shardsOk + 1 } }
    let more := ∃ g, t.list[t.done + 1]? = some g ∧ g.writes = true ∧ g.slot = h.slot
    s.ctx? c = some x → t.list[t.done]? = some h → t.state = 2 →
    (s.mayRequest x.fn = false → ∀ hits, exec (.shardProcess n flag hits) s = .next s) ∧
    (s.mayRequest x.fn = true →
      (h.kind = 1 → whole → exec (.shardProcess n flag []) s = .next (good (s.tallySeam c bs.length) id)) ∧
      (h.kind = 1 → ¬ whole →
        let r := ((s.tallySeam c bs.length).hostWrite (x.slotAddr t.record + 512 * t.done) (List.replicate 512 0)).tallyHost c 512
        let w := r.modSnap n fun (t : SnapSlot) => { t with done := t.done + 1, status := if t.status = stOk then stFenced else t.status }
        exec (.shardProcess n flag []) s = .next (fin { w with snp := { w.snp with shardsFail := satInc w.snp.shardsFail } })) ∧
      (h.writes = true → (h.kind = 2 ∨ whole) → (s.acquire c h.slot flag).isSome = true → ∃ a, s.acquire c h.slot flag = some a ∧
        let v := ((a.modSlot c h.slot fun (w : WinSlot) => { w with busy := true }).hostWrite (x.slotAddr h.slot + h.slotOff) bs).tallyHost c bs.length
        let u := if h.kind = 0 then v.tallySeam c bs.length else v
        let run := max t.runMax (h.slotOff + bs.length)
        (more → exec (.shardProcess n flag []) s = .next (good u fun (t : SnapSlot) => { t with
          written := t.written + bs.length, runMax := run, writing := some h.slot })) ∧
        (¬ more → exec (.shardProcess n flag []) s = .next (good (u.handback c h.slot run 0) fun (t : SnapSlot) => { t with
          written := t.written + bs.length, runMax := 0, writing := none }))) ∧
      (h.writes = true → s.acquire c h.slot flag = none → ∀ hits, exec (.shardProcess n flag hits) s = .next s))) ∧
  (∀ (s : State) (x : Context) (t : SnapSlot) (i : Nat) (h : Shard), h.kind ≠ 2 →
    s.shardBytes x t i h = (List.range h.len).map fun j => s.entryByte x (t.held.getD ((h.va + j) / pageSize) 0) ((h.va + j) % pageSize)) ∧
  (∀ (s : State) (n : SnapId) (flag : List Byte) (hits : List SeamHit), (s.snap n).state ≠ 2 → exec (.shardProcess n flag hits) s = .next s) ∧
  (∀ (s : State) (n : SnapId) (st : Byte), let u := s.snapEnd n st
    (u.snap n).state = 3 ∧ (u.snap n).held = [] ∧ (u.snap n).endHt = s.ht ∧ (u.snap n).list = (s.snap n).list ∧ (u.snap n).writing = none ∧
      (u.snap n).status = (if (s.snap n).status ≠ stOk then (s.snap n).status else if (s.snap n).list.length ≤ (s.snap n).done then stOk else st) ∧
      (∀ m, m ≠ n → u.snap m = s.snap m) ∧ u.mem = s.mem ∧
      u.evr = (s.raise 0x80 n.val (leBytes 4 ((u.snap n).status.toNat + (s.snap n).ctx.toNat * 256) ++ leBytes 4 (s.snap n).gen.toNat)).evr ∧
      ∀ x, s.ctx? (ctxOf (s.snap n).ctx.toNat) = some x →
        let owed : SnapDebt := {
          ctx := ctxOf (s.snap n).ctx.toNat, record := (s.snap n).record, count := (s.snap n).list.length
          zeros := (List.range (s.snap n).list.length).drop (s.snap n).done, slot := (s.snap n).writing }
        (s.mayRequest x.fn = false → u.snp.debts = s.snp.debts ++ [owed] ∧ u.host = s.host) ∧
        (s.mayRequest x.fn = true → s.snp.debts = [] → u.snp.debts = [] ∧ u.host = (s.payDebt owed).host)) ∧
  (∀ (s : State) (n : SnapId),
    ((s.snap n).state = 0 → exec (.cancel n) s = .next { s with hub := { s.hub with regViol := satInc s.hub.regViol } } ∧
      exec (.snapshotRelease n) s = .next { s with hub := { s.hub with regViol := satInc s.hub.regViol } }) ∧
    ((s.snap n).state = 1 ∨ (s.snap n).state = 2 → exec (.cancel n) s = .next (s.snapEnd n stKilled) ∧ exec (.snapshotRelease n) s = .next s) ∧
    ((s.snap n).state = 3 → exec (.cancel n) s = .next s ∧ exec (.snapshotRelease n) s = .next (s.modSnap n fun _ => snapSlotReset))) ∧
  (∀ (s : State) (n : SnapId) (x : Context) (h : Shard),
    let c := ctxOf (s.snap n).ctx.toNat
    s.ctx? c = some x → (s.snap n).list[(s.snap n).done]? = some h → (s.snap n).state = 2 → h.writes = true →
    (x.slot? h.slot = none ∨ (∃ w, x.slot? h.slot = some w ∧ w.held = none) →
      exec (.snapshotWaitExpiry n) s = .next ((s.snapEnd n stTimeout).raise 0x20 5 (leBytes 4 n.val))) ∧
    ∀ w, x.slot? h.slot = some w → w.held = none → ∀ flag,
      (flagOwner flag = false ∨ s.mayRequest x.fn = false → exec (.slotFlagPoll n flag) s = .next s) ∧
      (flagOwner flag = true → s.mayRequest x.fn = true → exec (.slotFlagPoll n flag) s = .next ((((s.modSlot c h.slot fun (w : WinSlot) => { w with
        held := some (flagSeq flag), flagLen := flagLenOf flag, flagCrc := flagCrcOf flag }).tallyHost c 16).modSlot c h.slot
          fun (w : WinSlot) => { w with busy := true }).modSnap n fun (t : SnapSlot) => { t with writing := some h.slot }))) ∧
  (∀ (s : State) (n : SnapId), (s.snap n).state ≠ 2 → exec (.snapshotWaitExpiry n) s = .next s ∧ ∀ flag, exec (.slotFlagPoll n flag) s = .next s) ∧
  (∀ (s : State) (flag data : List Byte), s.mbxIs 0x92 = true → s.mbx.fenced = false → s.rst.retired = false → s.rst.coreHeld = false →
    let w0 := s.mbxArg 0
    let len := fieldAt s.mbxBytes 16 8
    (bits w0 15 8 ≠ 0 ∨ s.mbxArg 1 ≠ 0 ∨ 2 ^ 30 < len ∨ s.ctx? (ctxOf (bits w0 7 0)) = none → ∀ f,
      exec (.digestSlot flag data f) s = .next (s.mbxEnd stOk [8, 0, 0, 0])) ∧
    (∀ x, bits w0 15 8 = 0 → s.mbxArg 1 = 0 → len ≤ 2 ^ 30 → s.ctx? (ctxOf (bits w0 7 0)) = some x →
      (x.slot? (bits w0 31 16) = none → ∀ f, exec (.digestSlot flag data f) s = .next (s.mbxEnd stOk [8, 0, 0, 0])) ∧
      (∀ w, x.slot? (bits w0 31 16) = some w →
        (w.p2p = true ∨ w.size < fieldAt s.mbxBytes 8 8 + len → ∀ f, exec (.digestSlot flag data f) s = .next (s.mbxEnd stOk [8, 0, 0, 0])) ∧
        (w.p2p = false → fieldAt s.mbxBytes 8 8 + len ≤ w.size →
          (s.mayRequest x.fn = false → ∀ f, exec (.digestSlot flag data f) s = .next s) ∧
          (s.mayRequest x.fn = true → w.held = none → flagOwner flag = false → ∀ f,
            exec (.digestSlot flag data f) s = .next (s.mbxEnd stOk [8, 0, 0, 0])) ∧
          (s.mayRequest x.fn = true → w.held ≠ none →
            exec (.digestSlot flag data false) s = .next ((s.tallyHost (ctxOf (bits w0 7 0)) len).mbxEnd stOk (leBytes 4 0 ++ sha384 (slice data 0 len))) ∧
            exec (.digestSlot flag data true) s = .next (s.mbxEnd stOk [7, 0, 0, 0]))))))

/-- Core and system resets: what they clear, what they spare, their causes, and how the module comes back. Rests on 13_reset_health.md R353, 13_reset_health.md R354, 13_reset_health.md R355, 13_reset_health.md R356, 13_reset_health.md R364, 01_module.md R23, 12_host_attachment.md R324, 14_identity_service.md R379, 15_power_bringup.md R412. -/
def Obligations.ResetsClearAndRestart : Prop :=
  (∀ (s : State) (counted : Bool), s.rst.inReset ≠ some true → ∃ t, exec (.coreReset counted) s = .next t ∧
    t.rst.cause = 6 ∧ t.rst.coreHeld = true ∧ t.rst.inReset = some false ∧ t.seam.zeroing = true ∧
    (∀ c, t.ctx? c = none) ∧ t.frames = [] ∧ t.mem = [] ∧ (∀ g, (t.group g).state = 0) ∧ (∀ n, (t.snap n).state = 0) ∧
    t.stb.entries = [] ∧ t.stb.models = [] ∧ t.stb.quota = s.stb.quota ∧ t.opt = optReset ∧ t.sch.holder = none ∧ t.mbx.busy = false ∧
    (s.mbx.busy = true → t.mbx.status = stFenced ∧ t.mbx.len = 0 ∧ t.mbx.valid = true) ∧
    t.lnk.gen = s.lnk.gen ∧ t.lnk.topo = s.lnk.topo ∧ (∀ l, (t.link l).state = (s.link l).state ∧ (t.link l).light = (s.link l).light) ∧
    ((∀ g, (s.group g).state ≠ 1) → t.lnk = s.lnk) ∧ t.tkp = s.tkp ∧ t.fns = s.fns ∧ t.hub = s.hub ∧ t.pwr = s.pwr ∧ t.sec = s.sec ∧ t.svc = s.svc ∧ t.cal.stored = s.cal.stored ∧
    t.hst.quotaSeam = s.hst.quotaSeam ∧ t.fld.fenced = s.fld.fenced ∧ t.rst.retired = s.rst.retired ∧
    t.profile = { s.profile with seamEccActive := s.profile.seamEcc }) ∧
  (∀ (s : State) (counted : Bool), s.rst.inReset = some true → exec (.coreReset counted) s =
    .next { s.escalate 6 counted with rst := { (s.escalate 6 counted).rst with cause := 6, detail := 0 } }) ∧
  (∀ s : State, (s.rst.inReset = some false → s.rst.retireAfter = false ∨ s.rst.retired = true →
      exec .coreResetComplete s = .next ({ s with
        rst := { s.rst with inReset := none, coreHeld := s.rst.retired, epoch := s.rst.epoch + 1 }
        seam := { s.seam with zeroing := false } }.raise 0xD0 0 (leBytes 4 s.rst.cause.toNat ++ leBytes 4 (s.rst.epoch + 1).toNat))) ∧
    (s.rst.inReset = some false → s.rst.retireAfter = true → s.rst.retired = false → ∃ t, exec .coreResetComplete s = .next t ∧
      t.rst.retired = true ∧ t.rst.coreHeld = true ∧ t.rst.cause = 11 ∧ t.rst.retireAfter = false) ∧
    (s.rst.inReset ≠ some false → exec .coreResetComplete s = .next s)) ∧
  (∀ (s : State) (i : Instr) (cause : Byte) (counted : Bool),
    (i, cause, counted) ∈ [(.systemReset counted, 5, counted), (.perstN, 2, false), (.hotResetP0, 3, false), (.dlDownP0, 4, false)] →
    (s.pwr.mainOn = true → s.pwr.hold = .none → ∃ t, exec i s = .next t ∧ t.rst.cause = cause ∧ t.rst.detail = 0 ∧ t.rst.inReset = some true ∧
      t.rst.coreHeld = true ∧ t.hub.ready = false ∧ t.lnk.gen = s.lnk.gen + 1 ∧ t.rst.epoch = s.rst.epoch + 1 ∧ t.lnk.topo = none ∧
      (∀ c, t.ctx? c = none) ∧ t.frames = [] ∧ t.mem = [] ∧ (∀ g, (t.group g).state = 0) ∧ (∀ n, (t.snap n).state = 0) ∧ t.mbx.busy = false ∧
      t.fns = fnsReset ∧ t.rst.hostFenced = false ∧ t.rst.lfence = 0 ∧ t.fld.fenced = 0 ∧ t.pwr.stage = 4 ∧ t.seam.zeroing = true ∧ t.tkp.state = 0 ∧
      t.sec.attestReady = false ∧ t.rst.retired = s.rst.retired ∧ t.cal.stored = s.cal.stored ∧ t.sec.nextBank = s.sec.nextBank ∧
      t.sec.svnMin = s.sec.svnMin ∧ t.sec.banks = s.sec.banks ∧ t.hlt.scoreSeam = s.hlt.scoreSeam ∧ t.rst.escMask = s.rst.escMask ∧
      t.pending = s.pending ∧ (∀ l, (s.link l).light = true → (t.link l).state = lsTraining) ∧ (∀ l, (s.link l).light = false → (t.link l).state = lsDown)) ∧
    (s.pwr.mainOn = false ∨ s.pwr.hold ≠ .none → ∃ t, exec i s = .next t ∧ t.rst.cause = cause ∧ t.ctxs = s.ctxs ∧ t.lnk = s.lnk ∧ t.mem = s.mem ∧
      t.hub = s.hub)) ∧
  (∀ s : State, exec .perstNDeassert s = .next { s with perst := false }) ∧
  (∀ s : State, ∃ t, exec .perstN s = .next t ∧ t.perst = true) ∧
  (∀ s : State, s.rst.inReset = some true → s.sec.islandOnly = false → s.pwr.hold = .none → s.pwr.mainOn = true →
    (s.rst.retireAfter = false ∨ s.rst.retired = true → exec .systemResetReady s = .next { s with
      rst := { s.rst with inReset := none, coreHeld := s.rst.retired }
      seam := { s.seam with zeroing := false }
      hub := { s.hub with ready := true }
      pwr := { s.pwr with stage := 6 }
      sec := { s.sec with attestReady := true, attestNo := s.sec.attestNo + 1, attestGen := s.lnk.gen } }) ∧
    (s.rst.retireAfter = true → s.rst.retired = false → ∃ t, exec .systemResetReady s = .next t ∧ t.rst.retired = true ∧ t.rst.coreHeld = true ∧
      t.hub.ready = true)) ∧
  (∀ s : State, s.rst.inReset ≠ some true ∨ s.sec.islandOnly = true ∨ s.pwr.hold ≠ .none ∨ s.pwr.mainOn = false → exec .systemResetReady s = .next s ∧ exec .startupReady s = .next s) ∧
  (∀ s : State, exec .startupReady s = exec .systemResetReady s) ∧
  (∀ (s : State) (cause : Nat) (counted : Bool),
    (counted = true ∨ (2 ≤ cause ∧ cause ≤ 12 ∧ s.rst.escMask.getLsbD cause = true) →
      let n := (((s.now / 1000000000) :: s.rst.stamps).take 15).filter fun t => s.now / 1000000000 < t + max 1 (min 86400 s.rst.escWindow.toNat)
      s.escalate cause counted = { s with rst := { s.rst with
        stamps := ((s.now / 1000000000) :: s.rst.stamps).take 15
        retireAfter := !s.rst.retired && (s.rst.retireAfter || decide (max 1 s.rst.escCount.toNat ≤ n.length)) } }) ∧
    (counted = false → (cause < 2 ∨ 12 < cause ∨ s.rst.escMask.getLsbD cause = false) → s.escalate cause counted = s))

/-- The host and link fences, the drain of a fenced domain, and the reset of a quad or a link. Rests on 13_reset_health.md R357, 13_reset_health.md R358, 13_reset_health.md R359, 13_reset_health.md R360, 13_reset_health.md R361, 13_reset_health.md R371, 13_reset_health.md Table 13.14. -/
def Obligations.FencesAndBlockResets : Prop :=
  (∀ s : State, (s.rst.hostFenced = true → exec .hostFence s = .next s) ∧
    (s.rst.hostFenced = false → exec .hostFence s = .next ({ s with rst := { s.rst with hostFenced := true } }.raise 0x23 0 (leBytes 4 6)))) ∧
  (∀ (s : State) (l : LinkId),
    (s.rst.lfence.getLsbD l.val = false → exec (.rstLfence l true) s = .next { s with rst := { s.rst with
      lfence := setBit s.rst.lfence l.val true, lfencePend := setBit s.rst.lfencePend l.val true } }) ∧
    (s.rst.lfence.getLsbD l.val = true → exec (.rstLfence l true) s = .next s) ∧
    (s.rst.lfence.getLsbD l.val = false → exec (.rstLfence l false) s = .next s) ∧
    (let t : State := { s with rst := { s.rst with lfence := setBit s.rst.lfence l.val false, lfencePend := setBit s.rst.lfencePend l.val false } };
      (s.rst.lfence.getLsbD l.val = true → s.rst.lfencePend.getLsbD l.val = true → exec (.rstLfence l false) s = .next t) ∧
      (s.rst.lfence.getLsbD l.val = true → s.rst.lfencePend.getLsbD l.val = false →
        ((s.link l).light = true → s.rst.blkBusy ≠ some (true, l.val) →
          exec (.rstLfence l false) s = .next ((t.raise 0x23 l.val (leBytes 4 1)).train l false)) ∧
        ((s.link l).light = false ∨ s.rst.blkBusy = some (true, l.val) → exec (.rstLfence l false) s = .next (t.raise 0x23 l.val (leBytes 4 1)))))) ∧
  (∀ (s : State) (works : List TimedWork),
    (∀ q : QuadId, s.fld.fenced.getLsbD q.val = true → works ≠ [] → exec (.drainExpiry (.quad q) works) s =
      .next (((works.foldl (fun (s : State) w => s.workTimeout w) s).raise 0x24 q.val (leBytes 4 0 ++ leBytes 4 works.length)).raise 0x20 7 (leBytes 4 q.val))) ∧
    (s.rst.hostFenced = true → works ≠ [] → exec (.drainExpiry .host works) s =
      .next (((works.foldl (fun (s : State) w => s.workTimeout w) s).raise 0x24 0 (leBytes 4 2 ++ leBytes 4 works.length)).raise 0x20 7 (leBytes 4 0))) ∧
    (∀ l : LinkId, s.linkOut l = true → works ≠ [] ∨ (s.link l).queued ≠ 0 → exec (.drainExpiry (.link l) works) s =
      .next (((works.foldl (fun (s : State) w => s.workTimeout w) (s.dropQueued l)).raise 0x24 l.val
        (leBytes 4 1 ++ leBytes 4 works.length)).raise 0x20 7 (leBytes 4 l.val))) ∧
    (∀ q : QuadId, s.fld.fenced.getLsbD q.val = false ∨ works = [] → exec (.drainExpiry (.quad q) works) s = .next s) ∧
    (s.rst.hostFenced = false ∨ works = [] → exec (.drainExpiry .host works) s = .next s) ∧
    (∀ l : LinkId, s.linkOut l = false ∨ (works = [] ∧ (s.link l).queued = 0) → exec (.drainExpiry (.link l) works) s = .next s)) ∧
  (∀ (s : State) (l : LinkId), let t := s.dropQueued l
    (t.link l).control = [] ∧ (∀ q, vget (t.link l).queues q = []) ∧ t.lnk.beDrop = satAdd s.lnk.beDrop (s.link l).queued ∧
      (t.link l).state = (s.link l).state ∧ ∀ m, m ≠ l → t.link m = s.link m) ∧
  (∀ (s : State) (target : BitVec 5) (k : Bool), s.rst.blkBusy ≠ none ∨ (if k then 24 else 6) ≤ target.toNat →
    exec (.blockReset target k) s = .next { s with rst := { s.rst with blkTarget := target, blkKind := k } }) ∧
  (∀ (s : State) (target : BitVec 5), s.rst.blkBusy = none → target.toNat < 6 → ∃ t, exec (.blockReset target false) s = .next t ∧
    t.rst = { s.rst with blkTarget := target, blkKind := false, blkBusy := some (false, target.toNat) } ∧
    (∀ c x v, s.ctx? c = some x → (pteState (x.pt.getD v 0) = psResident ∨ pteState (x.pt.getD v 0) = psFrozen ∨ pteState (x.pt.getD v 0) = psTransit) →
      pteFrame (x.pt.getD v 0) / dieStride / 4 = target.toNat → ∃ y, t.ctx? c = some y ∧ pteState (y.pt.getD v 0) = psPoisoned) ∧
    (∀ c x v, s.ctx? c = some x → x.pt.get? v ≠ none → pteFrame (x.pt.getD v 0) / dieStride / 4 ≠ target.toNat →
      ∃ y, t.ctx? c = some y ∧ y.pt.get? v = x.pt.get? v) ∧
    (∀ p ∈ t.hst.pageIns, p ∈ s.hst.pageIns ∧ p.frame / dieStride / 4 ≠ target.toNat) ∧ t.host = s.host ∧ t.lnk = s.lnk ∧
    t.fld = s.fld.forgetQuad target.toNat ∧
    (∀ g k, k ∈ (s.group g).cols → k.start.isSome = true → k.ending = none → s.touchesQuad (s.group g) k target.toNat = true →
      { k with lost := true } ∈ (t.group g).cols) ∧
    (∀ c k, s.holderIn target.toNat = some (c, k) → ∀ x, s.ctx? c = some x → x.cmd? k.seq = some k → ∃ j, t.cmd? c k.seq = some j ∧ j.stalled ≠ [])) ∧
  (∀ (s : State) (target : BitVec 5), s.rst.blkBusy = none → target.toNat < 24 → ∃ t, exec (.blockReset target true) s = .next t ∧
    t.rst = { s.rst with blkTarget := target, blkKind := true, blkBusy := some (true, target.toNat) } ∧
    (t.link (linkOf target.toNat)).state = lsDown ∧ (t.link (linkOf target.toNat)).light = (s.link (linkOf target.toNat)).light ∧
    (∀ m, m ≠ linkOf target.toNat → (t.link m).state = (s.link m).state) ∧ t.mem = s.mem ∧ t.host = s.host ∧ t.ctxs = s.ctxs) ∧
  (∀ s : State, let t : State := { s with rst := { s.rst with blkBusy := none } };
    (s.rst.blkBusy = none → exec .blockResetDone s = .next t) ∧ (∀ q, s.rst.blkBusy = some (false, q) → exec .blockResetDone s = .next t) ∧
    (∀ l : LinkId, s.rst.blkBusy = some (true, l.val) →
      ((s.link l).light = true → s.rst.lfence.getLsbD l.val = false → (s.link l).state = lsDown → exec .blockResetDone s = .next (t.train l false)) ∧
      ((s.link l).light = false ∨ s.rst.lfence.getLsbD l.val = true ∨ (s.link l).state ≠ lsDown → exec .blockResetDone s = .next t)))

/-- The Field, mailbox and overseer Canaries, self-faults, limit parity, and the long press that retires. Rests on 13_reset_health.md R361, 13_reset_health.md R362, 13_reset_health.md R363, 13_reset_health.md R365, 13_reset_health.md R366, 13_reset_health.md Table 13.14. -/
def Obligations.CanariesExpireAndRetire : Prop :=
  (∀ s : State, (s.holder? = none → exec .fieldProgressExpiry s = .next s) ∧
    (∀ c x k, s.holder? = some (c, x, k) → exec .fieldProgressExpiry s =
      .next ((({ s with fld := { s.fld with
        frozen := true
        frozenOp := if s.fld.frozen then s.fld.frozenOp else some (BitVec.ofNat 32 k.opNumber) } }).endWith c k.seq stTimeout k.opNumber).raise 0x20 6 (leBytes 4 c.val)))) ∧
  (∀ s : State, (s.mbx.busy = true → exec .mailboxCanaryExpiry s = .next ((s.mbxEnd stTimeout []).raise 0x20 8 (leBytes 4 0))) ∧
    (s.mbx.busy = false → exec .mailboxCanaryExpiry s = .next s)) ∧
  (∀ (s : State) (h : Fin 4), exec (.overseerCanaryExpiry h) s = .next ((s.raise 0x20 (9 + h.val) (leBytes 4 h.val)).systemStart 7 h.val false)) ∧
  (∀ (s : State) (k : CanaryOf),
    let t := { s with rst := { s.rst with
      selfFaults := satInc s.rst.selfFaults, lastCanary := BitVec.ofNat 8 (canaryId k), lastKind := false } }.raise 0x21 (canaryId k) (leBytes 4 (s.canaryObject k))
    exec (.canarySelfFault k) s = .next (t.selfFaultAct k) ∧
    (k = .fieldProgress → s.canaryObject k = (match s.sch.holder with
      | some h => h.ctx.val
      | none => 0)) ∧
    (∀ c, k = .commandWait c ∨ k = .commandRun c ∨ k = .step c → s.canaryObject k = c.val ∧
      t.selfFaultAct k = (t.modCtx c fun (x : Context) => { x with
        fenced := true, stop := true
        cmds := x.cmds.map fun (j : Cmd) => if j.ending.isSome then j
          else { j with ending := some stFenced, killing := none, endIdx := j.stopIdx } }).settle) ∧
    (∀ g, k = .collective g → ((s.group g).state = 0 → t.selfFaultAct k = t) ∧
      ((s.group g).state ≠ 0 → t.selfFaultAct k = t.modGroup g fun (q : Group) => { q with
        state := 2
        cols := q.cols.map fun (j : Collective) => if j.ending.isSome then j else { j with ending := some stFenced, hold := [] } })) ∧
    (∀ n, k = .snapshotWait n → ((s.snap n).state = 1 ∨ (s.snap n).state = 2 → t.selfFaultAct k = t.snapEnd n stFenced) ∧
      ((s.snap n).state = 0 ∨ (s.snap n).state = 3 → t.selfFaultAct k = t)) ∧
    (k = .fieldProgress → t.selfFaultAct k = t.freeze) ∧ (k = .mailbox → t.selfFaultAct k = { t with mbx := { t.mbx with fenced := true } }) ∧
    (∀ h : Fin 4, k = .overseer h → t.selfFaultAct k = t.systemStart 7 h.val false) ∧
    (∀ d w, k = .drain d w → (s.domainFenced d = true → t.selfFaultAct k = t.drainAnswer d w) ∧ (s.domainFenced d = false → t.selfFaultAct k = t))) ∧
  (∀ (s : State) (r : LimitReg),
    let t : State := if s.rst.badParity.contains (limitOffset r) then s else State.raise { s with rst := { s.rst with
      badParity := limitOffset r :: s.rst.badParity, parity := satInc s.rst.parity, lastCanary := BitVec.ofNat 8 (limitCanary r), lastKind := true
      lastOffset := BitVec.ofNat 20 (limitOffset r) } } 0x22 (limitCanary r) (leBytes 4 (limitOffset r))
    (r = .guard ∨ r = .holdover → exec (.parityFault r) s = .next t ∧ t.schedAllowed = false) ∧
    (r = .fieldProgress → exec (.parityFault r) s = exec .fieldProgressExpiry t) ∧ (r = .runLimit → exec (.parityFault r) s = exec .runLimitExpiry t) ∧
    (∀ c, r = .stepMax c → exec (.parityFault r) s = exec (.stepMaxExpiry c) t) ∧
    (r = .overseer → exec (.parityFault r) s = exec (.overseerCanaryExpiry 0) t) ∧
    (r = .snapWait → exec (.parityFault r) s = .next ((List.finRange 8).foldl (fun (u : State) n => u.snapTimeout n) t)) ∧
    (r = .colCanary → exec (.parityFault r) s = .next ((List.finRange 64).foldl (fun (u : State) g => u.colCanary g) t)) ∧
    (r = .drain → (∀ l, t.linkOut l = false ∨ (t.link l).queued = 0) → exec (.parityFault r) s = .next t) ∧
    (r = .waitLimit → (∀ c x, t.ctx? c = some x → x.cmds = []) → exec (.parityFault r) s = .next t) ∧
    ∃ u, exec (.parityFault r) s = .next u) ∧
  (∀ s : State, s.rst.retired = false → ∃ t, exec .attnLongPress s = .next t ∧ t.svc.longPresses = satInc s.svc.longPresses ∧ t.rst.hostFenced = true ∧
    t.rst.retired = true ∧ t.rst.coreHeld = true ∧ t.rst.cause = 9 ∧ (∀ c, t.ctx? c = none) ∧ t.frames = [] ∧ t.mem = [] ∧ (∀ g, (t.group g).state = 0) ∧
    t.col.beaconTx = 0 ∧ (∀ l, (s.link l).light = true → usableState (s.link l).state = true → (t.link l).state = lsRetired) ∧ t.lnk.gen = s.lnk.gen ∧
    t.hub = s.hub ∧ t.rst.retireAfter = false ∧ (s.rst.escMask.getLsbD 9 = false → t.rst.stamps = s.rst.stamps) ∧
    (s.rst.escMask.getLsbD 9 = true → t.rst.stamps = ((s.now / 1000000000) :: s.rst.stamps).take 15) ∧ t.cal = s.cal ∧ t.sec = s.sec) ∧
  (∀ s : State, s.rst.retired = true → s.rst.hostFenced = true →
    let u : State := { s with svc := { s.svc with longPresses := satInc s.svc.longPresses } };
    exec .attnLongPress s = .next { u.escalate 9 false with rst := { (u.escalate 9 false).rst with cause := 9, detail := 0 } })

/-- Rail warnings and faults, the loss and return of the auxiliary feed, and the closing of the input switch. Rests on 15_power_bringup.md R401, 15_power_bringup.md R402, 15_power_bringup.md R403, 15_power_bringup.md R411, 14_identity_service.md R380, 14_identity_service.md R385, 14_identity_service.md R387, 13_reset_health.md R353, 15_power_bringup.md Table 15.10. -/
def Obligations.RailsAndAuxiliaryPower : Prop :=
  (∀ (s : State) (clipB : Bool) (volts : Nat),
    let warn := decide (volts < 5000 ∨ 5800 < volts)
    let t : State := if clipB then { s with pwr := { s.pwr with vb := BitVec.ofNat 16 volts, railWarnB := warn } }
      else { s with pwr := { s.pwr with va := BitVec.ofNat 16 volts, railWarnA := warn } };
    ((if clipB then s.pwr.railWarnB else s.pwr.railWarnA) = warn → exec (.railWarning clipB volts) s = .next t) ∧
    ((if clipB then s.pwr.railWarnB else s.pwr.railWarnA) ≠ warn →
      exec (.railWarning clipB volts) s = .next (t.raise 0xF3 (if clipB then 1 else 0) (leBytes 4 (if warn then 1 else 0) ++ leBytes 4 volts)))) ∧
  (∀ (s : State) (clipB : Bool) (volts : Nat),
    (s.pwr.mainOn = false ∨ (4700 ≤ volts ∧ volts ≤ 6000) → exec (.railFault clipB volts) s = .next s) ∧
    (s.pwr.mainOn = true → volts < 4700 ∨ 6000 < volts → ∃ t, exec (.railFault clipB volts) s = .next t ∧
      t.rst.hostFenced = true ∧ t.pwr.mainOn = false ∧ t.pwr.hold = .rail ∧ t.pwr.stage = 7 ∧ t.pwr.railA = (!clipB) ∧ t.pwr.railB = clipB ∧
      t.pwr.trip = false ∧ t.pwr.railFaults = satInc s.pwr.railFaults ∧ t.rst.inReset = some true ∧ t.rst.coreHeld = true ∧ t.hub.ready = false ∧
      (∀ c, t.ctx? c = none) ∧ t.frames = [] ∧ t.mem = [] ∧ (∀ g, (t.group g).state = 0) ∧ t.lnk.gen = s.lnk.gen ∧ t.rst.cause = s.rst.cause ∧
      t.rst.epoch = s.rst.epoch ∧ t.rst.retired = s.rst.retired ∧ t.cal.stored = s.cal.stored ∧ t.sec.svnMin = s.sec.svnMin ∧
      t.sec.nextBank = s.sec.nextBank ∧ t.pwr.auxOn = s.pwr.auxOn ∧ t.pending = s.pending)) ∧
  (∀ s : State, ∃ t, exec .powerOn s = .next t ∧ exec .auxLoss s = .next { t with pwr := { t.pwr with auxOn := false } } ∧
    t.pwr = pwrReset ∧ t.rst = { rstReset with retired := s.rst.retired, coreHeld := s.rst.retired } ∧ t.hub = hubReset ∧ t.tkp = tkpReset ∧
    (∀ c, t.ctx? c = none) ∧ t.frames = [] ∧ t.mem = [] ∧ t.fld = fldReset ∧ t.col = colReset ∧ t.snp = snpReset ∧ t.now = 0 ∧ t.lnk.gen = s.lnk.gen ∧
    (∀ l, (t.link l).state = lsDown ∧ (t.link l).light = (s.link l).light) ∧ t.sec.nextBank = s.sec.nextBank ∧ t.sec.svnMin = s.sec.svnMin ∧
    t.sec.banks = s.sec.banks ∧ t.host = s.host ∧ t.pending = s.pending ∧ t.cal.writing = none ∧
    (s.cal.writing = none → t.cal.stored = s.cal.stored ∧ t.cal.torn = s.cal.torn ∧ t.cal.writes = s.cal.writes ∧ t.cal.origin = s.cal.origin) ∧
    (s.cal.writing ≠ none → t.cal.torn = true)) ∧
  (∀ s : State, (s.pwr.auxOn = false ∨ s.pwr.stage ≠ 0 → exec .auxReady s = .next s) ∧
    (s.pwr.auxOn = true → s.pwr.stage = 0 → ∃ t, exec .auxReady s = .next t ∧ t = { s with pwr := { s.pwr with stage := 1 }, cal := t.cal, sec := t.sec } ∧
      t.cal.stored = s.cal.stored ∧ t.cal.pendingWrite = false ∧ t.cal.loaded = t.cal.offsets ∧
      (s.cal.torn = false → (∀ b, s.cal.stored = some b → calImageOk b = true) → t.cal.calBad = false ∧ t.cal.loaded = .image s.cal.stored) ∧
      (s.cal.torn = true ∨ (∃ b, s.cal.stored = some b ∧ calImageOk b = false) → t.cal.calBad = true ∧ t.cal.loaded = .nominal) ∧
      (s.bankOk s.sec.nextBank = true → t.sec.bank = s.sec.nextBank ∧ t.sec.fwFallback = false ∧ t.sec.islandOnly = false) ∧
      (s.bankOk s.sec.nextBank = false → s.bankOk (!s.sec.nextBank) = true →
        t.sec.bank = (!s.sec.nextBank) ∧ t.sec.fwFallback = true ∧ t.sec.islandOnly = false) ∧
      (s.bankOk s.sec.nextBank = false → s.bankOk (!s.sec.nextBank) = false → t.sec.fwFallback = false ∧ t.sec.islandOnly = true) ∧
      t.sec.svn = (s.bankOf t.sec.bank).svn ∧ t.sec.staged = false ∧ t.sec.attestReady = false ∧ t.sec.svnMin = s.sec.svnMin ∧ t.sec.banks = s.sec.banks)) ∧
  (∀ (s : State) (va vb : Nat),
    let u : State := { s with pwr := { s.pwr with va := BitVec.ofNat 16 va, vb := BitVec.ofNat 16 vb } };
    (va < 5000 ∨ 5800 < va ∨ vb < 5000 ∨ 5800 < vb → exec (.mainPowerInRange va vb) s = .next s) ∧
    (5000 ≤ va → va ≤ 5800 → 5000 ≤ vb → vb ≤ 5800 →
      (s.pwr.hold = .none → s.pwr.stage = 1 → s.pwr.mainOn = false → ∃ t, exec (.mainPowerInRange va vb) s = .next t ∧
        t.pwr = { u.pwr with mainOn := true, stage := 4 } ∧ t.lnk.gen = s.lnk.gen + 1 ∧ t.rst = { s.rst with inReset := some true, coreHeld := true } ∧
        t.seam.zeroing = true ∧ (∀ l, (s.link l).light = true → (t.link l).state = lsTraining) ∧
        (∀ l, (s.link l).light = false → (t.link l).state = (s.link l).state) ∧ t.ctxs = s.ctxs ∧ t.sec = s.sec ∧ t.cal = s.cal ∧ t.hub = s.hub) ∧
      (s.pwr.hold = .none → s.pwr.stage ≠ 1 ∨ s.pwr.mainOn = true → exec (.mainPowerInRange va vb) s = .next u) ∧
      (∀ cause : Byte, s.pwr.hold = .rail → s.pwr.onAsked = some cause → ∃ t, exec (.mainPowerInRange va vb) s = .next t ∧ t.pwr.hold = .none ∧
        t.pwr.onAsked = none ∧ t.pwr.mainOn = true ∧ t.pwr.stage = 4 ∧ t.rst.cause = cause ∧ t.rst.detail = 0 ∧ t.rst.inReset = some true ∧
        t.rst.hostFenced = false ∧ t.lnk.gen = s.lnk.gen + 1 ∧ t.rst.epoch = s.rst.epoch + 1 ∧ t.hub.ready = false) ∧
      (s.pwr.hold = .trip ∨ (s.pwr.hold = .rail ∧ s.pwr.onAsked = none) → exec (.mainPowerInRange va vb) s = .next u)))

/-- The thermal trip and its release, and the test that sets the Field clock. Rests on 15_power_bringup.md R404, 15_power_bringup.md R405, 15_power_bringup.md R406, 13_reset_health.md R370, log entry 46. -/
def Obligations.TripsAndTheFieldClock : Prop :=
  (∀ (s : State) (temps : List Int),
    let u : State := s.readTemps temps
    (u = { s with pwr := { s.pwr with raws := u.pwr.raws, temps := u.pwr.temps } }) ∧
    (∀ i : Fin 64, vget u.pwr.raws i = temps.getD i.val 0 ∧ vget u.pwr.temps i = temps.getD i.val 0 + s.cal.offsets.offset i.val) ∧
    (u.pwr.hottest.2 < 64 * 110 ∨ s.pwr.hold ≠ .none → exec (.thermalTrip temps) s = .next u) ∧
    (64 * 110 ≤ u.pwr.hottest.2 → s.pwr.hold = .none → ∃ t, exec (.thermalTrip temps) s = .next t ∧ t.rst.hostFenced = true ∧ t.pwr.hold = .trip ∧
      t.pwr.stage = 7 ∧ t.pwr.trip = true ∧ t.pwr.railA = false ∧ t.pwr.railB = false ∧ t.rst.inReset = some true ∧ t.rst.coreHeld = true ∧
      t.hub.ready = false ∧ (∀ c, t.ctx? c = none) ∧ t.mem = [] ∧ (∀ g, (t.group g).state = 0) ∧ t.lnk.gen = s.lnk.gen ∧ t.pwr.mainOn = s.pwr.mainOn ∧
      t.pwr.trips = s.pwr.trips ∧ t.rst.cause = s.rst.cause ∧ t.rst.retired = s.rst.retired ∧ t.cal.stored = s.cal.stored ∧ t.pending = s.pending) ∧
    (s.pwr.hold = .trip → u.pwr.hottest.2 < 64 * 70 → s.pwr.mainOn = true → ∃ t, exec (.thermalRelease temps) s = .next t ∧ t.pwr.hold = .none ∧
      t.pwr.trips = satInc s.pwr.trips ∧ t.rst.cause = 8 ∧ t.rst.detail = 0 ∧ t.rst.inReset = some true ∧ t.pwr.stage = 4 ∧ t.rst.hostFenced = false ∧
      t.lnk.gen = s.lnk.gen + 1 ∧ t.rst.epoch = s.rst.epoch + 1 ∧ t.rst.retired = s.rst.retired) ∧
    (s.pwr.hold = .trip → u.pwr.hottest.2 < 64 * 70 → s.pwr.mainOn = false → ∃ t, exec (.thermalRelease temps) s = .next t ∧
      t.pwr = { u.pwr with hold := .none, stage := 1, trips := satInc s.pwr.trips } ∧ t.rst.cause = 8 ∧ t.ctxs = s.ctxs ∧ t.lnk = s.lnk) ∧
    (s.pwr.hold ≠ .trip ∨ 64 * 70 ≤ u.pwr.hottest.2 → exec (.thermalRelease temps) s = .next u)) ∧
  (∀ (p : Pwr), (∀ i : Fin 64, vget p.temps i ≤ p.hottest.2) ∧ ∃ i : Fin 64, p.hottest = (i.val, vget p.temps i)) ∧
  (∀ (s : State) (r : Readings),
    let u : State := { s.readTemps r.temps with pwr := { (s.readTemps r.temps).pwr with
      watts := BitVec.ofNat 16 r.watts, va := BitVec.ofNat 16 r.va, vb := BitVec.ofNat 16 r.vb, ia := BitVec.ofNat 16 r.ia
      ib := BitVec.ofNat 16 r.ib, auxMv := BitVec.ofNat 16 r.auxMv, energyTenths := s.pwr.energyTenths + r.watts } }
    let hot := u.pwr.hottest.2
    let f := if s.pwr.fclk = 0 then 950 else s.pwr.fclk.toNat
    let limit := powerLimit s.profile.envelopeEff
    let top := ceilingOf s.profile.envelopeEff s.profile.clockingEff
    let steady := s.profile.clockingEff
    let begins := 64 * 102 ≤ hot ∨ 700 < r.ia ∨ 700 < r.ib ∨ (steady = true ∧ 105 * limit < 100 * r.watts10)
    let spent := hot < 64 * 95 ∧ r.ia < 660 ∧ r.ib < 660 ∧ r.watts ≤ limit
    let emergency := (s.pwr.emerg = false ∧ begins) ∨ (s.pwr.emerg = true ∧ ¬ spent)
    (s.pwr.hold ≠ .none ∨ (hot < 64 * 110 ∧ s.pwr.mainOn = false) → exec (.fclkControlTest r) s = .next u) ∧
    (64 * 110 ≤ hot → s.pwr.hold = .none → ∃ t, exec (.fclkControlTest r) s = .next t ∧ t.pwr.hold = .trip) ∧
    (hot < 64 * 110 → s.pwr.mainOn = true → s.pwr.hold = .none → s.profile.clockPending = true → ∃ t, exec (.fclkControlTest r) s = .next t ∧
      t = { u with pwr := t.pwr, evr := t.evr, freeCtr := s.freeCtr + 1 } ∧ t.pwr.fclk.toNat ≤ f) ∧
    (hot < 64 * 110 → s.pwr.mainOn = true → s.pwr.hold = .none → s.profile.clockPending = false → ∃ t, exec (.fclkControlTest r) s = .next t ∧
      t = { u with pwr := t.pwr, evr := t.evr, freeCtr := s.freeCtr + 1 } ∧ (∀ q : Fin 4, q ≠ 3 → vget t.evr q = vget s.evr q) ∧
      (emergency → t.pwr.fclk = 950 ∧ t.pwr.emerg = true ∧ t.pwr.throttle = s.pwr.throttle ∧
        t.pwr.emergs = if s.pwr.emerg then s.pwr.emergs else satInc s.pwr.emergs) ∧
      (¬ emergency → t.pwr.emerg = false ∧ t.pwr.emergs = s.pwr.emergs) ∧
      (¬ emergency → steady = true → t.pwr.fclk = BitVec.ofNat 12 top) ∧
      (¬ emergency → steady = false → 64 * 95 ≤ hot ∨ limit < r.watts → t.pwr.fclk = BitVec.ofNat 12 (min (max 950 (f - 25)) top)) ∧
      (¬ emergency → steady = false → hot < 64 * 92 → 100 * r.watts < 97 * limit → 10 ≤ s.pwr.sinceRise + 1 →
        t.pwr.fclk = BitVec.ofNat 12 (min (f + 25) top)) ∧
      (¬ emergency → steady = false → hot < 64 * 95 → r.watts ≤ limit → 64 * 92 ≤ hot ∨ 97 * limit ≤ 100 * r.watts ∨ s.pwr.sinceRise + 1 < 10 →
        t.pwr.fclk = BitVec.ofNat 12 (min f top)) ∧
      (t.pwr.throttleUs = if s.pwr.fclk ≠ 0 ∧ f < top then s.pwr.throttleUs + 100 else s.pwr.throttleUs) ∧
      (t.pwr.throttle = s.pwr.throttle → t.pwr.emerg = s.pwr.emerg → t.evr = s.evr)))

/-- The cooling estimate and warning; what TEMP_READ, ENERGY_READ, HEALTH_READ, ESC_READ and ESC_CLEAR answer. Rests on 15_power_bringup.md R408, 15_power_bringup.md R416, 13_reset_health.md R376, 13_reset_health.md R364, 15_power_bringup.md Table 15.10, log entry 47. -/
def Obligations.CoolingWarningsAndTheIslandsReads : Prop :=
  (∀ (s : State) (inlet outlet : Int) (watts : Nat),
    let u : State := { s with pwr := { s.pwr with inlet := inlet, outlet := outlet, flow := flowOf s.freeCtr watts (outlet - inlet) }, freeCtr := s.freeCtr + 1 }
    let bad : Fin 3 → Bool := fun i => if i = 0 then decide (64 * (s.pwr.inletWarn.toNat : Int) < inlet)
      else if i = 1 then decide (64 * (s.pwr.outletWarn.toNat : Int) < outlet) else decide (u.pwr.flow.toNat < 10 * max 1 s.pwr.flowWarn.toNat)
    let held : Fin 3 → Nat := fun i => if bad i then vget s.pwr.coolRun i + 1 else 0
    let quiet := if bad 0 || bad 1 || bad 2 then 0 else s.pwr.coolQuiet + 1
    let warn := if s.pwr.coolWarn then decide (quiet < 10) else decide (10 ≤ held 0 ∨ 10 ≤ held 1 ∨ 10 ≤ held 2)
    let t : State := { u with pwr := { u.pwr with coolRun := Vector.ofFn held, coolQuiet := quiet, coolWarn := warn } };
    (warn = s.pwr.coolWarn → exec (.coolingUpdate inlet outlet watts) s = .next t) ∧
    (warn ≠ s.pwr.coolWarn → exec (.coolingUpdate inlet outlet watts) s = .next (t.raise 0xF2 0
      (leBytes 4 (if warn then 1 else 0) ++ leBytes 4 t.pwr.coolWord.toNat ++ leBytes 4 u.pwr.flow.toNat)))) ∧
  (∀ (n watts : Nat) (rise : Int), (watts < 2000 → flowOf n watts rise = 0xFFFF) ∧
    (2000 ≤ watts → 0 < rise → 64000 * watts / (697 * rise.toNat) ≤ 65535 → (flowOf n watts rise).toNat = 64000 * watts / (697 * rise.toNat))) ∧
  (∀ (s : State) (i : Instr) (code : Byte) (bs : List Byte),
    (i, code, bs) ∈ [
      (.tempRead, (0xF0 : Byte), s.pwr.temps.toList.flatMap (fun n => leBytes 2 (BitVec.ofInt 16 n).toNat) ++
        leBytes 2 (BitVec.ofInt 16 s.pwr.inlet).toNat ++ leBytes 2 (BitVec.ofInt 16 s.pwr.outlet).toNat),
      (.energyRead, 0xF1, leBytes 8 (s.pwr.energyTenths / 10) ++ leBytes 8 s.ht),
      (.healthRead, 0xA0, s.hlt.scoreSeam.toList.flatMap (fun w => leBytes 4 w.toNat) ++ s.hlt.scoreLink.toList.flatMap (fun w => leBytes 4 w.toNat) ++
        s.hlt.scorePort.toList.flatMap (fun w => leBytes 4 w.toNat) ++ leBytes 4 s.hlt.overSeam.toNat ++ leBytes 4 s.hlt.overLink.toNat ++
        leBytes 4 s.hltStatus.toNat),
      (.escRead, 0xA1, leBytes 4 s.escCfg.toNat ++ leBytes 4 s.escRecent ++ leBytes 4 s.islandTime ++
        (List.range 15).flatMap (fun n => leBytes 4 (s.rst.stamps.getD n 0)))] →
    (s.mbx.busy = true → s.mbx.running.toNat = code.toNat → s.mbx.fenced = false → exec i s = .next (s.mbxEnd stOk bs)) ∧
    (s.mbx.busy = true → s.mbx.running.toNat = code.toNat → s.mbx.fenced = true → exec i s = .next (s.mbxEnd stFenced [])) ∧
    (s.mbx.busy = false ∨ s.mbx.running.toNat ≠ code.toNat → exec i s = .next s)) ∧
  (∀ s : State, (s.mbx.busy = true → s.mbx.running.toNat = 0xA2 → s.mbx.fenced = false →
      exec .escClear s = .next (State.mbxEnd { s with rst := { s.rst with stamps := [] } } stOk [0, 0, 0, 0])) ∧
    (s.mbx.busy = true → s.mbx.running.toNat = 0xA2 → s.mbx.fenced = true → exec .escClear s = .next (s.mbxEnd stFenced [])) ∧
    (s.mbx.busy = false ∨ s.mbx.running.toNat ≠ 0xA2 → exec .escClear s = .next s))

/-- One island second: every score decays and adds its weighted counters, OVER sets at the threshold and clears below half. Rests on 13_reset_health.md R367, 13_reset_health.md R368, 13_reset_health.md Table 13.8. -/
def Obligations.HealthScoresMove : Prop :=
  (∀ (s : State) (p0 p1 : Nat),
    let grown : Word → Nat → Nat := fun old sum => min 0xFFFFFFFF (old.toNat - old.toNat / 2 ^ max 1 s.hlt.shift.toNat + sum)
    let raised : Bool → Nat → Word → Bool := fun was score thr =>
      if was then decide (max 1 thr.toNat ≤ 2 * score) else decide (max 1 thr.toNat ≤ score)
    let d := s.hlt.counted
    let ofDie : DieId → Nat := fun i => grown (vget s.hlt.scoreSeam i) (s.hlt.wCe.toNat * vget d.ce i + s.hlt.wUncorr.toNat * vget d.ue i)
    let ofLink : LinkId → Nat := fun l => grown (vget s.hlt.scoreLink l) (s.hlt.wRetry.toNat * vget d.retry l +
      s.hlt.wRetrain.toNat * vget d.retrain l + s.hlt.wFecu.toNat * vget d.fecu l + s.hlt.wLanedrop.toNat * vget d.drop l)
    let ofPort : Fin 2 → Nat := fun p => grown (vget s.hlt.scorePort p) (s.hlt.wPcie.toNat * (if p = 0 then p0 else p1))
    ∃ t, exec (.healthUpdate p0 p1) s = .next t ∧
      t = { s.pass ((s.islandTime + 1) * 1000000000 - s.now) with hlt := t.hlt, evr := t.evr } ∧
      t.hlt = { s.hlt with scoreSeam := t.hlt.scoreSeam, scoreLink := t.hlt.scoreLink, scorePort := t.hlt.scorePort, overSeam := t.hlt.overSeam
                           overLink := t.hlt.overLink, overPort := t.hlt.overPort, deltas := deltasReset, muteSeam := false, muteLink := false } ∧
      (∀ d : DieId, (vget t.hlt.scoreSeam d).toNat = ofDie d ∧
        t.hlt.overSeam.getLsbD d.val = raised (s.hlt.overSeam.getLsbD d.val) (ofDie d) s.hlt.thrSeam) ∧
      (∀ l : LinkId, (vget t.hlt.scoreLink l).toNat = ofLink l ∧
        t.hlt.overLink.getLsbD l.val = raised (s.hlt.overLink.getLsbD l.val) (ofLink l) s.hlt.thrLink) ∧
      (∀ p : Fin 2, (vget t.hlt.scorePort p).toNat = ofPort p ∧
        t.hlt.overPort.getLsbD p.val = raised (s.hlt.overPort.getLsbD p.val) (ofPort p) s.hlt.thrPort) ∧
      (∀ q : Fin 4, q ≠ 0 → vget t.evr q = vget s.evr q) ∧
      (t.hlt.overSeam = s.hlt.overSeam → t.hlt.overLink = s.hlt.overLink → t.hlt.overPort = s.hlt.overPort → t.evr = s.evr)) ∧
  (∀ (s : State) (part : Nat) (score : Word) (thr : Nat) (was is : Bool),
    (was = is → s.healthEvent part score thr was is = s) ∧
    (was ≠ is → s.healthEvent part score thr was is =
      s.raise 0x25 part (leBytes 4 score.toNat ++ leBytes 4 thr ++ leBytes 4 (if is then 1 else 0)))) ∧
  (∀ h : Hlt, (∀ d : DieId, vget h.counted.ce d = (if h.muteSeam then 0 else vget h.deltas.ce d) ∧
      vget h.counted.ue d = (if h.muteSeam then 0 else vget h.deltas.ue d)) ∧
    ∀ l : LinkId, vget h.counted.retry l = (if h.muteLink then 0 else vget h.deltas.retry l) ∧
      vget h.counted.retrain l = (if h.muteLink then 0 else vget h.deltas.retrain l) ∧
      vget h.counted.fecu l = (if h.muteLink then 0 else vget h.deltas.fecu l) ∧ vget h.counted.drop l = (if h.muteLink then 0 else vget h.deltas.drop l))

/-- CERT_READ, IDENTITY_READ, FW_STAGE and FW_ACTIVATE. Rests on 14_identity_service.md R378, 14_identity_service.md R381, 14_identity_service.md R388, 14_identity_service.md R399, 14_identity_service.md Table 14.8, 14_identity_service.md Table 14.12, log entry 48. -/
def Obligations.IdentityCertificatesAndFirmware : Prop :=
  (∀ (s : State) (i : Instr) (code : Byte) (flag bs : List Byte) (ok pf : Bool) (svn : BitVec 16),
    (i, code) ∈ [(.certRead, (0xD0 : Byte)), (.identityRead, 0xD1), (.fwStage flag bs ok svn pf, 0xD4), (.fwActivate, 0xD5), (.calExport flag pf, 0xD8),
      (.calWrite flag bs pf, 0xD9)] →
    (s.islandBusy = true ∨ s.mbx.busy = false ∨ s.mbx.running.toNat ≠ code.toNat → exec i s = .next s) ∧
    (s.islandBusy = false → s.mbx.busy = true → s.mbx.running.toNat = code.toNat → s.mbx.fenced = true → exec i s = .next (s.mbxEnd stFenced []))) ∧
  (∀ s : State, s.islandBusy = true ↔ s.cal.writing ≠ none ∨ s.cal.state = 1) ∧
  (∀ s : State, s.islandBusy = false → s.mbx.busy = true → s.mbx.running.toNat = 0xD0 → s.mbx.fenced = false →
    let w := s.mbxArg 0
    (w / 2 % 32768 ≠ 0 → exec .certRead s = .next (s.mbxEnd stBad [])) ∧
    (w / 2 % 32768 = 0 → exec .certRead s = .next (s.mbxEnd stOk (((s.chain (w % 2)).drop (512 * (w / 65536 % 65536))).take 512)))) ∧
  (∀ s : State, s.chain 0 = s.cert 0 ++ s.cert 1 ++ s.cert 2 ∧ (s.sec.attestReady = false → s.chain 1 = []) ∧
    (s.sec.attestReady = true → s.chain 1 = s.cert 0 ++ s.cert 1 ++ s.cert 2 ++ s.cert 3) ∧
    (∀ p ∈ [notAfter, serialDigits, dieIdentities], ∃ a b, s.cert 2 = a ++ p ++ b) ∧
    (∃ a b, s.cert 3 = a ++ (List.range 7).flatMap (fun n => s.measurement (n + 1)) ++ b) ∧ (∃ a b, s.cert 3 = a ++ leBytes 4 s.sec.attestGen.toNat ++ b)) ∧
  (∀ s : State, s.islandBusy = false → s.mbx.busy = true → s.mbx.running.toNat = 0xD1 → s.mbx.fenced = false →
    exec .identityRead s = .next (s.mbxEnd stOk (leBytes 8 Config.serial.toNat ++ leBytes 4 s.lnk.gen.toNat ++ leBytes 4 s.hubVersion.toNat ++
      leBytes 4 s.rstStatus.toNat ++ leBytes 4 s.rstCause.toNat ++ leBytes 4 s.secSvn.toNat ++ leBytes 4 s.calStatus.toNat ++
      leBytes 4 s.svcStatus.toNat ++ List.replicate 28 0))) ∧
  (∀ (s : State) (flag package : List Byte) (verified : Bool) (svn : BitVec 16) (pf : Bool),
    s.islandBusy = false → s.mbx.busy = true → s.mbx.running.toNat = 0xD4 → s.mbx.fenced = false →
    (s.islandWaits (s.mbxArg 0) = true → exec (.fwStage flag package verified svn pf) s = .next s) ∧
    (s.islandWaits (s.mbxArg 0) = false → s.islandSlot (s.mbxArg 0) flag = none →
      exec (.fwStage flag package verified svn pf) s = .next (s.mbxStatus stBad)) ∧
    (s.islandWaits (s.mbxArg 0) = false → (s.islandSlot (s.mbxArg 0) flag).isSome = true → ∃ t c n w, s.islandSlot (s.mbxArg 0) flag = some (t, c, n, w) ∧
      let len := s.mbxArg 1
      let u := t.tallyHost c len
      (2 ^ 26 < len ∨ 2 ^ w.log2 < len → exec (.fwStage flag package verified svn pf) s = .next (t.mbxStatus stBad)) ∧
      (len ≤ 2 ^ 26 → len ≤ 2 ^ w.log2 → pf = true → exec (.fwStage flag package verified svn pf) s = .next (t.mbxStatus stFenced)) ∧
      (len ≤ 2 ^ 26 → len ≤ 2 ^ w.log2 → pf = false → verified = true → s.sec.svnMin ≤ svn →
        exec (.fwStage flag package verified svn pf) s = .next ((State.raise { u with sec := { s.sec with
          banks := vset s.sec.banks (if s.sec.bank then 0 else 1) { good := true, svn := svn, data := some (slice package 0 len) }, staged := true } }
          0xE2 (if s.sec.bank then 0 else 1) (leBytes 4 stOk.toNat ++ leBytes 4 svn.toNat)).mbxStatus stOk)) ∧
      (len ≤ 2 ^ 26 → len ≤ 2 ^ w.log2 → pf = false → verified = false ∨ svn < s.sec.svnMin →
        exec (.fwStage flag package verified svn pf) s =
          .next ((u.raise 0xE2 (if s.sec.bank then 0 else 1) (leBytes 4 stBad.toNat ++ leBytes 4 svn.toNat)).mbxStatus stBad)))) ∧
  (∀ (s : State) (arg : Nat) (flag : List Byte), let c := ctxOf (arg % 256)
    let n := arg / 65536 % 65536
    (arg / 256 % 256 ≠ 0 ∨ s.ctx? c = none → s.islandSlot arg flag = none ∧ s.islandWaits arg = false) ∧
    (∀ x, s.ctx? c = some x → x.slot? n = none → s.islandSlot arg flag = none ∧ s.islandWaits arg = false) ∧
    (∀ x w, s.ctx? c = some x → x.slot? n = some w → arg / 256 % 256 = 0 →
      (w.p2p = true → s.islandSlot arg flag = none ∧ s.islandWaits arg = false) ∧
      (w.p2p = false → s.islandWaits arg = !s.mayRequest x.fn) ∧
      (w.held ≠ none → w.p2p = false → s.islandSlot arg flag = some (s, c, n, w)) ∧
      (w.held = none → flagOwner flag = false → s.islandSlot arg flag = none) ∧
      (w.held = none → w.p2p = false → flagOwner flag = true → s.islandSlot arg flag = some ((s.modSlot c n fun (w : WinSlot) => { w with
        held := some (flagSeq flag), flagLen := flagLenOf flag, flagCrc := flagCrcOf flag }).tallyHost c 16, c, n, w)))) ∧
  (∀ s : State, s.islandBusy = false → s.mbx.busy = true → s.mbx.running.toNat = 0xD5 → s.mbx.fenced = false →
    let w := s.mbxArg 0
    let other := !s.sec.bank
    (2 ≤ w % 2 ^ 32 ∨ s.sec.staged = false ∨ s.bankOk other = false → exec .fwActivate s = .next (s.mbxStatus stBad)) ∧
    (w % 2 ^ 32 < 2 → s.sec.staged = true → s.bankOk other = true → exec .fwActivate s = .next (State.mbxStatus { s with sec := { s.sec with
      nextBank := other, svnMin := if w % 2 = 1 then (s.bankOf other).svn else s.sec.svnMin } } stOk)))

/-- CAL_EXPORT, CAL_WRITE, the chunks and commit over SVC, and the completed image. Rests on 14_identity_service.md R384, 14_identity_service.md R386, 14_identity_service.md R387, 14_identity_service.md R388, 14_identity_service.md R392, 14_identity_service.md R399, 14_identity_service.md Table 14.12. -/
def Obligations.CalibrationStoreReadAndWritten : Prop :=
  (∀ (s : State) (flag data : List Byte) (pf : Bool), s.islandBusy = false → s.mbx.busy = true → s.mbx.fenced = false →
    (s.mbx.running.toNat = 0xD8 →
      (s.islandWaits (s.mbxArg 0) = true → exec (.calExport flag pf) s = .next s) ∧
      (s.islandWaits (s.mbxArg 0) = false → s.islandSlot (s.mbxArg 0) flag = none → exec (.calExport flag pf) s = .next (s.mbxStatus stBad)) ∧
      (s.islandWaits (s.mbxArg 0) = false → (s.islandSlot (s.mbxArg 0) flag).isSome = true → ∃ t c n w, s.islandSlot (s.mbxArg 0) flag = some (t, c, n, w) ∧
        (pf = true → exec (.calExport flag pf) s = .next ((t.hostUndefined w.addr.toNat 16384).mbxStatus stFenced)) ∧
        (pf = false → exec (.calExport flag pf) s =
          .next ((((t.hostWrite w.addr.toNat s.calImage).tallyHost c 16384).handback c n 16384 0).mbxStatus stOk)))) ∧
    (s.mbx.running.toNat = 0xD9 →
      (s.islandWaits (s.mbxArg 0) = true → exec (.calWrite flag data pf) s = .next s) ∧
      (s.islandWaits (s.mbxArg 0) = false → s.islandSlot (s.mbxArg 0) flag = none → exec (.calWrite flag data pf) s = .next (s.mbxStatus stBad)) ∧
      (s.islandWaits (s.mbxArg 0) = false → (s.islandSlot (s.mbxArg 0) flag).isSome = true → ∃ t c n w, s.islandSlot (s.mbxArg 0) flag = some (t, c, n, w) ∧
        let u := t.tallyHost c 16384
        (pf = true → exec (.calWrite flag data pf) s = .next (t.mbxStatus stFenced)) ∧
        (pf = false → calImageOk (slice data 0 16384) = true →
          exec (.calWrite flag data pf) s = .next { u with cal := { s.cal with writing := some (slice data 0 16384, false), state := 2 } }) ∧
        (pf = false → calImageOk (slice data 0 16384) = false → exec (.calWrite flag data pf) s = .next (u.mbxStatus stBad))))) ∧
  (∀ b : List Byte, calImageOk b = true ↔ b.length = 16384 ∧ fieldAt b 0 4 = 0x43414C31 ∧ fieldAt b 4 4 = 1 ∧ fieldAt b 8 8 = Config.serial.toNat ∧
    slice b 0x3FD0 48 = sha384 (slice b 0 0x3FD0)) ∧
  (∀ (s : State) (chunk value : BitVec 16) (data : List Byte), s.pwr.auxOn = true → s.islandBusy = false →
    let kept : Byte → Byte → PortReply → Svc := fun code st r => { s.svc with lastStatus := st, lastRequest := code, reply := r }
    (∀ k : Fin 4, chunk.toNat = k.val → data.length = 4096 → exec (.calChunk chunk data) s =
      .next { s with svc := { kept 0x30 stOk (.data []) with chunks := vset s.svc.chunks k (some data) } }) ∧
    (4 ≤ chunk.toNat ∨ data.length ≠ 4096 → exec (.calChunk chunk data) s = .next { s with svc := kept 0x30 stBad (.data []) }) ∧
    (value ≠ 0x6480 → exec (.calCommit value) s = .next { s with svc := kept 0x31 stBad .stall }) ∧
    (∀ img, s.chunkImage = some img → calImageOk img = true →
      exec (.calCommit 0x6480) s = .next { s with cal := { s.cal with writing := some (img, true), state := 2 } }) ∧
    ((∀ img, s.chunkImage = some img → calImageOk img = false) → exec (.calCommit 0x6480) s = .next { s with svc := kept 0x31 stBad (.data []) })) ∧
  (∀ (s : State) (a b c d : List Byte), s.svc.chunks = #v[some a, some b, some c, some d] → s.chunkImage = some (a ++ b ++ c ++ d)) ∧
  (∀ s : State, (∃ k : Fin 4, vget s.svc.chunks k = none) → s.chunkImage = none) ∧
  (∀ (s : State) (chunk value : BitVec 16) (data : List Byte), s.pwr.auxOn = false ∨ s.islandBusy = true →
    exec (.calChunk chunk data) s = .next s ∧ exec (.calCommit value) s = .next s) ∧
  (∀ s : State, s.cal.writing = none → exec .calImageWritten s = .next s) ∧
  (∀ (s : State) (img : List Byte) (svc : Bool), s.cal.writing = some (img, svc) →
    let b := calStored img (s.cal.writes + 1)
    let t : State := State.correct { s with cal := { s.cal with
      writing := none, state := 0, origin := true, writes := s.cal.writes + 1, stored := some b, torn := false, offsets := .image (some b)
      pendingWrite := true } }
    let u := t.raise 0xE1 0 (leBytes 4 (if svc then 1 else 0) ++ leBytes 4 (s.cal.writes + 1).toNat)
    (calImageOk img = true → calImageOk b = true ∧ fieldAt b 0x10 4 = (s.cal.writes + 1).toNat ∧ fieldAt b 0x14 4 % 2 = 1 ∧
      ∀ n, (n < 0x10 ∨ 0x18 ≤ n) → n < 0x3FD0 → b.getD n 0 = img.getD n 0) ∧
    (t.pwr.hottest.2 < 64 * 110 ∨ s.pwr.hold ≠ .none →
      (svc = true → exec .calImageWritten s = .next { u with svc := { s.svc with lastStatus := stOk, lastRequest := 0x31 } }) ∧
      (svc = false → s.mbx.busy = true → s.mbx.running.toNat = 0xD9 → exec .calImageWritten s = .next (u.mbxStatus stOk)) ∧
      (svc = false → s.mbx.busy = false ∨ s.mbx.running.toNat ≠ 0xD9 → exec .calImageWritten s = .next u)) ∧
    (64 * 110 ≤ t.pwr.hottest.2 → s.pwr.hold = .none → ∃ v, exec .calImageWritten s = .next v ∧ v.pwr.hold = .trip ∧ v.rst.hostFenced = true ∧
      v.cal = t.cal))

/-- What SPDM requests are answered over DOE and MGMT. Rests on 14_identity_service.md R382, 14_identity_service.md R383, 14_identity_service.md R388, 14_identity_service.md Table 14.2, 14_identity_service.md Table 14.10, log entry 48. -/
def Obligations.AttestationOverSpdm : Prop :=
  (∀ (s : State) (i : Instr) (mgmt : Bool) (slot offset len : Nat) (indices : List Nat) (r : SpdmReply),
    let held := slot = 0 ∨ (slot = 1 ∧ s.sec.attestReady = true)
    let ms := indices.map fun n => (n, s.measurement n)
    let dig := sha384 (s.chain slot)
    (i, r) ∈ [(.getVersion mgmt, .version 1 3), (.getCapabilities mgmt, .capabilities true true true false false),
      (.negotiateAlgorithms mgmt, .algorithms .ecdsaP384 .sha384 .sha384), (.spdmUnsupported mgmt, .error .unsupportedRequest),
      (.getDigests mgmt, .digests ((0, sha384 (s.chain 0)) :: (if s.sec.attestReady then [(1, sha384 (s.chain 1))] else [])))] ∨
    (held ∧ (i, r) ∈ [
      (.getCertificate mgmt slot offset len, .certificate slot (((s.chain slot).drop offset).take len) ((s.chain slot).length - (offset + len))),
      (.challenge mgmt slot, .challengeAuth slot dig (if slot = 0 then s.signature dig else s.attestSignature dig))]) ∨
    (¬ held ∧ (i, r) ∈ [(.getCertificate mgmt slot offset len, .error .unstated), (.challenge mgmt slot, .error .unstated)]) ∨
    (s.sec.attestReady = true ∧ (∀ n ∈ indices, 1 ≤ n ∧ n ≤ 8) ∧
      (i, r) = (.getMeasurements mgmt indices, .measurements ms (s.attestSignature (ms.flatMap (·.2))))) ∨
    ((s.sec.attestReady = false ∨ ∃ n ∈ indices, n < 1 ∨ 8 < n) ∧ (i, r) = (.getMeasurements mgmt indices, .error .unstated)) →
    (s.pwr.auxOn = true → (if mgmt then s.islandBusy = false else s.sec.islandOnly = false) →
      exec i s = .next { s with sec := { s.sec with spdmCount := s.sec.spdmCount + 1, reply := some r }, freeCtr := s.freeCtr + 1 }) ∧
    (s.pwr.auxOn = false ∨ (if mgmt then s.islandBusy = true else s.sec.islandOnly = true) → exec i s = .next s)) ∧
  (∀ s : State,
    s.measurement 8 = leBytes 4 ((if s.sec.bank then 1 else 0) + (if s.sec.fwFallback then 2 else 0) + (if s.cal.calBad then 4 else 0) +
      (if s.rst.retired then 8 else 0)) ∧
    (∀ b, s.cal.loaded = .image (some b) → s.measurement 7 = sha384 b) ∧ (s.cal.loaded = .image none → s.measurement 7 = sha384 (withDigest factoryBody)) ∧
    s.measurement 1 = (List.range 48).map (Config.measurementByte 1 none) ∧
    (∀ n, n ≠ 1 → n ≠ 7 → n ≠ 8 → s.measurement n = (List.range 48).map (Config.measurementByte n (some (s.sec.bank, (s.bankOf s.sec.bank).data)))) ∧
    (∀ n, n ≠ 8 → (s.measurement n).length = 48)) ∧
  (∀ (s : State) (bs : List Byte), (s.signature bs).length = 96 ∧ (s.attestSignature bs).length = 96 ∧ (sha384 bs).length = 48)

/-- The vendor requests over SVC: the readings, STREAM, LOCATE, and the keyed requests. Rests on 14_identity_service.md R388, 14_identity_service.md R392, 14_identity_service.md R394, 13_reset_health.md R365, 13_reset_health.md R376, 15_power_bringup.md R402, 14_identity_service.md Table 14.7, 14_identity_service.md Table 14.8, log entry 49. -/
def Obligations.ServicePortRequests : Prop :=
  (∀ (s : State) (i : Instr) (n m k : Nat) (v : BitVec 16),
    i ∈ [.getLast, .getIdentity, .getCert n m k, .getHealth, .getEsc, .streamOut v, .locate v, .svcSystemReset v, .svcPowerOn v, .clearRetirement v, .svcEscClear v] →
    s.pwr.auxOn = false ∨ s.islandBusy = true → exec i s = .next s) ∧
  (∀ s : State, s.pwr.auxOn = true → s.islandBusy = false →
    let answer : List Byte → State := fun b => { s with svc := { s.svc with reply := .data b } }
    exec .getLast s = .next (answer [s.svc.lastStatus, s.svc.lastRequest, 0, 0]) ∧ exec .getIdentity s = .next (answer s.identity) ∧
    exec .getHealth s = .next (answer s.healthBytes) ∧ exec .getEsc s = .next (answer s.escBytes) ∧
    (∀ slot offset length : Nat, slot = 0 ∨ (slot = 1 ∧ s.sec.attestReady = true) →
      exec (.getCert slot offset length) s = .next (answer (((s.chain slot).drop (512 * offset)).take (min 4096 length)))) ∧
    (∀ slot offset length : Nat, 2 ≤ slot ∨ (slot = 1 ∧ s.sec.attestReady = false) →
      exec (.getCert slot offset length) s = .next { s with svc := { s.svc with reply := .stall } })) ∧
  (∀ s : State, s.identity.length = 64 ∧ s.healthBytes.length = 212 ∧ s.escBytes.length = 72) ∧
  (∀ s : State, s.pwr.auxOn = true → s.islandBusy = false →
    let kept : Byte → Byte → Svc := fun code st => { s.svc with lastStatus := st, lastRequest := code, reply := .data [] }
    exec (.streamOut 0) s = .next { s with svc := { kept 0x10 stOk with stream := some .islandLog, bulk := packetsOf s.islandLog 128 }, freeCtr := s.freeCtr + 1 } ∧
    exec (.streamOut 1) s = .next { s with svc := { kept 0x10 stOk with stream := some .calImage, bulk := packetsOf s.calImage 32 }, cal := { s.cal with state := 1 } } ∧
    (∀ v : BitVec 16, 2 ≤ v.toNat → exec (.streamOut v) s = .next { s with svc := kept 0x10 stBad } ∧ exec (.locate v) s = .next { s with svc := kept 0x20 stBad }) ∧
    exec (.locate 0) s = .next { s with svc := { kept 0x20 stOk with locate := false } } ∧
    exec (.locate 1) s = .next { s with svc := { kept 0x20 stOk with locate := true } } ∧
    (∀ (i : Instr) (code : Byte) (v : BitVec 16), (i, code) ∈ [(.svcSystemReset v, (0x21 : Byte)), (.svcPowerOn v, 0x22), (.clearRetirement v, 0x23), (.svcEscClear v, 0x24)] →
      v ≠ 0x6480 → exec i s = .next { s with svc := { kept code stBad with reply := .stall } }) ∧
    exec (.svcEscClear 0x6480) s = .next { s with svc := kept 0x24 stOk, rst := { s.rst with stamps := [] } } ∧
    (∃ t, exec (.svcSystemReset 0x6480) s = .next t ∧ t.rst.cause = 0x0A ∧ t.svc.lastStatus = stOk ∧ t.svc.lastRequest = 0x21 ∧ t.rst.retired = s.rst.retired ∧
      (s.pwr.mainOn = true → s.pwr.hold = .none → t.rst.inReset = some true ∧ t.hub.ready = false ∧ t.lnk.gen = s.lnk.gen + 1 ∧ (∀ c, t.ctx? c = none)) ∧
      (s.pwr.mainOn = false ∨ s.pwr.hold ≠ .none → t.ctxs = s.ctxs ∧ t.lnk = s.lnk ∧ t.hub = s.hub)) ∧
    (∃ t, exec (.svcPowerOn 0x6480) s = .next t ∧ t.svc.askedPower = true ∧ t.svc.lastStatus = stOk ∧ t.svc.lastRequest = 0x22 ∧
      (s.pwr.hold = .none → t.rst.cause = 0x0A ∧ (s.pwr.mainOn = true → t.rst.inReset = some true ∧ t.hub.ready = false ∧ t.lnk.gen = s.lnk.gen + 1)) ∧
      (s.pwr.hold = .rail → t = { s with pwr := { s.pwr with onAsked := some 0x0A }, svc := { kept 0x22 stOk with askedPower := true } }) ∧
      (s.pwr.hold = .trip → t = { s with svc := { kept 0x22 stOk with askedPower := true } })) ∧
    (s.rst.retired = false → exec (.clearRetirement 0x6480) s = .next { s with svc := kept 0x23 stBad }) ∧
    (s.rst.retired = true → s.svc.presence = false → exec (.clearRetirement 0x6480) s = .next { s with svc := kept 0x23 stFenced }) ∧
    (s.rst.retired = true → s.svc.presence = true → ∃ t, exec (.clearRetirement 0x6480) s = .next t ∧ t.rst.retired = false ∧ t.rst.cause = 0x0A ∧
      t.svc.lastStatus = stOk ∧ t.svc.lastRequest = 0x23 ∧ (s.rst.escMask.getLsbD 0x0A = false → t.rst.stamps = []) ∧
      (s.pwr.mainOn = true → s.pwr.hold = .none → t.rst.inReset = some true ∧ t.lnk.gen = s.lnk.gen + 2 ∧ t.hub.ready = false) ∧
      (s.pwr.mainOn = false ∨ s.pwr.hold ≠ .none → t.lnk.gen = s.lnk.gen + 1 ∧ t.ctxs = s.ctxs))) ∧
  (∀ (b : List Byte) (n : Nat), b.length = 512 * n → (packetsOf b n).length = n ∧ (packetsOf b n).flatten = b ∧ ∀ p ∈ packetsOf b n, p.length = 512)

/-- The short press and its window, DRAINED and CANCEL_REQUEST, the USB port, and MGMT's messages. Rests on 14_identity_service.md R388, 14_identity_service.md R389, 14_identity_service.md R390, 14_identity_service.md R392, 14_identity_service.md R393, 14_identity_service.md R395, 14_identity_service.md R400, 15_power_bringup.md R402, 15_power_bringup.md R413, log entry 50. -/
def Obligations.ButtonUsbPortAndManagement : Prop :=
  (∀ s : State,
    let t : State := { s with svc := { s.svc with shortPresses := satInc s.svc.shortPresses, presence := true } };
    (s.rst.retired = true → exec .attnShortPress s = .next t) ∧
    (s.rst.retired = false → s.svc.request = false → s.svc.drained = false →
      exec .attnShortPress s = .next (State.raise { t with svc := { t.svc with request := true } } 0xE0 0 (leBytes 4 1))) ∧
    (s.rst.retired = false → s.svc.request = true ∨ s.svc.drained = true →
      exec .attnShortPress s = .next (State.raise { t with svc := { t.svc with request := false, drained := false } } 0xE0 0 (leBytes 4 0)))) ∧
  (∀ s : State, exec .presenceWindowExpiry s = .next { s with svc := { s.svc with presence := false } }) ∧
  (∀ s : State, ((∀ c, s.ctx? c = none) → (∀ g, (s.group g).state ≠ 1) → (∀ n, (s.snap n).state ≠ 1 ∧ (s.snap n).state ≠ 2) →
      exec .drained s = .next { s with svc := { s.svc with drained := true, drainRefused := false } }) ∧
    ((∃ c x, s.ctx? c = some x) ∨ (∃ g, (s.group g).state = 1) ∨ (∃ n, (s.snap n).state = 1 ∨ (s.snap n).state = 2) →
      exec .drained s = .next { s with svc := { s.svc with drainRefused := true } })) ∧
  (∀ s : State, (s.svc.request = true → exec .cancelRequest s = .next (State.raise { s with svc := { s.svc with request := false } } 0xE0 0 (leBytes 4 0))) ∧
    (s.svc.request = false → exec .cancelRequest s = .next s)) ∧
  (∀ s : State, exec .usbBusReset s = .next { s with
      svc := { s.svc with chunks := Vector.replicate 4 none, stream := none, bulk := [], usbConfigured := false }
      cal := { s.cal with state := if s.cal.state = 1 then 0 else s.cal.state } }) ∧
  (∀ s : State, exec (.usbAttach true) s = .next { s with svc := { s.svc with attached := true } } ∧
    (let t : State := { s with
        svc := { s.svc with attached := false, usbConfigured := false, stream := none, bulk := [] }
        cal := { s.cal with state := if s.cal.state = 1 then 0 else s.cal.state } };
      (s.svc.attached = false → exec (.usbAttach false) s = .next t) ∧ (s.svc.attached = true → exec (.usbAttach false) s = .next (t.raise 0xE3 0 (leBytes 4 0)))) ∧
    exec .usbConfigured s = .next (State.raise { s with svc := { s.svc with attached := true, usbConfigured := true } } 0xE3 0 (leBytes 4 1))) ∧
  (∀ (s : State) (code value index : BitVec 16) (va vb sensor : Nat), s.pwr.auxOn = false ∨ s.islandBusy = true →
    exec (.mgmtVendorRequest code value index va vb) s = .next s ∧ exec (.mgmtPowerOn va vb) s = .next s ∧ exec .mctpControl s = .next s ∧
    exec (.pldmSensorRead sensor) s = .next s) ∧
  (∀ (s : State) (value index : BitVec 16) (va vb : Nat), s.pwr.auxOn = true → s.islandBusy = false →
    let answers : State → Byte → List Byte → State := fun t st d => { t with svc := { t.svc with mgmtReply := .data (st :: d) } }
    (∀ (code : BitVec 16) (d : List Byte), (code, d) ∈ [((0x01 : BitVec 16), [s.svc.lastStatus, s.svc.lastRequest, 0, 0]), (0x02, s.identity), (0x04, s.healthBytes),
      (0x05, s.escBytes)] → exec (.mgmtVendorRequest code value index va vb) s = .next (answers s stOk d)) ∧
    (value.toNat = 0 ∨ (value.toNat = 1 ∧ s.sec.attestReady = true) →
      exec (.mgmtVendorRequest 0x03 value index va vb) s = .next (answers s stOk (s.certBytes value.toNat (512 * index.toNat) 4096))) ∧
    (2 ≤ value.toNat ∨ (value.toNat = 1 ∧ s.sec.attestReady = false) → exec (.mgmtVendorRequest 0x03 value index va vb) s = .next (answers s stBad [])) ∧
    (value.toNat < 2 → exec (.mgmtVendorRequest 0x20 value index va vb) s =
      .next (answers { s with svc := { s.svc with locate := decide (value.toNat = 1) } } stOk [])) ∧
    (2 ≤ value.toNat → exec (.mgmtVendorRequest 0x20 value index va vb) s = .next (answers s stBad [])) ∧
    (value ≠ 0x6480 → ∀ code : BitVec 16, code ∈ [(0x21 : BitVec 16), 0x22, 0x24] → exec (.mgmtVendorRequest code value index va vb) s = .next (answers s stBad [])) ∧
    (∃ t, exec (.mgmtVendorRequest 0x21 0x6480 index va vb) s = .next t ∧ t.rst.cause = 0x0C ∧ t.svc.mgmtReply = .data [stOk] ∧
      (s.pwr.mainOn = true → s.pwr.hold = .none → t.rst.inReset = some true ∧ t.hub.ready = false ∧ t.lnk.gen = s.lnk.gen + 1)) ∧
    (∃ t, exec (.mgmtPowerOn va vb) s = .next t ∧ exec (.mgmtVendorRequest 0x22 0x6480 index va vb) s = .next (answers t stOk [])) ∧
    exec (.mgmtVendorRequest 0x24 0x6480 index va vb) s = .next (answers { s with rst := { s.rst with stamps := [] } } stOk []) ∧
    (∀ code : BitVec 16, code ∉ [(0x01 : BitVec 16), 0x02, 0x03, 0x04, 0x05, 0x20, 0x21, 0x22, 0x24] →
      exec (.mgmtVendorRequest code value index va vb) s = .next (answers s stBad []))) ∧
  (∀ (s : State) (va vb : Nat), s.pwr.auxOn = true → s.islandBusy = false → ∃ t, exec (.mgmtPowerOn va vb) s = .next t ∧
    (s.pwr.hold = .none → s.pwr.mainOn = true → t.rst.cause = 0x0C ∧ t.rst.inReset = some true ∧ t.hub.ready = false ∧ t.lnk.gen = s.lnk.gen + 1) ∧
    (s.pwr.hold = .rail → 5000 ≤ va → va ≤ 5800 → 5000 ≤ vb → vb ≤ 5800 → t.rst.cause = 0x0C ∧ t.pwr.hold = .none ∧ t.pwr.mainOn = true ∧ t.pwr.stage = 4 ∧
      t.rst.inReset = some true ∧ t.lnk.gen = s.lnk.gen + 1) ∧
    (s.pwr.hold = .rail → va < 5000 ∨ 5800 < va ∨ vb < 5000 ∨ 5800 < vb → t = { s with pwr := { s.pwr with onAsked := some 0x0C } }) ∧
    (s.pwr.hold = .trip → t.pwr.hold = .trip ∧ t.rst = s.rst ∧ t.lnk = s.lnk ∧ t.ctxs = s.ctxs)) ∧
  (∀ s : State, s.pwr.auxOn = true → s.islandBusy = false → exec .mctpControl s = .next { s with svc := { s.svc with mgmtReply := .control } }) ∧
  (∀ (s : State) (id : Nat) (v : Option Int), s.pwr.auxOn = true → s.islandBusy = false →
    (∃ i : Fin 64, id = i.val + 1 ∧ v = some (vget s.pwr.temps i)) ∨
    (id, v) ∈ [(65, some s.pwr.inlet), (66, some s.pwr.outlet), (67, some (s.pwr.watts.toNat : Int)), (68, some s.pwr.va.toNat), (69, some s.pwr.vb.toNat),
      (70, some s.pwr.ia.toNat), (71, some s.pwr.ib.toNat), (72, some s.pwr.auxMv.toNat), (73, some s.pwr.flow.toNat), (74, some s.pwr.stage.toNat)] ∨
    ((id = 0 ∨ 74 < id) ∧ v = none) →
    exec (.pldmSensorRead id) s = .next { s with svc := { s.svc with mgmtReply := .sensor v } })

/-- A reserved ENVELOPE or DETERMINISM makes a HUB_PROFILE write change nothing. Rests on 01_module.md R20. -/
def Obligations.ReservedProfileWritesAreIgnored : Prop :=
  ∀ (s : State) (v : Word), v.toNat % 4 = 3 ∨ v.toNat / 16 % 4 = 3 →
    exec (.hubProfileWrite v) s = .next s ∧ exec (.registerWrite 0 .bar0 0x10 0xF v none) s = .next s

/-- A CQ_HEAD write is accepted only when it does not pass the tail; any other is ignored and counts in DB_BAD. Rests on 05_commands.md R134. -/
def Obligations.CqHeadAcceptsOnlyConsumedEntries : Prop :=
  ∀ (s : State) (c : CtxId) (h : Word) (x : Context), s.ctx? c = some x →
    ∃ t y, exec (.cqHeadWrite c h) s = .next t ∧ t.ctx? c = some y ∧ y.cqTail = x.cqTail ∧ (∀ d, d ≠ c → t.ctx? d = s.ctx? d) ∧
      ((x.cqTail - h).toNat ≤ (x.cqTail - x.cqHead).toNat → y.cqHead = h ∧ y.dbBad = x.dbBad) ∧
      ((x.cqTail - x.cqHead).toNat < (x.cqTail - h).toNat → y.cqHead = x.cqHead ∧ y.dbBad = satInc x.dbBad)
end

