-- ==== Sys2Proof/Laws/Bytes.lean ====
section
/-! SUPPORT. Laws of byte lists, fields and the digest. -/

namespace Sys2Proof.Machine

@[simp] theorem leBytes_length (n x : Nat) : (leBytes n x).length = n := by
  induction n generalizing x with
  | zero => rfl
  | succ n ih => simp [leBytes, ih]

theorem leNat_leBytes (n x : Nat) : leNat (leBytes n x) = x % 256 ^ n := by
  induction n generalizing x with
  | zero => simp [leBytes, leNat, Nat.mod_one]
  | succ n ih => simp [leBytes, leNat, ih, Nat.pow_succ', Nat.mod_mul]

@[simp] theorem slice_length (l : List Byte) (off len : Nat) : (slice l off len).length = len := by
  simp only [slice, List.length_append, List.length_take, List.length_drop, List.length_replicate]
  omega

/-- A slice that covers exactly the middle part of a list is that part. -/
theorem slice_append (a b c : List Byte) : slice (a ++ b ++ c) a.length b.length = b := by
  simp [slice]

/-- A byte of a slice is the byte of the list at that place. -/
theorem slice_getD (l : List Byte) (off len i : Nat) (h : i < len) : (slice l off len).getD i 0 = l.getD (off + i) 0 := by
  unfold slice
  simp only [List.getD_eq_getElem?_getD, List.getElem?_append, List.length_take, List.length_drop, List.getElem?_take,
    List.getElem?_drop, List.getElem?_replicate]
  by_cases hi : off + i < l.length
  · rw [if_pos (by omega), if_pos h]
  · rw [if_neg (by omega), List.getElem?_eq_none (by omega : l.length ≤ off + i)]
    split <;> simp

/-- A field stored at its place reads back. -/
theorem fieldAt_append (a c : List Byte) (n x : Nat) (h : x < 256 ^ n) : fieldAt (a ++ leBytes n x ++ c) a.length n = x := by
  have := slice_append a (leBytes n x) c
  rw [leBytes_length] at this
  rw [fieldAt, this, leNat_leBytes, Nat.mod_eq_of_lt h]

theorem shaRound_length (add : DWord) (v : List DWord) (h : v.length = 8) : (shaRound add v).length = 8 := by
  unfold shaRound
  split <;> simp_all

theorem shaRounds_length (ks w v : List DWord) (h : v.length = 8) : (shaRounds ks w v).length = 8 := by
  induction ks generalizing w v with
  | nil => exact h
  | cons k ks ih => exact ih _ _ (shaRound_length _ v h)

theorem shaStart_length : shaStart.length = 8 := by simp [shaStart]

theorem shaBlocks_length (n : Nat) (v : List DWord) (bs : List Byte) (h : v.length = 8) : (shaBlocks n v bs).length = 8 := by
  induction n generalizing v bs with
  | zero => exact h
  | succ n ih => exact ih _ _ (by simp [shaBlock, shaRounds_length _ _ _ h, h])

/-- SHA-384 gives 48 bytes. -/
@[simp] theorem sha384_length (msg : List Byte) : (sha384 msg).length = 48 := by
  have h : ∀ l : List DWord, (l.flatMap fun w => beBytes 8 w.toNat).length = 8 * l.length := by
    intro l
    induction l with
    | nil => rfl
    | cons w l ih => rw [List.flatMap_cons, List.length_append, ih]; simp [beBytes]; omega
  simp only [sha384, h, List.length_take, shaBlocks_length _ shaStart _ shaStart_length]
  omega

/-- An image closed by its digest carries it. -/
theorem withDigest_ok (b : List Byte) : (withDigest b).length = calSize ∧ slice (withDigest b) 0x3FD0 48 = sha384 (slice (withDigest b) 0 0x3FD0) := by
  have h1 := slice_append (slice b 0 0x3FD0) (sha384 (slice b 0 0x3FD0)) []
  have h2 := slice_append [] (slice b 0 0x3FD0) (sha384 (slice b 0 0x3FD0))
  simp only [slice_length, sha384_length, List.append_nil, List.nil_append, List.length_nil] at h1 h2
  exact ⟨by simp [withDigest, calSize], by simp only [withDigest, h1, h2]⟩

/-- A field below the digest of an image is the field of its body. -/
theorem withDigest_field (b : List Byte) (off n : Nat) (h : off + n ≤ 0x3FD0) : fieldAt (withDigest b) off n = fieldAt b off n := by
  have e : slice (withDigest b) off n = slice b off n := by
    apply List.ext_getElem?
    intro i
    by_cases hi : i < n
    · have key : (slice (withDigest b) off n).getD i 0 = (slice b off n).getD i 0 := by
        rw [slice_getD _ _ _ _ hi, slice_getD _ _ _ _ hi]
        simp only [withDigest, List.getD_eq_getElem?_getD]
        rw [List.getElem?_append_left (by simp; omega)]
        simpa [List.getD_eq_getElem?_getD] using slice_getD b 0 0x3FD0 (off + i) (by omega)
      simp only [List.getD_eq_getElem?_getD] at key
      rw [List.getElem?_eq_getElem (by simpa using hi), List.getElem?_eq_getElem (by simpa using hi)] at key ⊢
      simpa using key
    · rw [List.getElem?_eq_none (by simpa using hi), List.getElem?_eq_none (by simpa using hi)]
  rw [fieldAt, e, fieldAt]

/-- A good calibration image: its header and digest, every value 0. -/
theorem good_image_exists : calImageOk (withDigest (leBytes 4 calMagic ++ leBytes 4 1 ++ leBytes 8 Config.serial.toNat)) = true := by
  have hs : fieldAt (leBytes 4 calMagic ++ leBytes 4 1 ++ leBytes 8 Config.serial.toNat) 8 8 = Config.serial.toNat := by
    have := fieldAt_append (leBytes 4 calMagic ++ leBytes 4 1) [] 8 Config.serial.toNat (by have := Config.serial.isLt; omega)
    simpa using this
  have hm : fieldAt (leBytes 4 calMagic ++ leBytes 4 1 ++ leBytes 8 Config.serial.toNat) 0 4 = calMagic := by
    have := fieldAt_append [] (leBytes 4 1 ++ leBytes 8 Config.serial.toNat) 4 calMagic (by decide)
    simpa using this
  have hf : fieldAt (leBytes 4 calMagic ++ leBytes 4 1 ++ leBytes 8 Config.serial.toNat) 4 4 = 1 := by
    have := fieldAt_append (leBytes 4 calMagic) (leBytes 8 Config.serial.toNat) 4 1 (by decide)
    simpa using this
  have hd := withDigest_ok (leBytes 4 calMagic ++ leBytes 4 1 ++ leBytes 8 Config.serial.toNat)
  simp only [calImageOk, withDigest_field _ 0 4 (by decide), withDigest_field _ 4 4 (by decide), withDigest_field _ 8 8 (by decide), hs, hm, hf,
    hd.1, ← hd.2, beq_self_eq_true, Bool.and_self]

end Sys2Proof.Machine
end

