-- ==== Sys2Proof/Laws/Memory.lean ====
section
/-! SUPPORT. The laws of the byte memories: every operation keeps the canonical form, a read after a write gives what
was written, and a write leaves every other byte alone. -/

namespace Sys2Proof.Machine

/-- The canonical form, said of the first cell and the rest. -/
theorem Cells.wf_cons (a : Nat) (v : Byte) (r : Cells) :
    Cells.wf ((a, v) :: r) = true ↔ v ≠ 0 ∧ (∀ e ∈ r, a < e.1) ∧ Cells.wf r = true := by
  induction r generalizing a v with
  | nil => simp [Cells.wf]
  | cons e r ih =>
    obtain ⟨b, w⟩ := e
    have step : Cells.wf ((a, v) :: (b, w) :: r) = true ↔ v ≠ 0 ∧ a < b ∧ Cells.wf ((b, w) :: r) = true := by
      simp [Cells.wf, and_assoc]
    rw [step]
    constructor
    · rintro ⟨hv, hab, hw⟩
      refine ⟨hv, ?_, hw⟩
      intro e he
      rcases List.mem_cons.mp he with h | h
      · rw [h]; exact hab
      · exact lt_trans hab (((ih b w).mp hw).2.1 e h)
    · rintro ⟨hv, hall, hw⟩
      exact ⟨hv, hall (b, w) List.mem_cons_self, hw⟩

/-- A canonical memory reads 0 below its first cell. -/
theorem Cells.read_lt (r : Cells) (a : Nat) (h : ∀ e ∈ r, a < e.1) : r.read a = 0 := by
  induction r with
  | nil => rfl
  | cons e r ih =>
    obtain ⟨k, v⟩ := e
    have hk : a < k := h (k, v) List.mem_cons_self
    have hne : ¬ k = a := by omega
    simp only [Cells.read, if_neg hne]
    exact ih fun e he => h e (List.mem_cons_of_mem _ he)

/-- What a write lists: what was listed, and the cell written. -/
theorem Cells.mem_write (m : Cells) (a : Nat) (b : Byte) (e : Host.Cell) (h : e ∈ m.write a b) : e ∈ m ∨ e = (a, b) := by
  induction m with
  | nil =>
    simp only [Cells.write] at h
    split at h
    · cases h
    · exact Or.inr (List.mem_singleton.mp h)
  | cons c r ih =>
    obtain ⟨k, v⟩ := c
    simp only [Cells.write] at h
    split at h
    · split at h
      · exact Or.inl h
      · rcases List.mem_cons.mp h with h | h
        · exact Or.inr h
        · exact Or.inl h
    · split at h
      · split at h
        · exact Or.inl (List.mem_cons_of_mem _ h)
        · rcases List.mem_cons.mp h with h | h
          · exact Or.inr h
          · exact Or.inl (List.mem_cons_of_mem _ h)
      · rcases List.mem_cons.mp h with h | h
        · exact Or.inl (h ▸ List.mem_cons_self)
        · rcases ih h with h | h
          · exact Or.inl (List.mem_cons_of_mem _ h)
          · exact Or.inr h

/-- A write keeps the canonical form. -/
theorem Cells.write_wf (m : Cells) (a : Nat) (b : Byte) (h : m.wf = true) : (m.write a b).wf = true := by
  induction m with
  | nil =>
    simp only [Cells.write]
    split
    · rfl
    · rename_i hb
      simpa [Cells.wf] using hb
  | cons c r ih =>
    obtain ⟨k, v⟩ := c
    obtain ⟨hv, hall, hr⟩ := (Cells.wf_cons k v r).mp h
    simp only [Cells.write]
    split
    · rename_i hak
      split
      · exact h
      · rename_i hb
        refine (Cells.wf_cons a b _).mpr ⟨hb, ?_, h⟩
        intro e he
        rcases List.mem_cons.mp he with he | he
        · rw [he]; exact hak
        · exact lt_trans hak (hall e he)
    · split
      · rename_i hak
        subst hak
        split
        · exact hr
        · rename_i hb
          exact (Cells.wf_cons a b r).mpr ⟨hb, hall, hr⟩
      · rename_i h1 h2
        refine (Cells.wf_cons k v _).mpr ⟨hv, ?_, ih hr⟩
        intro e he
        rcases Cells.mem_write r a b e he with he | he
        · exact hall e he
        · rw [he]
          show k < a
          omega

/-- The byte written is read back. -/
theorem Cells.read_write_same (m : Cells) (a : Nat) (b : Byte) (h : m.wf = true) : (m.write a b).read a = b := by
  induction m with
  | nil =>
    simp only [Cells.write]
    split
    · rename_i hb; rw [hb]; rfl
    · simp [Cells.read]
  | cons c r ih =>
    obtain ⟨k, v⟩ := c
    obtain ⟨_, hall, hr⟩ := (Cells.wf_cons k v r).mp h
    simp only [Cells.write]
    split
    · rename_i hak
      split
      · rename_i hb
        rw [hb]
        apply Cells.read_lt
        intro e he
        rcases List.mem_cons.mp he with he | he
        · rw [he]; exact hak
        · exact lt_trans hak (hall e he)
      · simp [Cells.read]
    · split
      · rename_i hak
        subst hak
        split
        · rename_i hb
          rw [hb]
          exact Cells.read_lt r a hall
        · simp [Cells.read]
      · rename_i h1 h2
        have hne : ¬ k = a := fun e => h2 e.symm
        simp only [Cells.read, if_neg hne]
        exact ih hr

/-- A write leaves every other byte alone. -/
theorem Cells.read_write_other (m : Cells) (a x : Nat) (b : Byte) (hx : x ≠ a) : (m.write a b).read x = m.read x := by
  have hax : ¬ a = x := fun e => hx e.symm
  induction m with
  | nil =>
    simp only [Cells.write]
    split
    · rfl
    · simp only [Cells.read, if_neg hax]
  | cons c r ih =>
    obtain ⟨k, v⟩ := c
    simp only [Cells.write]
    split
    · split
      · rfl
      · simp only [Cells.read, if_neg hax]
    · split
      · rename_i hak
        subst hak
        split
        · simp only [Cells.read, if_neg hax]
        · simp only [Cells.read, if_neg hax]
      · simp only [Cells.read]
        split
        · rfl
        · exact ih

/-- Writing a run of bytes keeps the canonical form. -/
theorem Cells.writeBytes_wf (bs : List Byte) : ∀ (m : Cells) (a : Nat), m.wf = true → (m.writeBytes a bs).wf = true := by
  induction bs with
  | nil => intro m a h; exact h
  | cons b bs ih => intro m a h; exact ih (m.write a b) (a + 1) (Cells.write_wf m a b h)

/-- A run of bytes leaves every byte outside it alone. -/
theorem Cells.read_writeBytes_other (bs : List Byte) : ∀ (m : Cells) (a x : Nat), x < a ∨ a + bs.length ≤ x →
    (m.writeBytes a bs).read x = m.read x := by
  induction bs with
  | nil => intro m a x _; rfl
  | cons b bs ih =>
    intro m a x h
    simp only [List.length_cons] at h
    simp only [Cells.writeBytes]
    rw [ih (m.write a b) (a + 1) x (by omega), Cells.read_write_other m a x b (by omega)]

/-- Each byte of a run is read back. -/
theorem Cells.read_writeBytes_same (bs : List Byte) : ∀ (m : Cells) (a i : Nat), m.wf = true → i < bs.length →
    (m.writeBytes a bs).read (a + i) = bs.getD i 0 := by
  induction bs with
  | nil => intro m a i _ h; exact absurd h (Nat.not_lt_zero i)
  | cons b bs ih =>
    intro m a i hw h
    simp only [Cells.writeBytes]
    cases i with
    | zero =>
      rw [Cells.read_writeBytes_other bs (m.write a b) (a + 1) (a + 0) (by omega)]
      simpa using Cells.read_write_same m a b hw
    | succ i =>
      simp only [List.length_cons] at h
      have := ih (m.write a b) (a + 1) i (Cells.write_wf m a b hw) (by omega)
      rw [show a + (i + 1) = a + 1 + i by omega, this]
      simp

/-- Removing cells keeps the canonical form. -/
theorem Cells.filter_wf (p : Host.Cell → Bool) (m : Cells) (h : m.wf = true) : Cells.wf (m.filter p) = true := by
  induction m with
  | nil => rfl
  | cons c r ih =>
    obtain ⟨k, v⟩ := c
    obtain ⟨hv, hall, hr⟩ := (Cells.wf_cons k v r).mp h
    simp only [List.filter_cons]
    split
    · exact (Cells.wf_cons k v _).mpr ⟨hv, fun e he => hall e (List.mem_filter.mp he).1, ih hr⟩
    · exact ih hr

theorem Cells.clear_wf (m : Cells) (a n : Nat) (h : m.wf = true) : (m.clear a n).wf = true := Cells.filter_wf _ m h

/-- Cleared bytes read 0. -/
theorem Cells.read_clear_inside (m : Cells) (a n x : Nat) (h : a ≤ x) (h' : x < a + n) : (m.clear a n).read x = 0 := by
  induction m with
  | nil => rfl
  | cons c r ih =>
    obtain ⟨k, v⟩ := c
    have hc : Cells.clear ((k, v) :: r) a n =
        if (decide (k < a) || decide (a + n ≤ k)) = true then (k, v) :: Cells.clear r a n else Cells.clear r a n := by
      simp only [Cells.clear, List.filter_cons]
    rw [hc]
    split
    · rename_i hk
      have hne : ¬ k = x := by
        intro e
        subst e
        simp only [Bool.or_eq_true, decide_eq_true_eq] at hk
        omega
      simp only [Cells.read, if_neg hne]
      exact ih
    · exact ih

/-- A clear leaves every other byte alone. -/
theorem Cells.read_clear_outside (m : Cells) (a n x : Nat) (h : x < a ∨ a + n ≤ x) : (m.clear a n).read x = m.read x := by
  induction m with
  | nil => rfl
  | cons c r ih =>
    obtain ⟨k, v⟩ := c
    have hc : Cells.clear ((k, v) :: r) a n =
        if (decide (k < a) || decide (a + n ≤ k)) = true then (k, v) :: Cells.clear r a n else Cells.clear r a n := by
      simp only [Cells.clear, List.filter_cons]
    rw [hc]
    split
    · simp only [Cells.read]
      split
      · rfl
      · exact ih
    · rename_i hk
      have hne : ¬ k = x := by
        intro e
        subst e
        apply hk
        simp only [Bool.or_eq_true, decide_eq_true_eq]
        exact h
      simp only [Cells.read, if_neg hne]
      exact ih

/-- Laying cells over a canonical memory keeps the form. -/
theorem Cells.overlay_wf (top : Cells) : ∀ base : Cells, base.wf = true → (Cells.overlay top base).wf = true := by
  induction top with
  | nil => intro base h; exact h
  | cons e top ih => intro base h; exact ih (base.write e.1 e.2) (Cells.write_wf base e.1 e.2 h)

theorem Cells.copy_wf (m : Cells) (a n d : Nat) (h : m.wf = true) : (m.copy a n d).wf = true :=
  Cells.overlay_wf _ _ (Cells.clear_wf m d n h)

/-- Laid cells leave every address they do not list alone. -/
theorem Cells.read_overlay_other (top : Cells) (x : Nat) : ∀ base : Cells, (∀ e ∈ top, e.1 ≠ x) →
    (Cells.overlay top base).read x = base.read x := by
  induction top with
  | nil => intro base _; rfl
  | cons e top ih =>
    intro base h
    have h1 := ih (base.write e.1 e.2) fun e' he => h e' (List.mem_cons_of_mem _ he)
    have h2 := Cells.read_write_other base e.1 x e.2 (fun hx => h e List.mem_cons_self hx.symm)
    exact h1.trans h2

/-- A canonical memory laid over another reads as itself where it lists. -/
theorem Cells.read_overlay_same (top : Cells) (x : Nat) : ∀ base : Cells, top.wf = true → base.wf = true →
    (∃ e ∈ top, e.1 = x) → (Cells.overlay top base).read x = top.read x := by
  induction top with
  | nil => rintro base _ _ ⟨e, he, _⟩; cases he
  | cons c top ih =>
    obtain ⟨k, v⟩ := c
    rintro base ht hb ⟨e, he, hx⟩
    obtain ⟨_, hall, hr⟩ := (Cells.wf_cons k v top).mp ht
    have hw := Cells.write_wf base k v hb
    by_cases hk : k = x
    · have h1 : (Cells.overlay ((k, v) :: top) base).read x = (base.write k v).read x :=
        Cells.read_overlay_other top x (base.write k v) fun e' he' h' => by
          have := hall e' he'
          omega
      rw [h1, ← hk, Cells.read_write_same base k v hb]
      simp only [Cells.read, if_true]
    · have hin : ∃ e ∈ top, e.1 = x := by
        rcases List.mem_cons.mp he with h | h
        · rw [h] at hx; exact absurd hx hk
        · exact ⟨e, h, hx⟩
      have h1 := ih (base.write k v) hr hw hin
      show (Cells.overlay top (base.write k v)).read x = _
      rw [h1]
      simp only [Cells.read, if_neg hk]

/-- A listed cell is what its address reads as. -/
theorem Cells.read_of_mem (m : Cells) (a : Nat) (v : Byte) (h : m.wf = true) (hm : (a, v) ∈ m) : m.read a = v := by
  induction m with
  | nil => cases hm
  | cons c r ih =>
    obtain ⟨k, w⟩ := c
    obtain ⟨_, hall, hr⟩ := (Cells.wf_cons k w r).mp h
    rcases List.mem_cons.mp hm with he | he
    · injection he with h1 h2
      rw [h1, h2]
      simp only [Cells.read, if_true]
    · have hlt : k < a := hall (a, v) he
      have hne : ¬ k = a := by omega
      simp only [Cells.read, if_neg hne]
      exact ih hr he

/-- A byte that does not read 0 is listed. -/
theorem Cells.mem_of_read (m : Cells) (a : Nat) (h : m.read a ≠ 0) : (a, m.read a) ∈ m := by
  induction m with
  | nil => exact absurd rfl h
  | cons c r ih =>
    obtain ⟨k, w⟩ := c
    by_cases hk : k = a
    · rw [← hk]
      simp only [Cells.read, if_true]
      exact List.mem_cons_self
    · simp only [Cells.read, if_neg hk] at h ⊢
      exact List.mem_cons_of_mem _ (ih h)

/-- The cells of a range, moved, are in canonical form. -/
theorem Cells.extract_wf (m : Cells) (a n d : Nat) (h : m.wf = true) : (m.extract a n d).wf = true := by
  have hf : Cells.wf (m.filter fun e => a ≤ e.1 && e.1 < a + n) = true := Cells.filter_wf _ m h
  have hin : ∀ e ∈ m.filter fun e => a ≤ e.1 && e.1 < a + n, a ≤ e.1 := by
    intro e he
    have := (List.mem_filter.mp he).2
    simp only [Bool.and_eq_true, decide_eq_true_eq] at this
    exact this.1
  unfold Cells.extract
  generalize m.filter (fun e => a ≤ e.1 && e.1 < a + n) = l at hf hin
  induction l with
  | nil => rfl
  | cons c r ih =>
    obtain ⟨k, v⟩ := c
    obtain ⟨hv, hall, hr⟩ := (Cells.wf_cons k v r).mp hf
    refine (Cells.wf_cons (k - a + d) v _).mpr ⟨hv, ?_, ih hr fun e he => hin e (List.mem_cons_of_mem _ he)⟩
    intro e he
    obtain ⟨e', he', rfl⟩ := List.mem_map.mp he
    have h1 := hall e' he'
    have h2 := hin (k, v) List.mem_cons_self
    show k - a + d < e'.1 - a + d
    simp only at h2
    omega

/-- Two canonical memories that read alike are the same data. -/
theorem Cells.ext (m n : Cells) (hm : m.wf = true) (hn : n.wf = true) (h : ∀ a, m.read a = n.read a) : m = n := by
  induction m generalizing n with
  | nil =>
    cases n with
    | nil => rfl
    | cons c r =>
      obtain ⟨k, v⟩ := c
      have hv := ((Cells.wf_cons k v r).mp hn).1
      have := h k
      simp only [Cells.read, if_true] at this
      exact absurd this.symm hv
  | cons c r ih =>
    obtain ⟨k, v⟩ := c
    obtain ⟨hv, hall, hr⟩ := (Cells.wf_cons k v r).mp hm
    cases n with
    | nil =>
      have := h k
      simp only [Cells.read, if_true] at this
      exact absurd this hv
    | cons d q =>
      obtain ⟨j, w⟩ := d
      obtain ⟨hw, hall', hq⟩ := (Cells.wf_cons j w q).mp hn
      have hkj : k = j := by
        by_contra hne
        rcases Nat.lt_or_gt_of_ne hne with hlt | hlt
        · have hk := h k
          have hjk : ¬ j = k := by omega
          have h0 : Cells.read q k = 0 := Cells.read_lt q k fun e he => lt_trans hlt (hall' e he)
          simp only [Cells.read, if_true, if_neg hjk, h0] at hk
          exact hv hk
        · have hj := h j
          have h0 : Cells.read r j = 0 := Cells.read_lt r j fun e he => lt_trans hlt (hall e he)
          simp only [Cells.read, if_true, if_neg hne, h0] at hj
          exact hw hj.symm
      subst hkj
      have hvw : v = w := by
        have := h k
        simp only [Cells.read, if_true] at this
        exact this
      subst hvw
      have : r = q := by
        apply ih q hr hq
        intro a
        by_cases ha : k = a
        · subst ha
          rw [Cells.read_lt r k hall, Cells.read_lt q k hall']
        · have := h a
          simp only [Cells.read, if_neg ha] at this
          exact this
      rw [this]

end Sys2Proof.Machine
end

