-- ==== Sys2Proof/Laws/State.lean ====
section
/-! SUPPORT. For each shared update of the state, one lemma a field: what it leaves alone, and what the part it
changes reads as. No later proof unfolds a record update. -/

namespace Sys2Proof.Machine

/-! ## Vectors by index -/

section
variable {α : Type} {n : Nat}

theorem vget_eq (v : Vector α n) (i : Fin n) : vget v i = v[i.val] := rfl

@[simp] theorem vget_vset_same (v : Vector α n) (i : Fin n) (x : α) : vget (vset v i x) i = x := by
  simp only [vget_eq, vset, Vector.getElem_set_self]

@[simp] theorem vget_vset_other (v : Vector α n) (i j : Fin n) (x : α) (h : j ≠ i) : vget (vset v i x) j = vget v j := by
  have hij : i.val ≠ j.val := fun e => h (Fin.ext e.symm)
  simp only [vget_eq, vset, Vector.getElem_set_ne _ _ hij]

@[simp] theorem vget_vmod_same (v : Vector α n) (i : Fin n) (f : α → α) : vget (vmod v i f) i = f (vget v i) :=
  vget_vset_same v i _

@[simp] theorem vget_vmod_other (v : Vector α n) (i j : Fin n) (f : α → α) (h : j ≠ i) : vget (vmod v i f) j = vget v j :=
  vget_vset_other v i j _ h

@[simp] theorem vget_replicate (x : α) (i : Fin n) : vget (Vector.replicate n x) i = x := by
  simp only [vget_eq, Vector.getElem_replicate]

@[simp] theorem vget_map {β : Type} (f : α → β) (v : Vector α n) (i : Fin n) : vget (v.map f) i = f (vget v i) := by
  simp only [vget_eq, Vector.getElem_map]

@[simp] theorem vget_ofFn (f : Fin n → α) (i : Fin n) : vget (Vector.ofFn f) i = f i := by
  simp only [vget_eq, Vector.getElem_ofFn]

/-- Two vectors that agree at every index are the same. -/
theorem vget_ext (v w : Vector α n) (h : ∀ i, vget v i = vget w i) : v = w := by
  apply Vector.ext
  intro i hi
  have := h ⟨i, hi⟩
  simpa only [vget_eq] using this

end


/-! ## State.bumpFree -/

@[simp] theorem State.bumpFree_profile (s : State) : (s.bumpFree).profile = s.profile := rfl
@[simp] theorem State.bumpFree_hub (s : State) : (s.bumpFree).hub = s.hub := rfl
@[simp] theorem State.bumpFree_mbx (s : State) : (s.bumpFree).mbx = s.mbx := rfl
@[simp] theorem State.bumpFree_irq (s : State) : (s.bumpFree).irq = s.irq := rfl
@[simp] theorem State.bumpFree_evr (s : State) : (s.bumpFree).evr = s.evr := rfl
@[simp] theorem State.bumpFree_fns (s : State) : (s.bumpFree).fns = s.fns := rfl
@[simp] theorem State.bumpFree_port1 (s : State) : (s.bumpFree).port1 = s.port1 := rfl
@[simp] theorem State.bumpFree_perst (s : State) : (s.bumpFree).perst = s.perst := rfl
@[simp] theorem State.bumpFree_posted (s : State) : (s.bumpFree).posted = s.posted := rfl
@[simp] theorem State.bumpFree_cfe (s : State) : (s.bumpFree).cfe = s.cfe := rfl
@[simp] theorem State.bumpFree_ctxs (s : State) : (s.bumpFree).ctxs = s.ctxs := rfl
@[simp] theorem State.bumpFree_sch (s : State) : (s.bumpFree).sch = s.sch := rfl
@[simp] theorem State.bumpFree_stb (s : State) : (s.bumpFree).stb = s.stb := rfl
@[simp] theorem State.bumpFree_hst (s : State) : (s.bumpFree).hst = s.hst := rfl
@[simp] theorem State.bumpFree_seam (s : State) : (s.bumpFree).seam = s.seam := rfl
@[simp] theorem State.bumpFree_frames (s : State) : (s.bumpFree).frames = s.frames := rfl
@[simp] theorem State.bumpFree_mem (s : State) : (s.bumpFree).mem = s.mem := rfl
@[simp] theorem State.bumpFree_host (s : State) : (s.bumpFree).host = s.host := rfl
@[simp] theorem State.bumpFree_hostFree (s : State) : (s.bumpFree).hostFree = s.hostFree := rfl
@[simp] theorem State.bumpFree_fld (s : State) : (s.bumpFree).fld = s.fld := rfl
@[simp] theorem State.bumpFree_opt (s : State) : (s.bumpFree).opt = s.opt := rfl
@[simp] theorem State.bumpFree_tkp (s : State) : (s.bumpFree).tkp = s.tkp := rfl
@[simp] theorem State.bumpFree_lnk (s : State) : (s.bumpFree).lnk = s.lnk := rfl
@[simp] theorem State.bumpFree_col (s : State) : (s.bumpFree).col = s.col := rfl
@[simp] theorem State.bumpFree_snp (s : State) : (s.bumpFree).snp = s.snp := rfl
@[simp] theorem State.bumpFree_rst (s : State) : (s.bumpFree).rst = s.rst := rfl
@[simp] theorem State.bumpFree_hlt (s : State) : (s.bumpFree).hlt = s.hlt := rfl
@[simp] theorem State.bumpFree_sec (s : State) : (s.bumpFree).sec = s.sec := rfl
@[simp] theorem State.bumpFree_cal (s : State) : (s.bumpFree).cal = s.cal := rfl
@[simp] theorem State.bumpFree_svc (s : State) : (s.bumpFree).svc = s.svc := rfl
@[simp] theorem State.bumpFree_pwr (s : State) : (s.bumpFree).pwr = s.pwr := rfl
@[simp] theorem State.bumpFree_now (s : State) : (s.bumpFree).now = s.now := rfl
@[simp] theorem State.bumpFree_pending (s : State) : (s.bumpFree).pending = s.pending := rfl
@[simp] theorem State.bumpFree_freeCtr (s : State) : (s.bumpFree).freeCtr = s.freeCtr + 1 := rfl

/-! ## State.hostWrite -/

@[simp] theorem State.hostWrite_profile (s : State) (a : Nat) (bs : List Byte) : (s.hostWrite a bs).profile = s.profile := rfl
@[simp] theorem State.hostWrite_hub (s : State) (a : Nat) (bs : List Byte) : (s.hostWrite a bs).hub = s.hub := rfl
@[simp] theorem State.hostWrite_mbx (s : State) (a : Nat) (bs : List Byte) : (s.hostWrite a bs).mbx = s.mbx := rfl
@[simp] theorem State.hostWrite_irq (s : State) (a : Nat) (bs : List Byte) : (s.hostWrite a bs).irq = s.irq := rfl
@[simp] theorem State.hostWrite_evr (s : State) (a : Nat) (bs : List Byte) : (s.hostWrite a bs).evr = s.evr := rfl
@[simp] theorem State.hostWrite_fns (s : State) (a : Nat) (bs : List Byte) : (s.hostWrite a bs).fns = s.fns := rfl
@[simp] theorem State.hostWrite_port1 (s : State) (a : Nat) (bs : List Byte) : (s.hostWrite a bs).port1 = s.port1 := rfl
@[simp] theorem State.hostWrite_perst (s : State) (a : Nat) (bs : List Byte) : (s.hostWrite a bs).perst = s.perst := rfl
@[simp] theorem State.hostWrite_posted (s : State) (a : Nat) (bs : List Byte) : (s.hostWrite a bs).posted = s.posted := rfl
@[simp] theorem State.hostWrite_cfe (s : State) (a : Nat) (bs : List Byte) : (s.hostWrite a bs).cfe = s.cfe := rfl
@[simp] theorem State.hostWrite_ctxs (s : State) (a : Nat) (bs : List Byte) : (s.hostWrite a bs).ctxs = s.ctxs := rfl
@[simp] theorem State.hostWrite_sch (s : State) (a : Nat) (bs : List Byte) : (s.hostWrite a bs).sch = s.sch := rfl
@[simp] theorem State.hostWrite_stb (s : State) (a : Nat) (bs : List Byte) : (s.hostWrite a bs).stb = s.stb := rfl
@[simp] theorem State.hostWrite_hst (s : State) (a : Nat) (bs : List Byte) : (s.hostWrite a bs).hst = s.hst := rfl
@[simp] theorem State.hostWrite_seam (s : State) (a : Nat) (bs : List Byte) : (s.hostWrite a bs).seam = s.seam := rfl
@[simp] theorem State.hostWrite_frames (s : State) (a : Nat) (bs : List Byte) : (s.hostWrite a bs).frames = s.frames := rfl
@[simp] theorem State.hostWrite_mem (s : State) (a : Nat) (bs : List Byte) : (s.hostWrite a bs).mem = s.mem := rfl
@[simp] theorem State.hostWrite_fld (s : State) (a : Nat) (bs : List Byte) : (s.hostWrite a bs).fld = s.fld := rfl
@[simp] theorem State.hostWrite_opt (s : State) (a : Nat) (bs : List Byte) : (s.hostWrite a bs).opt = s.opt := rfl
@[simp] theorem State.hostWrite_tkp (s : State) (a : Nat) (bs : List Byte) : (s.hostWrite a bs).tkp = s.tkp := rfl
@[simp] theorem State.hostWrite_lnk (s : State) (a : Nat) (bs : List Byte) : (s.hostWrite a bs).lnk = s.lnk := rfl
@[simp] theorem State.hostWrite_col (s : State) (a : Nat) (bs : List Byte) : (s.hostWrite a bs).col = s.col := rfl
@[simp] theorem State.hostWrite_snp (s : State) (a : Nat) (bs : List Byte) : (s.hostWrite a bs).snp = s.snp := rfl
@[simp] theorem State.hostWrite_rst (s : State) (a : Nat) (bs : List Byte) : (s.hostWrite a bs).rst = s.rst := rfl
@[simp] theorem State.hostWrite_hlt (s : State) (a : Nat) (bs : List Byte) : (s.hostWrite a bs).hlt = s.hlt := rfl
@[simp] theorem State.hostWrite_sec (s : State) (a : Nat) (bs : List Byte) : (s.hostWrite a bs).sec = s.sec := rfl
@[simp] theorem State.hostWrite_cal (s : State) (a : Nat) (bs : List Byte) : (s.hostWrite a bs).cal = s.cal := rfl
@[simp] theorem State.hostWrite_svc (s : State) (a : Nat) (bs : List Byte) : (s.hostWrite a bs).svc = s.svc := rfl
@[simp] theorem State.hostWrite_pwr (s : State) (a : Nat) (bs : List Byte) : (s.hostWrite a bs).pwr = s.pwr := rfl
@[simp] theorem State.hostWrite_now (s : State) (a : Nat) (bs : List Byte) : (s.hostWrite a bs).now = s.now := rfl
@[simp] theorem State.hostWrite_freeCtr (s : State) (a : Nat) (bs : List Byte) : (s.hostWrite a bs).freeCtr = s.freeCtr := rfl
@[simp] theorem State.hostWrite_pending (s : State) (a : Nat) (bs : List Byte) : (s.hostWrite a bs).pending = s.pending := rfl
@[simp] theorem State.hostWrite_host (s : State) (a : Nat) (bs : List Byte) : (s.hostWrite a bs).host = s.host.writeBytes a bs := rfl

/-! ## State.raise -/

@[simp] theorem State.raise_profile (s : State) (code subject : Nat) (payload : List Byte) : (s.raise code subject payload).profile = s.profile := rfl
@[simp] theorem State.raise_hub (s : State) (code subject : Nat) (payload : List Byte) : (s.raise code subject payload).hub = s.hub := rfl
@[simp] theorem State.raise_mbx (s : State) (code subject : Nat) (payload : List Byte) : (s.raise code subject payload).mbx = s.mbx := rfl
@[simp] theorem State.raise_irq (s : State) (code subject : Nat) (payload : List Byte) : (s.raise code subject payload).irq = s.irq := rfl
@[simp] theorem State.raise_fns (s : State) (code subject : Nat) (payload : List Byte) : (s.raise code subject payload).fns = s.fns := rfl
@[simp] theorem State.raise_port1 (s : State) (code subject : Nat) (payload : List Byte) : (s.raise code subject payload).port1 = s.port1 := rfl
@[simp] theorem State.raise_perst (s : State) (code subject : Nat) (payload : List Byte) : (s.raise code subject payload).perst = s.perst := rfl
@[simp] theorem State.raise_posted (s : State) (code subject : Nat) (payload : List Byte) : (s.raise code subject payload).posted = s.posted := rfl
@[simp] theorem State.raise_cfe (s : State) (code subject : Nat) (payload : List Byte) : (s.raise code subject payload).cfe = s.cfe := rfl
@[simp] theorem State.raise_ctxs (s : State) (code subject : Nat) (payload : List Byte) : (s.raise code subject payload).ctxs = s.ctxs := rfl
@[simp] theorem State.raise_sch (s : State) (code subject : Nat) (payload : List Byte) : (s.raise code subject payload).sch = s.sch := rfl
@[simp] theorem State.raise_stb (s : State) (code subject : Nat) (payload : List Byte) : (s.raise code subject payload).stb = s.stb := rfl
@[simp] theorem State.raise_hst (s : State) (code subject : Nat) (payload : List Byte) : (s.raise code subject payload).hst = s.hst := rfl
@[simp] theorem State.raise_seam (s : State) (code subject : Nat) (payload : List Byte) : (s.raise code subject payload).seam = s.seam := rfl
@[simp] theorem State.raise_frames (s : State) (code subject : Nat) (payload : List Byte) : (s.raise code subject payload).frames = s.frames := rfl
@[simp] theorem State.raise_mem (s : State) (code subject : Nat) (payload : List Byte) : (s.raise code subject payload).mem = s.mem := rfl
@[simp] theorem State.raise_host (s : State) (code subject : Nat) (payload : List Byte) : (s.raise code subject payload).host = s.host := rfl
@[simp] theorem State.raise_hostFree (s : State) (code subject : Nat) (payload : List Byte) : (s.raise code subject payload).hostFree = s.hostFree := rfl
@[simp] theorem State.raise_fld (s : State) (code subject : Nat) (payload : List Byte) : (s.raise code subject payload).fld = s.fld := rfl
@[simp] theorem State.raise_opt (s : State) (code subject : Nat) (payload : List Byte) : (s.raise code subject payload).opt = s.opt := rfl
@[simp] theorem State.raise_tkp (s : State) (code subject : Nat) (payload : List Byte) : (s.raise code subject payload).tkp = s.tkp := rfl
@[simp] theorem State.raise_lnk (s : State) (code subject : Nat) (payload : List Byte) : (s.raise code subject payload).lnk = s.lnk := rfl
@[simp] theorem State.raise_col (s : State) (code subject : Nat) (payload : List Byte) : (s.raise code subject payload).col = s.col := rfl
@[simp] theorem State.raise_snp (s : State) (code subject : Nat) (payload : List Byte) : (s.raise code subject payload).snp = s.snp := rfl
@[simp] theorem State.raise_rst (s : State) (code subject : Nat) (payload : List Byte) : (s.raise code subject payload).rst = s.rst := rfl
@[simp] theorem State.raise_hlt (s : State) (code subject : Nat) (payload : List Byte) : (s.raise code subject payload).hlt = s.hlt := rfl
@[simp] theorem State.raise_sec (s : State) (code subject : Nat) (payload : List Byte) : (s.raise code subject payload).sec = s.sec := rfl
@[simp] theorem State.raise_cal (s : State) (code subject : Nat) (payload : List Byte) : (s.raise code subject payload).cal = s.cal := rfl
@[simp] theorem State.raise_svc (s : State) (code subject : Nat) (payload : List Byte) : (s.raise code subject payload).svc = s.svc := rfl
@[simp] theorem State.raise_pwr (s : State) (code subject : Nat) (payload : List Byte) : (s.raise code subject payload).pwr = s.pwr := rfl
@[simp] theorem State.raise_now (s : State) (code subject : Nat) (payload : List Byte) : (s.raise code subject payload).now = s.now := rfl
@[simp] theorem State.raise_freeCtr (s : State) (code subject : Nat) (payload : List Byte) : (s.raise code subject payload).freeCtr = s.freeCtr := rfl
@[simp] theorem State.raise_pending (s : State) (code subject : Nat) (payload : List Byte) : (s.raise code subject payload).pending = s.pending := rfl

/-! ## State.setCtx -/

@[simp] theorem State.setCtx_profile (s : State) (c : CtxId) (x : Context) : (s.setCtx c x).profile = s.profile := rfl
@[simp] theorem State.setCtx_hub (s : State) (c : CtxId) (x : Context) : (s.setCtx c x).hub = s.hub := rfl
@[simp] theorem State.setCtx_mbx (s : State) (c : CtxId) (x : Context) : (s.setCtx c x).mbx = s.mbx := rfl
@[simp] theorem State.setCtx_irq (s : State) (c : CtxId) (x : Context) : (s.setCtx c x).irq = s.irq := rfl
@[simp] theorem State.setCtx_evr (s : State) (c : CtxId) (x : Context) : (s.setCtx c x).evr = s.evr := rfl
@[simp] theorem State.setCtx_fns (s : State) (c : CtxId) (x : Context) : (s.setCtx c x).fns = s.fns := rfl
@[simp] theorem State.setCtx_port1 (s : State) (c : CtxId) (x : Context) : (s.setCtx c x).port1 = s.port1 := rfl
@[simp] theorem State.setCtx_perst (s : State) (c : CtxId) (x : Context) : (s.setCtx c x).perst = s.perst := rfl
@[simp] theorem State.setCtx_posted (s : State) (c : CtxId) (x : Context) : (s.setCtx c x).posted = s.posted := rfl
@[simp] theorem State.setCtx_cfe (s : State) (c : CtxId) (x : Context) : (s.setCtx c x).cfe = s.cfe := rfl
@[simp] theorem State.setCtx_sch (s : State) (c : CtxId) (x : Context) : (s.setCtx c x).sch = s.sch := rfl
@[simp] theorem State.setCtx_stb (s : State) (c : CtxId) (x : Context) : (s.setCtx c x).stb = s.stb := rfl
@[simp] theorem State.setCtx_hst (s : State) (c : CtxId) (x : Context) : (s.setCtx c x).hst = s.hst := rfl
@[simp] theorem State.setCtx_seam (s : State) (c : CtxId) (x : Context) : (s.setCtx c x).seam = s.seam := rfl
@[simp] theorem State.setCtx_frames (s : State) (c : CtxId) (x : Context) : (s.setCtx c x).frames = s.frames := rfl
@[simp] theorem State.setCtx_mem (s : State) (c : CtxId) (x : Context) : (s.setCtx c x).mem = s.mem := rfl
@[simp] theorem State.setCtx_host (s : State) (c : CtxId) (x : Context) : (s.setCtx c x).host = s.host := rfl
@[simp] theorem State.setCtx_hostFree (s : State) (c : CtxId) (x : Context) : (s.setCtx c x).hostFree = s.hostFree := rfl
@[simp] theorem State.setCtx_fld (s : State) (c : CtxId) (x : Context) : (s.setCtx c x).fld = s.fld := rfl
@[simp] theorem State.setCtx_opt (s : State) (c : CtxId) (x : Context) : (s.setCtx c x).opt = s.opt := rfl
@[simp] theorem State.setCtx_tkp (s : State) (c : CtxId) (x : Context) : (s.setCtx c x).tkp = s.tkp := rfl
@[simp] theorem State.setCtx_lnk (s : State) (c : CtxId) (x : Context) : (s.setCtx c x).lnk = s.lnk := rfl
@[simp] theorem State.setCtx_col (s : State) (c : CtxId) (x : Context) : (s.setCtx c x).col = s.col := rfl
@[simp] theorem State.setCtx_snp (s : State) (c : CtxId) (x : Context) : (s.setCtx c x).snp = s.snp := rfl
@[simp] theorem State.setCtx_rst (s : State) (c : CtxId) (x : Context) : (s.setCtx c x).rst = s.rst := rfl
@[simp] theorem State.setCtx_hlt (s : State) (c : CtxId) (x : Context) : (s.setCtx c x).hlt = s.hlt := rfl
@[simp] theorem State.setCtx_sec (s : State) (c : CtxId) (x : Context) : (s.setCtx c x).sec = s.sec := rfl
@[simp] theorem State.setCtx_cal (s : State) (c : CtxId) (x : Context) : (s.setCtx c x).cal = s.cal := rfl
@[simp] theorem State.setCtx_svc (s : State) (c : CtxId) (x : Context) : (s.setCtx c x).svc = s.svc := rfl
@[simp] theorem State.setCtx_pwr (s : State) (c : CtxId) (x : Context) : (s.setCtx c x).pwr = s.pwr := rfl
@[simp] theorem State.setCtx_now (s : State) (c : CtxId) (x : Context) : (s.setCtx c x).now = s.now := rfl
@[simp] theorem State.setCtx_freeCtr (s : State) (c : CtxId) (x : Context) : (s.setCtx c x).freeCtr = s.freeCtr := rfl
@[simp] theorem State.setCtx_pending (s : State) (c : CtxId) (x : Context) : (s.setCtx c x).pending = s.pending := rfl
@[simp] theorem State.setCtx_ctxs (s : State) (c : CtxId) (x : Context) : (s.setCtx c x).ctxs = vset s.ctxs c (some x) := rfl

/-! ## State.modCtx -/

@[simp] theorem State.modCtx_profile (s : State) (c : CtxId) (f : Context → Context) : (s.modCtx c f).profile = s.profile := rfl
@[simp] theorem State.modCtx_hub (s : State) (c : CtxId) (f : Context → Context) : (s.modCtx c f).hub = s.hub := rfl
@[simp] theorem State.modCtx_mbx (s : State) (c : CtxId) (f : Context → Context) : (s.modCtx c f).mbx = s.mbx := rfl
@[simp] theorem State.modCtx_irq (s : State) (c : CtxId) (f : Context → Context) : (s.modCtx c f).irq = s.irq := rfl
@[simp] theorem State.modCtx_evr (s : State) (c : CtxId) (f : Context → Context) : (s.modCtx c f).evr = s.evr := rfl
@[simp] theorem State.modCtx_fns (s : State) (c : CtxId) (f : Context → Context) : (s.modCtx c f).fns = s.fns := rfl
@[simp] theorem State.modCtx_port1 (s : State) (c : CtxId) (f : Context → Context) : (s.modCtx c f).port1 = s.port1 := rfl
@[simp] theorem State.modCtx_perst (s : State) (c : CtxId) (f : Context → Context) : (s.modCtx c f).perst = s.perst := rfl
@[simp] theorem State.modCtx_posted (s : State) (c : CtxId) (f : Context → Context) : (s.modCtx c f).posted = s.posted := rfl
@[simp] theorem State.modCtx_cfe (s : State) (c : CtxId) (f : Context → Context) : (s.modCtx c f).cfe = s.cfe := rfl
@[simp] theorem State.modCtx_sch (s : State) (c : CtxId) (f : Context → Context) : (s.modCtx c f).sch = s.sch := rfl
@[simp] theorem State.modCtx_stb (s : State) (c : CtxId) (f : Context → Context) : (s.modCtx c f).stb = s.stb := rfl
@[simp] theorem State.modCtx_hst (s : State) (c : CtxId) (f : Context → Context) : (s.modCtx c f).hst = s.hst := rfl
@[simp] theorem State.modCtx_seam (s : State) (c : CtxId) (f : Context → Context) : (s.modCtx c f).seam = s.seam := rfl
@[simp] theorem State.modCtx_frames (s : State) (c : CtxId) (f : Context → Context) : (s.modCtx c f).frames = s.frames := rfl
@[simp] theorem State.modCtx_mem (s : State) (c : CtxId) (f : Context → Context) : (s.modCtx c f).mem = s.mem := rfl
@[simp] theorem State.modCtx_host (s : State) (c : CtxId) (f : Context → Context) : (s.modCtx c f).host = s.host := rfl
@[simp] theorem State.modCtx_hostFree (s : State) (c : CtxId) (f : Context → Context) : (s.modCtx c f).hostFree = s.hostFree := rfl
@[simp] theorem State.modCtx_fld (s : State) (c : CtxId) (f : Context → Context) : (s.modCtx c f).fld = s.fld := rfl
@[simp] theorem State.modCtx_opt (s : State) (c : CtxId) (f : Context → Context) : (s.modCtx c f).opt = s.opt := rfl
@[simp] theorem State.modCtx_tkp (s : State) (c : CtxId) (f : Context → Context) : (s.modCtx c f).tkp = s.tkp := rfl
@[simp] theorem State.modCtx_lnk (s : State) (c : CtxId) (f : Context → Context) : (s.modCtx c f).lnk = s.lnk := rfl
@[simp] theorem State.modCtx_col (s : State) (c : CtxId) (f : Context → Context) : (s.modCtx c f).col = s.col := rfl
@[simp] theorem State.modCtx_snp (s : State) (c : CtxId) (f : Context → Context) : (s.modCtx c f).snp = s.snp := rfl
@[simp] theorem State.modCtx_rst (s : State) (c : CtxId) (f : Context → Context) : (s.modCtx c f).rst = s.rst := rfl
@[simp] theorem State.modCtx_hlt (s : State) (c : CtxId) (f : Context → Context) : (s.modCtx c f).hlt = s.hlt := rfl
@[simp] theorem State.modCtx_sec (s : State) (c : CtxId) (f : Context → Context) : (s.modCtx c f).sec = s.sec := rfl
@[simp] theorem State.modCtx_cal (s : State) (c : CtxId) (f : Context → Context) : (s.modCtx c f).cal = s.cal := rfl
@[simp] theorem State.modCtx_svc (s : State) (c : CtxId) (f : Context → Context) : (s.modCtx c f).svc = s.svc := rfl
@[simp] theorem State.modCtx_pwr (s : State) (c : CtxId) (f : Context → Context) : (s.modCtx c f).pwr = s.pwr := rfl
@[simp] theorem State.modCtx_now (s : State) (c : CtxId) (f : Context → Context) : (s.modCtx c f).now = s.now := rfl
@[simp] theorem State.modCtx_freeCtr (s : State) (c : CtxId) (f : Context → Context) : (s.modCtx c f).freeCtr = s.freeCtr := rfl
@[simp] theorem State.modCtx_pending (s : State) (c : CtxId) (f : Context → Context) : (s.modCtx c f).pending = s.pending := rfl
@[simp] theorem State.modCtx_ctxs (s : State) (c : CtxId) (f : Context → Context) : (s.modCtx c f).ctxs = vmod s.ctxs c (fun o => o.map f) := rfl

/-! ## State.modCmd -/

@[simp] theorem State.modCmd_profile (s : State) (c : CtxId) (seq : Word) (f : Cmd → Cmd) : (s.modCmd c seq f).profile = s.profile := rfl
@[simp] theorem State.modCmd_hub (s : State) (c : CtxId) (seq : Word) (f : Cmd → Cmd) : (s.modCmd c seq f).hub = s.hub := rfl
@[simp] theorem State.modCmd_mbx (s : State) (c : CtxId) (seq : Word) (f : Cmd → Cmd) : (s.modCmd c seq f).mbx = s.mbx := rfl
@[simp] theorem State.modCmd_irq (s : State) (c : CtxId) (seq : Word) (f : Cmd → Cmd) : (s.modCmd c seq f).irq = s.irq := rfl
@[simp] theorem State.modCmd_evr (s : State) (c : CtxId) (seq : Word) (f : Cmd → Cmd) : (s.modCmd c seq f).evr = s.evr := rfl
@[simp] theorem State.modCmd_fns (s : State) (c : CtxId) (seq : Word) (f : Cmd → Cmd) : (s.modCmd c seq f).fns = s.fns := rfl
@[simp] theorem State.modCmd_port1 (s : State) (c : CtxId) (seq : Word) (f : Cmd → Cmd) : (s.modCmd c seq f).port1 = s.port1 := rfl
@[simp] theorem State.modCmd_perst (s : State) (c : CtxId) (seq : Word) (f : Cmd → Cmd) : (s.modCmd c seq f).perst = s.perst := rfl
@[simp] theorem State.modCmd_posted (s : State) (c : CtxId) (seq : Word) (f : Cmd → Cmd) : (s.modCmd c seq f).posted = s.posted := rfl
@[simp] theorem State.modCmd_cfe (s : State) (c : CtxId) (seq : Word) (f : Cmd → Cmd) : (s.modCmd c seq f).cfe = s.cfe := rfl
@[simp] theorem State.modCmd_sch (s : State) (c : CtxId) (seq : Word) (f : Cmd → Cmd) : (s.modCmd c seq f).sch = s.sch := rfl
@[simp] theorem State.modCmd_stb (s : State) (c : CtxId) (seq : Word) (f : Cmd → Cmd) : (s.modCmd c seq f).stb = s.stb := rfl
@[simp] theorem State.modCmd_hst (s : State) (c : CtxId) (seq : Word) (f : Cmd → Cmd) : (s.modCmd c seq f).hst = s.hst := rfl
@[simp] theorem State.modCmd_seam (s : State) (c : CtxId) (seq : Word) (f : Cmd → Cmd) : (s.modCmd c seq f).seam = s.seam := rfl
@[simp] theorem State.modCmd_frames (s : State) (c : CtxId) (seq : Word) (f : Cmd → Cmd) : (s.modCmd c seq f).frames = s.frames := rfl
@[simp] theorem State.modCmd_mem (s : State) (c : CtxId) (seq : Word) (f : Cmd → Cmd) : (s.modCmd c seq f).mem = s.mem := rfl
@[simp] theorem State.modCmd_host (s : State) (c : CtxId) (seq : Word) (f : Cmd → Cmd) : (s.modCmd c seq f).host = s.host := rfl
@[simp] theorem State.modCmd_hostFree (s : State) (c : CtxId) (seq : Word) (f : Cmd → Cmd) : (s.modCmd c seq f).hostFree = s.hostFree := rfl
@[simp] theorem State.modCmd_fld (s : State) (c : CtxId) (seq : Word) (f : Cmd → Cmd) : (s.modCmd c seq f).fld = s.fld := rfl
@[simp] theorem State.modCmd_opt (s : State) (c : CtxId) (seq : Word) (f : Cmd → Cmd) : (s.modCmd c seq f).opt = s.opt := rfl
@[simp] theorem State.modCmd_tkp (s : State) (c : CtxId) (seq : Word) (f : Cmd → Cmd) : (s.modCmd c seq f).tkp = s.tkp := rfl
@[simp] theorem State.modCmd_lnk (s : State) (c : CtxId) (seq : Word) (f : Cmd → Cmd) : (s.modCmd c seq f).lnk = s.lnk := rfl
@[simp] theorem State.modCmd_col (s : State) (c : CtxId) (seq : Word) (f : Cmd → Cmd) : (s.modCmd c seq f).col = s.col := rfl
@[simp] theorem State.modCmd_snp (s : State) (c : CtxId) (seq : Word) (f : Cmd → Cmd) : (s.modCmd c seq f).snp = s.snp := rfl
@[simp] theorem State.modCmd_rst (s : State) (c : CtxId) (seq : Word) (f : Cmd → Cmd) : (s.modCmd c seq f).rst = s.rst := rfl
@[simp] theorem State.modCmd_hlt (s : State) (c : CtxId) (seq : Word) (f : Cmd → Cmd) : (s.modCmd c seq f).hlt = s.hlt := rfl
@[simp] theorem State.modCmd_sec (s : State) (c : CtxId) (seq : Word) (f : Cmd → Cmd) : (s.modCmd c seq f).sec = s.sec := rfl
@[simp] theorem State.modCmd_cal (s : State) (c : CtxId) (seq : Word) (f : Cmd → Cmd) : (s.modCmd c seq f).cal = s.cal := rfl
@[simp] theorem State.modCmd_svc (s : State) (c : CtxId) (seq : Word) (f : Cmd → Cmd) : (s.modCmd c seq f).svc = s.svc := rfl
@[simp] theorem State.modCmd_pwr (s : State) (c : CtxId) (seq : Word) (f : Cmd → Cmd) : (s.modCmd c seq f).pwr = s.pwr := rfl
@[simp] theorem State.modCmd_now (s : State) (c : CtxId) (seq : Word) (f : Cmd → Cmd) : (s.modCmd c seq f).now = s.now := rfl
@[simp] theorem State.modCmd_freeCtr (s : State) (c : CtxId) (seq : Word) (f : Cmd → Cmd) : (s.modCmd c seq f).freeCtr = s.freeCtr := rfl
@[simp] theorem State.modCmd_pending (s : State) (c : CtxId) (seq : Word) (f : Cmd → Cmd) : (s.modCmd c seq f).pending = s.pending := rfl
@[simp] theorem State.modCmd_ctxs (s : State) (c : CtxId) (seq : Word) (f : Cmd → Cmd) : (s.modCmd c seq f).ctxs = vmod s.ctxs c (fun o => o.map fun x => x.modCmd seq f) := rfl

/-! ## State.mapCtxs -/

@[simp] theorem State.mapCtxs_profile (s : State) (f : Context → Context) : (s.mapCtxs f).profile = s.profile := rfl
@[simp] theorem State.mapCtxs_hub (s : State) (f : Context → Context) : (s.mapCtxs f).hub = s.hub := rfl
@[simp] theorem State.mapCtxs_mbx (s : State) (f : Context → Context) : (s.mapCtxs f).mbx = s.mbx := rfl
@[simp] theorem State.mapCtxs_irq (s : State) (f : Context → Context) : (s.mapCtxs f).irq = s.irq := rfl
@[simp] theorem State.mapCtxs_evr (s : State) (f : Context → Context) : (s.mapCtxs f).evr = s.evr := rfl
@[simp] theorem State.mapCtxs_fns (s : State) (f : Context → Context) : (s.mapCtxs f).fns = s.fns := rfl
@[simp] theorem State.mapCtxs_port1 (s : State) (f : Context → Context) : (s.mapCtxs f).port1 = s.port1 := rfl
@[simp] theorem State.mapCtxs_perst (s : State) (f : Context → Context) : (s.mapCtxs f).perst = s.perst := rfl
@[simp] theorem State.mapCtxs_posted (s : State) (f : Context → Context) : (s.mapCtxs f).posted = s.posted := rfl
@[simp] theorem State.mapCtxs_cfe (s : State) (f : Context → Context) : (s.mapCtxs f).cfe = s.cfe := rfl
@[simp] theorem State.mapCtxs_sch (s : State) (f : Context → Context) : (s.mapCtxs f).sch = s.sch := rfl
@[simp] theorem State.mapCtxs_stb (s : State) (f : Context → Context) : (s.mapCtxs f).stb = s.stb := rfl
@[simp] theorem State.mapCtxs_hst (s : State) (f : Context → Context) : (s.mapCtxs f).hst = s.hst := rfl
@[simp] theorem State.mapCtxs_seam (s : State) (f : Context → Context) : (s.mapCtxs f).seam = s.seam := rfl
@[simp] theorem State.mapCtxs_frames (s : State) (f : Context → Context) : (s.mapCtxs f).frames = s.frames := rfl
@[simp] theorem State.mapCtxs_mem (s : State) (f : Context → Context) : (s.mapCtxs f).mem = s.mem := rfl
@[simp] theorem State.mapCtxs_host (s : State) (f : Context → Context) : (s.mapCtxs f).host = s.host := rfl
@[simp] theorem State.mapCtxs_hostFree (s : State) (f : Context → Context) : (s.mapCtxs f).hostFree = s.hostFree := rfl
@[simp] theorem State.mapCtxs_fld (s : State) (f : Context → Context) : (s.mapCtxs f).fld = s.fld := rfl
@[simp] theorem State.mapCtxs_opt (s : State) (f : Context → Context) : (s.mapCtxs f).opt = s.opt := rfl
@[simp] theorem State.mapCtxs_tkp (s : State) (f : Context → Context) : (s.mapCtxs f).tkp = s.tkp := rfl
@[simp] theorem State.mapCtxs_lnk (s : State) (f : Context → Context) : (s.mapCtxs f).lnk = s.lnk := rfl
@[simp] theorem State.mapCtxs_col (s : State) (f : Context → Context) : (s.mapCtxs f).col = s.col := rfl
@[simp] theorem State.mapCtxs_snp (s : State) (f : Context → Context) : (s.mapCtxs f).snp = s.snp := rfl
@[simp] theorem State.mapCtxs_rst (s : State) (f : Context → Context) : (s.mapCtxs f).rst = s.rst := rfl
@[simp] theorem State.mapCtxs_hlt (s : State) (f : Context → Context) : (s.mapCtxs f).hlt = s.hlt := rfl
@[simp] theorem State.mapCtxs_sec (s : State) (f : Context → Context) : (s.mapCtxs f).sec = s.sec := rfl
@[simp] theorem State.mapCtxs_cal (s : State) (f : Context → Context) : (s.mapCtxs f).cal = s.cal := rfl
@[simp] theorem State.mapCtxs_svc (s : State) (f : Context → Context) : (s.mapCtxs f).svc = s.svc := rfl
@[simp] theorem State.mapCtxs_pwr (s : State) (f : Context → Context) : (s.mapCtxs f).pwr = s.pwr := rfl
@[simp] theorem State.mapCtxs_now (s : State) (f : Context → Context) : (s.mapCtxs f).now = s.now := rfl
@[simp] theorem State.mapCtxs_freeCtr (s : State) (f : Context → Context) : (s.mapCtxs f).freeCtr = s.freeCtr := rfl
@[simp] theorem State.mapCtxs_pending (s : State) (f : Context → Context) : (s.mapCtxs f).pending = s.pending := rfl
@[simp] theorem State.mapCtxs_ctxs (s : State) (f : Context → Context) : (s.mapCtxs f).ctxs = s.ctxs.map fun o => o.map f := rfl

/-! ## State.modLink -/

@[simp] theorem State.modLink_profile (s : State) (l : LinkId) (f : Link → Link) : (s.modLink l f).profile = s.profile := rfl
@[simp] theorem State.modLink_hub (s : State) (l : LinkId) (f : Link → Link) : (s.modLink l f).hub = s.hub := rfl
@[simp] theorem State.modLink_mbx (s : State) (l : LinkId) (f : Link → Link) : (s.modLink l f).mbx = s.mbx := rfl
@[simp] theorem State.modLink_irq (s : State) (l : LinkId) (f : Link → Link) : (s.modLink l f).irq = s.irq := rfl
@[simp] theorem State.modLink_evr (s : State) (l : LinkId) (f : Link → Link) : (s.modLink l f).evr = s.evr := rfl
@[simp] theorem State.modLink_fns (s : State) (l : LinkId) (f : Link → Link) : (s.modLink l f).fns = s.fns := rfl
@[simp] theorem State.modLink_port1 (s : State) (l : LinkId) (f : Link → Link) : (s.modLink l f).port1 = s.port1 := rfl
@[simp] theorem State.modLink_perst (s : State) (l : LinkId) (f : Link → Link) : (s.modLink l f).perst = s.perst := rfl
@[simp] theorem State.modLink_posted (s : State) (l : LinkId) (f : Link → Link) : (s.modLink l f).posted = s.posted := rfl
@[simp] theorem State.modLink_cfe (s : State) (l : LinkId) (f : Link → Link) : (s.modLink l f).cfe = s.cfe := rfl
@[simp] theorem State.modLink_ctxs (s : State) (l : LinkId) (f : Link → Link) : (s.modLink l f).ctxs = s.ctxs := rfl
@[simp] theorem State.modLink_sch (s : State) (l : LinkId) (f : Link → Link) : (s.modLink l f).sch = s.sch := rfl
@[simp] theorem State.modLink_stb (s : State) (l : LinkId) (f : Link → Link) : (s.modLink l f).stb = s.stb := rfl
@[simp] theorem State.modLink_hst (s : State) (l : LinkId) (f : Link → Link) : (s.modLink l f).hst = s.hst := rfl
@[simp] theorem State.modLink_seam (s : State) (l : LinkId) (f : Link → Link) : (s.modLink l f).seam = s.seam := rfl
@[simp] theorem State.modLink_frames (s : State) (l : LinkId) (f : Link → Link) : (s.modLink l f).frames = s.frames := rfl
@[simp] theorem State.modLink_mem (s : State) (l : LinkId) (f : Link → Link) : (s.modLink l f).mem = s.mem := rfl
@[simp] theorem State.modLink_host (s : State) (l : LinkId) (f : Link → Link) : (s.modLink l f).host = s.host := rfl
@[simp] theorem State.modLink_hostFree (s : State) (l : LinkId) (f : Link → Link) : (s.modLink l f).hostFree = s.hostFree := rfl
@[simp] theorem State.modLink_fld (s : State) (l : LinkId) (f : Link → Link) : (s.modLink l f).fld = s.fld := rfl
@[simp] theorem State.modLink_opt (s : State) (l : LinkId) (f : Link → Link) : (s.modLink l f).opt = s.opt := rfl
@[simp] theorem State.modLink_tkp (s : State) (l : LinkId) (f : Link → Link) : (s.modLink l f).tkp = s.tkp := rfl
@[simp] theorem State.modLink_col (s : State) (l : LinkId) (f : Link → Link) : (s.modLink l f).col = s.col := rfl
@[simp] theorem State.modLink_snp (s : State) (l : LinkId) (f : Link → Link) : (s.modLink l f).snp = s.snp := rfl
@[simp] theorem State.modLink_rst (s : State) (l : LinkId) (f : Link → Link) : (s.modLink l f).rst = s.rst := rfl
@[simp] theorem State.modLink_hlt (s : State) (l : LinkId) (f : Link → Link) : (s.modLink l f).hlt = s.hlt := rfl
@[simp] theorem State.modLink_sec (s : State) (l : LinkId) (f : Link → Link) : (s.modLink l f).sec = s.sec := rfl
@[simp] theorem State.modLink_cal (s : State) (l : LinkId) (f : Link → Link) : (s.modLink l f).cal = s.cal := rfl
@[simp] theorem State.modLink_svc (s : State) (l : LinkId) (f : Link → Link) : (s.modLink l f).svc = s.svc := rfl
@[simp] theorem State.modLink_pwr (s : State) (l : LinkId) (f : Link → Link) : (s.modLink l f).pwr = s.pwr := rfl
@[simp] theorem State.modLink_now (s : State) (l : LinkId) (f : Link → Link) : (s.modLink l f).now = s.now := rfl
@[simp] theorem State.modLink_freeCtr (s : State) (l : LinkId) (f : Link → Link) : (s.modLink l f).freeCtr = s.freeCtr := rfl
@[simp] theorem State.modLink_pending (s : State) (l : LinkId) (f : Link → Link) : (s.modLink l f).pending = s.pending := rfl
@[simp] theorem State.modLink_lnk (s : State) (l : LinkId) (f : Link → Link) : (s.modLink l f).lnk = { s.lnk with links := vmod s.lnk.links l f } := rfl

/-! ## State.modGroup -/

@[simp] theorem State.modGroup_profile (s : State) (g : GroupId) (f : Group → Group) : (s.modGroup g f).profile = s.profile := rfl
@[simp] theorem State.modGroup_hub (s : State) (g : GroupId) (f : Group → Group) : (s.modGroup g f).hub = s.hub := rfl
@[simp] theorem State.modGroup_mbx (s : State) (g : GroupId) (f : Group → Group) : (s.modGroup g f).mbx = s.mbx := rfl
@[simp] theorem State.modGroup_irq (s : State) (g : GroupId) (f : Group → Group) : (s.modGroup g f).irq = s.irq := rfl
@[simp] theorem State.modGroup_evr (s : State) (g : GroupId) (f : Group → Group) : (s.modGroup g f).evr = s.evr := rfl
@[simp] theorem State.modGroup_fns (s : State) (g : GroupId) (f : Group → Group) : (s.modGroup g f).fns = s.fns := rfl
@[simp] theorem State.modGroup_port1 (s : State) (g : GroupId) (f : Group → Group) : (s.modGroup g f).port1 = s.port1 := rfl
@[simp] theorem State.modGroup_perst (s : State) (g : GroupId) (f : Group → Group) : (s.modGroup g f).perst = s.perst := rfl
@[simp] theorem State.modGroup_posted (s : State) (g : GroupId) (f : Group → Group) : (s.modGroup g f).posted = s.posted := rfl
@[simp] theorem State.modGroup_cfe (s : State) (g : GroupId) (f : Group → Group) : (s.modGroup g f).cfe = s.cfe := rfl
@[simp] theorem State.modGroup_ctxs (s : State) (g : GroupId) (f : Group → Group) : (s.modGroup g f).ctxs = s.ctxs := rfl
@[simp] theorem State.modGroup_sch (s : State) (g : GroupId) (f : Group → Group) : (s.modGroup g f).sch = s.sch := rfl
@[simp] theorem State.modGroup_stb (s : State) (g : GroupId) (f : Group → Group) : (s.modGroup g f).stb = s.stb := rfl
@[simp] theorem State.modGroup_hst (s : State) (g : GroupId) (f : Group → Group) : (s.modGroup g f).hst = s.hst := rfl
@[simp] theorem State.modGroup_seam (s : State) (g : GroupId) (f : Group → Group) : (s.modGroup g f).seam = s.seam := rfl
@[simp] theorem State.modGroup_frames (s : State) (g : GroupId) (f : Group → Group) : (s.modGroup g f).frames = s.frames := rfl
@[simp] theorem State.modGroup_mem (s : State) (g : GroupId) (f : Group → Group) : (s.modGroup g f).mem = s.mem := rfl
@[simp] theorem State.modGroup_host (s : State) (g : GroupId) (f : Group → Group) : (s.modGroup g f).host = s.host := rfl
@[simp] theorem State.modGroup_hostFree (s : State) (g : GroupId) (f : Group → Group) : (s.modGroup g f).hostFree = s.hostFree := rfl
@[simp] theorem State.modGroup_fld (s : State) (g : GroupId) (f : Group → Group) : (s.modGroup g f).fld = s.fld := rfl
@[simp] theorem State.modGroup_opt (s : State) (g : GroupId) (f : Group → Group) : (s.modGroup g f).opt = s.opt := rfl
@[simp] theorem State.modGroup_tkp (s : State) (g : GroupId) (f : Group → Group) : (s.modGroup g f).tkp = s.tkp := rfl
@[simp] theorem State.modGroup_lnk (s : State) (g : GroupId) (f : Group → Group) : (s.modGroup g f).lnk = s.lnk := rfl
@[simp] theorem State.modGroup_snp (s : State) (g : GroupId) (f : Group → Group) : (s.modGroup g f).snp = s.snp := rfl
@[simp] theorem State.modGroup_rst (s : State) (g : GroupId) (f : Group → Group) : (s.modGroup g f).rst = s.rst := rfl
@[simp] theorem State.modGroup_hlt (s : State) (g : GroupId) (f : Group → Group) : (s.modGroup g f).hlt = s.hlt := rfl
@[simp] theorem State.modGroup_sec (s : State) (g : GroupId) (f : Group → Group) : (s.modGroup g f).sec = s.sec := rfl
@[simp] theorem State.modGroup_cal (s : State) (g : GroupId) (f : Group → Group) : (s.modGroup g f).cal = s.cal := rfl
@[simp] theorem State.modGroup_svc (s : State) (g : GroupId) (f : Group → Group) : (s.modGroup g f).svc = s.svc := rfl
@[simp] theorem State.modGroup_pwr (s : State) (g : GroupId) (f : Group → Group) : (s.modGroup g f).pwr = s.pwr := rfl
@[simp] theorem State.modGroup_now (s : State) (g : GroupId) (f : Group → Group) : (s.modGroup g f).now = s.now := rfl
@[simp] theorem State.modGroup_freeCtr (s : State) (g : GroupId) (f : Group → Group) : (s.modGroup g f).freeCtr = s.freeCtr := rfl
@[simp] theorem State.modGroup_pending (s : State) (g : GroupId) (f : Group → Group) : (s.modGroup g f).pending = s.pending := rfl
@[simp] theorem State.modGroup_col (s : State) (g : GroupId) (f : Group → Group) : (s.modGroup g f).col = { s.col with groups := vmod s.col.groups g f } := rfl

/-! ## State.modSnap -/

@[simp] theorem State.modSnap_profile (s : State) (n : SnapId) (f : SnapSlot → SnapSlot) : (s.modSnap n f).profile = s.profile := rfl
@[simp] theorem State.modSnap_hub (s : State) (n : SnapId) (f : SnapSlot → SnapSlot) : (s.modSnap n f).hub = s.hub := rfl
@[simp] theorem State.modSnap_mbx (s : State) (n : SnapId) (f : SnapSlot → SnapSlot) : (s.modSnap n f).mbx = s.mbx := rfl
@[simp] theorem State.modSnap_irq (s : State) (n : SnapId) (f : SnapSlot → SnapSlot) : (s.modSnap n f).irq = s.irq := rfl
@[simp] theorem State.modSnap_evr (s : State) (n : SnapId) (f : SnapSlot → SnapSlot) : (s.modSnap n f).evr = s.evr := rfl
@[simp] theorem State.modSnap_fns (s : State) (n : SnapId) (f : SnapSlot → SnapSlot) : (s.modSnap n f).fns = s.fns := rfl
@[simp] theorem State.modSnap_port1 (s : State) (n : SnapId) (f : SnapSlot → SnapSlot) : (s.modSnap n f).port1 = s.port1 := rfl
@[simp] theorem State.modSnap_perst (s : State) (n : SnapId) (f : SnapSlot → SnapSlot) : (s.modSnap n f).perst = s.perst := rfl
@[simp] theorem State.modSnap_posted (s : State) (n : SnapId) (f : SnapSlot → SnapSlot) : (s.modSnap n f).posted = s.posted := rfl
@[simp] theorem State.modSnap_cfe (s : State) (n : SnapId) (f : SnapSlot → SnapSlot) : (s.modSnap n f).cfe = s.cfe := rfl
@[simp] theorem State.modSnap_ctxs (s : State) (n : SnapId) (f : SnapSlot → SnapSlot) : (s.modSnap n f).ctxs = s.ctxs := rfl
@[simp] theorem State.modSnap_sch (s : State) (n : SnapId) (f : SnapSlot → SnapSlot) : (s.modSnap n f).sch = s.sch := rfl
@[simp] theorem State.modSnap_stb (s : State) (n : SnapId) (f : SnapSlot → SnapSlot) : (s.modSnap n f).stb = s.stb := rfl
@[simp] theorem State.modSnap_hst (s : State) (n : SnapId) (f : SnapSlot → SnapSlot) : (s.modSnap n f).hst = s.hst := rfl
@[simp] theorem State.modSnap_seam (s : State) (n : SnapId) (f : SnapSlot → SnapSlot) : (s.modSnap n f).seam = s.seam := rfl
@[simp] theorem State.modSnap_frames (s : State) (n : SnapId) (f : SnapSlot → SnapSlot) : (s.modSnap n f).frames = s.frames := rfl
@[simp] theorem State.modSnap_mem (s : State) (n : SnapId) (f : SnapSlot → SnapSlot) : (s.modSnap n f).mem = s.mem := rfl
@[simp] theorem State.modSnap_host (s : State) (n : SnapId) (f : SnapSlot → SnapSlot) : (s.modSnap n f).host = s.host := rfl
@[simp] theorem State.modSnap_hostFree (s : State) (n : SnapId) (f : SnapSlot → SnapSlot) : (s.modSnap n f).hostFree = s.hostFree := rfl
@[simp] theorem State.modSnap_fld (s : State) (n : SnapId) (f : SnapSlot → SnapSlot) : (s.modSnap n f).fld = s.fld := rfl
@[simp] theorem State.modSnap_opt (s : State) (n : SnapId) (f : SnapSlot → SnapSlot) : (s.modSnap n f).opt = s.opt := rfl
@[simp] theorem State.modSnap_tkp (s : State) (n : SnapId) (f : SnapSlot → SnapSlot) : (s.modSnap n f).tkp = s.tkp := rfl
@[simp] theorem State.modSnap_lnk (s : State) (n : SnapId) (f : SnapSlot → SnapSlot) : (s.modSnap n f).lnk = s.lnk := rfl
@[simp] theorem State.modSnap_col (s : State) (n : SnapId) (f : SnapSlot → SnapSlot) : (s.modSnap n f).col = s.col := rfl
@[simp] theorem State.modSnap_rst (s : State) (n : SnapId) (f : SnapSlot → SnapSlot) : (s.modSnap n f).rst = s.rst := rfl
@[simp] theorem State.modSnap_hlt (s : State) (n : SnapId) (f : SnapSlot → SnapSlot) : (s.modSnap n f).hlt = s.hlt := rfl
@[simp] theorem State.modSnap_sec (s : State) (n : SnapId) (f : SnapSlot → SnapSlot) : (s.modSnap n f).sec = s.sec := rfl
@[simp] theorem State.modSnap_cal (s : State) (n : SnapId) (f : SnapSlot → SnapSlot) : (s.modSnap n f).cal = s.cal := rfl
@[simp] theorem State.modSnap_svc (s : State) (n : SnapId) (f : SnapSlot → SnapSlot) : (s.modSnap n f).svc = s.svc := rfl
@[simp] theorem State.modSnap_pwr (s : State) (n : SnapId) (f : SnapSlot → SnapSlot) : (s.modSnap n f).pwr = s.pwr := rfl
@[simp] theorem State.modSnap_now (s : State) (n : SnapId) (f : SnapSlot → SnapSlot) : (s.modSnap n f).now = s.now := rfl
@[simp] theorem State.modSnap_freeCtr (s : State) (n : SnapId) (f : SnapSlot → SnapSlot) : (s.modSnap n f).freeCtr = s.freeCtr := rfl
@[simp] theorem State.modSnap_pending (s : State) (n : SnapId) (f : SnapSlot → SnapSlot) : (s.modSnap n f).pending = s.pending := rfl
@[simp] theorem State.modSnap_snp (s : State) (n : SnapId) (f : SnapSlot → SnapSlot) : (s.modSnap n f).snp = { s.snp with slots := vmod s.snp.slots n f } := rfl

/-! ## State.claim -/

@[simp] theorem State.claim_profile (s : State) (f : Nat) (e : Frame) : (s.claim f e).profile = s.profile := rfl
@[simp] theorem State.claim_hub (s : State) (f : Nat) (e : Frame) : (s.claim f e).hub = s.hub := rfl
@[simp] theorem State.claim_mbx (s : State) (f : Nat) (e : Frame) : (s.claim f e).mbx = s.mbx := rfl
@[simp] theorem State.claim_irq (s : State) (f : Nat) (e : Frame) : (s.claim f e).irq = s.irq := rfl
@[simp] theorem State.claim_evr (s : State) (f : Nat) (e : Frame) : (s.claim f e).evr = s.evr := rfl
@[simp] theorem State.claim_fns (s : State) (f : Nat) (e : Frame) : (s.claim f e).fns = s.fns := rfl
@[simp] theorem State.claim_port1 (s : State) (f : Nat) (e : Frame) : (s.claim f e).port1 = s.port1 := rfl
@[simp] theorem State.claim_perst (s : State) (f : Nat) (e : Frame) : (s.claim f e).perst = s.perst := rfl
@[simp] theorem State.claim_posted (s : State) (f : Nat) (e : Frame) : (s.claim f e).posted = s.posted := rfl
@[simp] theorem State.claim_cfe (s : State) (f : Nat) (e : Frame) : (s.claim f e).cfe = s.cfe := rfl
@[simp] theorem State.claim_ctxs (s : State) (f : Nat) (e : Frame) : (s.claim f e).ctxs = s.ctxs := rfl
@[simp] theorem State.claim_sch (s : State) (f : Nat) (e : Frame) : (s.claim f e).sch = s.sch := rfl
@[simp] theorem State.claim_stb (s : State) (f : Nat) (e : Frame) : (s.claim f e).stb = s.stb := rfl
@[simp] theorem State.claim_hst (s : State) (f : Nat) (e : Frame) : (s.claim f e).hst = s.hst := rfl
@[simp] theorem State.claim_seam (s : State) (f : Nat) (e : Frame) : (s.claim f e).seam = s.seam := rfl
@[simp] theorem State.claim_host (s : State) (f : Nat) (e : Frame) : (s.claim f e).host = s.host := rfl
@[simp] theorem State.claim_hostFree (s : State) (f : Nat) (e : Frame) : (s.claim f e).hostFree = s.hostFree := rfl
@[simp] theorem State.claim_fld (s : State) (f : Nat) (e : Frame) : (s.claim f e).fld = s.fld := rfl
@[simp] theorem State.claim_opt (s : State) (f : Nat) (e : Frame) : (s.claim f e).opt = s.opt := rfl
@[simp] theorem State.claim_tkp (s : State) (f : Nat) (e : Frame) : (s.claim f e).tkp = s.tkp := rfl
@[simp] theorem State.claim_lnk (s : State) (f : Nat) (e : Frame) : (s.claim f e).lnk = s.lnk := rfl
@[simp] theorem State.claim_col (s : State) (f : Nat) (e : Frame) : (s.claim f e).col = s.col := rfl
@[simp] theorem State.claim_snp (s : State) (f : Nat) (e : Frame) : (s.claim f e).snp = s.snp := rfl
@[simp] theorem State.claim_rst (s : State) (f : Nat) (e : Frame) : (s.claim f e).rst = s.rst := rfl
@[simp] theorem State.claim_hlt (s : State) (f : Nat) (e : Frame) : (s.claim f e).hlt = s.hlt := rfl
@[simp] theorem State.claim_sec (s : State) (f : Nat) (e : Frame) : (s.claim f e).sec = s.sec := rfl
@[simp] theorem State.claim_cal (s : State) (f : Nat) (e : Frame) : (s.claim f e).cal = s.cal := rfl
@[simp] theorem State.claim_svc (s : State) (f : Nat) (e : Frame) : (s.claim f e).svc = s.svc := rfl
@[simp] theorem State.claim_pwr (s : State) (f : Nat) (e : Frame) : (s.claim f e).pwr = s.pwr := rfl
@[simp] theorem State.claim_now (s : State) (f : Nat) (e : Frame) : (s.claim f e).now = s.now := rfl
@[simp] theorem State.claim_freeCtr (s : State) (f : Nat) (e : Frame) : (s.claim f e).freeCtr = s.freeCtr := rfl
@[simp] theorem State.claim_pending (s : State) (f : Nat) (e : Frame) : (s.claim f e).pending = s.pending := rfl
@[simp] theorem State.claim_frames (s : State) (f : Nat) (e : Frame) : (s.claim f e).frames = s.frames.put f e := rfl

/-! ## State.releaseFrame -/

@[simp] theorem State.releaseFrame_profile (s : State) (f : Nat) : (s.releaseFrame f).profile = s.profile := rfl
@[simp] theorem State.releaseFrame_hub (s : State) (f : Nat) : (s.releaseFrame f).hub = s.hub := rfl
@[simp] theorem State.releaseFrame_mbx (s : State) (f : Nat) : (s.releaseFrame f).mbx = s.mbx := rfl
@[simp] theorem State.releaseFrame_irq (s : State) (f : Nat) : (s.releaseFrame f).irq = s.irq := rfl
@[simp] theorem State.releaseFrame_evr (s : State) (f : Nat) : (s.releaseFrame f).evr = s.evr := rfl
@[simp] theorem State.releaseFrame_fns (s : State) (f : Nat) : (s.releaseFrame f).fns = s.fns := rfl
@[simp] theorem State.releaseFrame_port1 (s : State) (f : Nat) : (s.releaseFrame f).port1 = s.port1 := rfl
@[simp] theorem State.releaseFrame_perst (s : State) (f : Nat) : (s.releaseFrame f).perst = s.perst := rfl
@[simp] theorem State.releaseFrame_posted (s : State) (f : Nat) : (s.releaseFrame f).posted = s.posted := rfl
@[simp] theorem State.releaseFrame_cfe (s : State) (f : Nat) : (s.releaseFrame f).cfe = s.cfe := rfl
@[simp] theorem State.releaseFrame_ctxs (s : State) (f : Nat) : (s.releaseFrame f).ctxs = s.ctxs := rfl
@[simp] theorem State.releaseFrame_sch (s : State) (f : Nat) : (s.releaseFrame f).sch = s.sch := rfl
@[simp] theorem State.releaseFrame_stb (s : State) (f : Nat) : (s.releaseFrame f).stb = s.stb := rfl
@[simp] theorem State.releaseFrame_hst (s : State) (f : Nat) : (s.releaseFrame f).hst = s.hst := rfl
@[simp] theorem State.releaseFrame_seam (s : State) (f : Nat) : (s.releaseFrame f).seam = s.seam := rfl
@[simp] theorem State.releaseFrame_mem (s : State) (f : Nat) : (s.releaseFrame f).mem = s.mem := rfl
@[simp] theorem State.releaseFrame_host (s : State) (f : Nat) : (s.releaseFrame f).host = s.host := rfl
@[simp] theorem State.releaseFrame_hostFree (s : State) (f : Nat) : (s.releaseFrame f).hostFree = s.hostFree := rfl
@[simp] theorem State.releaseFrame_fld (s : State) (f : Nat) : (s.releaseFrame f).fld = s.fld := rfl
@[simp] theorem State.releaseFrame_opt (s : State) (f : Nat) : (s.releaseFrame f).opt = s.opt := rfl
@[simp] theorem State.releaseFrame_tkp (s : State) (f : Nat) : (s.releaseFrame f).tkp = s.tkp := rfl
@[simp] theorem State.releaseFrame_lnk (s : State) (f : Nat) : (s.releaseFrame f).lnk = s.lnk := rfl
@[simp] theorem State.releaseFrame_col (s : State) (f : Nat) : (s.releaseFrame f).col = s.col := rfl
@[simp] theorem State.releaseFrame_snp (s : State) (f : Nat) : (s.releaseFrame f).snp = s.snp := rfl
@[simp] theorem State.releaseFrame_rst (s : State) (f : Nat) : (s.releaseFrame f).rst = s.rst := rfl
@[simp] theorem State.releaseFrame_hlt (s : State) (f : Nat) : (s.releaseFrame f).hlt = s.hlt := rfl
@[simp] theorem State.releaseFrame_sec (s : State) (f : Nat) : (s.releaseFrame f).sec = s.sec := rfl
@[simp] theorem State.releaseFrame_cal (s : State) (f : Nat) : (s.releaseFrame f).cal = s.cal := rfl
@[simp] theorem State.releaseFrame_svc (s : State) (f : Nat) : (s.releaseFrame f).svc = s.svc := rfl
@[simp] theorem State.releaseFrame_pwr (s : State) (f : Nat) : (s.releaseFrame f).pwr = s.pwr := rfl
@[simp] theorem State.releaseFrame_now (s : State) (f : Nat) : (s.releaseFrame f).now = s.now := rfl
@[simp] theorem State.releaseFrame_pending (s : State) (f : Nat) : (s.releaseFrame f).pending = s.pending := rfl
@[simp] theorem State.releaseFrame_frames (s : State) (f : Nat) : (s.releaseFrame f).frames = s.frames.del f := rfl

/-! ## State.endWith -/

@[simp] theorem State.endWith_profile (s : State) (c : CtxId) (seq : Word) (st : Byte) (idx : Nat) : (s.endWith c seq st idx).profile = s.profile := rfl
@[simp] theorem State.endWith_hub (s : State) (c : CtxId) (seq : Word) (st : Byte) (idx : Nat) : (s.endWith c seq st idx).hub = s.hub := rfl
@[simp] theorem State.endWith_mbx (s : State) (c : CtxId) (seq : Word) (st : Byte) (idx : Nat) : (s.endWith c seq st idx).mbx = s.mbx := rfl
@[simp] theorem State.endWith_irq (s : State) (c : CtxId) (seq : Word) (st : Byte) (idx : Nat) : (s.endWith c seq st idx).irq = s.irq := rfl
@[simp] theorem State.endWith_evr (s : State) (c : CtxId) (seq : Word) (st : Byte) (idx : Nat) : (s.endWith c seq st idx).evr = s.evr := rfl
@[simp] theorem State.endWith_fns (s : State) (c : CtxId) (seq : Word) (st : Byte) (idx : Nat) : (s.endWith c seq st idx).fns = s.fns := rfl
@[simp] theorem State.endWith_port1 (s : State) (c : CtxId) (seq : Word) (st : Byte) (idx : Nat) : (s.endWith c seq st idx).port1 = s.port1 := rfl
@[simp] theorem State.endWith_perst (s : State) (c : CtxId) (seq : Word) (st : Byte) (idx : Nat) : (s.endWith c seq st idx).perst = s.perst := rfl
@[simp] theorem State.endWith_posted (s : State) (c : CtxId) (seq : Word) (st : Byte) (idx : Nat) : (s.endWith c seq st idx).posted = s.posted := rfl
@[simp] theorem State.endWith_cfe (s : State) (c : CtxId) (seq : Word) (st : Byte) (idx : Nat) : (s.endWith c seq st idx).cfe = s.cfe := rfl
@[simp] theorem State.endWith_sch (s : State) (c : CtxId) (seq : Word) (st : Byte) (idx : Nat) : (s.endWith c seq st idx).sch = s.sch := rfl
@[simp] theorem State.endWith_stb (s : State) (c : CtxId) (seq : Word) (st : Byte) (idx : Nat) : (s.endWith c seq st idx).stb = s.stb := rfl
@[simp] theorem State.endWith_hst (s : State) (c : CtxId) (seq : Word) (st : Byte) (idx : Nat) : (s.endWith c seq st idx).hst = s.hst := rfl
@[simp] theorem State.endWith_seam (s : State) (c : CtxId) (seq : Word) (st : Byte) (idx : Nat) : (s.endWith c seq st idx).seam = s.seam := rfl
@[simp] theorem State.endWith_frames (s : State) (c : CtxId) (seq : Word) (st : Byte) (idx : Nat) : (s.endWith c seq st idx).frames = s.frames := rfl
@[simp] theorem State.endWith_mem (s : State) (c : CtxId) (seq : Word) (st : Byte) (idx : Nat) : (s.endWith c seq st idx).mem = s.mem := rfl
@[simp] theorem State.endWith_host (s : State) (c : CtxId) (seq : Word) (st : Byte) (idx : Nat) : (s.endWith c seq st idx).host = s.host := rfl
@[simp] theorem State.endWith_hostFree (s : State) (c : CtxId) (seq : Word) (st : Byte) (idx : Nat) : (s.endWith c seq st idx).hostFree = s.hostFree := rfl
@[simp] theorem State.endWith_fld (s : State) (c : CtxId) (seq : Word) (st : Byte) (idx : Nat) : (s.endWith c seq st idx).fld = s.fld := rfl
@[simp] theorem State.endWith_opt (s : State) (c : CtxId) (seq : Word) (st : Byte) (idx : Nat) : (s.endWith c seq st idx).opt = s.opt := rfl
@[simp] theorem State.endWith_tkp (s : State) (c : CtxId) (seq : Word) (st : Byte) (idx : Nat) : (s.endWith c seq st idx).tkp = s.tkp := rfl
@[simp] theorem State.endWith_lnk (s : State) (c : CtxId) (seq : Word) (st : Byte) (idx : Nat) : (s.endWith c seq st idx).lnk = s.lnk := rfl
@[simp] theorem State.endWith_col (s : State) (c : CtxId) (seq : Word) (st : Byte) (idx : Nat) : (s.endWith c seq st idx).col = s.col := rfl
@[simp] theorem State.endWith_snp (s : State) (c : CtxId) (seq : Word) (st : Byte) (idx : Nat) : (s.endWith c seq st idx).snp = s.snp := rfl
@[simp] theorem State.endWith_rst (s : State) (c : CtxId) (seq : Word) (st : Byte) (idx : Nat) : (s.endWith c seq st idx).rst = s.rst := rfl
@[simp] theorem State.endWith_hlt (s : State) (c : CtxId) (seq : Word) (st : Byte) (idx : Nat) : (s.endWith c seq st idx).hlt = s.hlt := rfl
@[simp] theorem State.endWith_sec (s : State) (c : CtxId) (seq : Word) (st : Byte) (idx : Nat) : (s.endWith c seq st idx).sec = s.sec := rfl
@[simp] theorem State.endWith_cal (s : State) (c : CtxId) (seq : Word) (st : Byte) (idx : Nat) : (s.endWith c seq st idx).cal = s.cal := rfl
@[simp] theorem State.endWith_svc (s : State) (c : CtxId) (seq : Word) (st : Byte) (idx : Nat) : (s.endWith c seq st idx).svc = s.svc := rfl
@[simp] theorem State.endWith_pwr (s : State) (c : CtxId) (seq : Word) (st : Byte) (idx : Nat) : (s.endWith c seq st idx).pwr = s.pwr := rfl
@[simp] theorem State.endWith_now (s : State) (c : CtxId) (seq : Word) (st : Byte) (idx : Nat) : (s.endWith c seq st idx).now = s.now := rfl
@[simp] theorem State.endWith_freeCtr (s : State) (c : CtxId) (seq : Word) (st : Byte) (idx : Nat) : (s.endWith c seq st idx).freeCtr = s.freeCtr := rfl
@[simp] theorem State.endWith_pending (s : State) (c : CtxId) (seq : Word) (st : Byte) (idx : Nat) : (s.endWith c seq st idx).pending = s.pending := rfl

/-! ## Operations that act on a condition -/


theorem State.irqSend_frame (s : State) (src : Nat) : s.irqSend src =
    { s with irq := (s.irqSend src).irq, host := (s.irqSend src).host, hostFree := (s.irqSend src).hostFree } := by
  unfold State.irqSend
  split <;> rfl

theorem State.irqPend_frame (s : State) (src : Nat) : s.irqPend src =
    { s with irq := (s.irqPend src).irq, host := (s.irqPend src).host, hostFree := (s.irqPend src).hostFree } := by
  unfold State.irqPend
  split
  · rfl
  · exact State.irqSend_frame _ src

/-- An event on a Sieve source touches the Sieve and, where a message is issued, host memory. -/
theorem State.irqEvent_frame (s : State) (src : Nat) : s.irqEvent src =
    { s with irq := (s.irqEvent src).irq, host := (s.irqEvent src).host, hostFree := (s.irqEvent src).hostFree } := by
  unfold State.irqEvent
  split
  · dsimp only
    split
    · exact State.irqPend_frame _ src
    · rfl
  · rfl


@[simp] theorem State.pass_profile (s : State) (n : Nat) : (s.pass n).profile = s.profile := by
  unfold State.pass; split <;> rfl
@[simp] theorem State.pass_hub (s : State) (n : Nat) : (s.pass n).hub = s.hub := by
  unfold State.pass; split <;> rfl
@[simp] theorem State.pass_mbx (s : State) (n : Nat) : (s.pass n).mbx = s.mbx := by
  unfold State.pass; split <;> rfl
@[simp] theorem State.pass_irq (s : State) (n : Nat) : (s.pass n).irq = s.irq := by
  unfold State.pass; split <;> rfl
@[simp] theorem State.pass_evr (s : State) (n : Nat) : (s.pass n).evr = s.evr := by
  unfold State.pass; split <;> rfl
@[simp] theorem State.pass_fns (s : State) (n : Nat) : (s.pass n).fns = s.fns := by
  unfold State.pass; split <;> rfl
@[simp] theorem State.pass_port1 (s : State) (n : Nat) : (s.pass n).port1 = s.port1 := by
  unfold State.pass; split <;> rfl
@[simp] theorem State.pass_perst (s : State) (n : Nat) : (s.pass n).perst = s.perst := by
  unfold State.pass; split <;> rfl
@[simp] theorem State.pass_posted (s : State) (n : Nat) : (s.pass n).posted = s.posted := by
  unfold State.pass; split <;> rfl
@[simp] theorem State.pass_cfe (s : State) (n : Nat) : (s.pass n).cfe = s.cfe := by
  unfold State.pass; split <;> rfl
@[simp] theorem State.pass_ctxs (s : State) (n : Nat) : (s.pass n).ctxs = s.ctxs := by
  unfold State.pass; split <;> rfl
@[simp] theorem State.pass_sch (s : State) (n : Nat) : (s.pass n).sch = s.sch := by
  unfold State.pass; split <;> rfl
@[simp] theorem State.pass_stb (s : State) (n : Nat) : (s.pass n).stb = s.stb := by
  unfold State.pass; split <;> rfl
@[simp] theorem State.pass_hst (s : State) (n : Nat) : (s.pass n).hst = s.hst := by
  unfold State.pass; split <;> rfl
@[simp] theorem State.pass_seam (s : State) (n : Nat) : (s.pass n).seam = s.seam := by
  unfold State.pass; split <;> rfl
@[simp] theorem State.pass_frames (s : State) (n : Nat) : (s.pass n).frames = s.frames := by
  unfold State.pass; split <;> rfl
@[simp] theorem State.pass_mem (s : State) (n : Nat) : (s.pass n).mem = s.mem := by
  unfold State.pass; split <;> rfl
@[simp] theorem State.pass_host (s : State) (n : Nat) : (s.pass n).host = s.host := by
  unfold State.pass; split <;> rfl
@[simp] theorem State.pass_hostFree (s : State) (n : Nat) : (s.pass n).hostFree = s.hostFree := by
  unfold State.pass; split <;> rfl
@[simp] theorem State.pass_fld (s : State) (n : Nat) : (s.pass n).fld = s.fld := by
  unfold State.pass; split <;> rfl
@[simp] theorem State.pass_opt (s : State) (n : Nat) : (s.pass n).opt = s.opt := by
  unfold State.pass; split <;> rfl
@[simp] theorem State.pass_lnk (s : State) (n : Nat) : (s.pass n).lnk = s.lnk := by
  unfold State.pass; split <;> rfl
@[simp] theorem State.pass_col (s : State) (n : Nat) : (s.pass n).col = s.col := by
  unfold State.pass; split <;> rfl
@[simp] theorem State.pass_snp (s : State) (n : Nat) : (s.pass n).snp = s.snp := by
  unfold State.pass; split <;> rfl
@[simp] theorem State.pass_rst (s : State) (n : Nat) : (s.pass n).rst = s.rst := by
  unfold State.pass; split <;> rfl
@[simp] theorem State.pass_hlt (s : State) (n : Nat) : (s.pass n).hlt = s.hlt := by
  unfold State.pass; split <;> rfl
@[simp] theorem State.pass_sec (s : State) (n : Nat) : (s.pass n).sec = s.sec := by
  unfold State.pass; split <;> rfl
@[simp] theorem State.pass_cal (s : State) (n : Nat) : (s.pass n).cal = s.cal := by
  unfold State.pass; split <;> rfl
@[simp] theorem State.pass_svc (s : State) (n : Nat) : (s.pass n).svc = s.svc := by
  unfold State.pass; split <;> rfl
@[simp] theorem State.pass_pwr (s : State) (n : Nat) : (s.pass n).pwr = s.pwr := by
  unfold State.pass; split <;> rfl
@[simp] theorem State.pass_freeCtr (s : State) (n : Nat) : (s.pass n).freeCtr = s.freeCtr := by
  unfold State.pass; split <;> rfl
@[simp] theorem State.pass_pending (s : State) (n : Nat) : (s.pass n).pending = s.pending := by
  unfold State.pass; split <;> rfl

@[simp] theorem State.irqEvent_profile (s : State) (src : Nat) : (s.irqEvent src).profile = s.profile := by
  rw [State.irqEvent_frame]
@[simp] theorem State.irqEvent_hub (s : State) (src : Nat) : (s.irqEvent src).hub = s.hub := by
  rw [State.irqEvent_frame]
@[simp] theorem State.irqEvent_mbx (s : State) (src : Nat) : (s.irqEvent src).mbx = s.mbx := by
  rw [State.irqEvent_frame]
@[simp] theorem State.irqEvent_evr (s : State) (src : Nat) : (s.irqEvent src).evr = s.evr := by
  rw [State.irqEvent_frame]
@[simp] theorem State.irqEvent_fns (s : State) (src : Nat) : (s.irqEvent src).fns = s.fns := by
  rw [State.irqEvent_frame]
@[simp] theorem State.irqEvent_port1 (s : State) (src : Nat) : (s.irqEvent src).port1 = s.port1 := by
  rw [State.irqEvent_frame]
@[simp] theorem State.irqEvent_perst (s : State) (src : Nat) : (s.irqEvent src).perst = s.perst := by
  rw [State.irqEvent_frame]
@[simp] theorem State.irqEvent_posted (s : State) (src : Nat) : (s.irqEvent src).posted = s.posted := by
  rw [State.irqEvent_frame]
@[simp] theorem State.irqEvent_cfe (s : State) (src : Nat) : (s.irqEvent src).cfe = s.cfe := by
  rw [State.irqEvent_frame]
@[simp] theorem State.irqEvent_ctxs (s : State) (src : Nat) : (s.irqEvent src).ctxs = s.ctxs := by
  rw [State.irqEvent_frame]
@[simp] theorem State.irqEvent_sch (s : State) (src : Nat) : (s.irqEvent src).sch = s.sch := by
  rw [State.irqEvent_frame]
@[simp] theorem State.irqEvent_stb (s : State) (src : Nat) : (s.irqEvent src).stb = s.stb := by
  rw [State.irqEvent_frame]
@[simp] theorem State.irqEvent_hst (s : State) (src : Nat) : (s.irqEvent src).hst = s.hst := by
  rw [State.irqEvent_frame]
@[simp] theorem State.irqEvent_seam (s : State) (src : Nat) : (s.irqEvent src).seam = s.seam := by
  rw [State.irqEvent_frame]
@[simp] theorem State.irqEvent_frames (s : State) (src : Nat) : (s.irqEvent src).frames = s.frames := by
  rw [State.irqEvent_frame]
@[simp] theorem State.irqEvent_mem (s : State) (src : Nat) : (s.irqEvent src).mem = s.mem := by
  rw [State.irqEvent_frame]
@[simp] theorem State.irqEvent_fld (s : State) (src : Nat) : (s.irqEvent src).fld = s.fld := by
  rw [State.irqEvent_frame]
@[simp] theorem State.irqEvent_opt (s : State) (src : Nat) : (s.irqEvent src).opt = s.opt := by
  rw [State.irqEvent_frame]
@[simp] theorem State.irqEvent_tkp (s : State) (src : Nat) : (s.irqEvent src).tkp = s.tkp := by
  rw [State.irqEvent_frame]
@[simp] theorem State.irqEvent_lnk (s : State) (src : Nat) : (s.irqEvent src).lnk = s.lnk := by
  rw [State.irqEvent_frame]
@[simp] theorem State.irqEvent_col (s : State) (src : Nat) : (s.irqEvent src).col = s.col := by
  rw [State.irqEvent_frame]
@[simp] theorem State.irqEvent_snp (s : State) (src : Nat) : (s.irqEvent src).snp = s.snp := by
  rw [State.irqEvent_frame]
@[simp] theorem State.irqEvent_rst (s : State) (src : Nat) : (s.irqEvent src).rst = s.rst := by
  rw [State.irqEvent_frame]
@[simp] theorem State.irqEvent_hlt (s : State) (src : Nat) : (s.irqEvent src).hlt = s.hlt := by
  rw [State.irqEvent_frame]
@[simp] theorem State.irqEvent_sec (s : State) (src : Nat) : (s.irqEvent src).sec = s.sec := by
  rw [State.irqEvent_frame]
@[simp] theorem State.irqEvent_cal (s : State) (src : Nat) : (s.irqEvent src).cal = s.cal := by
  rw [State.irqEvent_frame]
@[simp] theorem State.irqEvent_svc (s : State) (src : Nat) : (s.irqEvent src).svc = s.svc := by
  rw [State.irqEvent_frame]
@[simp] theorem State.irqEvent_pwr (s : State) (src : Nat) : (s.irqEvent src).pwr = s.pwr := by
  rw [State.irqEvent_frame]
@[simp] theorem State.irqEvent_now (s : State) (src : Nat) : (s.irqEvent src).now = s.now := by
  rw [State.irqEvent_frame]
@[simp] theorem State.irqEvent_freeCtr (s : State) (src : Nat) : (s.irqEvent src).freeCtr = s.freeCtr := by
  rw [State.irqEvent_frame]
@[simp] theorem State.irqEvent_pending (s : State) (src : Nat) : (s.irqEvent src).pending = s.pending := by
  rw [State.irqEvent_frame]

@[simp] theorem State.mbxEnd_profile (s : State) (st : Byte) (bs : List Byte) : (s.mbxEnd st bs).profile = s.profile := State.irqEvent_profile _ 324
@[simp] theorem State.mbxEnd_hub (s : State) (st : Byte) (bs : List Byte) : (s.mbxEnd st bs).hub = s.hub := State.irqEvent_hub _ 324
@[simp] theorem State.mbxEnd_evr (s : State) (st : Byte) (bs : List Byte) : (s.mbxEnd st bs).evr = s.evr := State.irqEvent_evr _ 324
@[simp] theorem State.mbxEnd_fns (s : State) (st : Byte) (bs : List Byte) : (s.mbxEnd st bs).fns = s.fns := State.irqEvent_fns _ 324
@[simp] theorem State.mbxEnd_port1 (s : State) (st : Byte) (bs : List Byte) : (s.mbxEnd st bs).port1 = s.port1 := State.irqEvent_port1 _ 324
@[simp] theorem State.mbxEnd_perst (s : State) (st : Byte) (bs : List Byte) : (s.mbxEnd st bs).perst = s.perst := State.irqEvent_perst _ 324
@[simp] theorem State.mbxEnd_posted (s : State) (st : Byte) (bs : List Byte) : (s.mbxEnd st bs).posted = s.posted := State.irqEvent_posted _ 324
@[simp] theorem State.mbxEnd_cfe (s : State) (st : Byte) (bs : List Byte) : (s.mbxEnd st bs).cfe = s.cfe := State.irqEvent_cfe _ 324
@[simp] theorem State.mbxEnd_ctxs (s : State) (st : Byte) (bs : List Byte) : (s.mbxEnd st bs).ctxs = s.ctxs := State.irqEvent_ctxs _ 324
@[simp] theorem State.mbxEnd_sch (s : State) (st : Byte) (bs : List Byte) : (s.mbxEnd st bs).sch = s.sch := State.irqEvent_sch _ 324
@[simp] theorem State.mbxEnd_stb (s : State) (st : Byte) (bs : List Byte) : (s.mbxEnd st bs).stb = s.stb := State.irqEvent_stb _ 324
@[simp] theorem State.mbxEnd_hst (s : State) (st : Byte) (bs : List Byte) : (s.mbxEnd st bs).hst = s.hst := State.irqEvent_hst _ 324
@[simp] theorem State.mbxEnd_seam (s : State) (st : Byte) (bs : List Byte) : (s.mbxEnd st bs).seam = s.seam := State.irqEvent_seam _ 324
@[simp] theorem State.mbxEnd_frames (s : State) (st : Byte) (bs : List Byte) : (s.mbxEnd st bs).frames = s.frames := State.irqEvent_frames _ 324
@[simp] theorem State.mbxEnd_mem (s : State) (st : Byte) (bs : List Byte) : (s.mbxEnd st bs).mem = s.mem := State.irqEvent_mem _ 324
@[simp] theorem State.mbxEnd_fld (s : State) (st : Byte) (bs : List Byte) : (s.mbxEnd st bs).fld = s.fld := State.irqEvent_fld _ 324
@[simp] theorem State.mbxEnd_opt (s : State) (st : Byte) (bs : List Byte) : (s.mbxEnd st bs).opt = s.opt := State.irqEvent_opt _ 324
@[simp] theorem State.mbxEnd_tkp (s : State) (st : Byte) (bs : List Byte) : (s.mbxEnd st bs).tkp = s.tkp := State.irqEvent_tkp _ 324
@[simp] theorem State.mbxEnd_lnk (s : State) (st : Byte) (bs : List Byte) : (s.mbxEnd st bs).lnk = s.lnk := State.irqEvent_lnk _ 324
@[simp] theorem State.mbxEnd_col (s : State) (st : Byte) (bs : List Byte) : (s.mbxEnd st bs).col = s.col := State.irqEvent_col _ 324
@[simp] theorem State.mbxEnd_snp (s : State) (st : Byte) (bs : List Byte) : (s.mbxEnd st bs).snp = s.snp := State.irqEvent_snp _ 324
@[simp] theorem State.mbxEnd_rst (s : State) (st : Byte) (bs : List Byte) : (s.mbxEnd st bs).rst = s.rst := State.irqEvent_rst _ 324
@[simp] theorem State.mbxEnd_hlt (s : State) (st : Byte) (bs : List Byte) : (s.mbxEnd st bs).hlt = s.hlt := State.irqEvent_hlt _ 324
@[simp] theorem State.mbxEnd_sec (s : State) (st : Byte) (bs : List Byte) : (s.mbxEnd st bs).sec = s.sec := State.irqEvent_sec _ 324
@[simp] theorem State.mbxEnd_cal (s : State) (st : Byte) (bs : List Byte) : (s.mbxEnd st bs).cal = s.cal := State.irqEvent_cal _ 324
@[simp] theorem State.mbxEnd_svc (s : State) (st : Byte) (bs : List Byte) : (s.mbxEnd st bs).svc = s.svc := State.irqEvent_svc _ 324
@[simp] theorem State.mbxEnd_pwr (s : State) (st : Byte) (bs : List Byte) : (s.mbxEnd st bs).pwr = s.pwr := State.irqEvent_pwr _ 324
@[simp] theorem State.mbxEnd_now (s : State) (st : Byte) (bs : List Byte) : (s.mbxEnd st bs).now = s.now := State.irqEvent_now _ 324
@[simp] theorem State.mbxEnd_freeCtr (s : State) (st : Byte) (bs : List Byte) : (s.mbxEnd st bs).freeCtr = s.freeCtr := State.irqEvent_freeCtr _ 324
@[simp] theorem State.mbxEnd_pending (s : State) (st : Byte) (bs : List Byte) : (s.mbxEnd st bs).pending = s.pending := State.irqEvent_pending _ 324

@[simp] theorem State.violations_profile (s : State) (c : CtxId) (n : Nat) (w : Bool) : (s.violations c n w).profile = s.profile := by
  unfold State.violations; split <;> rfl
@[simp] theorem State.violations_hub (s : State) (c : CtxId) (n : Nat) (w : Bool) : (s.violations c n w).hub = s.hub := by
  unfold State.violations; split <;> rfl
@[simp] theorem State.violations_mbx (s : State) (c : CtxId) (n : Nat) (w : Bool) : (s.violations c n w).mbx = s.mbx := by
  unfold State.violations; split <;> rfl
@[simp] theorem State.violations_irq (s : State) (c : CtxId) (n : Nat) (w : Bool) : (s.violations c n w).irq = s.irq := by
  unfold State.violations; split <;> rfl
@[simp] theorem State.violations_evr (s : State) (c : CtxId) (n : Nat) (w : Bool) : (s.violations c n w).evr = s.evr := by
  unfold State.violations; split <;> rfl
@[simp] theorem State.violations_fns (s : State) (c : CtxId) (n : Nat) (w : Bool) : (s.violations c n w).fns = s.fns := by
  unfold State.violations; split <;> rfl
@[simp] theorem State.violations_port1 (s : State) (c : CtxId) (n : Nat) (w : Bool) : (s.violations c n w).port1 = s.port1 := by
  unfold State.violations; split <;> rfl
@[simp] theorem State.violations_perst (s : State) (c : CtxId) (n : Nat) (w : Bool) : (s.violations c n w).perst = s.perst := by
  unfold State.violations; split <;> rfl
@[simp] theorem State.violations_posted (s : State) (c : CtxId) (n : Nat) (w : Bool) : (s.violations c n w).posted = s.posted := by
  unfold State.violations; split <;> rfl
@[simp] theorem State.violations_cfe (s : State) (c : CtxId) (n : Nat) (w : Bool) : (s.violations c n w).cfe = s.cfe := by
  unfold State.violations; split <;> rfl
@[simp] theorem State.violations_ctxs (s : State) (c : CtxId) (n : Nat) (w : Bool) : (s.violations c n w).ctxs = s.ctxs := by
  unfold State.violations; split <;> rfl
@[simp] theorem State.violations_sch (s : State) (c : CtxId) (n : Nat) (w : Bool) : (s.violations c n w).sch = s.sch := by
  unfold State.violations; split <;> rfl
@[simp] theorem State.violations_stb (s : State) (c : CtxId) (n : Nat) (w : Bool) : (s.violations c n w).stb = s.stb := by
  unfold State.violations; split <;> rfl
@[simp] theorem State.violations_seam (s : State) (c : CtxId) (n : Nat) (w : Bool) : (s.violations c n w).seam = s.seam := by
  unfold State.violations; split <;> rfl
@[simp] theorem State.violations_frames (s : State) (c : CtxId) (n : Nat) (w : Bool) : (s.violations c n w).frames = s.frames := by
  unfold State.violations; split <;> rfl
@[simp] theorem State.violations_mem (s : State) (c : CtxId) (n : Nat) (w : Bool) : (s.violations c n w).mem = s.mem := by
  unfold State.violations; split <;> rfl
@[simp] theorem State.violations_host (s : State) (c : CtxId) (n : Nat) (w : Bool) : (s.violations c n w).host = s.host := by
  unfold State.violations; split <;> rfl
@[simp] theorem State.violations_hostFree (s : State) (c : CtxId) (n : Nat) (w : Bool) : (s.violations c n w).hostFree = s.hostFree := by
  unfold State.violations; split <;> rfl
@[simp] theorem State.violations_fld (s : State) (c : CtxId) (n : Nat) (w : Bool) : (s.violations c n w).fld = s.fld := by
  unfold State.violations; split <;> rfl
@[simp] theorem State.violations_opt (s : State) (c : CtxId) (n : Nat) (w : Bool) : (s.violations c n w).opt = s.opt := by
  unfold State.violations; split <;> rfl
@[simp] theorem State.violations_tkp (s : State) (c : CtxId) (n : Nat) (w : Bool) : (s.violations c n w).tkp = s.tkp := by
  unfold State.violations; split <;> rfl
@[simp] theorem State.violations_lnk (s : State) (c : CtxId) (n : Nat) (w : Bool) : (s.violations c n w).lnk = s.lnk := by
  unfold State.violations; split <;> rfl
@[simp] theorem State.violations_col (s : State) (c : CtxId) (n : Nat) (w : Bool) : (s.violations c n w).col = s.col := by
  unfold State.violations; split <;> rfl
@[simp] theorem State.violations_snp (s : State) (c : CtxId) (n : Nat) (w : Bool) : (s.violations c n w).snp = s.snp := by
  unfold State.violations; split <;> rfl
@[simp] theorem State.violations_rst (s : State) (c : CtxId) (n : Nat) (w : Bool) : (s.violations c n w).rst = s.rst := by
  unfold State.violations; split <;> rfl
@[simp] theorem State.violations_hlt (s : State) (c : CtxId) (n : Nat) (w : Bool) : (s.violations c n w).hlt = s.hlt := by
  unfold State.violations; split <;> rfl
@[simp] theorem State.violations_sec (s : State) (c : CtxId) (n : Nat) (w : Bool) : (s.violations c n w).sec = s.sec := by
  unfold State.violations; split <;> rfl
@[simp] theorem State.violations_cal (s : State) (c : CtxId) (n : Nat) (w : Bool) : (s.violations c n w).cal = s.cal := by
  unfold State.violations; split <;> rfl
@[simp] theorem State.violations_svc (s : State) (c : CtxId) (n : Nat) (w : Bool) : (s.violations c n w).svc = s.svc := by
  unfold State.violations; split <;> rfl
@[simp] theorem State.violations_pwr (s : State) (c : CtxId) (n : Nat) (w : Bool) : (s.violations c n w).pwr = s.pwr := by
  unfold State.violations; split <;> rfl
@[simp] theorem State.violations_now (s : State) (c : CtxId) (n : Nat) (w : Bool) : (s.violations c n w).now = s.now := by
  unfold State.violations; split <;> rfl
@[simp] theorem State.violations_freeCtr (s : State) (c : CtxId) (n : Nat) (w : Bool) : (s.violations c n w).freeCtr = s.freeCtr := by
  unfold State.violations; split <;> rfl
@[simp] theorem State.violations_pending (s : State) (c : CtxId) (n : Nat) (w : Bool) : (s.violations c n w).pending = s.pending := by
  unfold State.violations; split <;> rfl

@[simp] theorem State.tallySeam_profile (s : State) (c : CtxId) (n : Nat) : (s.tallySeam c n).profile = s.profile := by
  unfold State.tallySeam; split <;> rfl
@[simp] theorem State.tallySeam_hub (s : State) (c : CtxId) (n : Nat) : (s.tallySeam c n).hub = s.hub := by
  unfold State.tallySeam; split <;> rfl
@[simp] theorem State.tallySeam_mbx (s : State) (c : CtxId) (n : Nat) : (s.tallySeam c n).mbx = s.mbx := by
  unfold State.tallySeam; split <;> rfl
@[simp] theorem State.tallySeam_irq (s : State) (c : CtxId) (n : Nat) : (s.tallySeam c n).irq = s.irq := by
  unfold State.tallySeam; split <;> rfl
@[simp] theorem State.tallySeam_evr (s : State) (c : CtxId) (n : Nat) : (s.tallySeam c n).evr = s.evr := by
  unfold State.tallySeam; split <;> rfl
@[simp] theorem State.tallySeam_fns (s : State) (c : CtxId) (n : Nat) : (s.tallySeam c n).fns = s.fns := by
  unfold State.tallySeam; split <;> rfl
@[simp] theorem State.tallySeam_port1 (s : State) (c : CtxId) (n : Nat) : (s.tallySeam c n).port1 = s.port1 := by
  unfold State.tallySeam; split <;> rfl
@[simp] theorem State.tallySeam_perst (s : State) (c : CtxId) (n : Nat) : (s.tallySeam c n).perst = s.perst := by
  unfold State.tallySeam; split <;> rfl
@[simp] theorem State.tallySeam_posted (s : State) (c : CtxId) (n : Nat) : (s.tallySeam c n).posted = s.posted := by
  unfold State.tallySeam; split <;> rfl
@[simp] theorem State.tallySeam_cfe (s : State) (c : CtxId) (n : Nat) : (s.tallySeam c n).cfe = s.cfe := by
  unfold State.tallySeam; split <;> rfl
@[simp] theorem State.tallySeam_sch (s : State) (c : CtxId) (n : Nat) : (s.tallySeam c n).sch = s.sch := by
  unfold State.tallySeam; split <;> rfl
@[simp] theorem State.tallySeam_stb (s : State) (c : CtxId) (n : Nat) : (s.tallySeam c n).stb = s.stb := by
  unfold State.tallySeam; split <;> rfl
@[simp] theorem State.tallySeam_hst (s : State) (c : CtxId) (n : Nat) : (s.tallySeam c n).hst = s.hst := by
  unfold State.tallySeam; split <;> rfl
@[simp] theorem State.tallySeam_seam (s : State) (c : CtxId) (n : Nat) : (s.tallySeam c n).seam = s.seam := by
  unfold State.tallySeam; split <;> rfl
@[simp] theorem State.tallySeam_frames (s : State) (c : CtxId) (n : Nat) : (s.tallySeam c n).frames = s.frames := by
  unfold State.tallySeam; split <;> rfl
@[simp] theorem State.tallySeam_mem (s : State) (c : CtxId) (n : Nat) : (s.tallySeam c n).mem = s.mem := by
  unfold State.tallySeam; split <;> rfl
@[simp] theorem State.tallySeam_host (s : State) (c : CtxId) (n : Nat) : (s.tallySeam c n).host = s.host := by
  unfold State.tallySeam; split <;> rfl
@[simp] theorem State.tallySeam_hostFree (s : State) (c : CtxId) (n : Nat) : (s.tallySeam c n).hostFree = s.hostFree := by
  unfold State.tallySeam; split <;> rfl
@[simp] theorem State.tallySeam_fld (s : State) (c : CtxId) (n : Nat) : (s.tallySeam c n).fld = s.fld := by
  unfold State.tallySeam; split <;> rfl
@[simp] theorem State.tallySeam_opt (s : State) (c : CtxId) (n : Nat) : (s.tallySeam c n).opt = s.opt := by
  unfold State.tallySeam; split <;> rfl
@[simp] theorem State.tallySeam_tkp (s : State) (c : CtxId) (n : Nat) : (s.tallySeam c n).tkp = s.tkp := by
  unfold State.tallySeam; split <;> rfl
@[simp] theorem State.tallySeam_lnk (s : State) (c : CtxId) (n : Nat) : (s.tallySeam c n).lnk = s.lnk := by
  unfold State.tallySeam; split <;> rfl
@[simp] theorem State.tallySeam_col (s : State) (c : CtxId) (n : Nat) : (s.tallySeam c n).col = s.col := by
  unfold State.tallySeam; split <;> rfl
@[simp] theorem State.tallySeam_snp (s : State) (c : CtxId) (n : Nat) : (s.tallySeam c n).snp = s.snp := by
  unfold State.tallySeam; split <;> rfl
@[simp] theorem State.tallySeam_rst (s : State) (c : CtxId) (n : Nat) : (s.tallySeam c n).rst = s.rst := by
  unfold State.tallySeam; split <;> rfl
@[simp] theorem State.tallySeam_hlt (s : State) (c : CtxId) (n : Nat) : (s.tallySeam c n).hlt = s.hlt := by
  unfold State.tallySeam; split <;> rfl
@[simp] theorem State.tallySeam_sec (s : State) (c : CtxId) (n : Nat) : (s.tallySeam c n).sec = s.sec := by
  unfold State.tallySeam; split <;> rfl
@[simp] theorem State.tallySeam_cal (s : State) (c : CtxId) (n : Nat) : (s.tallySeam c n).cal = s.cal := by
  unfold State.tallySeam; split <;> rfl
@[simp] theorem State.tallySeam_svc (s : State) (c : CtxId) (n : Nat) : (s.tallySeam c n).svc = s.svc := by
  unfold State.tallySeam; split <;> rfl
@[simp] theorem State.tallySeam_pwr (s : State) (c : CtxId) (n : Nat) : (s.tallySeam c n).pwr = s.pwr := by
  unfold State.tallySeam; split <;> rfl
@[simp] theorem State.tallySeam_now (s : State) (c : CtxId) (n : Nat) : (s.tallySeam c n).now = s.now := by
  unfold State.tallySeam; split <;> rfl
@[simp] theorem State.tallySeam_freeCtr (s : State) (c : CtxId) (n : Nat) : (s.tallySeam c n).freeCtr = s.freeCtr := by
  unfold State.tallySeam; split <;> rfl
@[simp] theorem State.tallySeam_pending (s : State) (c : CtxId) (n : Nat) : (s.tallySeam c n).pending = s.pending := by
  unfold State.tallySeam; split <;> rfl

@[simp] theorem State.tallyHost_profile (s : State) (c : CtxId) (n : Nat) : (s.tallyHost c n).profile = s.profile := by
  unfold State.tallyHost; split <;> rfl
@[simp] theorem State.tallyHost_hub (s : State) (c : CtxId) (n : Nat) : (s.tallyHost c n).hub = s.hub := by
  unfold State.tallyHost; split <;> rfl
@[simp] theorem State.tallyHost_mbx (s : State) (c : CtxId) (n : Nat) : (s.tallyHost c n).mbx = s.mbx := by
  unfold State.tallyHost; split <;> rfl
@[simp] theorem State.tallyHost_irq (s : State) (c : CtxId) (n : Nat) : (s.tallyHost c n).irq = s.irq := by
  unfold State.tallyHost; split <;> rfl
@[simp] theorem State.tallyHost_evr (s : State) (c : CtxId) (n : Nat) : (s.tallyHost c n).evr = s.evr := by
  unfold State.tallyHost; split <;> rfl
@[simp] theorem State.tallyHost_fns (s : State) (c : CtxId) (n : Nat) : (s.tallyHost c n).fns = s.fns := by
  unfold State.tallyHost; split <;> rfl
@[simp] theorem State.tallyHost_port1 (s : State) (c : CtxId) (n : Nat) : (s.tallyHost c n).port1 = s.port1 := by
  unfold State.tallyHost; split <;> rfl
@[simp] theorem State.tallyHost_perst (s : State) (c : CtxId) (n : Nat) : (s.tallyHost c n).perst = s.perst := by
  unfold State.tallyHost; split <;> rfl
@[simp] theorem State.tallyHost_posted (s : State) (c : CtxId) (n : Nat) : (s.tallyHost c n).posted = s.posted := by
  unfold State.tallyHost; split <;> rfl
@[simp] theorem State.tallyHost_cfe (s : State) (c : CtxId) (n : Nat) : (s.tallyHost c n).cfe = s.cfe := by
  unfold State.tallyHost; split <;> rfl
@[simp] theorem State.tallyHost_sch (s : State) (c : CtxId) (n : Nat) : (s.tallyHost c n).sch = s.sch := by
  unfold State.tallyHost; split <;> rfl
@[simp] theorem State.tallyHost_stb (s : State) (c : CtxId) (n : Nat) : (s.tallyHost c n).stb = s.stb := by
  unfold State.tallyHost; split <;> rfl
@[simp] theorem State.tallyHost_hst (s : State) (c : CtxId) (n : Nat) : (s.tallyHost c n).hst = s.hst := by
  unfold State.tallyHost; split <;> rfl
@[simp] theorem State.tallyHost_seam (s : State) (c : CtxId) (n : Nat) : (s.tallyHost c n).seam = s.seam := by
  unfold State.tallyHost; split <;> rfl
@[simp] theorem State.tallyHost_frames (s : State) (c : CtxId) (n : Nat) : (s.tallyHost c n).frames = s.frames := by
  unfold State.tallyHost; split <;> rfl
@[simp] theorem State.tallyHost_mem (s : State) (c : CtxId) (n : Nat) : (s.tallyHost c n).mem = s.mem := by
  unfold State.tallyHost; split <;> rfl
@[simp] theorem State.tallyHost_host (s : State) (c : CtxId) (n : Nat) : (s.tallyHost c n).host = s.host := by
  unfold State.tallyHost; split <;> rfl
@[simp] theorem State.tallyHost_hostFree (s : State) (c : CtxId) (n : Nat) : (s.tallyHost c n).hostFree = s.hostFree := by
  unfold State.tallyHost; split <;> rfl
@[simp] theorem State.tallyHost_fld (s : State) (c : CtxId) (n : Nat) : (s.tallyHost c n).fld = s.fld := by
  unfold State.tallyHost; split <;> rfl
@[simp] theorem State.tallyHost_opt (s : State) (c : CtxId) (n : Nat) : (s.tallyHost c n).opt = s.opt := by
  unfold State.tallyHost; split <;> rfl
@[simp] theorem State.tallyHost_tkp (s : State) (c : CtxId) (n : Nat) : (s.tallyHost c n).tkp = s.tkp := by
  unfold State.tallyHost; split <;> rfl
@[simp] theorem State.tallyHost_lnk (s : State) (c : CtxId) (n : Nat) : (s.tallyHost c n).lnk = s.lnk := by
  unfold State.tallyHost; split <;> rfl
@[simp] theorem State.tallyHost_col (s : State) (c : CtxId) (n : Nat) : (s.tallyHost c n).col = s.col := by
  unfold State.tallyHost; split <;> rfl
@[simp] theorem State.tallyHost_snp (s : State) (c : CtxId) (n : Nat) : (s.tallyHost c n).snp = s.snp := by
  unfold State.tallyHost; split <;> rfl
@[simp] theorem State.tallyHost_rst (s : State) (c : CtxId) (n : Nat) : (s.tallyHost c n).rst = s.rst := by
  unfold State.tallyHost; split <;> rfl
@[simp] theorem State.tallyHost_hlt (s : State) (c : CtxId) (n : Nat) : (s.tallyHost c n).hlt = s.hlt := by
  unfold State.tallyHost; split <;> rfl
@[simp] theorem State.tallyHost_sec (s : State) (c : CtxId) (n : Nat) : (s.tallyHost c n).sec = s.sec := by
  unfold State.tallyHost; split <;> rfl
@[simp] theorem State.tallyHost_cal (s : State) (c : CtxId) (n : Nat) : (s.tallyHost c n).cal = s.cal := by
  unfold State.tallyHost; split <;> rfl
@[simp] theorem State.tallyHost_svc (s : State) (c : CtxId) (n : Nat) : (s.tallyHost c n).svc = s.svc := by
  unfold State.tallyHost; split <;> rfl
@[simp] theorem State.tallyHost_pwr (s : State) (c : CtxId) (n : Nat) : (s.tallyHost c n).pwr = s.pwr := by
  unfold State.tallyHost; split <;> rfl
@[simp] theorem State.tallyHost_now (s : State) (c : CtxId) (n : Nat) : (s.tallyHost c n).now = s.now := by
  unfold State.tallyHost; split <;> rfl
@[simp] theorem State.tallyHost_freeCtr (s : State) (c : CtxId) (n : Nat) : (s.tallyHost c n).freeCtr = s.freeCtr := by
  unfold State.tallyHost; split <;> rfl
@[simp] theorem State.tallyHost_pending (s : State) (c : CtxId) (n : Nat) : (s.tallyHost c n).pending = s.pending := by
  unfold State.tallyHost; split <;> rfl

/-! ## Contexts, links, groups, snapshots by number -/

@[simp] theorem State.ctx?_setCtx_same (s : State) (c : CtxId) (x : Context) : (s.setCtx c x).ctx? c = some x :=
  vget_vset_same s.ctxs c _
@[simp] theorem State.ctx?_setCtx_other (s : State) (c d : CtxId) (x : Context) (h : d ≠ c) : (s.setCtx c x).ctx? d = s.ctx? d :=
  vget_vset_other s.ctxs c d _ h
@[simp] theorem State.ctx?_modCtx_same (s : State) (c : CtxId) (f : Context → Context) :
    (s.modCtx c f).ctx? c = (s.ctx? c).map f := vget_vmod_same s.ctxs c _
@[simp] theorem State.ctx?_modCtx_other (s : State) (c d : CtxId) (f : Context → Context) (h : d ≠ c) :
    (s.modCtx c f).ctx? d = s.ctx? d := vget_vmod_other s.ctxs c d _ h
@[simp] theorem State.ctx?_mapCtxs (s : State) (c : CtxId) (f : Context → Context) :
    (s.mapCtxs f).ctx? c = (s.ctx? c).map f := vget_map _ s.ctxs c
@[simp] theorem State.link_modLink_same (s : State) (l : LinkId) (f : Link → Link) : (s.modLink l f).link l = f (s.link l) :=
  vget_vmod_same s.lnk.links l f
@[simp] theorem State.link_modLink_other (s : State) (l m : LinkId) (f : Link → Link) (h : m ≠ l) :
    (s.modLink l f).link m = s.link m := vget_vmod_other s.lnk.links l m f h
@[simp] theorem State.group_modGroup_same (s : State) (g : GroupId) (f : Group → Group) :
    (s.modGroup g f).group g = f (s.group g) := vget_vmod_same s.col.groups g f
@[simp] theorem State.group_modGroup_other (s : State) (g h : GroupId) (f : Group → Group) (hh : h ≠ g) :
    (s.modGroup g f).group h = s.group h := vget_vmod_other s.col.groups g h f hh
@[simp] theorem State.snap_modSnap_same (s : State) (n : SnapId) (f : SnapSlot → SnapSlot) :
    (s.modSnap n f).snap n = f (s.snap n) := vget_vmod_same s.snp.slots n f
@[simp] theorem State.snap_modSnap_other (s : State) (n m : SnapId) (f : SnapSlot → SnapSlot) (h : m ≠ n) :
    (s.modSnap n f).snap m = s.snap m := vget_vmod_other s.snp.slots n m f h
@[simp] theorem State.ctx?_raise (s : State) (c : CtxId) (code subject : Nat) (p : List Byte) :
    (s.raise code subject p).ctx? c = s.ctx? c := rfl

/-- An event goes to the ring its code names and to no other. -/
theorem State.raise_other_ring (s : State) (code subject : Nat) (p : List Byte) (r : Fin 4) (h : r ≠ Fin.ofNat 4 (code / 64)) :
    vget (s.raise code subject p).evr r = vget s.evr r := vget_vmod_other s.evr _ r _ h

/-! ## What a mailbox request leaves -/

/-- A request that ends: BUSY reads 0, VALID 1, its status and LEN stand. -/
theorem State.mbxEnd_mbx (s : State) (st : Byte) (bs : List Byte) : (s.mbxEnd st bs).mbx =
    { s.mbx with data := mbxFill s.mbx.data bs, len := BitVec.ofNat 10 bs.length, status := st, valid := true, busy := false } :=
  State.irqEvent_mbx _ 324

theorem State.mbxOk_eq (s : State) (bs : List Byte) : s.mbxOk bs = s.mbxEnd stOk bs := rfl
theorem State.mbxStatus_eq (s : State) (st : Byte) : s.mbxStatus st = s.mbxEnd stOk (leBytes 4 st.toNat) := rfl
theorem State.mbxFail_eq (s : State) (st : Byte) : s.mbxFail st = s.mbxEnd st [] := rfl

/-- A request not in progress does nothing. -/
theorem State.mbxRunAlways_idle (s : State) (code : Nat) (k : State → State) (h : s.mbxIs code = false) :
    s.mbxRunAlways code k = s := by
  simp only [State.mbxRunAlways, h, Bool.false_eq_true, if_false]

/-- A request in progress, with the mailbox not fenced, does what it does. -/
theorem State.mbxRunAlways_runs (s : State) (code : Nat) (k : State → State) (h : s.mbxIs code = true)
    (hf : s.mbx.fenced = false) : s.mbxRunAlways code k = k s := by
  simp only [State.mbxRunAlways, h, hf, Bool.false_eq_true, if_false, if_true]

theorem State.mbxRun_idle (s : State) (code : Nat) (k : State → State) (h : s.mbxIs code = false) :
    s.mbxRun code k = s := State.mbxRunAlways_idle s code _ h

theorem State.mbxRun_runs (s : State) (code : Nat) (k : State → State) (h : s.mbxIs code = true)
    (hf : s.mbx.fenced = false) (hr : s.rst.retired = false) (hc : s.rst.coreHeld = false ∨ coreFree code = true) :
    s.mbxRun code k = k s := by
  have : (s.rst.coreHeld && !coreFree code) = false := by rcases hc with hc | hc <;> simp [hc]
  unfold State.mbxRun
  rw [State.mbxRunAlways_runs s code _ h hf]
  simp only [hr, this, Bool.false_eq_true, if_false]

/-- While the core domains are held in reset a request that they serve waits (13_reset_health.md R354). -/
theorem State.mbxRun_waits (s : State) (code : Nat) (k : State → State) (h : s.mbxIs code = true)
    (hf : s.mbx.fenced = false) (hr : s.rst.retired = false) (hc : s.rst.coreHeld = true) (hx : coreFree code = false) :
    s.mbxRun code k = s := by
  unfold State.mbxRun
  rw [State.mbxRunAlways_runs s code _ h hf]
  simp only [hr, hc, hx, Bool.not_false, Bool.and_self, Bool.false_eq_true, if_false, if_true]

/-- Everything a mailbox request can do: nothing yet, end with FENCED, or its own effect. -/
theorem State.mbxRun_cases (s : State) (code : Nat) (k : State → State) :
    s.mbxRun code k = s ∨ s.mbxRun code k = s.mbxFail stFenced ∨
      (s.mbxIs code = true ∧ s.mbx.fenced = false ∧ s.rst.retired = false ∧ s.mbxRun code k = k s) := by
  by_cases h : s.mbxIs code = true
  · by_cases hf : s.mbx.fenced = true
    · refine Or.inr (Or.inl ?_)
      simp only [State.mbxRun, State.mbxRunAlways, h, hf, if_true]
    · have hf' : s.mbx.fenced = false := by cases hb : s.mbx.fenced with | true => exact absurd hb hf | false => rfl
      by_cases hr : s.rst.retired = true
      · refine Or.inr (Or.inl ?_)
        unfold State.mbxRun
        rw [State.mbxRunAlways_runs s code _ h hf']
        simp only [hr, if_true]
      · have hr' : s.rst.retired = false := by cases hb : s.rst.retired with | true => exact absurd hb hr | false => rfl
        by_cases hc : s.rst.coreHeld = true ∧ coreFree code = false
        · exact Or.inl (State.mbxRun_waits s code k h hf' hr' hc.1 hc.2)
        · refine Or.inr (Or.inr ⟨h, hf', hr', State.mbxRun_runs s code k h hf' hr' ?_⟩)
          cases h1 : s.rst.coreHeld with
          | false => exact Or.inl rfl
          | true => cases h2 : coreFree code with
            | true => exact Or.inr rfl
            | false => exact absurd ⟨h1, h2⟩ hc
  · have h' : s.mbxIs code = false := by cases hb : s.mbxIs code with | true => exact absurd hb h | false => rfl
    exact Or.inl (State.mbxRun_idle s code k h')

end Sys2Proof.Machine
end

