-- ==== Sys2Proof/Laws/Kept.lean ====
section
/-! SUPPORT. What no operation of the model does: touch the queue, take a byte memory out of its canonical form, bring a
retired module out of the core reset, set BUSY and VALID of the mailbox together. One lemma an operation; a meaning's
follows from those of the operations it calls. -/

namespace Sys2Proof.Machine

set_option linter.unusedTactic false
set_option linter.unreachableTactic false

/-- From `s` to `t` the queue is unchanged and the invariants of Safety.lean are kept. -/
structure Kept (s t : State) : Prop where
  queue : t.pending = s.pending
  memories : s.memoriesWf = true → t.memoriesWf = true
  held : s.retiredHeld = true → t.retiredHeld = true
  mailbox : s.mailboxSane = true → t.mailboxSane = true

theorem Kept.refl (s : State) : Kept s s := ⟨rfl, id, id, id⟩

theorem Kept.trans {s t u : State} (h : Kept s t) (k : Kept t u) : Kept s u :=
  ⟨k.queue.trans h.queue, fun w => k.memories (h.memories w), fun w => k.held (h.held w), fun w => k.mailbox (h.mailbox w)⟩

theorem State.memoriesWf_iff (s : State) :
    s.memoriesWf = true ↔ s.mem.wf = true ∧ s.host.wf = true ∧ s.fld.plate.wf = true := by
  simp only [State.memoriesWf, Bool.and_eq_true, and_assoc]

/-- What is kept up to `y` may be used after it. -/
theorem Kept.step {s t : State} {y : State} (h : Kept s y) (k : Kept s y → Kept s t) : Kept s t := k h

/-- Whichever branch is taken. -/
theorem Kept.ite {c : Prop} [Decidable c] {s t u : State} (h : Kept s t) (k : Kept s u) : Kept s (if c then t else u) := by
  split
  · exact h
  · exact k

/-- An update of other parts. -/
theorem Kept.upd {s x : State} {u_profile : Profile} {u_hub : Hub} {u_mbx : Mailbox} {u_irq : Irq} {u_evr : Vector EventRing 4} {u_fns : Vector Func 64} {u_port1 : Port1} {u_perst : Bool} {u_posted : Posted} {u_cfe : Cfe} {u_ctxs : Vector (Option Context) 256} {u_sch : Sch} {u_stb : Stb} {u_hst : Hst} {u_seam : Seam} {u_frames : Assoc Frame} {u_hostFree : List (Nat × Nat)} {u_fld : Fld} {u_opt : Opt} {u_tkp : Tkp} {u_lnk : Lnk} {u_col : Col} {u_snp : Snp} {u_rst : Rst} {u_hlt : Hlt} {u_sec : Sec} {u_cal : Cal} {u_svc : Svc} {u_pwr : Pwr} {u_now : Nat} {u_freeCtr : Nat}
    (h : Kept s x) (hf : u_fld.plate = x.fld.plate) (hr : u_rst.retired = x.rst.retired)
    (hc : u_rst.coreHeld = x.rst.coreHeld) (hb : u_mbx.busy = x.mbx.busy) (hv : u_mbx.valid = x.mbx.valid) :
    Kept s (State.mk u_profile u_hub u_mbx u_irq u_evr u_fns u_port1 u_perst u_posted u_cfe u_ctxs u_sch u_stb u_hst u_seam u_frames x.mem x.host u_hostFree u_fld u_opt u_tkp u_lnk u_col u_snp u_rst u_hlt u_sec u_cal u_svc u_pwr u_now u_freeCtr x.pending) := by
  refine h.trans ⟨rfl, fun w => ?_, fun w => ?_, fun w => ?_⟩
  · simpa only [State.memoriesWf, hf] using w
  · simpa only [State.retiredHeld, hr, hc] using w
  · simpa only [State.mailboxSane, hb, hv] using w

/-- An update of other parts that leaves the module not retired, or the core reset on. -/
theorem Kept.updHeld {s x : State} {u_profile : Profile} {u_hub : Hub} {u_mbx : Mailbox} {u_irq : Irq} {u_evr : Vector EventRing 4} {u_fns : Vector Func 64} {u_port1 : Port1} {u_perst : Bool} {u_posted : Posted} {u_cfe : Cfe} {u_ctxs : Vector (Option Context) 256} {u_sch : Sch} {u_stb : Stb} {u_hst : Hst} {u_seam : Seam} {u_frames : Assoc Frame} {u_hostFree : List (Nat × Nat)} {u_fld : Fld} {u_opt : Opt} {u_tkp : Tkp} {u_lnk : Lnk} {u_col : Col} {u_snp : Snp} {u_rst : Rst} {u_hlt : Hlt} {u_sec : Sec} {u_cal : Cal} {u_svc : Svc} {u_pwr : Pwr} {u_now : Nat} {u_freeCtr : Nat}
    (h : Kept s x) (hf : u_fld.plate = x.fld.plate) (hr : (!u_rst.retired || u_rst.coreHeld) = true)
    (hb : u_mbx.busy = x.mbx.busy) (hv : u_mbx.valid = x.mbx.valid) :
    Kept s (State.mk u_profile u_hub u_mbx u_irq u_evr u_fns u_port1 u_perst u_posted u_cfe u_ctxs u_sch u_stb u_hst u_seam u_frames x.mem x.host u_hostFree u_fld u_opt u_tkp u_lnk u_col u_snp u_rst u_hlt u_sec u_cal u_svc u_pwr u_now u_freeCtr x.pending) := by
  refine h.trans ⟨rfl, fun w => ?_, fun _ => hr, fun w => ?_⟩
  · simpa only [State.memoriesWf, hf] using w
  · simpa only [State.mailboxSane, hb, hv] using w

/-- A fold of an operation that keeps. -/
theorem Kept.foldl {α : Type} {s x : State} (f : State → α → State) (xs : List α) (h : Kept s x)
    (hf : ∀ y e, Kept y (f y e)) : Kept s (xs.foldl f x) := by
  induction xs generalizing x with
  | nil => exact h
  | cons e xs ih => exact ih (h.trans (hf x e))

/-- An update of Seam's bytes, of host memory and of the Plate that keeps their form. -/
theorem Kept.memUpd {s t : State} (hq : t.pending = s.pending)
    (hm : s.mem.wf = true → s.host.wf = true → s.fld.plate.wf = true → t.mem.wf = true ∧ t.host.wf = true ∧ t.fld.plate.wf = true)
    (hr : t.rst = s.rst) (hb : t.mbx = s.mbx) : Kept s t := by
  refine ⟨hq, fun w => ?_, fun w => ?_, fun w => ?_⟩
  · obtain ⟨a, b, c⟩ := s.memoriesWf_iff.mp w
    exact t.memoriesWf_iff.mpr (hm a b c)
  · simpa only [State.retiredHeld, hr] using w
  · simpa only [State.mailboxSane, hb] using w

theorem State.pass_kept (s : State) (n : Nat) : Kept s (s.pass n) := by
  unfold State.pass
  repeat' first
    | with_reducible apply Kept.refl
    | assumption
    | (extract_lets +onlyGivenNames y; first | (refine Kept.step (y := y) ?_ (fun _ => ?_); on_goal 2 => clear_value y; on_goal 1 => subst y) | subst y)
    | with_reducible apply Kept.ite
    | fail_if_no_progress (with_reducible apply Kept.upd <;> try with_reducible rfl)

theorem State.passToHt_kept (s : State) (t : Nat) : Kept s (s.passToHt t) := by
  unfold State.passToHt
  repeat' first
    | with_reducible apply Kept.refl
    | assumption
    | (extract_lets +onlyGivenNames y; first | (refine Kept.step (y := y) ?_ (fun _ => ?_); on_goal 2 => clear_value y; on_goal 1 => subst y) | subst y)
    | with_reducible apply Kept.ite
    | fail_if_no_progress (with_reducible apply Kept.upd <;> try with_reducible rfl)

theorem State.bumpFree_kept (s : State) : Kept s (s.bumpFree) := by
  unfold State.bumpFree
  repeat' first
    | with_reducible apply Kept.refl
    | fail_if_no_progress (with_reducible apply Kept.upd <;> try with_reducible rfl)

theorem State.hostWrite_kept (s : State) (a : Nat) (bs : List Byte) : Kept s (s.hostWrite a bs) :=
  Kept.memUpd rfl (fun m h p => ⟨m, Cells.writeBytes_wf bs _ a h, p⟩) rfl rfl

theorem State.hostUndefined_kept (s : State) (a n : Nat) : Kept s (s.hostUndefined a n) :=
  Kept.memUpd rfl (fun m h p => ⟨m, Cells.clear_wf _ a n h, p⟩) rfl rfl

theorem State.regViol_kept (s : State) : Kept s (s.regViol) := by
  unfold State.regViol
  repeat' first
    | with_reducible apply Kept.refl
    | assumption
    | (extract_lets +onlyGivenNames y; first | (refine Kept.step (y := y) ?_ (fun _ => ?_); on_goal 2 => clear_value y; on_goal 1 => subst y) | subst y)
    | fail_if_no_progress (with_reducible apply Kept.upd <;> try with_reducible rfl)

theorem State.raise_kept (s : State) (code : Nat) (subject : Nat) (payload : List Byte) : Kept s (s.raise code subject payload) := by
  unfold State.raise
  repeat' first
    | with_reducible apply Kept.refl
    | assumption
    | (extract_lets +onlyGivenNames y; first | (refine Kept.step (y := y) ?_ (fun _ => ?_); on_goal 2 => clear_value y; on_goal 1 => subst y) | subst y)
    | with_reducible apply Kept.ite
    | fail_if_no_progress (with_reducible apply Kept.upd <;> try with_reducible rfl)

theorem State.irqClear_kept (s : State) (src : Nat) : Kept s (s.irqClear src) := by
  unfold State.irqClear
  repeat' first
    | with_reducible apply Kept.refl
    | assumption
    | (extract_lets +onlyGivenNames y; first | (refine Kept.step (y := y) ?_ (fun _ => ?_); on_goal 2 => clear_value y; on_goal 1 => subst y) | subst y)
    | with_reducible apply Kept.ite
    | fail_if_no_progress (with_reducible apply Kept.upd <;> try with_reducible rfl)

theorem State.irqSend_kept (s : State) (src : Nat) : Kept s (s.irqSend src) := by
  unfold State.irqSend
  repeat' first
    | with_reducible apply Kept.refl
    | assumption
    | (extract_lets +onlyGivenNames y; first | (refine Kept.step (y := y) ?_ (fun _ => ?_); on_goal 2 => clear_value y; on_goal 1 => subst y) | subst y)
    | (with_reducible apply fun h => Kept.trans h (State.hostWrite_kept _ _ _))
    | (with_reducible apply fun h => Kept.trans h (State.irqClear_kept _ _))
    | with_reducible apply Kept.ite
    | fail_if_no_progress (with_reducible apply Kept.upd <;> try with_reducible rfl)

theorem State.irqPend_kept (s : State) (src : Nat) : Kept s (s.irqPend src) := by
  unfold State.irqPend
  repeat' first
    | with_reducible apply Kept.refl
    | assumption
    | (extract_lets +onlyGivenNames y; first | (refine Kept.step (y := y) ?_ (fun _ => ?_); on_goal 2 => clear_value y; on_goal 1 => subst y) | subst y)
    | (with_reducible apply fun h => Kept.trans h (State.irqSend_kept _ _))
    | with_reducible apply Kept.ite
    | split
    | fail_if_no_progress (with_reducible apply Kept.upd <;> try with_reducible rfl)

theorem State.irqEvent_kept (s : State) (src : Nat) : Kept s (s.irqEvent src) := by
  unfold State.irqEvent
  repeat' first
    | with_reducible apply Kept.refl
    | assumption
    | (extract_lets +onlyGivenNames y; first | (refine Kept.step (y := y) ?_ (fun _ => ?_); on_goal 2 => clear_value y; on_goal 1 => subst y) | subst y)
    | (with_reducible apply fun h => Kept.trans h (State.irqPend_kept _ _))
    | with_reducible apply Kept.ite
    | fail_if_no_progress (with_reducible apply Kept.upd <;> try with_reducible rfl)

theorem State.mbxEnd_kept (s : State) (status : Byte) (bs : List Byte) : Kept s (s.mbxEnd status bs) := by
  unfold State.mbxEnd
  refine Kept.trans ?_ (State.irqEvent_kept _ 324)
  exact ⟨rfl, id, id, fun _ => rfl⟩

theorem State.mbxOk_kept (s : State) (bs : List Byte) : Kept s (s.mbxOk bs) := by
  unfold State.mbxOk
  repeat' first
    | with_reducible apply Kept.refl
    | (with_reducible apply fun h => Kept.trans h (State.mbxEnd_kept _ _ _))

theorem State.mbxStatus_kept (s : State) (st : Byte) : Kept s (s.mbxStatus st) := by
  unfold State.mbxStatus
  repeat' first
    | with_reducible apply Kept.refl
    | (with_reducible apply fun h => Kept.trans h (State.mbxOk_kept _ _))

theorem State.mbxFail_kept (s : State) (st : Byte) : Kept s (s.mbxFail st) := by
  unfold State.mbxFail
  repeat' first
    | with_reducible apply Kept.refl
    | (with_reducible apply fun h => Kept.trans h (State.mbxEnd_kept _ _ _))

theorem State.mbxRunAlways_kept (s : State) (code : Nat) (k : State → State) (h : ∀ x, Kept x (k x)) :
    Kept s (s.mbxRunAlways code k) := by
  unfold State.mbxRunAlways
  split
  · split
    · exact State.mbxFail_kept s stFenced
    · exact h s
  · exact Kept.refl s

theorem State.mbxRunAlways_step {s x : State} (code : Nat) (k : State → State) (h : Kept s x) (hk : ∀ y, Kept y (k y)) :
    Kept s (x.mbxRunAlways code k) := h.trans (State.mbxRunAlways_kept x code k hk)

theorem State.mbxRun_kept (s : State) (code : Nat) (k : State → State) (h : ∀ x, Kept x (k x)) :
    Kept s (s.mbxRun code k) := by
  refine State.mbxRunAlways_kept s code _ fun x => ?_
  split
  · exact State.mbxFail_kept x stFenced
  · split
    · exact Kept.refl x
    · exact h x

theorem State.mbxRun_step {s x : State} (code : Nat) (k : State → State) (h : Kept s x) (hk : ∀ y, Kept y (k y)) :
    Kept s (x.mbxRun code k) := h.trans (State.mbxRun_kept x code k hk)

theorem State.setCtx_kept (s : State) (c : CtxId) (x : Context) : Kept s (s.setCtx c x) := by
  unfold State.setCtx
  repeat' first
    | with_reducible apply Kept.refl
    | fail_if_no_progress (with_reducible apply Kept.upd <;> try with_reducible rfl)

theorem State.modCtx_kept (s : State) (c : CtxId) (f : Context → Context) : Kept s (s.modCtx c f) := by
  unfold State.modCtx
  repeat' first
    | with_reducible apply Kept.refl
    | fail_if_no_progress (with_reducible apply Kept.upd <;> try with_reducible rfl)

theorem State.modCmd_kept (s : State) (c : CtxId) (seq : Word) (f : Cmd → Cmd) : Kept s (s.modCmd c seq f) := by
  unfold State.modCmd
  repeat' first
    | with_reducible apply Kept.refl
    | (with_reducible apply fun h => Kept.trans h (State.modCtx_kept _ _ _))

theorem State.mapCtxs_kept (s : State) (f : Context → Context) : Kept s (s.mapCtxs f) := by
  unfold State.mapCtxs
  repeat' first
    | with_reducible apply Kept.refl
    | fail_if_no_progress (with_reducible apply Kept.upd <;> try with_reducible rfl)

theorem State.claim_kept (s : State) (f : Nat) (e : Frame) : Kept s (s.claim f e) :=
  Kept.memUpd rfl (fun m h p => ⟨Cells.clear_wf _ _ _ m, h, p⟩) rfl rfl

theorem State.releaseFrame_kept (s : State) (f : Nat) : Kept s (s.releaseFrame f) := by
  unfold State.releaseFrame
  repeat' first
    | with_reducible apply Kept.refl
    | fail_if_no_progress (with_reducible apply Kept.upd <;> try with_reducible rfl)

theorem State.takeFrame_kept (s : State) (die : Option Nat) (fn : FnId) (use : FrameUse) (p : Nat × State)
    (h : s.takeFrame die fn use = some p) : Kept s p.2 := by
  unfold State.takeFrame at h
  split at h
  · obtain ⟨f, _, rfl⟩ := Option.map_eq_some_iff.mp h
    exact State.claim_kept s f _
  · cases h

theorem State.copyFrame_kept (s : State) (a b : Nat) : Kept s (s.copyFrame a b) :=
  Kept.memUpd rfl (fun m h p => ⟨Cells.copy_wf _ _ _ _ m, h, p⟩) rfl rfl

theorem State.moveFrame_kept (s : State) (old : Nat) (new : Nat) : Kept s (s.moveFrame old new) := by
  unfold State.moveFrame
  repeat' first
    | with_reducible apply Kept.refl
    | assumption
    | (extract_lets +onlyGivenNames y; first | (refine Kept.step (y := y) ?_ (fun _ => ?_); on_goal 2 => clear_value y; on_goal 1 => subst y) | subst y)
    | (with_reducible apply fun h => Kept.trans h (State.copyFrame_kept _ _ _))
    | (with_reducible apply fun h => Kept.trans h (State.mapCtxs_kept _ _))
    | with_reducible apply Kept.ite
    | fail_if_no_progress (with_reducible apply Kept.upd <;> try with_reducible rfl)

theorem State.gcReplaced_kept (s : State) : Kept s (s.gcReplaced) := by
  unfold State.gcReplaced
  repeat' first
    | with_reducible apply Kept.refl
    | assumption
    | (extract_lets +onlyGivenNames y; first | (refine Kept.step (y := y) ?_ (fun _ => ?_); on_goal 2 => clear_value y; on_goal 1 => subst y) | subst y)
    | (with_reducible apply fun h => Kept.trans h (State.modCtx_kept _ _ _))
    | (with_reducible apply Kept.foldl; on_goal 2 => intro _ _)
    | fail_if_no_progress (with_reducible apply Kept.upd <;> try with_reducible rfl)

theorem State.retireFrame_kept (s : State) (f : Nat) (use : FrameUse) : Kept s (s.retireFrame f use) := by
  unfold State.retireFrame
  repeat' first
    | with_reducible apply Kept.refl
    | fail_if_no_progress (with_reducible apply Kept.upd <;> try with_reducible rfl)

theorem State.dropFarOf_kept (s : State) (c : CtxId) (p : Nat) : Kept s (s.dropFarOf c p) := by
  unfold State.dropFarOf
  repeat' first
    | with_reducible apply Kept.refl
    | (with_reducible apply fun h => Kept.trans h (State.modCtx_kept _ _ _))
    | with_reducible apply Kept.ite

theorem State.pageToHost_kept (s : State) (f a : Nat) : Kept s (s.pageToHost f a) :=
  Kept.memUpd rfl (fun m h p => ⟨m, Cells.overlay_wf _ _ (Cells.clear_wf _ _ _ h), p⟩) rfl rfl

theorem State.pageFromHost_kept (s : State) (a f : Nat) : Kept s (s.pageFromHost a f) :=
  Kept.memUpd rfl (fun m h p => ⟨Cells.overlay_wf _ _ (Cells.clear_wf _ _ _ m), h, p⟩) rfl rfl

theorem State.tallyHost_kept (s : State) (c : CtxId) (n : Nat) : Kept s (s.tallyHost c n) := by
  unfold State.tallyHost
  repeat' first
    | with_reducible apply Kept.refl
    | assumption
    | (extract_lets +onlyGivenNames y; first | (refine Kept.step (y := y) ?_ (fun _ => ?_); on_goal 2 => clear_value y; on_goal 1 => subst y) | subst y)
    | (with_reducible apply fun h => Kept.trans h (State.modCtx_kept _ _ _))
    | with_reducible apply Kept.ite

theorem State.tallySeam_kept (s : State) (c : CtxId) (n : Nat) : Kept s (s.tallySeam c n) := by
  unfold State.tallySeam
  repeat' first
    | with_reducible apply Kept.refl
    | assumption
    | (extract_lets +onlyGivenNames y; first | (refine Kept.step (y := y) ?_ (fun _ => ?_); on_goal 2 => clear_value y; on_goal 1 => subst y) | subst y)
    | (with_reducible apply fun h => Kept.trans h (State.modCtx_kept _ _ _))
    | with_reducible apply Kept.ite

theorem State.tallyPage_kept (s : State) (c : CtxId) : Kept s (s.tallyPage c) := by
  unfold State.tallyPage
  repeat' first
    | with_reducible apply Kept.refl
    | assumption
    | (extract_lets +onlyGivenNames y; first | (refine Kept.step (y := y) ?_ (fun _ => ?_); on_goal 2 => clear_value y; on_goal 1 => subst y) | subst y)
    | (with_reducible apply fun h => Kept.trans h (State.tallyHost_kept _ _ _))
    | (with_reducible apply fun h => Kept.trans h (State.tallySeam_kept _ _ _))
    | with_reducible apply Kept.ite
    | split
    | fail_if_no_progress (with_reducible apply Kept.upd <;> try with_reducible rfl)

theorem State.evictOne_kept (s : State) (fn : FnId) (t : State) (h : s.evictOne fn = some t) : Kept s t := by
  have put : ∀ (far : Nat) (c : CtxId) (f : Nat) (u : State),
      Kept u ({ (u.modCtx c fun x => x.mapPtes fun q => if pteAt f q then pteMove q psFar (locFar (far / 512) (far % 512)) else q).releaseFrame f with
        hst.evicts := u.hst.evicts + 1 }) := fun far c f u =>
    Kept.upd ((State.modCtx_kept u c _).trans (State.releaseFrame_kept _ f)) rfl rfl rfl rfl rfl
  unfold State.evictOne at h
  obtain ⟨⟨c, v, p⟩, _, h⟩ := Option.bind_eq_some_iff.mp h
  dsimp only at h
  split at h
  · cases h
    exact put _ _ _ _
  · obtain ⟨x, _, h⟩ := Option.bind_eq_some_iff.mp h
    split at h
    · obtain ⟨far, _, rfl⟩ := Option.map_eq_some_iff.mp h
      exact (((State.modCtx_kept s _ _).trans (State.pageToHost_kept _ _ _)).trans (State.tallyPage_kept _ _)).trans (put _ _ _ _)
    · cases h

theorem State.makeRoom_kept (s : State) (fn : FnId) (n fuel : Nat) : Kept s (s.makeRoom fn n fuel) := by
  induction fuel generalizing s with
  | zero => exact Kept.refl s
  | succ fuel ih =>
    unfold State.makeRoom
    split
    · exact Kept.refl s
    · split
      · exact (State.evictOne_kept s fn _ (by assumption)).trans (ih _)
      · exact Kept.refl s

theorem State.startPageInOf_kept (s : State) (c : CtxId) (vpn : Nat) (p : DWord) (t : State)
    (h : s.startPageInOf c vpn p = some t) : Kept s t := by
  unfold State.startPageInOf at h
  obtain ⟨x, _, h⟩ := Option.bind_eq_some_iff.mp h
  split at h
  · cases h
    exact Kept.refl s
  · obtain ⟨⟨f, u⟩, hu, rfl⟩ := Option.map_eq_some_iff.mp h
    refine Kept.trans ((State.makeRoom_kept s _ _ _).trans (State.takeFrame_kept _ _ _ _ _ hu)) ?_
    exact Kept.upd (State.modCtx_kept u _ _) rfl rfl rfl rfl rfl

theorem State.startPageInsOf_kept (s : State) (c : CtxId) (vs : List (Nat × DWord)) (t : State)
    (h : s.startPageInsOf c vs = some t) : Kept s t := by
  induction vs generalizing s with
  | nil => cases h; exact Kept.refl _
  | cons v vs ih =>
    obtain ⟨u, hu, h⟩ := Option.bind_eq_some_iff.mp h
    exact (State.startPageInOf_kept s c v.1 v.2 u hu).trans (ih u h)

theorem State.startPageIns_kept (s : State) (c : CtxId) (vs : List Nat) (t : State)
    (h : s.startPageIns c vs = some t) : Kept s t := by
  obtain ⟨x, _, h⟩ := Option.bind_eq_some_iff.mp h
  exact State.startPageInsOf_kept s c _ t h

theorem State.mapHeld_kept (s : State) (f : DWord → DWord) : Kept s (s.mapHeld f) := by
  unfold State.mapHeld
  repeat' first
    | with_reducible apply Kept.refl
    | assumption
    | (extract_lets +onlyGivenNames y; first | (refine Kept.step (y := y) ?_ (fun _ => ?_); on_goal 2 => clear_value y; on_goal 1 => subst y) | subst y)
    | fail_if_no_progress (with_reducible apply Kept.upd <;> try with_reducible rfl)

theorem State.finishPageIn_kept (s : State) (p : PageIn) : Kept s (s.finishPageIn p) := by
  unfold State.finishPageIn
  repeat' first
    | with_reducible apply Kept.refl
    | assumption
    | (extract_lets +onlyGivenNames y; first | (refine Kept.step (y := y) ?_ (fun _ => ?_); on_goal 2 => clear_value y; on_goal 1 => subst y) | subst y)
    | (with_reducible apply fun h => Kept.trans h (State.pageFromHost_kept _ _ _))
    | (with_reducible apply fun h => Kept.trans h (State.mapHeld_kept _ _))
    | (with_reducible apply fun h => Kept.trans h (State.modCtx_kept _ _ _))
    | (with_reducible apply fun h => Kept.trans h (State.tallyPage_kept _ _))
    | with_reducible apply Kept.ite
    | split
    | fail_if_no_progress (with_reducible apply Kept.upd <;> try with_reducible rfl)

theorem State.seamUe_kept (s : State) (f : Nat) : Kept s (s.seamUe f) := by
  unfold State.seamUe
  repeat' first
    | with_reducible apply Kept.refl
    | assumption
    | (extract_lets +onlyGivenNames y; first | (refine Kept.step (y := y) ?_ (fun _ => ?_); on_goal 2 => clear_value y; on_goal 1 => subst y) | subst y)
    | (with_reducible apply fun h => Kept.trans h (State.modCtx_kept _ _ _))
    | (with_reducible apply fun h => Kept.trans h (State.mapHeld_kept _ _))
    | (with_reducible apply fun h => Kept.trans h (State.raise_kept _ _ _ _))
    | with_reducible apply Kept.ite
    | split
    | fail_if_no_progress (with_reducible apply Kept.upd <;> try with_reducible rfl)

theorem State.seamCe_kept (s : State) (ds : List DieId) : Kept s (s.seamCe ds) := by
  unfold State.seamCe
  repeat' first
    | with_reducible apply Kept.refl
    | assumption
    | (extract_lets +onlyGivenNames y; first | (refine Kept.step (y := y) ?_ (fun _ => ?_); on_goal 2 => clear_value y; on_goal 1 => subst y) | subst y)
    | fail_if_no_progress (with_reducible apply Kept.upd <;> try with_reducible rfl)

theorem State.violations_kept (s : State) (c : CtxId) (n : Nat) (write : Bool) : Kept s (s.violations c n write) := by
  unfold State.violations
  repeat' first
    | with_reducible apply Kept.refl
    | assumption
    | (extract_lets +onlyGivenNames y; first | (refine Kept.step (y := y) ?_ (fun _ => ?_); on_goal 2 => clear_value y; on_goal 1 => subst y) | subst y)
    | with_reducible apply Kept.ite
    | fail_if_no_progress (with_reducible apply Kept.upd <;> try with_reducible rfl)

theorem State.makeShadow_kept (s : State) (c : CtxId) (seq : Word) (ctr vpn : Nat) (t : State)
    (h : s.makeShadow c seq ctr vpn = some t) : Kept s t := by
  unfold State.makeShadow at h
  obtain ⟨x, _, h⟩ := Option.bind_eq_some_iff.mp h
  obtain ⟨k, _, h⟩ := Option.bind_eq_some_iff.mp h
  dsimp only at h
  split at h
  · cases h
    exact Kept.refl s
  · split at h
    · cases h
      exact (State.copyFrame_kept s _ _).trans ((State.tallySeam_kept _ _ _).trans (State.modCmd_kept _ _ _ _))
    · obtain ⟨⟨g, u⟩, hu, rfl⟩ := Option.map_eq_some_iff.mp h
      exact (((State.makeRoom_kept s _ _ _).trans (State.takeFrame_kept _ _ _ _ _ hu)).trans
        (State.copyFrame_kept _ _ _)).trans ((State.tallySeam_kept _ _ _).trans (State.modCmd_kept _ _ _ _))

theorem State.makeShadows_kept (s : State) (c : CtxId) (seq : Word) (ctr : Nat) (vs : List Nat) (t : State)
    (h : s.makeShadows c seq ctr vs = some t) : Kept s t := by
  induction vs generalizing s with
  | nil => cases h; exact Kept.refl _
  | cons v vs ih =>
    obtain ⟨u, hu, h⟩ := Option.bind_eq_some_iff.mp h
    exact (State.makeShadow_kept s c seq ctr v u hu).trans (ih u h)

theorem State.shadowWrite_kept (s : State) (k : Cmd) (va : Nat) (b : Byte) : Kept s (s.shadowWrite k va b) := by
  unfold State.shadowWrite
  split
  · exact Kept.memUpd rfl (fun m h p => ⟨Cells.write_wf _ _ b m, h, p⟩) rfl rfl
  · exact Kept.refl s

theorem State.touchFrames_kept (s : State) (fs : List Nat) : Kept s (s.touchFrames fs) := by
  unfold State.touchFrames
  repeat' first
    | with_reducible apply Kept.refl
    | fail_if_no_progress (with_reducible apply Kept.upd <;> try with_reducible rfl)

theorem State.refreshReady_kept (s : State) : Kept s (s.refreshReady) := by
  unfold State.refreshReady
  repeat' first
    | with_reducible apply Kept.refl
    | assumption
    | (extract_lets +onlyGivenNames y; first | (refine Kept.step (y := y) ?_ (fun _ => ?_); on_goal 2 => clear_value y; on_goal 1 => subst y) | subst y)
    | with_reducible apply Kept.ite
    | split
    | fail_if_no_progress (with_reducible apply Kept.upd <;> try with_reducible rfl)

theorem State.giveField_kept (s : State) (c : CtxId) (k : Cmd) (byRule3 : Bool) : Kept s (s.giveField c k byRule3) := by
  unfold State.giveField
  repeat' first
    | with_reducible apply Kept.refl
    | assumption
    | (extract_lets +onlyGivenNames y; first | (refine Kept.step (y := y) ?_ (fun _ => ?_); on_goal 2 => clear_value y; on_goal 1 => subst y) | subst y)
    | (with_reducible apply fun h => Kept.trans h (State.modCtx_kept _ _ _))
    | (with_reducible apply fun h => Kept.trans h (State.modCmd_kept _ _ _ _))
    | with_reducible apply Kept.ite
    | split
    | fail_if_no_progress (with_reducible apply Kept.upd <;> try with_reducible rfl)

theorem State.handoff_kept (s : State) : Kept s (s.handoff) := by
  unfold State.handoff
  repeat' first
    | with_reducible apply Kept.refl
    | (with_reducible apply fun h => Kept.trans h (State.giveField_kept _ _ _ _))
    | with_reducible apply Kept.ite
    | split

theorem State.settle_kept (s : State) : Kept s (s.settle) := by
  unfold State.settle
  repeat' first
    | with_reducible apply Kept.refl
    | (with_reducible apply fun h => Kept.trans h (State.refreshReady_kept _))
    | (with_reducible apply fun h => Kept.trans h (State.handoff_kept _))

theorem State.unattributed_kept (s : State) (e : Nat) : Kept s (s.unattributed e) := by
  unfold State.unattributed
  repeat' first
    | with_reducible apply Kept.refl
    | assumption
    | (extract_lets +onlyGivenNames y; first | (refine Kept.step (y := y) ?_ (fun _ => ?_); on_goal 2 => clear_value y; on_goal 1 => subst y) | subst y)
    | fail_if_no_progress (with_reducible apply Kept.upd <;> try with_reducible rfl)

theorem State.releaseField_kept (s : State) (acct : ChargeTo) : Kept s (s.releaseField acct) := by
  unfold State.releaseField
  repeat' first
    | with_reducible apply Kept.refl
    | assumption
    | (extract_lets +onlyGivenNames y; first | (refine Kept.step (y := y) ?_ (fun _ => ?_); on_goal 2 => clear_value y; on_goal 1 => subst y) | subst y)
    | (with_reducible apply fun h => Kept.trans h (State.modCmd_kept _ _ _ _))
    | (with_reducible apply fun h => Kept.trans h (State.unattributed_kept _ _))
    | (with_reducible apply fun h => Kept.trans h (State.modCtx_kept _ _ _))
    | with_reducible apply Kept.ite
    | split
    | fail_if_no_progress (with_reducible apply Kept.upd <;> try with_reducible rfl)

theorem State.leaveField_kept (s : State) (c : CtxId) (seq : Word) (acct : ChargeTo) : Kept s (s.leaveField c seq acct) := by
  unfold State.leaveField
  repeat' first
    | with_reducible apply Kept.refl
    | (with_reducible apply fun h => Kept.trans h (State.releaseField_kept _ _))
    | with_reducible apply Kept.ite

theorem State.endWith_kept (s : State) (c : CtxId) (seq : Word) (st : Byte) (idx : Nat) : Kept s (s.endWith c seq st idx) := by
  unfold State.endWith
  repeat' first
    | with_reducible apply Kept.refl
    | (with_reducible apply fun h => Kept.trans h (State.modCmd_kept _ _ _ _))

theorem State.commitPage_kept (s : State) (c : CtxId) (k : Cmd) (vpn : Nat) (f : Nat) : Kept s (s.commitPage c k vpn f) := by
  unfold State.commitPage
  repeat' first
    | with_reducible apply Kept.refl
    | assumption
    | (extract_lets +onlyGivenNames y; first | (refine Kept.step (y := y) ?_ (fun _ => ?_); on_goal 2 => clear_value y; on_goal 1 => subst y) | subst y)
    | (with_reducible apply fun h => Kept.trans h (State.releaseFrame_kept _ _))
    | (with_reducible apply fun h => Kept.trans h (State.modCtx_kept _ _ _))
    | with_reducible apply Kept.ite
    | split
    | fail_if_no_progress (with_reducible apply Kept.upd <;> try with_reducible rfl)

theorem State.commitPages_kept (s : State) (c : CtxId) (k : Cmd) : Kept s (s.commitPages c k) := by
  unfold State.commitPages
  repeat' first
    | with_reducible apply Kept.refl
    | (with_reducible apply fun h => Kept.trans h (State.commitPage_kept _ _ _ _ _))
    | (with_reducible apply Kept.foldl; on_goal 2 => intro _ _)

theorem State.releaseOwn_kept (s : State) (fs : Assoc Nat) : Kept s (s.releaseOwn fs) := by
  unfold State.releaseOwn
  repeat' first
    | with_reducible apply Kept.refl
    | (with_reducible apply fun h => Kept.trans h (State.releaseFrame_kept _ _))
    | (with_reducible apply Kept.foldl; on_goal 2 => intro _ _)

theorem State.discard_kept (s : State) (c : CtxId) (seq : Word) : Kept s (s.discard c seq) := by
  unfold State.discard
  repeat' first
    | with_reducible apply Kept.refl
    | (with_reducible apply fun h => Kept.trans h (State.releaseOwn_kept _ _))
    | (with_reducible apply fun h => Kept.trans h (State.modCmd_kept _ _ _ _))
    | split

theorem State.creditSeam_kept (s : State) (c : CtxId) (k : Cmd) : Kept s (s.creditSeam c k) := by
  unfold State.creditSeam
  repeat' first
    | with_reducible apply Kept.refl
    | (with_reducible apply fun h => Kept.trans h (State.tallySeam_kept _ _ _))

theorem State.writeRecord_kept (s : State) (c : CtxId) (seq : Word) : Kept s (s.writeRecord c seq) := by
  unfold State.writeRecord
  repeat' first
    | with_reducible apply Kept.refl
    | assumption
    | (extract_lets +onlyGivenNames y; first | (refine Kept.step (y := y) ?_ (fun _ => ?_); on_goal 2 => clear_value y; on_goal 1 => subst y) | subst y)
    | (with_reducible apply fun h => Kept.trans h (State.hostWrite_kept _ _ _))
    | (with_reducible apply fun h => Kept.trans h (State.modCtx_kept _ _ _))
    | (with_reducible apply fun h => Kept.trans h (State.tallyHost_kept _ _ _))
    | (with_reducible apply fun h => Kept.trans h (State.irqEvent_kept _ _))
    | (with_reducible apply fun h => Kept.trans h (State.gcReplaced_kept _))
    | with_reducible apply Kept.ite
    | split

theorem State.flushRecords_kept (s : State) (c : CtxId) : Kept s (s.flushRecords c) := by
  unfold State.flushRecords
  repeat' first
    | with_reducible apply Kept.refl
    | (with_reducible apply fun h => Kept.trans h (State.writeRecord_kept _ _ _))
    | (with_reducible apply Kept.foldl; on_goal 2 => intro _ _)
    | split

theorem State.recordDue_kept (s : State) (c : CtxId) (seq : Word) : Kept s (s.recordDue c seq) := by
  unfold State.recordDue
  repeat' first
    | with_reducible apply Kept.refl
    | assumption
    | (extract_lets +onlyGivenNames y; first | (refine Kept.step (y := y) ?_ (fun _ => ?_); on_goal 2 => clear_value y; on_goal 1 => subst y) | subst y)
    | (with_reducible apply fun h => Kept.trans h (State.modCtx_kept _ _ _))
    | (with_reducible apply fun h => Kept.trans h (State.flushRecords_kept _ _))
    | with_reducible apply Kept.ite
    | split
    | fail_if_no_progress (with_reducible apply Kept.upd <;> try with_reducible rfl)

theorem State.requestKill_kept (s : State) (c : CtxId) (seq : Word) (why : KillCause) : Kept s (s.requestKill c seq why) := by
  unfold State.requestKill
  repeat' first
    | with_reducible apply Kept.refl
    | (with_reducible apply fun h => Kept.trans h (State.modCmd_kept _ _ _ _))

theorem State.countKill_kept (s : State) (c : CtxId) (why : KillCause) (heldNs : Nat) : Kept s (s.countKill c why heldNs) := by
  unfold State.countKill
  cases why <;> dsimp only
  all_goals
  repeat' first
    | with_reducible apply Kept.refl
    | assumption
    | (extract_lets +onlyGivenNames y; first | (refine Kept.step (y := y) ?_ (fun _ => ?_); on_goal 2 => clear_value y; on_goal 1 => subst y) | subst y)
    | (with_reducible apply fun h => Kept.trans h (State.modCtx_kept _ _ _))
    | split
    | fail_if_no_progress (with_reducible apply Kept.upd <;> try with_reducible rfl)

theorem State.unmaskFor_kept (s : State) (c : CtxId) (k : Cmd) : Kept s (s.unmaskFor c k) := by
  unfold State.unmaskFor
  repeat' first
    | with_reducible apply Kept.refl
    | assumption
    | (extract_lets +onlyGivenNames y; first | (refine Kept.step (y := y) ?_ (fun _ => ?_); on_goal 2 => clear_value y; on_goal 1 => subst y) | subst y)
    | with_reducible apply Kept.ite
    | fail_if_no_progress (with_reducible apply Kept.upd <;> try with_reducible rfl)

theorem State.discardField_kept (s : State) (c : CtxId) (seq : Word) : Kept s (s.discardField c seq) := by
  unfold State.discardField
  exact Kept.ite (Kept.memUpd rfl (fun m h _ => ⟨m, h, rfl⟩) rfl rfl) (Kept.refl s)

theorem State.killDone_kept (s : State) (c : CtxId) (k : Cmd) (why : KillCause) : Kept s (s.killDone c k why) := by
  unfold State.killDone
  repeat' first
    | with_reducible apply Kept.refl
    | assumption
    | (extract_lets +onlyGivenNames y; first | (refine Kept.step (y := y) ?_ (fun _ => ?_); on_goal 2 => clear_value y; on_goal 1 => subst y) | subst y)
    | (with_reducible apply fun h => Kept.trans h (State.discardField_kept _ _ _))
    | (with_reducible apply fun h => Kept.trans h (State.leaveField_kept _ _ _ _))
    | (with_reducible apply fun h => Kept.trans h (State.unmaskFor_kept _ _ _))
    | (with_reducible apply fun h => Kept.trans h (State.discard_kept _ _ _))
    | (with_reducible apply fun h => Kept.trans h (State.creditSeam_kept _ _ _))
    | (with_reducible apply fun h => Kept.trans h (State.countKill_kept _ _ _ _))
    | (with_reducible apply fun h => Kept.trans h (State.modCtx_kept _ _ _))
    | (with_reducible apply fun h => Kept.trans h (State.gcReplaced_kept _))
    | (with_reducible apply fun h => Kept.trans h (State.modCmd_kept _ _ _ _))
    | with_reducible apply Kept.ite
    | split
    | fail_if_no_progress (with_reducible apply Kept.upd <;> try with_reducible rfl)

theorem State.modSlot_kept (s : State) (c : CtxId) (n : Nat) (f : WinSlot → WinSlot) : Kept s (s.modSlot c n f) := by
  unfold State.modSlot
  repeat' first
    | with_reducible apply Kept.refl
    | (with_reducible apply fun h => Kept.trans h (State.modCtx_kept _ _ _))

theorem State.acquire_kept (s : State) (c : CtxId) (n : Nat) (flag : List Byte) (t : State)
    (h : s.acquire c n flag = some t) : Kept s t := by
  unfold State.acquire at h
  obtain ⟨x, _, h⟩ := Option.bind_eq_some_iff.mp h
  obtain ⟨w, _, h⟩ := Option.bind_eq_some_iff.mp h
  split at h
  · cases h
    exact Kept.refl s
  · split at h
    · cases h
      exact (State.modSlot_kept s _ _ _).trans (State.tallyHost_kept _ _ _)
    · cases h

theorem State.handback_kept (s : State) (c : CtxId) (n : Nat) (len : Nat) (crc : Word) : Kept s (s.handback c n len crc) := by
  unfold State.handback
  repeat' first
    | with_reducible apply Kept.refl
    | assumption
    | (extract_lets +onlyGivenNames y; first | (refine Kept.step (y := y) ?_ (fun _ => ?_); on_goal 2 => clear_value y; on_goal 1 => subst y) | subst y)
    | (with_reducible apply fun h => Kept.trans h (State.hostWrite_kept _ _ _))
    | (with_reducible apply fun h => Kept.trans h (State.modSlot_kept _ _ _ _))
    | (with_reducible apply fun h => Kept.trans h (State.tallyHost_kept _ _ _))
    | split

/-- Every state the gate of a command's accesses answers with. -/
theorem State.gate_kept (s : State) (c : CtxId) (seq : Word) (ranges : List (Nat × Nat)) (errs : SeamErrs) (g : Gate)
    (h : s.gate c seq ranges errs = g) : match g with
    | .go t => Kept s t
    | .wait t => Kept s t
    | .stop t _ => Kept s t := by
  unfold State.gate at h
  split at h
  · subst h
    exact Kept.refl s
  · dsimp only at h
    split at h
    · subst h
      exact Kept.refl s
    · split at h
      · split at h
        · subst h
          exact (State.startPageInsOf_kept s c _ _ (by assumption)).trans (State.modCmd_kept _ _ _ _)
        · split at h <;> (subst h; exact Kept.refl s)
      · split at h
        · subst h
          exact ((State.seamCe_kept s _).trans (State.touchFrames_kept _ _)).trans (State.modCmd_kept _ _ _ _)
        · subst h
          exact Kept.foldl _ _ (State.seamCe_kept s _) fun y e => State.seamUe_kept y e

theorem State.gate_go (s : State) (c : CtxId) (seq : Word) (ranges : List (Nat × Nat)) (errs : SeamErrs) (t : State)
    (h : s.gate c seq ranges errs = .go t) : Kept s t := by
  exact s.gate_kept c seq ranges errs _ h

theorem State.gate_wait (s : State) (c : CtxId) (seq : Word) (ranges : List (Nat × Nat)) (errs : SeamErrs) (t : State)
    (h : s.gate c seq ranges errs = .wait t) : Kept s t := by
  exact s.gate_kept c seq ranges errs _ h

theorem State.gate_stop (s : State) (c : CtxId) (seq : Word) (ranges : List (Nat × Nat)) (errs : SeamErrs) (t : State)
    (st : Byte) (h : s.gate c seq ranges errs = .stop t st) : Kept s t := by
  exact s.gate_kept c seq ranges errs _ h

theorem State.cmdWrite_kept (s : State) (c : CtxId) (seq : Word) (ws : List (Nat × List Byte)) (t : State)
    (h : s.cmdWrite c seq ws = some t) : Kept s t := by
  unfold State.cmdWrite at h
  obtain ⟨x, _, h⟩ := Option.bind_eq_some_iff.mp h
  obtain ⟨k, _, h⟩ := Option.bind_eq_some_iff.mp h
  obtain ⟨u, hu, h⟩ := Option.bind_eq_some_iff.mp h
  obtain ⟨j, _, rfl⟩ := Option.map_eq_some_iff.mp h
  refine Kept.trans ((State.modCmd_kept s _ _ _).trans (State.makeShadows_kept _ _ _ _ _ _ hu)) ?_
  refine Kept.trans ?_ (State.modCmd_kept _ _ _ _)
  refine Kept.trans ?_ (State.violations_kept _ _ _ _)
  exact Kept.foldl _ _ (Kept.refl u) fun y w => Kept.foldl _ _ (Kept.refl y) fun z i => State.shadowWrite_kept z _ _ _

theorem State.streamsCtxGone_kept (s : State) (c : CtxId) : Kept s (s.streamsCtxGone c) := by
  unfold State.streamsCtxGone
  repeat' first
    | with_reducible apply Kept.refl
    | assumption
    | (extract_lets +onlyGivenNames y; first | (refine Kept.step (y := y) ?_ (fun _ => ?_); on_goal 2 => clear_value y; on_goal 1 => subst y) | subst y)
    | fail_if_no_progress (with_reducible apply Kept.upd <;> try with_reducible rfl)

theorem State.countNoRoom_kept (s : State) (st : Byte) : Kept s (s.countNoRoom st) := by
  unfold State.countNoRoom
  repeat' first
    | with_reducible apply Kept.refl
    | assumption
    | (extract_lets +onlyGivenNames y; first | (refine Kept.step (y := y) ?_ (fun _ => ?_); on_goal 2 => clear_value y; on_goal 1 => subst y) | subst y)
    | with_reducible apply Kept.ite
    | fail_if_no_progress (with_reducible apply Kept.upd <;> try with_reducible rfl)

theorem State.admitStream_kept (s : State) (c : CtxId) : Kept s (s.admitStream c) := by
  unfold State.admitStream
  repeat' first
    | with_reducible apply Kept.refl
    | assumption
    | (extract_lets +onlyGivenNames y; first | (refine Kept.step (y := y) ?_ (fun _ => ?_); on_goal 2 => clear_value y; on_goal 1 => subst y) | subst y)
    | (with_reducible apply fun h => Kept.trans h (State.countNoRoom_kept _ _))
    | (with_reducible apply fun h => Kept.trans h (State.endWith_kept _ _ _ _ _))
    | split
    | fail_if_no_progress (with_reducible apply Kept.upd <;> try with_reducible rfl)

theorem State.releaseStream_kept (s : State) (c : CtxId) : Kept s (s.releaseStream c) := by
  unfold State.releaseStream
  repeat' first
    | with_reducible apply Kept.refl
    | assumption
    | (extract_lets +onlyGivenNames y; first | (refine Kept.step (y := y) ?_ (fun _ => ?_); on_goal 2 => clear_value y; on_goal 1 => subst y) | subst y)
    | (with_reducible apply fun h => Kept.trans h (State.endWith_kept _ _ _ _ _))
    | with_reducible apply Kept.ite
    | split
    | fail_if_no_progress (with_reducible apply Kept.upd <;> try with_reducible rfl)

theorem State.modelSet_kept (s : State) (c : CtxId) : Kept s (s.modelSet c) := by
  unfold State.modelSet
  repeat' first
    | with_reducible apply Kept.refl
    | assumption
    | (extract_lets +onlyGivenNames y; first | (refine Kept.step (y := y) ?_ (fun _ => ?_); on_goal 2 => clear_value y; on_goal 1 => subst y) | subst y)
    | (with_reducible apply fun h => Kept.trans h (State.countNoRoom_kept _ _))
    | (with_reducible apply fun h => Kept.trans h (State.endWith_kept _ _ _ _ _))
    | with_reducible apply Kept.ite
    | split
    | fail_if_no_progress (with_reducible apply Kept.upd <;> try with_reducible rfl)

theorem State.stepBecomesReady_kept (s : State) (c : CtxId) : Kept s (s.stepBecomesReady c) := by
  unfold State.stepBecomesReady
  repeat' first
    | with_reducible apply Kept.refl
    | assumption
    | (extract_lets +onlyGivenNames y; first | (refine Kept.step (y := y) ?_ (fun _ => ?_); on_goal 2 => clear_value y; on_goal 1 => subst y) | subst y)
    | with_reducible apply Kept.ite
    | split
    | fail_if_no_progress (with_reducible apply Kept.upd <;> try with_reducible rfl)

theorem State.workListBuild_kept (s : State) (c : CtxId) : Kept s (s.workListBuild c) := by
  unfold State.workListBuild
  repeat' first
    | with_reducible apply Kept.refl
    | (with_reducible apply fun h => Kept.trans h (State.modCmd_kept _ _ _ _))
    | split

theorem State.stepFinish_kept (s : State) (c : CtxId) (k : Cmd) : Kept s (s.stepFinish c k) := by
  unfold State.stepFinish
  repeat' first
    | with_reducible apply Kept.refl
    | assumption
    | (extract_lets +onlyGivenNames y; first | (refine Kept.step (y := y) ?_ (fun _ => ?_); on_goal 2 => clear_value y; on_goal 1 => subst y) | subst y)
    | (with_reducible refine Kept.trans ?_ (State.gate_go _ _ _ _ _ _ (by assumption)))
    | (with_reducible refine Kept.trans ?_ (State.gate_wait _ _ _ _ _ _ (by assumption)))
    | (with_reducible refine Kept.trans ?_ (State.gate_stop _ _ _ _ _ _ _ (by assumption)))
    | (with_reducible apply fun h => Kept.trans h (State.endWith_kept _ _ _ _ _))
    | (with_reducible refine Kept.trans ?_ (State.cmdWrite_kept _ _ _ _ _ (by assumption)))
    | split

theorem State.countLateStep_kept (s : State) (k : Cmd) : Kept s (s.countLateStep k) := by
  unfold State.countLateStep
  repeat' first
    | with_reducible apply Kept.refl
    | assumption
    | (extract_lets +onlyGivenNames y; first | (refine Kept.step (y := y) ?_ (fun _ => ?_); on_goal 2 => clear_value y; on_goal 1 => subst y) | subst y)
    | with_reducible apply Kept.ite
    | split
    | fail_if_no_progress (with_reducible apply Kept.upd <;> try with_reducible rfl)

theorem State.stepCommit_kept (s : State) (k : Cmd) : Kept s (s.stepCommit k) := by
  unfold State.stepCommit
  repeat' first
    | with_reducible apply Kept.refl
    | assumption
    | (extract_lets +onlyGivenNames y; first | (refine Kept.step (y := y) ?_ (fun _ => ?_); on_goal 2 => clear_value y; on_goal 1 => subst y) | subst y)
    | with_reducible apply Kept.ite
    | split
    | fail_if_no_progress (with_reducible apply Kept.upd <;> try with_reducible rfl)

theorem State.deadlineKill_kept (s : State) (c : CtxId) : Kept s (s.deadlineKill c) := by
  unfold State.deadlineKill
  repeat' first
    | with_reducible apply Kept.refl
    | assumption
    | (extract_lets +onlyGivenNames y; first | (refine Kept.step (y := y) ?_ (fun _ => ?_); on_goal 2 => clear_value y; on_goal 1 => subst y) | subst y)
    | (with_reducible apply fun h => Kept.trans h (State.passToHt_kept _ _))
    | (with_reducible apply fun h => Kept.trans h (State.requestKill_kept _ _ _ _))
    | with_reducible apply Kept.ite
    | split

theorem State.recordAmax_kept (s : State) (i : Nat) : Kept s (s.recordAmax i) := by
  unfold State.recordAmax
  repeat' first
    | with_reducible apply Kept.refl
    | assumption
    | (extract_lets +onlyGivenNames y; first | (refine Kept.step (y := y) ?_ (fun _ => ?_); on_goal 2 => clear_value y; on_goal 1 => subst y) | subst y)
    | with_reducible apply Kept.ite
    | split
    | fail_if_no_progress (with_reducible apply Kept.upd <;> try with_reducible rfl)

theorem State.contribute_kept (s : State) (i : Nat) (q : Word) (value : Word) : Kept s (s.contribute i q value) := by
  unfold State.contribute
  repeat' first
    | with_reducible apply Kept.refl
    | assumption
    | (extract_lets +onlyGivenNames y; first | (refine Kept.step (y := y) ?_ (fun _ => ?_); on_goal 2 => clear_value y; on_goal 1 => subst y) | subst y)
    | (with_reducible apply fun h => Kept.trans h (State.recordAmax_kept _ _))
    | with_reducible apply Kept.ite
    | split
    | fail_if_no_progress (with_reducible apply Kept.upd <;> try with_reducible rfl)

theorem State.amaxCommit_kept (s : State) (c : CtxId) (k : Cmd) : Kept s (s.amaxCommit c k) := by
  unfold State.amaxCommit
  repeat' first
    | with_reducible apply Kept.refl
    | (with_reducible apply fun h => Kept.trans h (State.contribute_kept _ _ _ _))
    | (with_reducible apply Kept.foldl; on_goal 2 => intro _ _)

theorem State.closeAmax_kept (s : State) (u : UnitId) (step : Word) (record : Bool) : Kept s (s.closeAmax u step record) := by
  unfold State.closeAmax
  repeat' first
    | with_reducible apply Kept.refl
    | assumption
    | (extract_lets +onlyGivenNames y; first | (refine Kept.step (y := y) ?_ (fun _ => ?_); on_goal 2 => clear_value y; on_goal 1 => subst y) | subst y)
    | (with_reducible apply fun h => Kept.trans h (State.recordAmax_kept _ _))
    | (with_reducible apply fun h => Kept.trans h (State.discard_kept _ _ _))
    | (with_reducible apply Kept.foldl; on_goal 2 => intro _ _)
    | with_reducible apply Kept.ite
    | fail_if_no_progress (with_reducible apply Kept.upd <;> try with_reducible rfl)

theorem State.unitUpdate_kept (s : State) (_c : CtxId) (k : Cmd) (st : Byte) : Kept s (s.unitUpdate _c k st) := by
  unfold State.unitUpdate
  repeat' first
    | with_reducible apply Kept.refl
    | assumption
    | (extract_lets +onlyGivenNames y; first | (refine Kept.step (y := y) ?_ (fun _ => ?_); on_goal 2 => clear_value y; on_goal 1 => subst y) | subst y)
    | (with_reducible apply fun h => Kept.trans h (State.closeAmax_kept _ _ _ _))
    | with_reducible apply Kept.ite
    | split
    | fail_if_no_progress (with_reducible apply Kept.upd <;> try with_reducible rfl)

theorem State.canaryEvent_kept (s : State) (id : Nat) (object : Nat) : Kept s (s.canaryEvent id object) := by
  unfold State.canaryEvent
  repeat' first
    | with_reducible apply Kept.refl
    | (with_reducible apply fun h => Kept.trans h (State.raise_kept _ _ _ _))

theorem State.irqForCtx_kept (s : State) (c : CtxId) (fn : FnId) (slot : Fin 32) : Kept s (s.irqForCtx c fn slot) := by
  unfold State.irqForCtx
  repeat' first
    | with_reducible apply Kept.refl
    | assumption
    | (extract_lets +onlyGivenNames y; first | (refine Kept.step (y := y) ?_ (fun _ => ?_); on_goal 2 => clear_value y; on_goal 1 => subst y) | subst y)
    | fail_if_no_progress (with_reducible apply Kept.upd <;> try with_reducible rfl)

theorem State.ctxCreate_kept (s : State) : Kept s (s.ctxCreate) := by
  unfold State.ctxCreate
  repeat' first
    | with_reducible apply Kept.refl
    | assumption
    | (extract_lets +onlyGivenNames y; first | (refine Kept.step (y := y) ?_ (fun _ => ?_); on_goal 2 => clear_value y; on_goal 1 => subst y) | subst y)
    | (with_reducible apply State.mbxRun_step <;> try intro _)
    | (with_reducible apply fun h => Kept.trans h (State.mbxStatus_kept _ _))
    | (with_reducible apply fun h => Kept.trans h (State.setCtx_kept _ _ _))
    | (with_reducible apply fun h => Kept.trans h (State.irqForCtx_kept _ _ _ _))
    | (with_reducible apply fun h => Kept.trans h (State.mbxOk_kept _ _))
    | with_reducible apply Kept.ite
    | split
    | fail_if_no_progress (with_reducible apply Kept.upd <;> try with_reducible rfl)

theorem State.dbBad_kept (s : State) (c : CtxId) : Kept s (s.dbBad c) := by
  unfold State.dbBad
  repeat' first
    | with_reducible apply Kept.refl
    | assumption
    | (extract_lets +onlyGivenNames y; first | (refine Kept.step (y := y) ?_ (fun _ => ?_); on_goal 2 => clear_value y; on_goal 1 => subst y) | subst y)
    | (with_reducible apply fun h => Kept.trans h (State.modCtx_kept _ _ _))
    | fail_if_no_progress (with_reducible apply Kept.upd <;> try with_reducible rfl)

theorem State.sqDb_kept (s : State) (fn : FnId) (slot : Fin 32) (v : Word) : Kept s (s.sqDb fn slot v) := by
  unfold State.sqDb
  repeat' first
    | with_reducible apply Kept.refl
    | (with_reducible apply fun h => Kept.trans h (State.regViol_kept _))
    | (with_reducible apply fun h => Kept.trans h (State.modCtx_kept _ _ _))
    | (with_reducible apply fun h => Kept.trans h (State.dbBad_kept _ _))
    | with_reducible apply Kept.ite
    | split

theorem State.cqHeadWrite_kept (s : State) (c : CtxId) (h : Word) : Kept s (s.cqHeadWrite c h) := by
  unfold State.cqHeadWrite
  repeat' first
    | with_reducible apply Kept.refl
    | (with_reducible apply fun h => Kept.trans h (State.regViol_kept _))
    | (with_reducible apply fun h => Kept.trans h (State.modCtx_kept _ _ _))
    | (with_reducible apply fun h => Kept.trans h (State.dbBad_kept _ _))
    | with_reducible apply Kept.ite
    | split

theorem State.writeStop_kept (s : State) (c : CtxId) (on : Bool) : Kept s (s.writeStop c on) := by
  unfold State.writeStop
  repeat' first
    | with_reducible apply Kept.refl
    | (with_reducible apply fun h => Kept.trans h (State.regViol_kept _))
    | (with_reducible apply fun h => Kept.trans h (State.modCtx_kept _ _ _))
    | split

theorem State.fetch_kept (s : State) (c : CtxId) (desc : List Byte) : Kept s (s.fetch c desc) := by
  unfold State.fetch
  repeat' first
    | with_reducible apply Kept.refl
    | assumption
    | (extract_lets +onlyGivenNames y; first | (refine Kept.step (y := y) ?_ (fun _ => ?_); on_goal 2 => clear_value y; on_goal 1 => subst y) | subst y)
    | (with_reducible apply fun h => Kept.trans h (State.modCtx_kept _ _ _))
    | (with_reducible apply fun h => Kept.trans h (State.tallyHost_kept _ _ _))
    | (with_reducible apply fun h => Kept.trans h (State.settle_kept _))
    | with_reducible apply Kept.ite
    | split
    | fail_if_no_progress (with_reducible apply Kept.upd <;> try with_reducible rfl)

theorem State.reserveShadows_kept (s : State) (c : CtxId) (seq : Word) (vs : List Nat) (t : State)
    (h : s.reserveShadows c seq vs = some t) : Kept s t := by
  induction vs generalizing s with
  | nil => cases h; exact Kept.refl _
  | cons v vs ih =>
    unfold State.reserveShadows at h
    obtain ⟨x, _, h⟩ := Option.bind_eq_some_iff.mp h
    dsimp only at h
    split at h
    · exact ih s h
    · obtain ⟨⟨g, u⟩, hu, h⟩ := Option.bind_eq_some_iff.mp h
      exact ((State.takeFrame_kept s _ _ _ _ hu).trans (State.modCmd_kept _ _ _ _)).trans (ih _ h)

theorem State.startRun_kept (s : State) (c : CtxId) (k : Cmd) (pages : List Nat) (byRule3 : Bool) : Kept s (s.startRun c k pages byRule3) := by
  unfold State.startRun
  repeat' first
    | with_reducible apply Kept.refl
    | assumption
    | (extract_lets +onlyGivenNames y; first | (refine Kept.step (y := y) ?_ (fun _ => ?_); on_goal 2 => clear_value y; on_goal 1 => subst y) | subst y)
    | (with_reducible apply fun h => Kept.trans h (State.modCmd_kept _ _ _ _))
    | (with_reducible apply fun h => Kept.trans h (State.giveField_kept _ _ _ _))
    | (with_reducible apply fun h => Kept.trans h (State.stepFinish_kept _ _ _))
    | with_reducible apply Kept.ite
    | split

theorem State.dispatchField_kept (s : State) (c : CtxId) (x : Context) (k : Cmd) : Kept s (s.dispatchField c x k) := by
  unfold State.dispatchField
  repeat' first
    | with_reducible apply Kept.refl
    | assumption
    | (extract_lets +onlyGivenNames y; first | (refine Kept.step (y := y) ?_ (fun _ => ?_); on_goal 2 => clear_value y; on_goal 1 => subst y) | subst y)
    | (with_reducible apply fun h => Kept.trans h (State.endWith_kept _ _ _ _ _))
    | (with_reducible refine Kept.trans ?_ (State.startPageIns_kept _ _ _ _ (by assumption)))
    | (with_reducible apply fun h => Kept.trans h (State.modCmd_kept _ _ _ _))
    | (with_reducible apply fun h => Kept.trans h (State.makeRoom_kept _ _ _ _))
    | (with_reducible refine Kept.trans ?_ (State.reserveShadows_kept _ _ _ _ _ (by assumption)))
    | (with_reducible apply fun h => Kept.trans h (State.startRun_kept _ _ _ _ _))
    | with_reducible apply Kept.ite
    | split

theorem State.listErrs_kept (s : State) (x : Context) (k : Cmd) (errs : SeamErrs) : Kept s (s.listErrs x k errs) := by
  unfold State.listErrs
  repeat' first
    | with_reducible apply Kept.refl
    | assumption
    | (extract_lets +onlyGivenNames y; first | (refine Kept.step (y := y) ?_ (fun _ => ?_); on_goal 2 => clear_value y; on_goal 1 => subst y) | subst y)
    | (with_reducible apply fun h => Kept.trans h (State.seamUe_kept _ _))
    | (with_reducible apply fun h => Kept.trans h (State.seamCe_kept _ _))
    | (with_reducible apply Kept.foldl; on_goal 2 => intro _ _)
    | with_reducible apply Kept.ite
    | split
    | fail_if_no_progress (with_reducible apply Kept.upd <;> try with_reducible rfl)

theorem State.dispatch_kept (s : State) (c : CtxId) (errs : SeamErrs) : Kept s (s.dispatch c errs) := by
  unfold State.dispatch
  repeat' first
    | with_reducible apply Kept.refl
    | assumption
    | (extract_lets +onlyGivenNames y; first | (refine Kept.step (y := y) ?_ (fun _ => ?_); on_goal 2 => clear_value y; on_goal 1 => subst y) | subst y)
    | (with_reducible apply fun h => Kept.trans h (State.listErrs_kept _ _ _ _))
    | (with_reducible apply fun h => Kept.trans h (State.dispatchField_kept _ _ _ _))
    | (with_reducible apply fun h => Kept.trans h (State.settle_kept _))
    | (with_reducible apply fun h => Kept.trans h (State.startRun_kept _ _ _ _ _))
    | (with_reducible apply fun h => Kept.trans h (State.endWith_kept _ _ _ _ _))
    | with_reducible apply Kept.ite
    | split
    | fail_if_no_progress (with_reducible apply Kept.upd <;> try with_reducible rfl)

theorem State.marker_kept (s : State) (c : CtxId) : Kept s (s.marker c) := by
  unfold State.marker
  repeat' first
    | with_reducible apply Kept.refl
    | (with_reducible apply fun h => Kept.trans h (State.endWith_kept _ _ _ _ _))
    | split

theorem State.killOne_kept (s : State) (c : CtxId) : Kept s (s.killOne c) := by
  unfold State.killOne
  repeat' first
    | with_reducible apply Kept.refl
    | assumption
    | (extract_lets +onlyGivenNames y; first | (refine Kept.step (y := y) ?_ (fun _ => ?_); on_goal 2 => clear_value y; on_goal 1 => subst y) | subst y)
    | (with_reducible apply fun h => Kept.trans h (State.regViol_kept _))
    | (with_reducible apply fun h => Kept.trans h (State.requestKill_kept _ _ _ _))
    | (with_reducible apply fun h => Kept.trans h (State.settle_kept _))
    | with_reducible apply Kept.ite
    | split
    | fail_if_no_progress (with_reducible apply Kept.upd <;> try with_reducible rfl)

theorem State.killAll_kept (s : State) (c : CtxId) : Kept s (s.killAll c) := by
  unfold State.killAll
  repeat' first
    | with_reducible apply Kept.refl
    | assumption
    | (extract_lets +onlyGivenNames y; first | (refine Kept.step (y := y) ?_ (fun _ => ?_); on_goal 2 => clear_value y; on_goal 1 => subst y) | subst y)
    | (with_reducible apply fun h => Kept.trans h (State.regViol_kept _))
    | (with_reducible apply fun h => Kept.trans h (State.requestKill_kept _ _ _ _))
    | (with_reducible apply fun h => Kept.trans h (State.settle_kept _))
    | (with_reducible apply Kept.foldl; on_goal 2 => intro _ _)
    | with_reducible apply Kept.ite
    | split
    | fail_if_no_progress (with_reducible apply Kept.upd <;> try with_reducible rfl)

theorem State.killComplete_kept (s : State) (c : CtxId) (seq : Word) : Kept s (s.killComplete c seq) := by
  unfold State.killComplete
  repeat' first
    | with_reducible apply Kept.refl
    | assumption
    | (extract_lets +onlyGivenNames y; first | (refine Kept.step (y := y) ?_ (fun _ => ?_); on_goal 2 => clear_value y; on_goal 1 => subst y) | subst y)
    | (with_reducible apply fun h => Kept.trans h (State.killDone_kept _ _ _ _))
    | (with_reducible apply fun h => Kept.trans h (State.recordDue_kept _ _ _))
    | (with_reducible apply fun h => Kept.trans h (State.settle_kept _))
    | with_reducible apply Kept.ite
    | split
    | fail_if_no_progress (with_reducible apply Kept.upd <;> try with_reducible rfl)

theorem State.conclude_kept (s : State) (c : CtxId) (k : Cmd) (st : Byte) : Kept s (s.conclude c k st) := by
  unfold State.conclude
  repeat' first
    | with_reducible apply Kept.refl
    | assumption
    | (extract_lets +onlyGivenNames y; first | (refine Kept.step (y := y) ?_ (fun _ => ?_); on_goal 2 => clear_value y; on_goal 1 => subst y) | subst y)
    | (with_reducible apply fun h => Kept.trans h (State.leaveField_kept _ _ _ _))
    | (with_reducible apply fun h => Kept.trans h (State.unmaskFor_kept _ _ _))
    | (with_reducible apply fun h => Kept.trans h (State.commitPages_kept _ _ _))
    | (with_reducible apply fun h => Kept.trans h (State.releaseOwn_kept _ _))
    | (with_reducible apply fun h => Kept.trans h (State.amaxCommit_kept _ _ _))
    | (with_reducible apply fun h => Kept.trans h (State.countLateStep_kept _ _))
    | (with_reducible apply fun h => Kept.trans h (State.stepCommit_kept _ _))
    | (with_reducible apply fun h => Kept.trans h (State.discard_kept _ _ _))
    | (with_reducible apply fun h => Kept.trans h (State.unitUpdate_kept _ _ _ _))
    | (with_reducible apply fun h => Kept.trans h (State.creditSeam_kept _ _ _))
    | (with_reducible apply fun h => Kept.trans h (State.modCmd_kept _ _ _ _))
    | with_reducible apply Kept.ite
    | split
    | fail_if_no_progress (with_reducible apply Kept.upd <;> try with_reducible rfl)

theorem State.commandEnd_kept (s : State) (c : CtxId) (seq : Word) : Kept s (s.commandEnd c seq) := by
  unfold State.commandEnd
  repeat' first
    | with_reducible apply Kept.refl
    | assumption
    | (extract_lets +onlyGivenNames y; first | (refine Kept.step (y := y) ?_ (fun _ => ?_); on_goal 2 => clear_value y; on_goal 1 => subst y) | subst y)
    | (with_reducible apply fun h => Kept.trans h (State.conclude_kept _ _ _ _))
    | (with_reducible apply fun h => Kept.trans h (State.flushRecords_kept _ _))
    | (with_reducible apply fun h => Kept.trans h (State.recordDue_kept _ _ _))
    | (with_reducible apply fun h => Kept.trans h (State.settle_kept _))
    | with_reducible apply Kept.ite
    | split
    | fail_if_no_progress (with_reducible apply Kept.upd <;> try with_reducible rfl)

theorem State.waitExpiry_kept (s : State) (c : CtxId) (seq : Word) : Kept s (s.waitExpiry c seq) := by
  unfold State.waitExpiry
  repeat' first
    | with_reducible apply Kept.refl
    | (with_reducible apply fun h => Kept.trans h (State.endWith_kept _ _ _ _ _))
    | (with_reducible apply fun h => Kept.trans h (State.canaryEvent_kept _ _ _))
    | with_reducible apply Kept.ite
    | split

theorem State.holderTimeout_kept (s : State) (canary : Nat) (p : Cmd → Bool) : Kept s (s.holderTimeout canary p) := by
  unfold State.holderTimeout
  repeat' first
    | with_reducible apply Kept.refl
    | (with_reducible apply fun h => Kept.trans h (State.endWith_kept _ _ _ _ _))
    | (with_reducible apply fun h => Kept.trans h (State.canaryEvent_kept _ _ _))
    | with_reducible apply Kept.ite
    | split

theorem State.stepMaxExpiry_kept (s : State) (c : CtxId) : Kept s (s.stepMaxExpiry c) := by
  unfold State.stepMaxExpiry
  repeat' first
    | with_reducible apply Kept.refl
    | (with_reducible apply fun h => Kept.trans h (State.holderTimeout_kept _ _ _))
    | with_reducible apply Kept.ite
    | split

theorem State.budgetReset_kept (s : State) : Kept s (s.budgetReset) := by
  unfold State.budgetReset
  repeat' first
    | with_reducible apply Kept.refl
    | assumption
    | (extract_lets +onlyGivenNames y; first | (refine Kept.step (y := y) ?_ (fun _ => ?_); on_goal 2 => clear_value y; on_goal 1 => subst y) | subst y)
    | (with_reducible apply fun h => Kept.trans h (State.passToHt_kept _ _))
    | (with_reducible apply fun h => Kept.trans h (State.mapCtxs_kept _ _))

theorem State.energyInterval_kept (s : State) (nj : Nat) : Kept s (s.energyInterval nj) := by
  unfold State.energyInterval
  repeat' first
    | with_reducible apply Kept.refl
    | assumption
    | (extract_lets +onlyGivenNames y; first | (refine Kept.step (y := y) ?_ (fun _ => ?_); on_goal 2 => clear_value y; on_goal 1 => subst y) | subst y)
    | (with_reducible apply fun h => Kept.trans h (State.modCtx_kept _ _ _))
    | (with_reducible apply fun h => Kept.trans h (State.unattributed_kept _ _))
    | (with_reducible apply Kept.foldl; on_goal 2 => intro _ _)
    | split
    | fail_if_no_progress (with_reducible apply Kept.upd <;> try with_reducible rfl)

theorem State.tallyInterval_kept (s : State) (nj : Nat) : Kept s (s.tallyInterval nj) := by
  unfold State.tallyInterval
  repeat' first
    | with_reducible apply Kept.refl
    | assumption
    | (extract_lets +onlyGivenNames y; first | (refine Kept.step (y := y) ?_ (fun _ => ?_); on_goal 2 => clear_value y; on_goal 1 => subst y) | subst y)
    | (with_reducible apply fun h => Kept.trans h (State.passToHt_kept _ _))
    | (with_reducible apply fun h => Kept.trans h (State.energyInterval_kept _ _))
    | with_reducible apply Kept.ite
    | fail_if_no_progress (with_reducible apply Kept.upd <;> try with_reducible rfl)

theorem State.tallyEvent_kept (s : State) (c : CtxId) : Kept s (s.tallyEvent c) := by
  unfold State.tallyEvent
  repeat' first
    | with_reducible apply Kept.refl
    | (with_reducible apply fun h => Kept.trans h (State.raise_kept _ _ _ _))
    | split

theorem State.tallyPeriodic_kept (s : State) : Kept s (s.tallyPeriodic) := by
  unfold State.tallyPeriodic
  repeat' first
    | with_reducible apply Kept.refl
    | (with_reducible apply fun h => Kept.trans h (State.tallyEvent_kept _ _))
    | (with_reducible apply Kept.foldl; on_goal 2 => intro _ _)
    | with_reducible apply Kept.ite

theorem State.vtimeRead_kept (s : State) : Kept s (s.vtimeRead) := by
  unfold State.vtimeRead
  repeat' first
    | with_reducible apply Kept.refl
    | (with_reducible apply State.mbxRun_step <;> try intro _)
    | (with_reducible apply fun h => Kept.trans h (State.mbxFail_kept _ _))
    | (with_reducible apply fun h => Kept.trans h (State.mbxOk_kept _ _))
    | with_reducible apply Kept.ite
    | split

theorem State.tallyRead_kept (s : State) : Kept s (s.tallyRead) := by
  unfold State.tallyRead
  repeat' first
    | with_reducible apply Kept.refl
    | (with_reducible apply State.mbxRun_step <;> try intro _)
    | (with_reducible apply fun h => Kept.trans h (State.mbxFail_kept _ _))
    | (with_reducible apply fun h => Kept.trans h (State.mbxOk_kept _ _))
    | with_reducible apply Kept.ite
    | split

theorem State.stbRead_kept (s : State) : Kept s (s.stbRead) := by
  unfold State.stbRead
  repeat' first
    | with_reducible apply Kept.refl
    | assumption
    | (extract_lets +onlyGivenNames y; first | (refine Kept.step (y := y) ?_ (fun _ => ?_); on_goal 2 => clear_value y; on_goal 1 => subst y) | subst y)
    | (with_reducible apply State.mbxRun_step <;> try intro _)
    | (with_reducible apply fun h => Kept.trans h (State.mbxFail_kept _ _))
    | (with_reducible apply fun h => Kept.trans h (State.mbxOk_kept _ _))
    | with_reducible apply Kept.ite
    | split

theorem State.maskMaxExpiry_kept (s : State) : Kept s (s.maskMaxExpiry) := by
  unfold State.maskMaxExpiry
  repeat' first
    | with_reducible apply Kept.refl
    | assumption
    | (extract_lets +onlyGivenNames y; first | (refine Kept.step (y := y) ?_ (fun _ => ?_); on_goal 2 => clear_value y; on_goal 1 => subst y) | subst y)
    | with_reducible apply Kept.ite
    | split
    | fail_if_no_progress (with_reducible apply Kept.upd <;> try with_reducible rfl)

theorem State.hoistEnd_kept (s : State) (c : CtxId) (k : Cmd) (r : Except Byte State)
    (h : ∀ t, r = .ok t → Kept s t) : Kept s (s.hoistEnd c k r) := by
  cases r with
  | ok t => exact (h t rfl).trans (State.endWith_kept t c _ _ _)
  | error st => exact State.endWith_kept s c _ _ _

theorem State.hoistRun_kept (s : State) (c : CtxId) (op : Nat) (f : State → Context → Cmd → HReq → Except Byte State)
    (h : ∀ x k r t, f s x k r = .ok t → Kept s t) : Kept s (s.hoistRun c op f) := by
  unfold State.hoistRun
  split
  · exact Kept.refl s
  · split
    · exact State.endWith_kept s c _ _ _
    · split
      · exact Kept.refl s
      · exact State.hoistEnd_kept s c _ _ (h _ _ _)

theorem State.ensureTable_kept (s : State) (c : CtxId) (vpn : Nat) (t : State) (h : s.ensureTable c vpn = some t) :
    Kept s t := by
  unfold State.ensureTable at h
  obtain ⟨x, _, h⟩ := Option.bind_eq_some_iff.mp h
  split at h
  · cases h
    exact Kept.refl s
  · obtain ⟨⟨f, u⟩, hu, rfl⟩ := Option.map_eq_some_iff.mp h
    exact (State.takeFrame_kept s _ _ _ _ hu).trans (State.modCtx_kept _ _ _)

theorem State.dropTables_kept (s : State) (c : CtxId) : Kept s (s.dropTables c) := by
  unfold State.dropTables
  repeat' first
    | with_reducible apply Kept.refl
    | assumption
    | (extract_lets +onlyGivenNames y; first | (refine Kept.step (y := y) ?_ (fun _ => ?_); on_goal 2 => clear_value y; on_goal 1 => subst y) | subst y)
    | (with_reducible apply fun h => Kept.trans h (State.releaseFrame_kept _ _))
    | (with_reducible apply fun h => Kept.trans h (State.modCtx_kept _ _ _))
    | (with_reducible apply Kept.foldl; on_goal 2 => intro _ _)
    | split

theorem State.zeroHost_kept (s : State) (a n : Nat) : Kept s (s.zeroHost a n) :=
  Kept.memUpd rfl (fun m h p => ⟨m, Cells.clear_wf _ a n h, p⟩) rfl rfl

theorem State.allocPage_kept (s : State) (c : CtxId) (r : HReq) (i j : Nat) (t : State)
    (h : s.allocPage c r i j = some t) : Kept s t := by
  unfold State.allocPage at h
  obtain ⟨x, _, h⟩ := Option.bind_eq_some_iff.mp h
  dsimp only at h
  split at h
  · split at h
    · obtain ⟨p, _, rfl⟩ := Option.map_eq_some_iff.mp h
      exact (State.zeroHost_kept s _ _).trans ((State.tallyHost_kept _ _ _).trans (State.modCtx_kept _ _ _))
    · cases h
  · obtain ⟨⟨f, u⟩, hu, rfl⟩ := Option.map_eq_some_iff.mp h
    exact (State.takeFrame_kept s _ _ _ _ hu).trans ((State.tallySeam_kept _ _ _).trans (State.modCtx_kept _ _ _))

theorem State.allocPages_kept (s : State) (c : CtxId) (r : HReq) (i n j : Nat) (t : State)
    (h : s.allocPages c r i n j = some t) : Kept s t := by
  induction n generalizing s j with
  | zero => cases h; exact Kept.refl _
  | succ n ih =>
    obtain ⟨u, hu, h⟩ := Option.bind_eq_some_iff.mp h
    obtain ⟨v, hv, h⟩ := Option.bind_eq_some_iff.mp h
    exact ((State.allocPage_kept s c r i j u hu).trans (State.ensureTable_kept u c _ v hv)).trans (ih v (j + 1) h)

theorem State.allocReq_kept (s : State) (c : CtxId) (x : Context) (k : Cmd) (r : HReq) (t : State)
    (h : s.allocReq c x k r = .ok t) : Kept s t := by
  unfold State.allocReq at h
  dsimp only at h
  split at h
  · cases h
  · split at h
    · cases h
    · split at h
      · cases h
      · split at h
        · cases h
        · cases h
          exact (State.allocPages_kept s c r _ _ _ _ (by assumption)).trans
            ((State.modCtx_kept _ _ _).trans (State.modCmd_kept _ _ _ _))

theorem State.uncharge_kept (s : State) (x : Context) (vpn : Nat) (p : DWord) : Kept s (s.uncharge x vpn p) := by
  unfold State.uncharge
  repeat' first
    | with_reducible apply Kept.refl
    | assumption
    | (extract_lets +onlyGivenNames y; first | (refine Kept.step (y := y) ?_ (fun _ => ?_); on_goal 2 => clear_value y; on_goal 1 => subst y) | subst y)
    | with_reducible apply Kept.ite
    | split
    | fail_if_no_progress (with_reducible apply Kept.upd <;> try with_reducible rfl)

theorem State.freeHandle_kept (s : State) (c : CtxId) (h : Nat) : Kept s (s.freeHandle c h) := by
  unfold State.freeHandle
  repeat' first
    | with_reducible apply Kept.refl
    | assumption
    | (extract_lets +onlyGivenNames y; first | (refine Kept.step (y := y) ?_ (fun _ => ?_); on_goal 2 => clear_value y; on_goal 1 => subst y) | subst y)
    | (with_reducible apply fun h => Kept.trans h (State.modCtx_kept _ _ _))
    | (with_reducible apply fun h => Kept.trans h (State.uncharge_kept _ _ _ _))
    | (with_reducible apply fun h => Kept.trans h (State.retireFrame_kept _ _ _))
    | (with_reducible apply fun h => Kept.trans h (State.dropTables_kept _ _))
    | (with_reducible apply Kept.foldl; on_goal 2 => intro _ _)
    | with_reducible apply Kept.ite
    | split
    | fail_if_no_progress (with_reducible apply Kept.upd <;> try with_reducible rfl)

theorem State.freeReq_kept (s : State) (c : CtxId) (x : Context) (r : HReq) (t : State)
    (h : s.freeReq c x r = .ok t) : Kept s t := by
  unfold State.freeReq at h
  split at h
  · cases h
  · cases h
    exact State.freeHandle_kept s c r.handle

theorem State.releaseHandle_kept (s : State) (c : CtxId) (h : Nat) : Kept s (s.releaseHandle c h) := by
  unfold State.releaseHandle
  repeat' first
    | with_reducible apply Kept.refl
    | assumption
    | (extract_lets +onlyGivenNames y; first | (refine Kept.step (y := y) ?_ (fun _ => ?_); on_goal 2 => clear_value y; on_goal 1 => subst y) | subst y)
    | (with_reducible apply fun h => Kept.trans h (State.dropFarOf_kept _ _ _))
    | (with_reducible apply fun h => Kept.trans h (State.releaseFrame_kept _ _))
    | (with_reducible apply fun h => Kept.trans h (State.modCtx_kept _ _ _))
    | (with_reducible apply Kept.foldl; on_goal 2 => intro _ _)
    | with_reducible apply Kept.ite
    | split
    | fail_if_no_progress (with_reducible apply Kept.upd <;> try with_reducible rfl)

theorem State.moveToDie_kept (s : State) (c : CtxId) (f : Nat) (die : Option Nat) (t : State) (h : s.moveToDie c f die = some t) :
    Kept s t := by
  unfold State.moveToDie at h
  split at h
  · cases h
    exact Kept.refl s
  · obtain ⟨g, _, rfl⟩ := Option.map_eq_some_iff.mp h
    exact (State.moveFrame_kept s f g).trans (State.tallySeam_kept _ _ _)

theorem State.sendFar_kept (s : State) (c : CtxId) (vpn : Nat) (t : State) (h : s.sendFar c vpn = some t) : Kept s t := by
  have put : ∀ (f far : Nat) (u : State),
      Kept u (let u := u.modCtx c fun x => x.mapPtes fun q => if pteAt f q then pteMove q psFar (locFar (far / 512) (far % 512)) else q
        if u.heldBySnap f then { u with frames := u.frames.modify f fun e => { e with use := .replaced, far := none } }
        else u.releaseFrame f) := fun f far u =>
    Kept.ite (Kept.upd (State.modCtx_kept u c _) rfl rfl rfl rfl rfl) ((State.modCtx_kept u c _).trans (State.releaseFrame_kept _ f))
  unfold State.sendFar at h
  obtain ⟨x, _, h⟩ := Option.bind_eq_some_iff.mp h
  dsimp only at h
  split at h
  · cases h
    exact put _ _ _
  · split at h
    · obtain ⟨far, _, rfl⟩ := Option.map_eq_some_iff.mp h
      exact (((State.modCtx_kept s _ _).trans (State.pageToHost_kept _ _ _)).trans (State.tallyPage_kept _ _)).trans (put _ _ _)
    · cases h

theorem State.bringIn_kept (s : State) (c : CtxId) (vpn : Nat) (die : Option Nat) (t : State)
    (h : s.bringIn c vpn die = some t) : Kept s t := by
  unfold State.bringIn at h
  obtain ⟨x, _, h⟩ := Option.bind_eq_some_iff.mp h
  obtain ⟨⟨f, u⟩, hu, rfl⟩ := Option.map_eq_some_iff.mp h
  exact (((State.takeFrame_kept s _ _ _ _ hu).trans (State.pageFromHost_kept _ _ _)).trans (State.modCtx_kept _ _ _)).trans
    ((State.dropFarOf_kept _ _ _).trans (State.tallyPage_kept _ _))

theorem State.arrive_kept (s : State) (c : CtxId) (vpn : Nat) : Kept s (s.arrive c vpn) := by
  unfold State.arrive
  split
  · exact Kept.refl s
  · dsimp only
    split
    · exact Kept.refl s
    · split
      · exact State.finishPageIn_kept s _
      · exact Kept.refl s

theorem State.placePage_kept (s : State) (c : CtxId) (r : HReq) (base vpn : Nat) (t : State)
    (h : s.placePage c r base vpn = some t) : Kept s t := by
  have h0 := (State.arrive_kept s c vpn).trans (State.modCtx_kept (s.arrive c vpn) c fun x => x.dropStale (· == vpn))
  unfold State.placePage at h
  obtain ⟨x, _, h⟩ := Option.bind_eq_some_iff.mp h
  dsimp only at h
  split at h
  · split at h
    · exact h0.trans (State.sendFar_kept _ c vpn t h)
    · exact h0.trans (State.moveToDie_kept _ c _ _ t h)
  · split at h
    · split at h
      · cases h
        exact h0
      · exact h0.trans (State.bringIn_kept _ c vpn _ t h)
    · cases h
      exact h0

theorem State.placePages_kept (s : State) (c : CtxId) (r : HReq) (base : Nat) (vs : List Nat) (t : State)
    (h : s.placePages c r base vs = some t) : Kept s t := by
  induction vs generalizing s with
  | nil => cases h; exact Kept.refl _
  | cons v vs ih =>
    obtain ⟨u, hu, h⟩ := Option.bind_eq_some_iff.mp h
    exact (State.placePage_kept s c r base v u hu).trans (ih u h)

theorem State.hoistErrs_kept (s : State) (frames : List Nat) (e : SeamErrs) : Kept s (s.hoistErrs frames e) := by
  unfold State.hoistErrs
  repeat' first
    | with_reducible apply Kept.refl
    | (with_reducible apply fun h => Kept.trans h (State.seamUe_kept _ _))
    | (with_reducible apply fun h => Kept.trans h (State.seamCe_kept _ _))
    | (with_reducible apply Kept.foldl; on_goal 2 => intro _ _)

theorem State.placeReq_kept (s : State) (c : CtxId) (x : Context) (r : HReq) (t : State)
    (h : s.placeReq c x r = .ok t) : Kept s t := by
  unfold State.placeReq at h
  split at h
  · cases h
  · split at h
    · cases h
    · split at h
      · cases h
        exact State.placePages_kept s c r _ _ t (by assumption)
      · cases h

theorem State.ownPage_kept (s : State) (c : CtxId) (vpn : Nat) (t : State) (h : s.ownPage c vpn = some t) : Kept s t := by
  unfold State.ownPage at h
  obtain ⟨x, _, h⟩ := Option.bind_eq_some_iff.mp h
  dsimp only at h
  split at h
  · obtain ⟨⟨f, u⟩, hu, rfl⟩ := Option.map_eq_some_iff.mp h
    refine (State.takeFrame_kept s _ _ _ _ hu).trans ?_
    exact Kept.upd (((State.copyFrame_kept u _ _).trans (State.tallySeam_kept _ _ _)).trans (State.modCtx_kept _ _ _)) rfl rfl rfl rfl rfl
  · split at h
    · obtain ⟨⟨f, u⟩, hu, rfl⟩ := Option.map_eq_some_iff.mp h
      refine (State.takeFrame_kept s _ _ _ _ hu).trans ?_
      exact Kept.upd (((State.pageFromHost_kept u _ _).trans (State.tallyPage_kept _ _)).trans (State.modCtx_kept _ _ _)) rfl rfl rfl rfl rfl
    · cases h
      exact Kept.refl s

theorem State.dirty_kept (s : State) (c : CtxId) (f : Nat) : Kept s (s.dirty c f) := by
  unfold State.dirty
  repeat' first
    | with_reducible apply Kept.refl
    | (with_reducible apply fun h => Kept.trans h (State.dropFarOf_kept _ _ _))
    | split
    | fail_if_no_progress (with_reducible apply Kept.upd <;> try with_reducible rfl)

theorem State.writePage_kept (s : State) (c : CtxId) (vpn off : Nat) (bs : List Byte) : Kept s (s.writePage c vpn off bs) := by
  unfold State.writePage
  split
  · exact Kept.refl s
  · dsimp only
    split
    · exact (State.dirty_kept s c _).trans (Kept.memUpd rfl (fun m h p => ⟨Cells.writeBytes_wf _ _ _ m, h, p⟩) rfl rfl)
    · split
      · exact State.hostWrite_kept s _ _
      · exact Kept.refl s

theorem State.writeCommitted_kept (s : State) (c : CtxId) (force : Bool) (vs : List (Nat × Nat × List Byte)) (t : State)
    (h : s.writeCommitted c force vs = some t) : Kept s t := by
  induction vs generalizing s with
  | nil => cases h; exact Kept.refl _
  | cons v vs ih =>
    obtain ⟨vpn, off, bs⟩ := v
    unfold State.writeCommitted at h
    obtain ⟨x, _, h⟩ := Option.bind_eq_some_iff.mp h
    dsimp only at h
    split at h
    · exact ih s h
    · obtain ⟨u, hu, h⟩ := Option.bind_eq_some_iff.mp h
      exact (((State.arrive_kept s c vpn).trans (State.ownPage_kept _ c vpn u hu)).trans (State.writePage_kept u c vpn off bs)).trans (ih _ h)

theorem State.writeCommittedAt_kept (s : State) (c : CtxId) (force : Bool) (va : Nat) (bs : List Byte) (t : State)
    (h : s.writeCommittedAt c force va bs = some t) : Kept s t := State.writeCommitted_kept s c force _ t h

theorem State.loadReq_kept (s : State) (c : CtxId) (x : Context) (r : HReq) (flag data : List Byte) (portFault : Bool) (t : State)
    (h : s.loadReq c x r flag data portFault = .ok t) : Kept s t := by
  unfold State.loadReq at h
  split at h
  · split at h
    · cases h
    · split at h
      · cases h
      · rename_i u hu
        have h0 : Kept s u := State.acquire_kept s c _ flag u hu
        extract_lets len crc va at h
        split at h
        · cases h
        · split at h
          · cases h
          · split at h
            · cases h
              exact h0.trans (State.tallyHost_kept u c r.len)
            · split at h
              · cases h
              · split at h
                · rename_i v hv
                  cases h
                  exact (h0.trans (State.writeCommittedAt_kept u c true _ _ v hv)).trans
                    (((State.tallyHost_kept _ _ _).trans (State.tallySeam_kept _ _ _)).trans (State.modCtx_kept _ _ _))
                · cases h
  · cases h

theorem State.loadAcquire_kept (s : State) (c : CtxId) (flag : List Byte) (op : Nat) : Kept s (s.loadAcquire c flag op) := by
  unfold State.loadAcquire
  split
  · dsimp only
    split
    · exact Kept.refl s
    · generalize h : s.acquire c _ flag = o
      cases o with
      | none => exact Kept.refl s
      | some t => exact State.acquire_kept s c _ flag t h
  · exact Kept.refl s

theorem State.farslotAdd_kept (s : State) (c : CtxId) (x : Context) (r : HReq) (flag : List Byte) (t : State)
    (h : s.farslotAdd c x r flag = .ok t) : Kept s t := by
  unfold State.farslotAdd at h
  split at h
  · cases h
  · split at h
    · cases h
    · split at h
      · cases h
      · cases h
        exact (State.acquire_kept s c _ flag _ (by assumption)).trans (State.modCtx_kept _ _ _)

theorem State.dropCopies_kept (s : State) (c : CtxId) (slot : Nat) : Kept s (s.dropCopies c slot) := by
  unfold State.dropCopies
  repeat' first
    | with_reducible apply Kept.refl
    | assumption
    | (extract_lets +onlyGivenNames y; first | (refine Kept.step (y := y) ?_ (fun _ => ?_); on_goal 2 => clear_value y; on_goal 1 => subst y) | subst y)
    | (with_reducible apply fun h => Kept.trans h (State.modCtx_kept _ _ _))
    | with_reducible apply Kept.ite
    | split
    | fail_if_no_progress (with_reducible apply Kept.upd <;> try with_reducible rfl)

theorem State.farslotRelease_kept (s : State) (c : CtxId) (x : Context) (r : HReq) (t : State)
    (h : s.farslotRelease c x r = .ok t) : Kept s t := by
  unfold State.farslotRelease at h
  split at h
  · cases h
  · extract_lets u at h
    have h0 : Kept s u := Kept.foldl _ _ (Kept.refl s) fun y e => State.finishPageIn_kept y e
    split at h
    · cases h
    · split at h
      · cases h
      · cases h
        exact h0.trans (((State.dropCopies_kept u c _).trans (State.modCtx_kept _ _ _)).trans (State.handback_kept _ _ _ _ _))

theorem State.setFlags_kept (s : State) (c : CtxId) (x : Context) (r : HReq) (t : State)
    (h : s.setFlags c x r = .ok t) : Kept s t := by
  unfold State.setFlags at h
  split at h
  · cases h
  · cases h
    exact State.modCtx_kept s _ _

theorem State.directWrite_kept (s : State) (c : Byte) : Kept s (s.directWrite c) := by
  unfold State.directWrite
  repeat' first
    | with_reducible apply Kept.refl
    | assumption
    | (extract_lets +onlyGivenNames y; first | (refine Kept.step (y := y) ?_ (fun _ => ?_); on_goal 2 => clear_value y; on_goal 1 => subst y) | subst y)
    | (with_reducible apply fun h => Kept.trans h (State.modCtx_kept _ _ _))
    | with_reducible apply Kept.ite
    | split
    | fail_if_no_progress (with_reducible apply Kept.upd <;> try with_reducible rfl)

theorem State.tableRead_kept (s : State) : Kept s (s.tableRead) := by
  unfold State.tableRead
  repeat' first
    | with_reducible apply Kept.refl
    | assumption
    | (extract_lets +onlyGivenNames y; first | (refine Kept.step (y := y) ?_ (fun _ => ?_); on_goal 2 => clear_value y; on_goal 1 => subst y) | subst y)
    | (with_reducible apply State.mbxRun_step <;> try intro _)
    | (with_reducible apply fun h => Kept.trans h (State.mbxOk_kept _ _))
    | split

theorem State.invalidate_kept (s : State) (c : Byte) (all : Bool) : Kept s (s.invalidate c all) := by
  unfold State.invalidate
  repeat' first
    | with_reducible apply Kept.refl
    | assumption
    | (extract_lets +onlyGivenNames y; first | (refine Kept.step (y := y) ?_ (fun _ => ?_); on_goal 2 => clear_value y; on_goal 1 => subst y) | subst y)
    | with_reducible apply Kept.ite
    | fail_if_no_progress (with_reducible apply Kept.upd <;> try with_reducible rfl)

theorem State.invalidateDone_kept (s : State) : Kept s (s.invalidateDone) := by
  unfold State.invalidateDone
  repeat' first
    | with_reducible apply Kept.refl
    | assumption
    | (extract_lets +onlyGivenNames y; first | (refine Kept.step (y := y) ?_ (fun _ => ?_); on_goal 2 => clear_value y; on_goal 1 => subst y) | subst y)
    | (with_reducible apply fun h => Kept.trans h (State.mapCtxs_kept _ _))
    | (with_reducible apply fun h => Kept.trans h (State.modCtx_kept _ _ _))
    | with_reducible apply Kept.ite
    | split
    | fail_if_no_progress (with_reducible apply Kept.upd <;> try with_reducible rfl)

theorem State.evacuatePage_kept (s : State) (q : Nat) (f : Nat) : Kept s (s.evacuatePage q f) := by
  unfold State.evacuatePage
  repeat' first
    | with_reducible apply Kept.refl
    | assumption
    | (extract_lets +onlyGivenNames y; first | (refine Kept.step (y := y) ?_ (fun _ => ?_); on_goal 2 => clear_value y; on_goal 1 => subst y) | subst y)
    | (with_reducible apply fun h => Kept.trans h (State.modCtx_kept _ _ _))
    | (with_reducible apply fun h => Kept.trans h (State.moveFrame_kept _ _ _))
    | (with_reducible refine Kept.trans ?_ (State.sendFar_kept _ _ _ _ (by assumption)))
    | with_reducible apply Kept.ite
    | split
    | fail_if_no_progress (with_reducible apply Kept.upd <;> try with_reducible rfl)

theorem State.evacuate_kept (s : State) (quad : BitVec 3) (errs : SeamErrs) : Kept s (s.evacuate quad errs) := by
  unfold State.evacuate
  repeat' first
    | with_reducible apply Kept.refl
    | assumption
    | (extract_lets +onlyGivenNames y; first | (refine Kept.step (y := y) ?_ (fun _ => ?_); on_goal 2 => clear_value y; on_goal 1 => subst y) | subst y)
    | (with_reducible apply fun h => Kept.trans h (State.evacuatePage_kept _ _ _))
    | (with_reducible apply fun h => Kept.trans h (State.hoistErrs_kept _ _ _))
    | (with_reducible apply Kept.foldl; on_goal 2 => intro _ _)
    | with_reducible apply Kept.ite
    | fail_if_no_progress (with_reducible apply Kept.upd <;> try with_reducible rfl)

theorem State.evacuationDone_kept (s : State) : Kept s (s.evacuationDone) := by
  unfold State.evacuationDone
  repeat' first
    | with_reducible apply Kept.refl
    | assumption
    | (extract_lets +onlyGivenNames y; first | (refine Kept.step (y := y) ?_ (fun _ => ?_); on_goal 2 => clear_value y; on_goal 1 => subst y) | subst y)
    | (with_reducible apply fun h => Kept.trans h (State.evacuatePage_kept _ _ _))
    | (with_reducible apply Kept.foldl; on_goal 2 => intro _ _)
    | with_reducible apply Kept.ite
    | split
    | fail_if_no_progress (with_reducible apply Kept.upd <;> try with_reducible rfl)

theorem State.pageInDone_kept (s : State) (c : CtxId) (vpn : Nat) : Kept s (s.pageInDone c vpn) := by
  unfold State.pageInDone
  repeat' first
    | with_reducible apply Kept.refl
    | (with_reducible apply fun h => Kept.trans h (State.finishPageIn_kept _ _))
    | (with_reducible apply fun h => Kept.trans h (State.settle_kept _))
    | split

theorem State.arbGrant_kept (s : State) (d : DieId) (waiting : BitVec 5) (waitedNs : Nat) : Kept s (s.arbGrant d waiting waitedNs) := by
  unfold State.arbGrant
  repeat' first
    | with_reducible apply Kept.refl
    | assumption
    | (extract_lets +onlyGivenNames y; first | (refine Kept.step (y := y) ?_ (fun _ => ?_); on_goal 2 => clear_value y; on_goal 1 => subst y) | subst y)
    | with_reducible apply Kept.ite
    | split
    | fail_if_no_progress (with_reducible apply Kept.upd <;> try with_reducible rfl)

theorem State.modLink_kept (s : State) (l : LinkId) (f : Link → Link) : Kept s (s.modLink l f) := by
  unfold State.modLink
  repeat' first
    | with_reducible apply Kept.refl
    | assumption
    | (extract_lets +onlyGivenNames y; first | (refine Kept.step (y := y) ?_ (fun _ => ?_); on_goal 2 => clear_value y; on_goal 1 => subst y) | subst y)
    | fail_if_no_progress (with_reducible apply Kept.upd <;> try with_reducible rfl)

theorem State.acquireTime_kept (s : State) : Kept s (s.acquireTime) := by
  unfold State.acquireTime
  repeat' first
    | with_reducible apply Kept.refl
    | assumption
    | (extract_lets +onlyGivenNames y; first | (refine Kept.step (y := y) ?_ (fun _ => ?_); on_goal 2 => clear_value y; on_goal 1 => subst y) | subst y)
    | fail_if_no_progress (with_reducible apply Kept.upd <;> try with_reducible rfl)

theorem State.tkpSettle_kept (s : State) : Kept s (s.tkpSettle) := by
  unfold State.tkpSettle
  repeat' first
    | with_reducible apply Kept.refl
    | (with_reducible apply fun h => Kept.trans h (State.acquireTime_kept _))
    | with_reducible apply Kept.ite

theorem State.timeCode_kept (s : State) (frame : BitVec 72) (since : Nat) : Kept s (s.timeCode frame since) := by
  unfold State.timeCode
  repeat' first
    | with_reducible apply Kept.refl
    | assumption
    | (extract_lets +onlyGivenNames y; first | (refine Kept.step (y := y) ?_ (fun _ => ?_); on_goal 2 => clear_value y; on_goal 1 => subst y) | subst y)
    | (with_reducible apply fun h => Kept.trans h (State.tkpSettle_kept _))
    | with_reducible apply Kept.ite
    | fail_if_no_progress (with_reducible apply Kept.upd <;> try with_reducible rfl)

theorem State.slew_kept (s : State) (d : Int) : Kept s (s.slew d) := by
  unfold State.slew
  repeat' first
    | with_reducible apply Kept.refl
    | assumption
    | (extract_lets +onlyGivenNames y; first | (refine Kept.step (y := y) ?_ (fun _ => ?_); on_goal 2 => clear_value y; on_goal 1 => subst y) | subst y)
    | with_reducible apply Kept.ite
    | fail_if_no_progress (with_reducible apply Kept.upd <;> try with_reducible rfl)

theorem State.steer_kept (s : State) (theta2 : Int) (theta : Int) : Kept s (s.steer theta2 theta) := by
  unfold State.steer
  repeat' first
    | with_reducible apply Kept.refl
    | assumption
    | (extract_lets +onlyGivenNames y; first | (refine Kept.step (y := y) ?_ (fun _ => ?_); on_goal 2 => clear_value y; on_goal 1 => subst y) | subst y)
    | (with_reducible apply fun h => Kept.trans h (State.slew_kept _ _))
    | (with_reducible apply fun h => Kept.trans h (State.acquireTime_kept _))
    | with_reducible apply Kept.ite
    | fail_if_no_progress (with_reducible apply Kept.upd <;> try with_reducible rfl)

theorem State.timeExchange_kept (s : State) (l : LinkId) (t1 : Int) (t2 : Int) (t3 : Int) (t4 : Int) (asA : Bool) (partnerOk : Bool) (partnerLocked : Bool) (partnerParent : Bool) : Kept s (s.timeExchange l t1 t2 t3 t4 asA partnerOk partnerLocked partnerParent) := by
  unfold State.timeExchange
  repeat' first
    | with_reducible apply Kept.refl
    | assumption
    | (extract_lets +onlyGivenNames y; first | (refine Kept.step (y := y) ?_ (fun _ => ?_); on_goal 2 => clear_value y; on_goal 1 => subst y) | subst y)
    | (with_reducible apply fun h => Kept.trans h (State.passToHt_kept _ _))
    | (with_reducible apply fun h => Kept.trans h (State.bumpFree_kept _))
    | (with_reducible apply fun h => Kept.trans h (State.raise_kept _ _ _ _))
    | (with_reducible apply fun h => Kept.trans h (State.steer_kept _ _ _))
    | (with_reducible apply fun h => Kept.trans h (State.tkpSettle_kept _))
    | with_reducible apply Kept.ite
    | fail_if_no_progress (with_reducible apply Kept.upd <;> try with_reducible rfl)

theorem State.enterHoldover_kept (s : State) : Kept s (s.enterHoldover) := by
  unfold State.enterHoldover
  repeat' first
    | with_reducible apply Kept.refl
    | assumption
    | (extract_lets +onlyGivenNames y; first | (refine Kept.step (y := y) ?_ (fun _ => ?_); on_goal 2 => clear_value y; on_goal 1 => subst y) | subst y)
    | fail_if_no_progress (with_reducible apply Kept.upd <;> try with_reducible rfl)

theorem State.counterParity_kept (s : State) : Kept s (s.counterParity) := by
  unfold State.counterParity
  repeat' first
    | with_reducible apply Kept.refl
    | assumption
    | (extract_lets +onlyGivenNames y; first | (refine Kept.step (y := y) ?_ (fun _ => ?_); on_goal 2 => clear_value y; on_goal 1 => subst y) | subst y)
    | (with_reducible apply fun h => Kept.trans h (State.acquireTime_kept _))
    | with_reducible apply Kept.ite
    | fail_if_no_progress (with_reducible apply Kept.upd <;> try with_reducible rfl)

theorem State.cmpFault_kept (s : State) : Kept s (s.cmpFault) := by
  unfold State.cmpFault
  repeat' first
    | with_reducible apply Kept.refl
    | assumption
    | (extract_lets +onlyGivenNames y; first | (refine Kept.step (y := y) ?_ (fun _ => ?_); on_goal 2 => clear_value y; on_goal 1 => subst y) | subst y)
    | (with_reducible apply fun h => Kept.trans h (State.raise_kept _ _ _ _))
    | fail_if_no_progress (with_reducible apply Kept.upd <;> try with_reducible rfl)

theorem State.cmpClear_kept (s : State) : Kept s (s.cmpClear) := by
  unfold State.cmpClear
  repeat' first
    | with_reducible apply Kept.refl
    | assumption
    | (extract_lets +onlyGivenNames y; first | (refine Kept.step (y := y) ?_ (fun _ => ?_); on_goal 2 => clear_value y; on_goal 1 => subst y) | subst y)
    | (with_reducible apply fun h => Kept.trans h (State.cmpFault_kept _))
    | with_reducible apply Kept.ite
    | fail_if_no_progress (with_reducible apply Kept.upd <;> try with_reducible rfl)

theorem State.cmpFrame_kept (s : State) : Kept s (s.cmpFrame) := by
  unfold State.cmpFrame
  repeat' first
    | with_reducible apply Kept.refl
    | assumption
    | (extract_lets +onlyGivenNames y; first | (refine Kept.step (y := y) ?_ (fun _ => ?_); on_goal 2 => clear_value y; on_goal 1 => subst y) | subst y)
    | (with_reducible apply fun h => Kept.trans h (State.cmpFault_kept _))
    | with_reducible apply Kept.ite
    | fail_if_no_progress (with_reducible apply Kept.upd <;> try with_reducible rfl)

theorem State.updateStraggler_kept (s : State) : Kept s (s.updateStraggler) := by
  unfold State.updateStraggler
  repeat' first
    | with_reducible apply Kept.refl
    | assumption
    | (extract_lets +onlyGivenNames y; first | (refine Kept.step (y := y) ?_ (fun _ => ?_); on_goal 2 => clear_value y; on_goal 1 => subst y) | subst y)
    | (with_reducible apply fun h => Kept.trans h (State.raise_kept _ _ _ _))
    | with_reducible apply Kept.ite
    | fail_if_no_progress (with_reducible apply Kept.upd <;> try with_reducible rfl)

theorem State.recordLateness_kept (s : State) (l : Int) : Kept s (s.recordLateness l) := by
  unfold State.recordLateness
  repeat' first
    | with_reducible apply Kept.refl
    | assumption
    | (extract_lets +onlyGivenNames y; first | (refine Kept.step (y := y) ?_ (fun _ => ?_); on_goal 2 => clear_value y; on_goal 1 => subst y) | subst y)
    | (with_reducible apply fun h => Kept.trans h (State.updateStraggler_kept _))
    | fail_if_no_progress (with_reducible apply Kept.upd <;> try with_reducible rfl)

theorem State.htRead_kept (s : State) : Kept s (s.htRead) := by
  unfold State.htRead
  repeat' first
    | with_reducible apply Kept.refl
    | (with_reducible apply State.mbxRun_step <;> try intro _)
    | (with_reducible apply fun h => Kept.trans h (State.mbxOk_kept _ _))

theorem State.lateRead_kept (s : State) : Kept s (s.lateRead) := by
  unfold State.lateRead
  repeat' first
    | with_reducible apply Kept.refl
    | assumption
    | (extract_lets +onlyGivenNames y; first | (refine Kept.step (y := y) ?_ (fun _ => ?_); on_goal 2 => clear_value y; on_goal 1 => subst y) | subst y)
    | (with_reducible apply State.mbxRun_step <;> try intro _)
    | (with_reducible apply fun h => Kept.trans h (State.mbxFail_kept _ _))
    | (with_reducible apply fun h => Kept.trans h (State.updateStraggler_kept _))
    | (with_reducible apply fun h => Kept.trans h (State.mbxOk_kept _ _))
    | with_reducible apply Kept.ite
    | fail_if_no_progress (with_reducible apply Kept.upd <;> try with_reducible rfl)

theorem State.sendNext_kept (s : State) (l : LinkId) (kind : Nat) (payload : List Byte) : Kept s (s.sendNext l kind payload) := by
  unfold State.sendNext
  repeat' first
    | with_reducible apply Kept.refl
    | assumption
    | (extract_lets +onlyGivenNames y; first | (refine Kept.step (y := y) ?_ (fun _ => ?_); on_goal 2 => clear_value y; on_goal 1 => subst y) | subst y)
    | (with_reducible apply fun h => Kept.trans h (State.modLink_kept _ _ _))
    | with_reducible apply Kept.ite
    | split
    | fail_if_no_progress (with_reducible apply Kept.upd <;> try with_reducible rfl)

theorem State.queueOwn_kept (s : State) (l : LinkId) (kind : Nat) (payload : List Byte) : Kept s (s.queueOwn l kind payload) := by
  unfold State.queueOwn
  repeat' first
    | with_reducible apply Kept.refl
    | assumption
    | (extract_lets +onlyGivenNames y; first | (refine Kept.step (y := y) ?_ (fun _ => ?_); on_goal 2 => clear_value y; on_goal 1 => subst y) | subst y)
    | (with_reducible apply fun h => Kept.trans h (State.modLink_kept _ _ _))
    | with_reducible apply Kept.ite
    | split
    | fail_if_no_progress (with_reducible apply Kept.upd <;> try with_reducible rfl)

theorem State.sendControl_kept (s : State) (l : LinkId) (c : ControlKind) (n : Nat) : Kept s (s.sendControl l c n) := by
  unfold State.sendControl
  repeat' first
    | with_reducible apply Kept.refl
    | assumption
    | (extract_lets +onlyGivenNames y; first | (refine Kept.step (y := y) ?_ (fun _ => ?_); on_goal 2 => clear_value y; on_goal 1 => subst y) | subst y)
    | (with_reducible apply fun h => Kept.trans h (State.queueOwn_kept _ _ _ _))
    | with_reducible apply Kept.ite
    | split
    | fail_if_no_progress (with_reducible apply Kept.upd <;> try with_reducible rfl)

theorem State.queueBeSince_kept (s : State) (since : Nat) (f : Flit) : Kept s (s.queueBeSince since f) := by
  unfold State.queueBeSince
  repeat' first
    | with_reducible apply Kept.refl
    | assumption
    | (extract_lets +onlyGivenNames y; first | (refine Kept.step (y := y) ?_ (fun _ => ?_); on_goal 2 => clear_value y; on_goal 1 => subst y) | subst y)
    | (with_reducible apply fun h => Kept.trans h (State.modLink_kept _ _ _))
    | with_reducible apply Kept.ite
    | split
    | fail_if_no_progress (with_reducible apply Kept.upd <;> try with_reducible rfl)

theorem State.queueBe_kept (s : State) (f : Flit) : Kept s (s.queueBe f) := by
  unfold State.queueBe
  repeat' first
    | with_reducible apply Kept.refl
    | assumption
    | (extract_lets +onlyGivenNames y; first | (refine Kept.step (y := y) ?_ (fun _ => ?_); on_goal 2 => clear_value y; on_goal 1 => subst y) | subst y)
    | (with_reducible apply fun h => Kept.trans h (State.queueBeSince_kept _ _ _))
    | with_reducible apply Kept.ite
    | split
    | fail_if_no_progress (with_reducible apply Kept.upd <;> try with_reducible rfl)

theorem State.queueStale_kept (s : State) (f : Flit) : Kept s (s.queueStale f) := by
  unfold State.queueStale
  repeat' first
    | with_reducible apply Kept.refl
    | assumption
    | (extract_lets +onlyGivenNames y; first | (refine Kept.step (y := y) ?_ (fun _ => ?_); on_goal 2 => clear_value y; on_goal 1 => subst y) | subst y)
    | (with_reducible apply fun h => Kept.trans h (State.modLink_kept _ _ _))
    | with_reducible apply Kept.ite
    | split
    | fail_if_no_progress (with_reducible apply Kept.upd <;> try with_reducible rfl)

theorem State.rerouteWaiting_kept (s : State) : Kept s (s.rerouteWaiting) := by
  unfold State.rerouteWaiting
  repeat' first
    | with_reducible apply Kept.refl
    | assumption
    | (extract_lets +onlyGivenNames y; first | (refine Kept.step (y := y) ?_ (fun _ => ?_); on_goal 2 => clear_value y; on_goal 1 => subst y) | subst y)
    | (with_reducible apply fun h => Kept.trans h (State.queueStale_kept _ _))
    | (with_reducible apply fun h => Kept.trans h (State.queueBeSince_kept _ _ _))
    | (with_reducible apply Kept.foldl; on_goal 2 => intro _ _)
    | with_reducible apply Kept.ite
    | split
    | fail_if_no_progress (with_reducible apply Kept.upd <;> try with_reducible rfl)

theorem State.rerouteLink_kept (s : State) (l : LinkId) : Kept s (s.rerouteLink l) := by
  unfold State.rerouteLink
  repeat' first
    | with_reducible apply Kept.refl
    | assumption
    | (extract_lets +onlyGivenNames y; first | (refine Kept.step (y := y) ?_ (fun _ => ?_); on_goal 2 => clear_value y; on_goal 1 => subst y) | subst y)
    | (with_reducible apply fun h => Kept.trans h (State.modLink_kept _ _ _))
    | (with_reducible apply fun h => Kept.trans h (State.rerouteWaiting_kept _))
    | fail_if_no_progress (with_reducible apply Kept.upd <;> try with_reducible rfl)

theorem State.sendDiscovery_kept (s : State) (l : LinkId) : Kept s (s.sendDiscovery l) := by
  unfold State.sendDiscovery
  repeat' first
    | with_reducible apply Kept.refl
    | assumption
    | (extract_lets +onlyGivenNames y; first | (refine Kept.step (y := y) ?_ (fun _ => ?_); on_goal 2 => clear_value y; on_goal 1 => subst y) | subst y)
    | (with_reducible apply fun h => Kept.trans h (State.queueOwn_kept _ _ _ _))
    | (with_reducible apply fun h => Kept.trans h (State.modLink_kept _ _ _))
    | with_reducible apply Kept.ite
    | split
    | fail_if_no_progress (with_reducible apply Kept.upd <;> try with_reducible rfl)

theorem State.announce_kept (s : State) : Kept s (s.announce) := by
  unfold State.announce
  repeat' first
    | with_reducible apply Kept.refl
    | assumption
    | (extract_lets +onlyGivenNames y; first | (refine Kept.step (y := y) ?_ (fun _ => ?_); on_goal 2 => clear_value y; on_goal 1 => subst y) | subst y)
    | (with_reducible apply fun h => Kept.trans h (State.sendDiscovery_kept _ _))
    | (with_reducible apply Kept.foldl; on_goal 2 => intro _ _)
    | with_reducible apply Kept.ite
    | split
    | fail_if_no_progress (with_reducible apply Kept.upd <;> try with_reducible rfl)

theorem State.setLink_kept (s : State) (l : LinkId) (new : BitVec 4) : Kept s (s.setLink l new) := by
  unfold State.setLink
  repeat' first
    | with_reducible apply Kept.refl
    | assumption
    | (extract_lets +onlyGivenNames y; first | (refine Kept.step (y := y) ?_ (fun _ => ?_); on_goal 2 => clear_value y; on_goal 1 => subst y) | subst y)
    | (with_reducible apply fun h => Kept.trans h (State.modLink_kept _ _ _))
    | (with_reducible apply fun h => Kept.trans h (State.raise_kept _ _ _ _))
    | (with_reducible apply fun h => Kept.trans h (State.rerouteLink_kept _ _))
    | (with_reducible apply fun h => Kept.trans h (State.rerouteWaiting_kept _))
    | (with_reducible apply fun h => Kept.trans h (State.sendDiscovery_kept _ _))
    | (with_reducible apply fun h => Kept.trans h (State.tkpSettle_kept _))
    | with_reducible apply Kept.ite
    | split
    | fail_if_no_progress (with_reducible apply Kept.upd <;> try with_reducible rfl)

theorem State.evaluate_kept (s : State) (l : LinkId) : Kept s (s.evaluate l) := by
  unfold State.evaluate
  repeat' first
    | with_reducible apply Kept.refl
    | assumption
    | (extract_lets +onlyGivenNames y; first | (refine Kept.step (y := y) ?_ (fun _ => ?_); on_goal 2 => clear_value y; on_goal 1 => subst y) | subst y)
    | (with_reducible apply fun h => Kept.trans h (State.modLink_kept _ _ _))
    | (with_reducible apply fun h => Kept.trans h (State.setLink_kept _ _ _))
    | (with_reducible apply fun h => Kept.trans h (State.raise_kept _ _ _ _))
    | with_reducible apply Kept.ite
    | split

theorem State.evaluateAll_kept (s : State) : Kept s (s.evaluateAll) := by
  unfold State.evaluateAll
  repeat' first
    | with_reducible apply Kept.refl
    | (with_reducible apply fun h => Kept.trans h (State.evaluate_kept _ _))
    | (with_reducible apply Kept.foldl; on_goal 2 => intro _ _)

theorem State.discoverReceive_kept (s : State) (l : LinkId) (payload : List Byte) : Kept s (s.discoverReceive l payload) := by
  unfold State.discoverReceive
  repeat' first
    | with_reducible apply Kept.refl
    | assumption
    | (extract_lets +onlyGivenNames y; first | (refine Kept.step (y := y) ?_ (fun _ => ?_); on_goal 2 => clear_value y; on_goal 1 => subst y) | subst y)
    | (with_reducible apply fun h => Kept.trans h (State.modLink_kept _ _ _))
    | (with_reducible apply fun h => Kept.trans h (State.evaluate_kept _ _))
    | with_reducible apply Kept.ite
    | split
    | fail_if_no_progress (with_reducible apply Kept.upd <;> try with_reducible rfl)

theorem State.train_kept (s : State) (l : LinkId) (counted : Bool) : Kept s (s.train l counted) := by
  unfold State.train
  repeat' first
    | with_reducible apply Kept.refl
    | assumption
    | (extract_lets +onlyGivenNames y; first | (refine Kept.step (y := y) ?_ (fun _ => ?_); on_goal 2 => clear_value y; on_goal 1 => subst y) | subst y)
    | (with_reducible apply fun h => Kept.trans h (State.modLink_kept _ _ _))
    | (with_reducible apply fun h => Kept.trans h (State.setLink_kept _ _ _))
    | with_reducible apply Kept.ite
    | fail_if_no_progress (with_reducible apply Kept.upd <;> try with_reducible rfl)

theorem State.failLink_kept (s : State) (l : LinkId) (light : Bool) : Kept s (s.failLink l light) := by
  unfold State.failLink
  repeat' first
    | with_reducible apply Kept.refl
    | (with_reducible apply fun h => Kept.trans h (State.modLink_kept _ _ _))
    | (with_reducible apply fun h => Kept.trans h (State.setLink_kept _ _ _))

theorem State.lightDetected_kept (s : State) (l : LinkId) : Kept s (s.lightDetected l) := by
  unfold State.lightDetected
  repeat' first
    | with_reducible apply Kept.refl
    | assumption
    | (extract_lets +onlyGivenNames y; first | (refine Kept.step (y := y) ?_ (fun _ => ?_); on_goal 2 => clear_value y; on_goal 1 => subst y) | subst y)
    | (with_reducible apply fun h => Kept.trans h (State.modLink_kept _ _ _))
    | (with_reducible apply fun h => Kept.trans h (State.train_kept _ _ _))
    | with_reducible apply Kept.ite

theorem State.trainingComplete_kept (s : State) (l : LinkId) (lanes : BitVec 16) (light : Bool) : Kept s (s.trainingComplete l lanes light) := by
  unfold State.trainingComplete
  repeat' first
    | with_reducible apply Kept.refl
    | assumption
    | (extract_lets +onlyGivenNames y; first | (refine Kept.step (y := y) ?_ (fun _ => ?_); on_goal 2 => clear_value y; on_goal 1 => subst y) | subst y)
    | (with_reducible apply fun h => Kept.trans h (State.failLink_kept _ _ _))
    | (with_reducible apply fun h => Kept.trans h (State.modLink_kept _ _ _))
    | (with_reducible apply fun h => Kept.trans h (State.setLink_kept _ _ _))
    | (with_reducible apply fun h => Kept.trans h (State.passToHt_kept _ _))
    | (with_reducible apply fun h => Kept.trans h (State.sendDiscovery_kept _ _))
    | (with_reducible apply fun h => Kept.trans h (State.evaluate_kept _ _))
    | with_reducible apply Kept.ite

theorem State.autoRetrain_kept (s : State) (l : LinkId) : Kept s (s.autoRetrain l) := by
  unfold State.autoRetrain
  repeat' first
    | with_reducible apply Kept.refl
    | assumption
    | (extract_lets +onlyGivenNames y; first | (refine Kept.step (y := y) ?_ (fun _ => ?_); on_goal 2 => clear_value y; on_goal 1 => subst y) | subst y)
    | (with_reducible apply fun h => Kept.trans h (State.modLink_kept _ _ _))
    | (with_reducible apply fun h => Kept.trans h (State.train_kept _ _ _))
    | with_reducible apply Kept.ite

theorem State.retrainWrite_kept (s : State) (l : LinkId) : Kept s (s.retrainWrite l) := by
  unfold State.retrainWrite
  repeat' first
    | with_reducible apply Kept.refl
    | (with_reducible apply fun h => Kept.trans h (State.modLink_kept _ _ _))
    | (with_reducible apply fun h => Kept.trans h (State.train_kept _ _ _))
    | with_reducible apply Kept.ite

theorem State.topoLatch_kept (s : State) : Kept s (s.topoLatch) := by
  unfold State.topoLatch
  repeat' first
    | with_reducible apply Kept.refl
    | assumption
    | (extract_lets +onlyGivenNames y; first | (refine Kept.step (y := y) ?_ (fun _ => ?_); on_goal 2 => clear_value y; on_goal 1 => subst y) | subst y)
    | (with_reducible apply fun h => Kept.trans h (State.announce_kept _))
    | (with_reducible apply fun h => Kept.trans h (State.evaluateAll_kept _))
    | with_reducible apply Kept.ite
    | fail_if_no_progress (with_reducible apply Kept.upd <;> try with_reducible rfl)

theorem State.codeword_kept (s : State) (l : LinkId) (lseq : BitVec 12) (lanes : List (Fin 16)) (sched : Bool) : Kept s (s.codeword l lseq lanes sched) := by
  unfold State.codeword
  repeat' first
    | with_reducible apply Kept.refl
    | assumption
    | (extract_lets +onlyGivenNames y; first | (refine Kept.step (y := y) ?_ (fun _ => ?_); on_goal 2 => clear_value y; on_goal 1 => subst y) | subst y)
    | (with_reducible apply fun h => Kept.trans h (State.modLink_kept _ _ _))
    | (with_reducible apply fun h => Kept.trans h (State.sendControl_kept _ _ _ _))
    | (with_reducible apply fun h => Kept.trans h (State.replay_kept _ _ _))
    | with_reducible apply Kept.ite
    | split
    | fail_if_no_progress (with_reducible apply Kept.upd <;> try with_reducible rfl)

theorem State.replay_kept (s : State) (l : LinkId) (codeword : Nat) : Kept s (s.replay l codeword) := by
  unfold State.replay
  repeat' first
    | with_reducible apply Kept.refl
    | assumption
    | (extract_lets +onlyGivenNames y; first | (refine Kept.step (y := y) ?_ (fun _ => ?_); on_goal 2 => clear_value y; on_goal 1 => subst y) | subst y)
    | (with_reducible apply fun h => Kept.trans h (State.modLink_kept _ _ _))
    | (with_reducible apply fun h => Kept.trans h (State.train_kept _ _ _))
    | with_reducible apply Kept.ite
    | split
    | fail_if_no_progress (with_reducible apply Kept.upd <;> try with_reducible rfl)

theorem State.loseLanes_kept (s : State) (l : LinkId) (lanes : BitVec 16) (light : Bool) : Kept s (s.loseLanes l lanes light) := by
  unfold State.loseLanes
  repeat' first
    | with_reducible apply Kept.refl
    | assumption
    | (extract_lets +onlyGivenNames y; first | (refine Kept.step (y := y) ?_ (fun _ => ?_); on_goal 2 => clear_value y; on_goal 1 => subst y) | subst y)
    | (with_reducible apply fun h => Kept.trans h (State.failLink_kept _ _ _))
    | (with_reducible apply fun h => Kept.trans h (State.modLink_kept _ _ _))
    | (with_reducible apply fun h => Kept.trans h (State.sendControl_kept _ _ _ _))
    | (with_reducible apply fun h => Kept.trans h (State.laneMap_kept _ _ _))
    | with_reducible apply Kept.ite
    | split
    | fail_if_no_progress (with_reducible apply Kept.upd <;> try with_reducible rfl)

theorem State.lossOfLock_kept (s : State) (l : LinkId) (lanes : BitVec 16) (light : Bool) : Kept s (s.lossOfLock l lanes light) := by
  unfold State.lossOfLock
  repeat' first
    | with_reducible apply Kept.refl
    | assumption
    | (extract_lets +onlyGivenNames y; first | (refine Kept.step (y := y) ?_ (fun _ => ?_); on_goal 2 => clear_value y; on_goal 1 => subst y) | subst y)
    | (with_reducible apply fun h => Kept.trans h (State.loseLanes_kept _ _ _ _))
    | (with_reducible apply fun h => Kept.trans h (State.failLink_kept _ _ _))
    | with_reducible apply Kept.ite

theorem State.laneInterval_kept (s : State) (l : LinkId) : Kept s (s.laneInterval l) := by
  unfold State.laneInterval
  repeat' first
    | with_reducible apply Kept.refl
    | assumption
    | (extract_lets +onlyGivenNames y; first | (refine Kept.step (y := y) ?_ (fun _ => ?_); on_goal 2 => clear_value y; on_goal 1 => subst y) | subst y)
    | (with_reducible apply fun h => Kept.trans h (State.modLink_kept _ _ _))
    | (with_reducible apply fun h => Kept.trans h (State.loseLanes_kept _ _ _ _))
    | with_reducible apply Kept.ite

theorem State.laneMap_kept (s : State) (l : LinkId) (lane : BitVec 4) : Kept s (s.laneMap l lane) := by
  unfold State.laneMap
  repeat' first
    | with_reducible apply Kept.refl
    | assumption
    | (extract_lets +onlyGivenNames y; first | (refine Kept.step (y := y) ?_ (fun _ => ?_); on_goal 2 => clear_value y; on_goal 1 => subst y) | subst y)
    | (with_reducible apply fun h => Kept.trans h (State.failLink_kept _ _ _))
    | (with_reducible apply fun h => Kept.trans h (State.modLink_kept _ _ _))
    | (with_reducible apply fun h => Kept.trans h (State.sendControl_kept _ _ _ _))
    | with_reducible apply Kept.ite
    | split
    | fail_if_no_progress (with_reducible apply Kept.upd <;> try with_reducible rfl)

theorem State.restripe_kept (s : State) (l : LinkId) : Kept s (s.restripe l) := by
  unfold State.restripe
  repeat' first
    | with_reducible apply Kept.refl
    | assumption
    | (extract_lets +onlyGivenNames y; first | (refine Kept.step (y := y) ?_ (fun _ => ?_); on_goal 2 => clear_value y; on_goal 1 => subst y) | subst y)
    | (with_reducible apply fun h => Kept.trans h (State.passToHt_kept _ _))
    | (with_reducible apply fun h => Kept.trans h (State.modLink_kept _ _ _))
    | (with_reducible apply fun h => Kept.trans h (State.setLink_kept _ _ _))
    | with_reducible apply Kept.ite
    | split
    | fail_if_no_progress (with_reducible apply Kept.upd <;> try with_reducible rfl)

theorem State.lightLost_kept (s : State) (l : LinkId) : Kept s (s.lightLost l) := by
  unfold State.lightLost
  repeat' first
    | with_reducible apply Kept.refl
    | assumption
    | (extract_lets +onlyGivenNames y; first | (refine Kept.step (y := y) ?_ (fun _ => ?_); on_goal 2 => clear_value y; on_goal 1 => subst y) | subst y)
    | (with_reducible apply fun h => Kept.trans h (State.modLink_kept _ _ _))
    | (with_reducible apply fun h => Kept.trans h (State.failLink_kept _ _ _))
    | with_reducible apply Kept.ite

theorem State.refuseSleep_kept (s : State) (l : LinkId) : Kept s (s.refuseSleep l) := by
  unfold State.refuseSleep
  repeat' first
    | with_reducible apply Kept.refl
    | (with_reducible apply fun h => Kept.trans h (State.modLink_kept _ _ _))

theorem State.sleepWrite_kept (s : State) (l : LinkId) : Kept s (s.sleepWrite l) := by
  unfold State.sleepWrite
  repeat' first
    | with_reducible apply Kept.refl
    | assumption
    | (extract_lets +onlyGivenNames y; first | (refine Kept.step (y := y) ?_ (fun _ => ?_); on_goal 2 => clear_value y; on_goal 1 => subst y) | subst y)
    | (with_reducible apply fun h => Kept.trans h (State.modLink_kept _ _ _))
    | (with_reducible apply fun h => Kept.trans h (State.sendControl_kept _ _ _ _))
    | (with_reducible apply fun h => Kept.trans h (State.sleepAsk_kept _ _))
    | (with_reducible apply fun h => Kept.trans h (State.refuseSleep_kept _ _))
    | with_reducible apply Kept.ite
    | split
    | fail_if_no_progress (with_reducible apply Kept.upd <;> try with_reducible rfl)

theorem State.sleepAsk_kept (s : State) (l : LinkId) : Kept s (s.sleepAsk l) := by
  unfold State.sleepAsk
  repeat' first
    | with_reducible apply Kept.refl
    | assumption
    | (extract_lets +onlyGivenNames y; first | (refine Kept.step (y := y) ?_ (fun _ => ?_); on_goal 2 => clear_value y; on_goal 1 => subst y) | subst y)
    | (with_reducible apply fun h => Kept.trans h (State.sendNext_kept _ _ _ _))
    | (with_reducible apply fun h => Kept.trans h (State.sleepReply_kept _ _ _))
    | (with_reducible apply fun h => Kept.trans h (State.setLink_kept _ _ _))
    | (with_reducible apply fun h => Kept.trans h (State.sendControl_kept _ _ _ _))
    | with_reducible apply Kept.ite
    | split
    | fail_if_no_progress (with_reducible apply Kept.upd <;> try with_reducible rfl)

theorem State.sleepReply_kept (s : State) (l : LinkId) (accept : Bool) : Kept s (s.sleepReply l accept) := by
  unfold State.sleepReply
  repeat' first
    | with_reducible apply Kept.refl
    | (with_reducible apply fun h => Kept.trans h (State.modLink_kept _ _ _))
    | (with_reducible apply fun h => Kept.trans h (State.setLink_kept _ _ _))
    | (with_reducible apply fun h => Kept.trans h (State.refuseSleep_kept _ _))
    | with_reducible apply Kept.ite

theorem State.wake_kept (s : State) (l : LinkId) : Kept s (s.wake l) := by
  unfold State.wake
  repeat' first
    | with_reducible apply Kept.refl
    | assumption
    | (extract_lets +onlyGivenNames y; first | (refine Kept.step (y := y) ?_ (fun _ => ?_); on_goal 2 => clear_value y; on_goal 1 => subst y) | subst y)
    | (with_reducible apply fun h => Kept.trans h (State.modLink_kept _ _ _))
    | (with_reducible apply fun h => Kept.trans h (State.setLink_kept _ _ _))
    | with_reducible apply Kept.ite

theorem State.wakeWrite_kept (s : State) (l : LinkId) : Kept s (s.wakeWrite l) := by
  unfold State.wakeWrite
  repeat' first
    | with_reducible apply Kept.refl
    | (with_reducible apply fun h => Kept.trans h (State.wake_kept _ _))
    | with_reducible apply Kept.ite

theorem State.loopStart_kept (s : State) (l : LinkId) : Kept s (s.loopStart l) := by
  unfold State.loopStart
  repeat' first
    | with_reducible apply Kept.refl
    | assumption
    | (extract_lets +onlyGivenNames y; first | (refine Kept.step (y := y) ?_ (fun _ => ?_); on_goal 2 => clear_value y; on_goal 1 => subst y) | subst y)
    | (with_reducible apply fun h => Kept.trans h (State.modLink_kept _ _ _))
    | (with_reducible apply fun h => Kept.trans h (State.sendControl_kept _ _ _ _))
    | (with_reducible apply fun h => Kept.trans h (State.farLoop_kept _ _))
    | with_reducible apply Kept.ite
    | split
    | fail_if_no_progress (with_reducible apply Kept.upd <;> try with_reducible rfl)

theorem State.farLoop_kept (s : State) (l : LinkId) : Kept s (s.farLoop l) := by
  unfold State.farLoop
  repeat' first
    | with_reducible apply Kept.refl
    | (with_reducible apply fun h => Kept.trans h (State.modLink_kept _ _ _))
    | (with_reducible apply fun h => Kept.trans h (State.setLink_kept _ _ _))
    | with_reducible apply Kept.ite

theorem State.loopBegin_kept (s : State) : Kept s (s.loopBegin) := by
  unfold State.loopBegin
  repeat' first
    | with_reducible apply Kept.refl
    | (with_reducible apply fun h => Kept.trans h (State.modLink_kept _ _ _))
    | (with_reducible apply fun h => Kept.trans h (State.setLink_kept _ _ _))
    | (with_reducible apply Kept.foldl; on_goal 2 => intro _ _)
    | with_reducible apply Kept.ite

theorem State.loopEnd_kept (s : State) (l : LinkId) (errors : List Nat) : Kept s (s.loopEnd l errors) := by
  unfold State.loopEnd
  repeat' first
    | with_reducible apply Kept.refl
    | assumption
    | (extract_lets +onlyGivenNames y; first | (refine Kept.step (y := y) ?_ (fun _ => ?_); on_goal 2 => clear_value y; on_goal 1 => subst y) | subst y)
    | (with_reducible apply fun h => Kept.trans h (State.modLink_kept _ _ _))
    | (with_reducible apply fun h => Kept.trans h (State.train_kept _ _ _))
    | (with_reducible apply fun h => Kept.trans h (State.failLink_kept _ _ _))
    | with_reducible apply Kept.ite
    | split
    | fail_if_no_progress (with_reducible apply Kept.upd <;> try with_reducible rfl)

theorem State.partnerRead_kept (s : State) : Kept s (s.partnerRead) := by
  unfold State.partnerRead
  repeat' first
    | with_reducible apply Kept.refl
    | assumption
    | (extract_lets +onlyGivenNames y; first | (refine Kept.step (y := y) ?_ (fun _ => ?_); on_goal 2 => clear_value y; on_goal 1 => subst y) | subst y)
    | (with_reducible apply State.mbxRun_step <;> try intro _)
    | (with_reducible apply fun h => Kept.trans h (State.mbxFail_kept _ _))
    | (with_reducible apply fun h => Kept.trans h (State.mbxOk_kept _ _))
    | with_reducible apply Kept.ite

theorem State.modGroup_kept (s : State) (g : GroupId) (f : Group → Group) : Kept s (s.modGroup g f) := by
  unfold State.modGroup
  repeat' first
    | with_reducible apply Kept.refl
    | assumption
    | (extract_lets +onlyGivenNames y; first | (refine Kept.step (y := y) ?_ (fun _ => ?_); on_goal 2 => clear_value y; on_goal 1 => subst y) | subst y)
    | fail_if_no_progress (with_reducible apply Kept.upd <;> try with_reducible rfl)

theorem State.takeScratch_kept (s : State) (fn : FnId) (n : Nat) (p : List Nat × State)
    (h : s.takeScratch fn n = some p) : Kept s p.2 := by
  induction n generalizing s p with
  | zero => cases h; exact Kept.refl _
  | succ n ih =>
    obtain ⟨⟨f, u⟩, hu, h⟩ := Option.bind_eq_some_iff.mp h
    obtain ⟨q, hq, rfl⟩ := Option.map_eq_some_iff.mp h
    exact (State.takeFrame_kept s _ _ _ _ hu).trans (ih u q hq)

theorem State.groupLaunch_kept (s : State) : Kept s (s.groupLaunch) := by
  unfold State.groupLaunch
  repeat' first
    | with_reducible apply Kept.refl
    | assumption
    | (extract_lets +onlyGivenNames y; first | (refine Kept.step (y := y) ?_ (fun _ => ?_); on_goal 2 => clear_value y; on_goal 1 => subst y) | subst y)
    | (with_reducible apply State.mbxRun_step <;> try intro _)
    | (with_reducible apply fun h => Kept.trans h (State.mbxStatus_kept _ _))
    | (with_reducible refine Kept.trans ?_ (State.takeScratch_kept _ _ _ _ (by assumption)))
    | (with_reducible apply fun h => Kept.trans h (State.modGroup_kept _ _ _))
    | (with_reducible apply fun h => Kept.trans h (State.mbxOk_kept _ _))
    | with_reducible apply Kept.ite
    | split
    | fail_if_no_progress (with_reducible apply Kept.upd <;> try with_reducible rfl)

theorem State.choosePlans_kept (s : State) : Kept s (s.choosePlans) := by
  unfold State.choosePlans
  repeat' first
    | with_reducible apply Kept.refl
    | assumption
    | (extract_lets +onlyGivenNames y; first | (refine Kept.step (y := y) ?_ (fun _ => ?_); on_goal 2 => clear_value y; on_goal 1 => subst y) | subst y)
    | with_reducible apply Kept.ite
    | fail_if_no_progress (with_reducible apply Kept.upd <;> try with_reducible rfl)

theorem State.setTag_kept (s : State) (c : CtxId) (tag : Nat) (st : TagState) : Kept s (s.setTag c tag st) := by
  unfold State.setTag
  repeat' first
    | with_reducible apply Kept.refl
    | (with_reducible apply fun h => Kept.trans h (State.modCtx_kept _ _ _))

theorem State.colFinish_kept (s : State) (g : GroupId) : Kept s (s.colFinish g) := by
  unfold State.colFinish
  repeat' first
    | with_reducible apply Kept.refl
    | assumption
    | (extract_lets +onlyGivenNames y; first | (refine Kept.step (y := y) ?_ (fun _ => ?_); on_goal 2 => clear_value y; on_goal 1 => subst y) | subst y)
    | (with_reducible apply fun h => Kept.trans h (State.hostWrite_kept _ _ _))
    | (with_reducible apply fun h => Kept.trans h (State.modGroup_kept _ _ _))
    | (with_reducible apply fun h => Kept.trans h (State.tallyHost_kept _ _ _))
    | (with_reducible apply fun h => Kept.trans h (State.setTag_kept _ _ _ _))
    | (with_reducible apply fun h => Kept.trans h (State.irqEvent_kept _ _))
    | with_reducible apply Kept.ite
    | split

theorem State.finishAll_kept (s : State) (g : GroupId) (st : Byte) : Kept s (s.finishAll g st) := by
  unfold State.finishAll
  repeat' first
    | with_reducible apply Kept.refl
    | assumption
    | (extract_lets +onlyGivenNames y; first | (refine Kept.step (y := y) ?_ (fun _ => ?_); on_goal 2 => clear_value y; on_goal 1 => subst y) | subst y)
    | (with_reducible apply fun h => Kept.trans h (State.modGroup_kept _ _ _))
    | (with_reducible apply fun h => Kept.trans h (State.colFinish_kept _ _))
    | (with_reducible apply Kept.foldl; on_goal 2 => intro _ _)

theorem State.endGroup_kept (s : State) (g : GroupId) : Kept s (s.endGroup g) := by
  unfold State.endGroup
  repeat' first
    | with_reducible apply Kept.refl
    | assumption
    | (extract_lets +onlyGivenNames y; first | (refine Kept.step (y := y) ?_ (fun _ => ?_); on_goal 2 => clear_value y; on_goal 1 => subst y) | subst y)
    | (with_reducible apply fun h => Kept.trans h (State.finishAll_kept _ _ _))
    | (with_reducible apply fun h => Kept.trans h (State.releaseFrame_kept _ _))
    | (with_reducible apply fun h => Kept.trans h (State.modGroup_kept _ _ _))
    | (with_reducible apply Kept.foldl; on_goal 2 => intro _ _)

theorem State.groupEnd_kept (s : State) : Kept s (s.groupEnd) := by
  unfold State.groupEnd
  repeat' first
    | with_reducible apply Kept.refl
    | (with_reducible apply State.mbxRun_step <;> try intro _)
    | (with_reducible apply fun h => Kept.trans h (State.mbxStatus_kept _ _))
    | (with_reducible apply fun h => Kept.trans h (State.endGroup_kept _ _))
    | (with_reducible apply fun h => Kept.trans h (State.settle_kept _))
    | with_reducible apply Kept.ite

theorem State.groupRead_kept (s : State) : Kept s (s.groupRead) := by
  unfold State.groupRead
  repeat' first
    | with_reducible apply Kept.refl
    | assumption
    | (extract_lets +onlyGivenNames y; first | (refine Kept.step (y := y) ?_ (fun _ => ?_); on_goal 2 => clear_value y; on_goal 1 => subst y) | subst y)
    | (with_reducible apply State.mbxRun_step <;> try intro _)
    | (with_reducible apply fun h => Kept.trans h (State.mbxFail_kept _ _))
    | (with_reducible apply fun h => Kept.trans h (State.mbxOk_kept _ _))
    | with_reducible apply Kept.ite

theorem State.launchDoorbell_kept (s : State) (g : GroupId) (v : Word) : Kept s (s.launchDoorbell g v) := by
  unfold State.launchDoorbell
  repeat' first
    | with_reducible apply Kept.refl
    | assumption
    | (extract_lets +onlyGivenNames y; first | (refine Kept.step (y := y) ?_ (fun _ => ?_); on_goal 2 => clear_value y; on_goal 1 => subst y) | subst y)
    | (with_reducible apply fun h => Kept.trans h (State.regViol_kept _))
    | (with_reducible apply fun h => Kept.trans h (State.modGroup_kept _ _ _))
    | (with_reducible apply fun h => Kept.trans h (State.dbBad_kept _ _))
    | with_reducible apply Kept.ite
    | fail_if_no_progress (with_reducible apply Kept.upd <;> try with_reducible rfl)

theorem State.colHead_kept (s : State) (g : GroupId) (v : Word) : Kept s (s.colHead g v) := by
  unfold State.colHead
  repeat' first
    | with_reducible apply Kept.refl
    | assumption
    | (extract_lets +onlyGivenNames y; first | (refine Kept.step (y := y) ?_ (fun _ => ?_); on_goal 2 => clear_value y; on_goal 1 => subst y) | subst y)
    | (with_reducible apply fun h => Kept.trans h (State.regViol_kept _))
    | (with_reducible apply fun h => Kept.trans h (State.modGroup_kept _ _ _))
    | (with_reducible apply fun h => Kept.trans h (State.dbBad_kept _ _))
    | with_reducible apply Kept.ite
    | fail_if_no_progress (with_reducible apply Kept.upd <;> try with_reducible rfl)

theorem State.abortSlice_kept (s : State) : Kept s (s.abortSlice) := by
  unfold State.abortSlice
  repeat' first
    | with_reducible apply Kept.refl
    | assumption
    | (extract_lets +onlyGivenNames y; first | (refine Kept.step (y := y) ?_ (fun _ => ?_); on_goal 2 => clear_value y; on_goal 1 => subst y) | subst y)
    | (with_reducible apply fun h => Kept.trans h (State.settle_kept _))
    | with_reducible apply Kept.ite
    | split
    | fail_if_no_progress (with_reducible apply Kept.upd <;> try with_reducible rfl)

theorem State.actBeacon_kept (s : State) (p : List Byte) (here : Bool) : Kept s (s.actBeacon p here) := by
  unfold State.actBeacon
  repeat' first
    | with_reducible apply Kept.refl
    | assumption
    | (extract_lets +onlyGivenNames y; first | (refine Kept.step (y := y) ?_ (fun _ => ?_); on_goal 2 => clear_value y; on_goal 1 => subst y) | subst y)
    | (with_reducible apply fun h => Kept.trans h (State.abortSlice_kept _))
    | (with_reducible apply fun h => Kept.trans h (State.raise_kept _ _ _ _))
    | fail_if_no_progress (with_reducible apply Kept.upd <;> try with_reducible rfl)

theorem State.floodBeacon_kept (s : State) (p : List Byte) (but : Option LinkId) : Kept s (s.floodBeacon p but) := by
  unfold State.floodBeacon
  repeat' first
    | with_reducible apply Kept.refl
    | assumption
    | (extract_lets +onlyGivenNames y; first | (refine Kept.step (y := y) ?_ (fun _ => ?_); on_goal 2 => clear_value y; on_goal 1 => subst y) | subst y)
    | (with_reducible apply fun h => Kept.trans h (State.sendNext_kept _ _ _ _))
    | (with_reducible apply Kept.foldl; on_goal 2 => intro _ _)
    | with_reducible apply Kept.ite
    | split
    | fail_if_no_progress (with_reducible apply Kept.upd <;> try with_reducible rfl)

theorem State.raiseBeacon_kept (s : State) (cause : Nat) : Kept s (s.raiseBeacon cause) := by
  unfold State.raiseBeacon
  repeat' first
    | with_reducible apply Kept.refl
    | assumption
    | (extract_lets +onlyGivenNames y; first | (refine Kept.step (y := y) ?_ (fun _ => ?_); on_goal 2 => clear_value y; on_goal 1 => subst y) | subst y)
    | (with_reducible apply fun h => Kept.trans h (State.floodBeacon_kept _ _ _))
    | (with_reducible apply fun h => Kept.trans h (State.actBeacon_kept _ _ _))
    | with_reducible apply Kept.ite
    | split
    | fail_if_no_progress (with_reducible apply Kept.upd <;> try with_reducible rfl)

theorem State.beaconReceive_kept (s : State) (l : LinkId) (p : List Byte) : Kept s (s.beaconReceive l p) := by
  unfold State.beaconReceive
  repeat' first
    | with_reducible apply Kept.refl
    | assumption
    | (extract_lets +onlyGivenNames y; first | (refine Kept.step (y := y) ?_ (fun _ => ?_); on_goal 2 => clear_value y; on_goal 1 => subst y) | subst y)
    | (with_reducible apply fun h => Kept.trans h (State.floodBeacon_kept _ _ _))
    | (with_reducible apply fun h => Kept.trans h (State.actBeacon_kept _ _ _))
    | with_reducible apply Kept.ite
    | split
    | fail_if_no_progress (with_reducible apply Kept.upd <;> try with_reducible rfl)

theorem State.pushFlits_kept (s : State) (g : GroupId) (key : Nat) (bytes : List Byte) (d : Nat) : Kept s (s.pushFlits g key bytes d) := by
  unfold State.pushFlits
  repeat' first
    | with_reducible apply Kept.refl
    | assumption
    | (extract_lets +onlyGivenNames y; first | (refine Kept.step (y := y) ?_ (fun _ => ?_); on_goal 2 => clear_value y; on_goal 1 => subst y) | subst y)
    | (with_reducible apply fun h => Kept.trans h (State.modGroup_kept _ _ _))
    | with_reducible apply Kept.ite
    | split
    | fail_if_no_progress (with_reducible apply Kept.upd <;> try with_reducible rfl)

theorem State.floodEntry_kept (s : State) (g : GroupId) (num : Nat) (e : List Byte) (but : Option Nat) : Kept s (s.floodEntry g num e but) := by
  unfold State.floodEntry
  repeat' first
    | with_reducible apply Kept.refl
    | assumption
    | (extract_lets +onlyGivenNames y; first | (refine Kept.step (y := y) ?_ (fun _ => ?_); on_goal 2 => clear_value y; on_goal 1 => subst y) | subst y)
    | (with_reducible apply fun h => Kept.trans h (State.pushFlits_kept _ _ _ _ _))
    | (with_reducible apply Kept.foldl; on_goal 2 => intro _ _)
    | with_reducible apply Kept.ite
    | split
    | fail_if_no_progress (with_reducible apply Kept.upd <;> try with_reducible rfl)

theorem State.readiness_kept (s : State) (g : GroupId) (num : Byte) (dir : Nat) (e : List Byte) : Kept s (s.readiness g num dir e) := by
  unfold State.readiness
  repeat' first
    | with_reducible apply Kept.refl
    | assumption
    | (extract_lets +onlyGivenNames y; first | (refine Kept.step (y := y) ?_ (fun _ => ?_); on_goal 2 => clear_value y; on_goal 1 => subst y) | subst y)
    | (with_reducible apply fun h => Kept.trans h (State.modGroup_kept _ _ _))
    | (with_reducible apply fun h => Kept.trans h (State.floodEntry_kept _ _ _ _ _))
    | with_reducible apply Kept.ite
    | split

theorem State.colAccept_kept (s : State) (g : GroupId) (k : Collective) : Kept s (s.colAccept g k) := by
  unfold State.colAccept
  repeat' first
    | with_reducible apply Kept.refl
    | assumption
    | (extract_lets +onlyGivenNames y; first | (refine Kept.step (y := y) ?_ (fun _ => ?_); on_goal 2 => clear_value y; on_goal 1 => subst y) | subst y)
    | (with_reducible apply fun h => Kept.trans h (State.recordLateness_kept _ _))
    | (with_reducible apply fun h => Kept.trans h (State.modGroup_kept _ _ _))
    | (with_reducible apply fun h => Kept.trans h (State.floodEntry_kept _ _ _ _ _))
    | with_reducible apply Kept.ite
    | split

theorem State.colFetch_kept (s : State) (g : GroupId) (desc : List Byte) : Kept s (s.colFetch g desc) := by
  unfold State.colFetch
  repeat' first
    | with_reducible apply Kept.refl
    | assumption
    | (extract_lets +onlyGivenNames y; first | (refine Kept.step (y := y) ?_ (fun _ => ?_); on_goal 2 => clear_value y; on_goal 1 => subst y) | subst y)
    | (with_reducible apply fun h => Kept.trans h (State.setTag_kept _ _ _ _))
    | (with_reducible apply fun h => Kept.trans h (State.tallyHost_kept _ _ _))
    | (with_reducible apply fun h => Kept.trans h (State.modGroup_kept _ _ _))
    | (with_reducible apply fun h => Kept.trans h (State.colAccept_kept _ _ _))
    | (with_reducible refine Kept.trans ?_ (State.startPageIns_kept _ _ _ _ (by assumption)))
    | with_reducible apply Kept.ite
    | split

theorem State.collectiveAccept_kept (s : State) (g : GroupId) (desc : List Byte) : Kept s (s.collectiveAccept g desc) := by
  unfold State.collectiveAccept
  repeat' first
    | with_reducible apply Kept.refl
    | assumption
    | (extract_lets +onlyGivenNames y; first | (refine Kept.step (y := y) ?_ (fun _ => ?_); on_goal 2 => clear_value y; on_goal 1 => subst y) | subst y)
    | (with_reducible apply fun h => Kept.trans h (State.colAccept_kept _ _ _))
    | (with_reducible apply fun h => Kept.trans h (State.colFetch_kept _ _ _))
    | with_reducible apply Kept.ite
    | split

theorem State.pushData_kept (s : State) (g : GroupId) (num : Nat) (sends : List (BitVec 3 × List Byte)) : Kept s (s.pushData g num sends) := by
  unfold State.pushData
  repeat' first
    | with_reducible apply Kept.refl
    | assumption
    | (extract_lets +onlyGivenNames y; first | (refine Kept.step (y := y) ?_ (fun _ => ?_); on_goal 2 => clear_value y; on_goal 1 => subst y) | subst y)
    | (with_reducible apply fun h => Kept.trans h (State.pushFlits_kept _ _ _ _ _))
    | (with_reducible apply Kept.foldl; on_goal 2 => intro _ _)
    | with_reducible apply Kept.ite
    | split
    | fail_if_no_progress (with_reducible apply Kept.upd <;> try with_reducible rfl)

theorem State.dataStart_kept (s : State) (g : GroupId) (sends : List (BitVec 3 × List Byte)) : Kept s (s.dataStart g sends) := by
  unfold State.dataStart
  dsimp only
  split
  · rename_i k x _ _
    split
    · exact ((State.passToHt_kept s _).trans (State.modGroup_kept _ g _)).trans (State.pushData_kept _ _ _ _)
    · generalize h : s.startPageIns _ _ = o
      cases o with
      | none => exact Kept.refl s
      | some t => exact (State.startPageIns_kept s _ _ t h).trans (State.modGroup_kept t g _)
  · exact Kept.refl s

theorem State.colEnd_kept (s : State) (g : GroupId) (num : Word) (st : Byte) : Kept s (s.colEnd g num st) := by
  unfold State.colEnd
  repeat' first
    | with_reducible apply Kept.refl
    | (with_reducible apply fun h => Kept.trans h (State.modGroup_kept _ _ _))

theorem State.colRun_kept (s : State) (g : GroupId) (op : Nat) (trees : List RedTree) (contribs : List (Nat × List Byte)) (errs : SeamErrs) : Kept s (s.colRun g op trees contribs errs) := by
  unfold State.colRun
  repeat' first
    | with_reducible apply Kept.refl
    | assumption
    | (extract_lets +onlyGivenNames y; first | (refine Kept.step (y := y) ?_ (fun _ => ?_); on_goal 2 => clear_value y; on_goal 1 => subst y) | subst y)
    | (with_reducible apply fun h => Kept.trans h (State.seamCe_kept _ _))
    | (with_reducible apply fun h => Kept.trans h (State.seamUe_kept _ _))
    | (with_reducible apply fun h => Kept.trans h (State.colEnd_kept _ _ _ _))
    | (with_reducible apply fun h => Kept.trans h (State.raiseBeacon_kept _ _))
    | (with_reducible apply fun h => Kept.trans h (State.violations_kept _ _ _ _))
    | (with_reducible apply fun h => Kept.trans h (State.modCtx_kept _ _ _))
    | (with_reducible apply fun h => Kept.trans h (State.tallySeam_kept _ _ _))
    | (with_reducible apply Kept.foldl; on_goal 2 => intro _ _)
    | (with_reducible refine Kept.trans ?_ (State.writeCommittedAt_kept _ _ _ _ _ _ (by assumption)))
    | with_reducible apply Kept.ite
    | split
    | fail_if_no_progress (with_reducible apply Kept.upd <;> try with_reducible rfl)

theorem State.colCanary_kept (s : State) (g : GroupId) : Kept s (s.colCanary g) := by
  unfold State.colCanary
  repeat' first
    | with_reducible apply Kept.refl
    | assumption
    | (extract_lets +onlyGivenNames y; first | (refine Kept.step (y := y) ?_ (fun _ => ?_); on_goal 2 => clear_value y; on_goal 1 => subst y) | subst y)
    | (with_reducible apply fun h => Kept.trans h (State.colEnd_kept _ _ _ _))
    | (with_reducible apply fun h => Kept.trans h (State.raise_kept _ _ _ _))
    | (with_reducible apply fun h => Kept.trans h (State.raiseBeacon_kept _ _))
    | with_reducible apply Kept.ite
    | split

theorem State.streamAck_kept (s : State) (g : GroupId) (d : Nat) (seq : Word) (missing : BitVec 64) : Kept s (s.streamAck g d seq missing) := by
  unfold State.streamAck
  repeat' first
    | with_reducible apply Kept.refl
    | assumption
    | (extract_lets +onlyGivenNames y; first | (refine Kept.step (y := y) ?_ (fun _ => ?_); on_goal 2 => clear_value y; on_goal 1 => subst y) | subst y)
    | (with_reducible apply fun h => Kept.trans h (State.modGroup_kept _ _ _))
    | with_reducible apply Kept.ite
    | split
    | fail_if_no_progress (with_reducible apply Kept.upd <;> try with_reducible rfl)

theorem State.staleFlit_kept (s : State) (g : GroupId) : Kept s (s.staleFlit g) := by
  unfold State.staleFlit
  repeat' first
    | with_reducible apply Kept.refl
    | assumption
    | (extract_lets +onlyGivenNames y; first | (refine Kept.step (y := y) ?_ (fun _ => ?_); on_goal 2 => clear_value y; on_goal 1 => subst y) | subst y)
    | (with_reducible apply fun h => Kept.trans h (State.colEnd_kept _ _ _ _))
    | (with_reducible apply fun h => Kept.trans h (State.raiseBeacon_kept _ _))
    | split
    | fail_if_no_progress (with_reducible apply Kept.upd <;> try with_reducible rfl)

theorem State.streamTake_kept (s : State) (g : GroupId) (d : Nat) (seq : Word) (payload : List Byte) : Kept s (s.streamTake g d seq payload) := by
  unfold State.streamTake
  repeat' first
    | with_reducible apply Kept.refl
    | assumption
    | (extract_lets +onlyGivenNames y; first | (refine Kept.step (y := y) ?_ (fun _ => ?_); on_goal 2 => clear_value y; on_goal 1 => subst y) | subst y)
    | (with_reducible apply fun h => Kept.trans h (State.modGroup_kept _ _ _))
    | with_reducible apply Kept.ite
    | split
    | fail_if_no_progress (with_reducible apply Kept.upd <;> try with_reducible rfl)

theorem State.streamFlit_kept (s : State) (g : GroupId) (d : Nat) (srcGen : Nat) (take : State → State) (h : ∀ x, Kept x (take x)) :
    Kept s (s.streamFlit g d srcGen take) := by
  unfold State.streamFlit
  exact Kept.ite (Kept.refl s) (Kept.ite (State.staleFlit_kept s g) (h s))

theorem State.schedReceive_kept (s : State) (l : LinkId) (f : Flit) (bad : Bool) : Kept s (s.schedReceive l f bad) := by
  unfold State.schedReceive
  refine Kept.ite (Kept.refl s) (Kept.ite ?_ ?_)
  · exact Kept.trans (Kept.upd (Kept.refl s) rfl rfl rfl rfl rfl) (State.staleFlit_kept _ _)
  · exact State.streamFlit_kept s _ _ _ _ fun x => State.streamTake_kept x _ _ _ _

theorem State.sendAck_kept (s : State) (t : Topo) (g : GroupId) (d : Nat) : Kept s (s.sendAck t g d) := by
  unfold State.sendAck
  repeat' first
    | with_reducible apply Kept.refl
    | assumption
    | (extract_lets +onlyGivenNames y; first | (refine Kept.step (y := y) ?_ (fun _ => ?_); on_goal 2 => clear_value y; on_goal 1 => subst y) | subst y)
    | (with_reducible apply fun h => Kept.trans h (State.queueOwn_kept _ _ _ _))
    | (with_reducible apply fun h => Kept.trans h (State.modGroup_kept _ _ _))
    | with_reducible apply Kept.ite
    | split
    | fail_if_no_progress (with_reducible apply Kept.upd <;> try with_reducible rfl)

theorem State.sendAcks_kept (s : State) : Kept s (s.sendAcks) := by
  unfold State.sendAcks
  repeat' first
    | with_reducible apply Kept.refl
    | assumption
    | (extract_lets +onlyGivenNames y; first | (refine Kept.step (y := y) ?_ (fun _ => ?_); on_goal 2 => clear_value y; on_goal 1 => subst y) | subst y)
    | (with_reducible apply fun h => Kept.trans h (State.sendAck_kept _ _ _ _))
    | (with_reducible apply Kept.foldl; on_goal 2 => intro _ _)
    | with_reducible apply Kept.ite
    | split
    | fail_if_no_progress (with_reducible apply Kept.upd <;> try with_reducible rfl)

theorem State.partTake_kept (s : State) (g : GroupId) (d : Nat) (p : List Byte) : Kept s (s.partTake g d p) := by
  unfold State.partTake
  repeat' first
    | with_reducible apply Kept.refl
    | assumption
    | (extract_lets +onlyGivenNames y; first | (refine Kept.step (y := y) ?_ (fun _ => ?_); on_goal 2 => clear_value y; on_goal 1 => subst y) | subst y)
    | (with_reducible apply fun h => Kept.trans h (State.modGroup_kept _ _ _))
    | (with_reducible apply fun h => Kept.trans h (State.streamTake_kept _ _ _ _ _))
    | with_reducible apply Kept.ite
    | split
    | fail_if_no_progress (with_reducible apply Kept.upd <;> try with_reducible rfl)

theorem State.beDeliver_kept (s : State) (f : Flit) : Kept s (s.beDeliver f) := by
  unfold State.beDeliver
  extract_lets g d back
  split
  · have h := Kept.trans (t := { s with lnk.stale := satInc s.lnk.stale }) (Kept.upd (Kept.refl s) rfl rfl rfl rfl rfl) (State.queueStale_kept _ back)
    exact Kept.ite (h.trans (State.staleFlit_kept _ _)) h
  · clear_value d
    split
    · exact State.streamFlit_kept s _ _ _ _ fun x => State.partTake_kept x _ _ _
    · exact Kept.upd (Kept.refl s) rfl rfl rfl rfl rfl

theorem State.dropBe_kept (s : State) (n : Nat) : Kept s (s.dropBe n) := by
  unfold State.dropBe
  repeat' first
    | with_reducible apply Kept.refl
    | assumption
    | (extract_lets +onlyGivenNames y; first | (refine Kept.step (y := y) ?_ (fun _ => ?_); on_goal 2 => clear_value y; on_goal 1 => subst y) | subst y)
    | fail_if_no_progress (with_reducible apply Kept.upd <;> try with_reducible rfl)

theorem State.hopReceive_kept (s : State) (l : LinkId) (f : Flit) (here on : State → State) (hh : ∀ x, Kept x (here x))
    (ho : ∀ x, Kept x (on x)) : Kept s (s.hopReceive l f here on) := by
  unfold State.hopReceive
  refine Kept.ite (Kept.refl s) (Kept.ite (State.dropBe_kept s _) ?_)
  split
  · exact Kept.refl s
  · exact Kept.ite (hh s) (Kept.ite (State.dropBe_kept s _) (ho s))

theorem State.beReceive_kept (s : State) (l : LinkId) (f : Flit) : Kept s (s.beReceive l f) :=
  State.hopReceive_kept s l f _ _ (fun x => State.beDeliver_kept x f) fun x => State.queueBe_kept x _

theorem State.staleReceive_kept (s : State) (seq : Word) : Kept s (s.staleReceive seq) := by
  unfold State.staleReceive
  repeat' first
    | with_reducible apply Kept.refl
    | (with_reducible apply fun h => Kept.trans h (State.colEnd_kept _ _ _ _))
    | split

theorem State.staleArrive_kept (s : State) (l : LinkId) (f : Flit) : Kept s (s.staleArrive l f) :=
  State.hopReceive_kept s l f _ _ (fun x => State.staleReceive_kept x _) fun x => State.queueStale_kept x _

theorem State.holdExpiry_kept (s : State) (l : Option LinkId) : Kept s (s.holdExpiry l) := by
  unfold State.holdExpiry
  repeat' first
    | with_reducible apply Kept.refl
    | assumption
    | (extract_lets +onlyGivenNames y; first | (refine Kept.step (y := y) ?_ (fun _ => ?_); on_goal 2 => clear_value y; on_goal 1 => subst y) | subst y)
    | (with_reducible apply fun h => Kept.trans h (State.dropBe_kept _ _))
    | (with_reducible apply fun h => Kept.trans h (State.modLink_kept _ _ _))
    | with_reducible apply Kept.ite
    | split
    | fail_if_no_progress (with_reducible apply Kept.upd <;> try with_reducible rfl)

theorem State.winCfg_kept (s : State) : Kept s (s.winCfg) := by
  unfold State.winCfg
  repeat' first
    | with_reducible apply Kept.refl
    | assumption
    | (extract_lets +onlyGivenNames y; first | (refine Kept.step (y := y) ?_ (fun _ => ?_); on_goal 2 => clear_value y; on_goal 1 => subst y) | subst y)
    | (with_reducible apply State.mbxRun_step <;> try intro _)
    | (with_reducible apply fun h => Kept.trans h (State.mbxStatus_kept _ _))
    | (with_reducible apply fun h => Kept.trans h (State.modCtx_kept _ _ _))
    | with_reducible apply Kept.ite
    | split

theorem State.winSlot_kept (s : State) : Kept s (s.winSlot) := by
  unfold State.winSlot
  repeat' first
    | with_reducible apply Kept.refl
    | assumption
    | (extract_lets +onlyGivenNames y; first | (refine Kept.step (y := y) ?_ (fun _ => ?_); on_goal 2 => clear_value y; on_goal 1 => subst y) | subst y)
    | (with_reducible apply State.mbxRun_step <;> try intro _)
    | (with_reducible apply fun h => Kept.trans h (State.mbxStatus_kept _ _))
    | (with_reducible apply fun h => Kept.trans h (State.modCtx_kept _ _ _))
    | split

theorem State.winReclaim_kept (s : State) : Kept s (s.winReclaim) := by
  unfold State.winReclaim
  repeat' first
    | with_reducible apply Kept.refl
    | assumption
    | (extract_lets +onlyGivenNames y; first | (refine Kept.step (y := y) ?_ (fun _ => ?_); on_goal 2 => clear_value y; on_goal 1 => subst y) | subst y)
    | (with_reducible apply State.mbxRun_step <;> try intro _)
    | (with_reducible apply fun h => Kept.trans h (State.mbxStatus_kept _ _))
    | (with_reducible apply fun h => Kept.trans h (State.handback_kept _ _ _ _ _))
    | with_reducible apply Kept.ite
    | split

theorem State.modWindow_kept (s : State) (c : CtxId) (f : Window → Window) : Kept s (s.modWindow c f) := by
  unfold State.modWindow
  repeat' first
    | with_reducible apply Kept.refl
    | (with_reducible apply fun h => Kept.trans h (State.modCtx_kept _ _ _))

theorem State.wxDb_kept (s : State) (fn : FnId) (slot : Fin 32) (v : Word) : Kept s (s.wxDb fn slot v) := by
  unfold State.wxDb
  repeat' first
    | with_reducible apply Kept.refl
    | (with_reducible apply fun h => Kept.trans h (State.regViol_kept _))
    | (with_reducible apply fun h => Kept.trans h (State.dbBad_kept _ _))
    | (with_reducible apply fun h => Kept.trans h (State.modWindow_kept _ _ _))
    | with_reducible apply Kept.ite
    | split

theorem State.wxChead_kept (s : State) (fn : FnId) (slot : Fin 32) (v : Word) : Kept s (s.wxChead fn slot v) := by
  unfold State.wxChead
  repeat' first
    | with_reducible apply Kept.refl
    | (with_reducible apply fun h => Kept.trans h (State.regViol_kept _))
    | (with_reducible apply fun h => Kept.trans h (State.dbBad_kept _ _))
    | (with_reducible apply fun h => Kept.trans h (State.modCtx_kept _ _ _))
    | with_reducible apply Kept.ite
    | split

theorem State.transferRun_kept (s : State) (c : CtxId) (x : Context) (d flag : List Byte) (errs : SeamErrs) (portFault : Bool) :
    Kept s (s.transferRun c x d flag errs portFault).1 := by
  unfold State.transferRun
  dsimp only
  split
  · exact Kept.refl s
  · split
    · rename_i t u _ hu
      have h0 : Kept s u := State.acquire_kept s c _ flag u hu
      have h1 : Kept s (((errs.ue.filter (x.framesOf (pagesOf (fieldAt d 0x10 6) (fieldAt d 0x20 4))).contains)).foldl (fun s f => s.seamUe f)
          (u.seamCe errs.ce)) :=
        h0.trans (Kept.foldl _ _ (State.seamCe_kept u _) fun y e => State.seamUe_kept y e)
      split
      · exact h0
      · split
        · exact h1.trans ((State.hostUndefined_kept _ _ _).trans (State.bumpFree_kept _))
        · dsimp only
          repeat' first
            | with_reducible apply Kept.refl
            | with_reducible rfl
            | assumption
            | (extract_lets +onlyGivenNames y; first | (refine Kept.step (y := y) ?_ (fun _ => ?_); on_goal 2 => clear_value y; on_goal 1 => subst y) | subst y)
            | with_reducible apply fun h => Kept.trans h (State.handback_kept _ _ _ _ _)
            | with_reducible apply fun h => Kept.trans h (State.violations_kept _ _ _ _)
            | with_reducible apply fun h => Kept.trans h (State.hostWrite_kept _ _ _)
            | with_reducible apply fun h => Kept.trans h (State.tallyHost_kept _ _ _)
            | with_reducible apply fun h => Kept.trans h (State.tallySeam_kept _ _ _)
            | with_reducible apply Kept.ite
    · exact Kept.refl s

theorem State.storeRun_kept (s : State) (c : CtxId) (desc flag : List Byte) (errs : SeamErrs) (portFault : Bool) :
    Kept s (s.storeRun c desc flag errs portFault) := by
  unfold State.storeRun
  split
  · exact Kept.refl s
  · split
    · exact Kept.refl s
    · exact ((State.tallyHost_kept s c 64).trans (State.transferRun_kept _ _ _ _ _ _ _)).trans (State.modWindow_kept _ _ _)

theorem State.wxComplete_kept (s : State) (c : CtxId) : Kept s (s.wxComplete c) := by
  unfold State.wxComplete
  repeat' first
    | with_reducible apply Kept.refl
    | assumption
    | (extract_lets +onlyGivenNames y; first | (refine Kept.step (y := y) ?_ (fun _ => ?_); on_goal 2 => clear_value y; on_goal 1 => subst y) | subst y)
    | (with_reducible apply fun h => Kept.trans h (State.hostWrite_kept _ _ _))
    | (with_reducible apply fun h => Kept.trans h (State.modCtx_kept _ _ _))
    | (with_reducible apply fun h => Kept.trans h (State.tallyHost_kept _ _ _))
    | (with_reducible apply fun h => Kept.trans h (State.irqEvent_kept _ _))
    | with_reducible apply Kept.ite
    | split

theorem State.fixExponents_kept (s : State) (u : UnitId) (step : Word) : Kept s (s.fixExponents u step) := by
  unfold State.fixExponents
  repeat' first
    | with_reducible apply Kept.refl
    | assumption
    | (extract_lets +onlyGivenNames y; first | (refine Kept.step (y := y) ?_ (fun _ => ?_); on_goal 2 => clear_value y; on_goal 1 => subst y) | subst y)
    | (with_reducible apply fun h => Kept.trans h (State.recordAmax_kept _ _))
    | (with_reducible apply Kept.foldl; on_goal 2 => intro _ _)
    | with_reducible apply Kept.ite
    | split
    | fail_if_no_progress (with_reducible apply Kept.upd <;> try with_reducible rfl)

theorem State.patchPut_kept (s : State) (c : CtxId) (va : Nat) (w : Word) : Kept s (s.patchPut c va w) := by
  unfold State.patchPut
  split
  · exact Kept.refl s
  · split
    · exact State.violations_kept s c 4 true
    · split
      · exact State.writeCommittedAt_kept s c false va _ _ (by assumption)
      · exact Kept.upd (Kept.refl s) rfl rfl rfl rfl rfl

theorem State.patchWord_kept (s : State) (c : CtxId) (openLse : Int) (p : Patch) : Kept s (s.patchWord c openLse p) := by
  unfold State.patchWord
  exact Kept.ite (Kept.upd (Kept.refl s) rfl rfl rfl rfl rfl) (State.patchPut_kept s c _ _)

theorem State.openUnit_kept (s : State) (u : UnitId) : Kept s (s.openUnit u) := by
  unfold State.openUnit
  repeat' first
    | with_reducible apply Kept.refl
    | assumption
    | (extract_lets +onlyGivenNames y; first | (refine Kept.step (y := y) ?_ (fun _ => ?_); on_goal 2 => clear_value y; on_goal 1 => subst y) | subst y)
    | (with_reducible apply fun h => Kept.trans h (State.fixExponents_kept _ _ _))
    | (with_reducible apply fun h => Kept.trans h (State.patchWord_kept _ _ _ _))
    | (with_reducible apply Kept.foldl; on_goal 2 => intro _ _)
    | with_reducible apply Kept.ite
    | split
    | fail_if_no_progress (with_reducible apply Kept.upd <;> try with_reducible rfl)

theorem State.openComplete_kept (s : State) : Kept s (s.openComplete) := by
  unfold State.openComplete
  repeat' first
    | with_reducible apply Kept.refl
    | assumption
    | (extract_lets +onlyGivenNames y; first | (refine Kept.step (y := y) ?_ (fun _ => ?_); on_goal 2 => clear_value y; on_goal 1 => subst y) | subst y)
    | (with_reducible apply fun h => Kept.trans h (State.patchPut_kept _ _ _ _))
    | (with_reducible apply Kept.foldl; on_goal 2 => intro _ _)
    | with_reducible apply Kept.ite
    | split
    | fail_if_no_progress (with_reducible apply Kept.upd <;> try with_reducible rfl)

theorem State.optTrack_kept (s : State) : Kept s (s.optTrack) := by
  unfold State.optTrack
  repeat' first
    | with_reducible apply Kept.refl
    | assumption
    | (extract_lets +onlyGivenNames y; first | (refine Kept.step (y := y) ?_ (fun _ => ?_); on_goal 2 => clear_value y; on_goal 1 => subst y) | subst y)
    | (with_reducible apply State.mbxRun_step <;> try intro _)
    | (with_reducible apply fun h => Kept.trans h (State.mbxStatus_kept _ _))
    | (with_reducible apply fun h => Kept.trans h (State.mbxOk_kept _ _))
    | with_reducible apply Kept.ite
    | fail_if_no_progress (with_reducible apply Kept.upd <;> try with_reducible rfl)

theorem State.optUntrack_kept (s : State) : Kept s (s.optUntrack) := by
  unfold State.optUntrack
  repeat' first
    | with_reducible apply Kept.refl
    | assumption
    | (extract_lets +onlyGivenNames y; first | (refine Kept.step (y := y) ?_ (fun _ => ?_); on_goal 2 => clear_value y; on_goal 1 => subst y) | subst y)
    | (with_reducible apply State.mbxRun_step <;> try intro _)
    | (with_reducible apply fun h => Kept.trans h (State.mbxStatus_kept _ _))
    | split
    | fail_if_no_progress (with_reducible apply Kept.upd <;> try with_reducible rfl)

theorem State.histRead_kept (s : State) : Kept s (s.histRead) := by
  unfold State.histRead
  repeat' first
    | with_reducible apply Kept.refl
    | (with_reducible apply State.mbxRun_step <;> try intro _)
    | (with_reducible apply fun h => Kept.trans h (State.mbxFail_kept _ _))
    | (with_reducible apply fun h => Kept.trans h (State.mbxOk_kept _ _))
    | with_reducible apply Kept.ite
    | split

theorem State.histWrite_kept (s : State) : Kept s (s.histWrite) := by
  unfold State.histWrite
  repeat' first
    | with_reducible apply Kept.refl
    | assumption
    | (extract_lets +onlyGivenNames y; first | (refine Kept.step (y := y) ?_ (fun _ => ?_); on_goal 2 => clear_value y; on_goal 1 => subst y) | subst y)
    | (with_reducible apply State.mbxRun_step <;> try intro _)
    | (with_reducible apply fun h => Kept.trans h (State.mbxStatus_kept _ _))
    | with_reducible apply Kept.ite
    | split
    | fail_if_no_progress (with_reducible apply Kept.upd <;> try with_reducible rfl)

theorem State.noiseRead_kept (s : State) : Kept s (s.noiseRead) := by
  unfold State.noiseRead
  repeat' first
    | with_reducible apply Kept.refl
    | assumption
    | (extract_lets +onlyGivenNames y; first | (refine Kept.step (y := y) ?_ (fun _ => ?_); on_goal 2 => clear_value y; on_goal 1 => subst y) | subst y)
    | (with_reducible apply State.mbxRun_step <;> try intro _)
    | (with_reducible apply fun h => Kept.trans h (State.mbxFail_kept _ _))
    | (with_reducible apply fun h => Kept.trans h (State.mbxOk_kept _ _))
    | with_reducible apply Kept.ite

theorem State.noiseWrite_kept (s : State) : Kept s (s.noiseWrite) := by
  unfold State.noiseWrite
  repeat' first
    | with_reducible apply Kept.refl
    | assumption
    | (extract_lets +onlyGivenNames y; first | (refine Kept.step (y := y) ?_ (fun _ => ?_); on_goal 2 => clear_value y; on_goal 1 => subst y) | subst y)
    | (with_reducible apply State.mbxRun_step <;> try intro _)
    | (with_reducible apply fun h => Kept.trans h (State.mbxStatus_kept _ _))
    | with_reducible apply Kept.ite
    | fail_if_no_progress (with_reducible apply Kept.upd <;> try with_reducible rfl)

theorem State.modSnap_kept (s : State) (n : SnapId) (f : SnapSlot → SnapSlot) : Kept s (s.modSnap n f) := by
  unfold State.modSnap
  repeat' first
    | with_reducible apply Kept.refl
    | assumption
    | (extract_lets +onlyGivenNames y; first | (refine Kept.step (y := y) ?_ (fun _ => ?_); on_goal 2 => clear_value y; on_goal 1 => subst y) | subst y)
    | fail_if_no_progress (with_reducible apply Kept.upd <;> try with_reducible rfl)

theorem State.snapBegin_kept (s : State) (flag : List Byte) : Kept s (s.snapBegin flag) := by
  refine State.mbxRun_kept s 0x90 _ fun y => ?_
  extract_lets a c n r
  split
  · exact State.mbxStatus_kept y _
  · refine Kept.ite (State.mbxStatus_kept y _) (Kept.ite (Kept.refl y) ?_)
    split
    · exact State.mbxStatus_kept y _
    · rename_i t ht
      have h : Kept y t := State.acquire_kept y c r flag t ht
      split
      · exact h.trans (State.mbxStatus_kept _ _)
      · refine Kept.ite (h.trans (State.mbxStatus_kept _ _)) ?_
        exact h.trans (((State.modSlot_kept t _ _ _).trans (State.modSnap_kept _ _ _)).trans (State.mbxOk_kept _ _))

theorem State.snapFreeze_kept (s : State) (n : SnapId) : Kept s (s.snapFreeze n) := by
  unfold State.snapFreeze
  repeat' first
    | with_reducible apply Kept.refl
    | assumption
    | (extract_lets +onlyGivenNames y; first | (refine Kept.step (y := y) ?_ (fun _ => ?_); on_goal 2 => clear_value y; on_goal 1 => subst y) | subst y)
    | (with_reducible apply fun h => Kept.trans h (State.modCtx_kept _ _ _))
    | (with_reducible apply fun h => Kept.trans h (State.modSnap_kept _ _ _))
    | (with_reducible apply fun h => Kept.trans h (State.violations_kept _ _ _ _))
    | with_reducible apply Kept.ite
    | split

theorem State.keepHeld_kept (s : State) (n : SnapId) (need : List Nat) : Kept s (s.keepHeld n need) := by
  unfold State.keepHeld
  repeat' first
    | with_reducible apply Kept.refl
    | assumption
    | (extract_lets +onlyGivenNames y; first | (refine Kept.step (y := y) ?_ (fun _ => ?_); on_goal 2 => clear_value y; on_goal 1 => subst y) | subst y)
    | (with_reducible apply fun h => Kept.trans h (State.modSnap_kept _ _ _))
    | (with_reducible apply fun h => Kept.trans h (State.modCtx_kept _ _ _))
    | (with_reducible apply fun h => Kept.trans h (State.gcReplaced_kept _))

theorem State.putRecord_kept (s : State) (c : CtxId) (x : Context) (t : SnapSlot) (i : Nat) (bs : List Byte) : Kept s (s.putRecord c x t i bs) := by
  unfold State.putRecord
  repeat' first
    | with_reducible apply Kept.refl
    | (with_reducible apply fun h => Kept.trans h (State.hostWrite_kept _ _ _))
    | (with_reducible apply fun h => Kept.trans h (State.tallyHost_kept _ _ _))

theorem State.payDebt_kept (s : State) (d : SnapDebt) : Kept s (s.payDebt d) := by
  unfold State.payDebt
  repeat' first
    | with_reducible apply Kept.refl
    | assumption
    | (extract_lets +onlyGivenNames y; first | (refine Kept.step (y := y) ?_ (fun _ => ?_); on_goal 2 => clear_value y; on_goal 1 => subst y) | subst y)
    | (with_reducible apply fun h => Kept.trans h (State.hostWrite_kept _ _ _))
    | (with_reducible apply fun h => Kept.trans h (State.tallyHost_kept _ _ _))
    | (with_reducible apply fun h => Kept.trans h (State.handback_kept _ _ _ _ _))
    | (with_reducible apply Kept.foldl; on_goal 2 => intro _ _)
    | with_reducible apply Kept.ite
    | split
    | fail_if_no_progress (with_reducible apply Kept.upd <;> try with_reducible rfl)

theorem State.payDebts_kept (s : State) (fn : FnId) : Kept s (s.payDebts fn) := by
  unfold State.payDebts
  repeat' first
    | with_reducible apply Kept.refl
    | assumption
    | (extract_lets +onlyGivenNames y; first | (refine Kept.step (y := y) ?_ (fun _ => ?_); on_goal 2 => clear_value y; on_goal 1 => subst y) | subst y)
    | (with_reducible apply fun h => Kept.trans h (State.payDebt_kept _ _))
    | (with_reducible apply Kept.foldl; on_goal 2 => intro _ _)
    | with_reducible apply Kept.ite
    | split
    | fail_if_no_progress (with_reducible apply Kept.upd <;> try with_reducible rfl)

theorem State.snapEnd_kept (s : State) (n : SnapId) (st : Byte) : Kept s (s.snapEnd n st) := by
  unfold State.snapEnd
  repeat' first
    | with_reducible apply Kept.refl
    | assumption
    | (extract_lets +onlyGivenNames y; first | (refine Kept.step (y := y) ?_ (fun _ => ?_); on_goal 2 => clear_value y; on_goal 1 => subst y) | subst y)
    | (with_reducible apply fun h => Kept.trans h (State.payDebts_kept _ _))
    | (with_reducible apply fun h => Kept.trans h (State.modSnap_kept _ _ _))
    | (with_reducible apply fun h => Kept.trans h (State.keepHeld_kept _ _ _))
    | (with_reducible apply fun h => Kept.trans h (State.raise_kept _ _ _ _))
    | with_reducible apply Kept.ite
    | split
    | fail_if_no_progress (with_reducible apply Kept.upd <;> try with_reducible rfl)

theorem State.shardSlot_kept (s : State) (c : CtxId) (h : Shard) (flag : List Byte) (t : State)
    (e : s.shardSlot c h flag = some t) : Kept s t := by
  unfold State.shardSlot at e
  split at e
  · obtain ⟨u, hu, rfl⟩ := Option.map_eq_some_iff.mp e
    exact (State.acquire_kept s c _ flag u hu).trans (State.modSlot_kept _ _ _ _)
  · cases e
    exact Kept.refl s

theorem State.shardProcess_kept (s : State) (n : SnapId) (flag : List Byte) (errs : SeamErrs) : Kept s (s.shardProcess n flag errs) := by
  unfold State.shardProcess
  repeat' first
    | with_reducible apply Kept.refl
    | assumption
    | (extract_lets +onlyGivenNames y; first | (refine Kept.step (y := y) ?_ (fun _ => ?_); on_goal 2 => clear_value y; on_goal 1 => subst y) | subst y)
    | (with_reducible refine Kept.trans ?_ (State.shardSlot_kept _ _ _ _ _ (by assumption)))
    | (with_reducible apply fun h => Kept.trans h (State.seamUe_kept _ _))
    | (with_reducible apply fun h => Kept.trans h (State.seamCe_kept _ _))
    | (with_reducible apply fun h => Kept.trans h (State.hostUndefined_kept _ _ _))
    | (with_reducible apply fun h => Kept.trans h (State.hostWrite_kept _ _ _))
    | (with_reducible apply fun h => Kept.trans h (State.tallyHost_kept _ _ _))
    | (with_reducible apply fun h => Kept.trans h (State.tallySeam_kept _ _ _))
    | (with_reducible apply fun h => Kept.trans h (State.handback_kept _ _ _ _ _))
    | (with_reducible apply fun h => Kept.trans h (State.putRecord_kept _ _ _ _ _ _))
    | (with_reducible apply fun h => Kept.trans h (State.bumpFree_kept _))
    | (with_reducible apply fun h => Kept.trans h (State.modSnap_kept _ _ _))
    | (with_reducible apply fun h => Kept.trans h (State.keepHeld_kept _ _ _))
    | (with_reducible apply fun h => Kept.trans h (State.snapEnd_kept _ _ _))
    | (with_reducible apply Kept.foldl; on_goal 2 => intro _ _)
    | with_reducible apply Kept.ite
    | split
    | fail_if_no_progress (with_reducible apply Kept.upd <;> try with_reducible rfl)

theorem State.flagPoll_kept (s : State) (n : SnapId) (flag : List Byte) : Kept s (s.flagPoll n flag) := by
  unfold State.flagPoll
  split
  · refine Kept.ite (Kept.refl s) ?_
    split
    · rename_i t ht
      exact (State.acquire_kept s _ _ flag t ht).trans ((State.modSlot_kept t _ _ _).trans (State.modSnap_kept _ _ _))
    · exact Kept.refl s
  · exact Kept.refl s

theorem State.snapTimeout_kept (s : State) (n : SnapId) : Kept s (s.snapTimeout n) := by
  unfold State.snapTimeout
  repeat' first
    | with_reducible apply Kept.refl
    | (with_reducible apply fun h => Kept.trans h (State.snapEnd_kept _ _ _))
    | (with_reducible apply fun h => Kept.trans h (State.canaryEvent_kept _ _ _))
    | with_reducible apply Kept.ite

theorem State.snapCancel_kept (s : State) (n : SnapId) : Kept s (s.snapCancel n) := by
  unfold State.snapCancel
  repeat' first
    | with_reducible apply Kept.refl
    | (with_reducible apply fun h => Kept.trans h (State.regViol_kept _))
    | (with_reducible apply fun h => Kept.trans h (State.snapEnd_kept _ _ _))
    | with_reducible apply Kept.ite

theorem State.snapRelease_kept (s : State) (n : SnapId) : Kept s (s.snapRelease n) := by
  unfold State.snapRelease
  repeat' first
    | with_reducible apply Kept.refl
    | (with_reducible apply fun h => Kept.trans h (State.regViol_kept _))
    | (with_reducible apply fun h => Kept.trans h (State.modSnap_kept _ _ _))
    | with_reducible apply Kept.ite

theorem State.snapRead_kept (s : State) : Kept s (s.snapRead) := by
  unfold State.snapRead
  repeat' first
    | with_reducible apply Kept.refl
    | assumption
    | (extract_lets +onlyGivenNames y; first | (refine Kept.step (y := y) ?_ (fun _ => ?_); on_goal 2 => clear_value y; on_goal 1 => subst y) | subst y)
    | (with_reducible apply State.mbxRun_step <;> try intro _)
    | (with_reducible apply fun h => Kept.trans h (State.mbxFail_kept _ _))
    | (with_reducible apply fun h => Kept.trans h (State.mbxOk_kept _ _))
    | with_reducible apply Kept.ite

theorem State.digestSlot_kept (s : State) (flag : List Byte) (data : List Byte) (portFault : Bool) : Kept s (s.digestSlot flag data portFault) := by
  unfold State.digestSlot
  repeat' first
    | with_reducible apply Kept.refl
    | assumption
    | (extract_lets +onlyGivenNames y; first | (refine Kept.step (y := y) ?_ (fun _ => ?_); on_goal 2 => clear_value y; on_goal 1 => subst y) | subst y)
    | (with_reducible apply State.mbxRun_step <;> try intro _)
    | (with_reducible apply fun h => Kept.trans h (State.mbxStatus_kept _ _))
    | (with_reducible refine Kept.trans ?_ (State.acquire_kept _ _ _ _ _ (by assumption)))
    | (with_reducible apply fun h => Kept.trans h (State.tallyHost_kept _ _ _))
    | (with_reducible apply fun h => Kept.trans h (State.mbxOk_kept _ _))
    | with_reducible apply Kept.ite
    | split

theorem State.portEvent_kept (s : State) (cause : BitVec 4) (on : Bool) : Kept s (s.portEvent cause on) := by
  unfold State.portEvent
  repeat' first
    | with_reducible apply Kept.refl
    | (with_reducible apply fun h => Kept.trans h (State.raise_kept _ _ _ _))

theorem State.fencePort1_kept (s : State) (cause : BitVec 4) (setReg : Bool) : Kept s (s.fencePort1 cause setReg) := by
  unfold State.fencePort1
  repeat' first
    | with_reducible apply Kept.refl
    | assumption
    | (extract_lets +onlyGivenNames y; first | (refine Kept.step (y := y) ?_ (fun _ => ?_); on_goal 2 => clear_value y; on_goal 1 => subst y) | subst y)
    | with_reducible apply Kept.ite
    | fail_if_no_progress (with_reducible apply Kept.upd <;> try with_reducible rfl)

theorem State.port1Return_kept (s : State) : Kept s (s.port1Return) := by
  unfold State.port1Return
  repeat' first
    | with_reducible apply Kept.refl
    | assumption
    | (extract_lets +onlyGivenNames y; first | (refine Kept.step (y := y) ?_ (fun _ => ?_); on_goal 2 => clear_value y; on_goal 1 => subst y) | subst y)
    | (with_reducible apply fun h => Kept.trans h (State.portEvent_kept _ _ _))
    | with_reducible apply Kept.ite
    | fail_if_no_progress (with_reducible apply Kept.upd <;> try with_reducible rfl)

theorem State.writeP1Fence_kept (s : State) (on : Bool) : Kept s (s.writeP1Fence on) := by
  unfold State.writeP1Fence
  repeat' first
    | with_reducible apply Kept.refl
    | assumption
    | (extract_lets +onlyGivenNames y; first | (refine Kept.step (y := y) ?_ (fun _ => ?_); on_goal 2 => clear_value y; on_goal 1 => subst y) | subst y)
    | (with_reducible apply fun h => Kept.trans h (State.fencePort1_kept _ _ _))
    | (with_reducible apply fun h => Kept.trans h (State.port1Return_kept _))
    | with_reducible apply Kept.ite
    | fail_if_no_progress (with_reducible apply Kept.upd <;> try with_reducible rfl)

theorem State.port1Down_kept (s : State) : Kept s (s.port1Down) := by
  unfold State.port1Down
  repeat' first
    | with_reducible apply Kept.refl
    | assumption
    | (extract_lets +onlyGivenNames y; first | (refine Kept.step (y := y) ?_ (fun _ => ?_); on_goal 2 => clear_value y; on_goal 1 => subst y) | subst y)
    | fail_if_no_progress (with_reducible apply Kept.upd <;> try with_reducible rfl)

theorem State.port1Drained_kept (s : State) : Kept s (s.port1Drained) := by
  unfold State.port1Drained
  repeat' first
    | with_reducible apply Kept.refl
    | assumption
    | (extract_lets +onlyGivenNames y; first | (refine Kept.step (y := y) ?_ (fun _ => ?_); on_goal 2 => clear_value y; on_goal 1 => subst y) | subst y)
    | (with_reducible apply fun h => Kept.trans h (State.portEvent_kept _ _ _))
    | (with_reducible apply fun h => Kept.trans h (State.port1Return_kept _))
    | split
    | fail_if_no_progress (with_reducible apply Kept.upd <;> try with_reducible rfl)

theorem State.flushFn_kept (s : State) (fn : FnId) : Kept s (s.flushFn fn) := by
  unfold State.flushFn
  repeat' first
    | with_reducible apply Kept.refl
    | assumption
    | (extract_lets +onlyGivenNames y; first | (refine Kept.step (y := y) ?_ (fun _ => ?_); on_goal 2 => clear_value y; on_goal 1 => subst y) | subst y)
    | (with_reducible apply fun h => Kept.trans h (State.flushRecords_kept _ _))
    | (with_reducible apply fun h => Kept.trans h (State.payDebts_kept _ _))
    | (with_reducible apply Kept.foldl; on_goal 2 => intro _ _)
    | with_reducible apply Kept.ite
    | split
    | fail_if_no_progress (with_reducible apply Kept.upd <;> try with_reducible rfl)

theorem State.busMasterOff_kept (s : State) (fn : PortFn) (d3hot : Bool) : Kept s (s.busMasterOff fn d3hot) := by
  unfold State.busMasterOff
  repeat' first
    | with_reducible apply Kept.refl
    | assumption
    | (extract_lets +onlyGivenNames y; first | (refine Kept.step (y := y) ?_ (fun _ => ?_); on_goal 2 => clear_value y; on_goal 1 => subst y) | subst y)
    | (with_reducible apply fun h => Kept.trans h (State.fencePort1_kept _ _ _))
    | with_reducible apply Kept.ite
    | split
    | fail_if_no_progress (with_reducible apply Kept.upd <;> try with_reducible rfl)

theorem State.busMasterOn_kept (s : State) (fn : PortFn) (d3hot : Bool) : Kept s (s.busMasterOn fn d3hot) := by
  unfold State.busMasterOn
  repeat' first
    | with_reducible apply Kept.refl
    | assumption
    | (extract_lets +onlyGivenNames y; first | (refine Kept.step (y := y) ?_ (fun _ => ?_); on_goal 2 => clear_value y; on_goal 1 => subst y) | subst y)
    | (with_reducible apply fun h => Kept.trans h (State.flushFn_kept _ _))
    | (with_reducible apply fun h => Kept.trans h (State.port1Return_kept _))
    | with_reducible apply Kept.ite
    | split
    | fail_if_no_progress (with_reducible apply Kept.upd <;> try with_reducible rfl)

theorem State.pcieLinkUp_kept (s : State) (port1 : Bool) (gen : BitVec 3) (width : BitVec 5) : Kept s (s.pcieLinkUp port1 gen width) := by
  unfold State.pcieLinkUp
  repeat' first
    | with_reducible apply Kept.refl
    | assumption
    | (extract_lets +onlyGivenNames y; first | (refine Kept.step (y := y) ?_ (fun _ => ?_); on_goal 2 => clear_value y; on_goal 1 => subst y) | subst y)
    | (with_reducible apply fun h => Kept.trans h (State.port1Return_kept _))
    | with_reducible apply Kept.ite
    | split
    | fail_if_no_progress (with_reducible apply Kept.upd <;> try with_reducible rfl)

theorem State.hoistTimeout_kept (s : State) (c : CtxId) (ops : List Nat) : Kept s (s.hoistTimeout c ops) := by
  unfold State.hoistTimeout
  repeat' first
    | with_reducible apply Kept.refl
    | (with_reducible apply fun h => Kept.trans h (State.endWith_kept _ _ _ _ _))
    | split

theorem State.stopCtx_kept (s : State) (c : CtxId) : Kept s (s.stopCtx c) := by
  unfold State.stopCtx
  repeat' first
    | with_reducible apply Kept.refl
    | (with_reducible apply fun h => Kept.trans h (State.modCtx_kept _ _ _))

theorem State.pageInTimeout_kept (s : State) (c : CtxId) (vpn : Nat) : Kept s (s.pageInTimeout c vpn) := by
  unfold State.pageInTimeout
  repeat' first
    | with_reducible apply Kept.refl
    | assumption
    | (extract_lets +onlyGivenNames y; first | (refine Kept.step (y := y) ?_ (fun _ => ?_); on_goal 2 => clear_value y; on_goal 1 => subst y) | subst y)
    | (with_reducible apply fun h => Kept.trans h (State.modCtx_kept _ _ _))
    | (with_reducible apply fun h => Kept.trans h (State.mapHeld_kept _ _))
    | (with_reducible apply fun h => Kept.trans h (State.releaseFrame_kept _ _))
    | (with_reducible apply fun h => Kept.trans h (State.endWith_kept _ _ _ _ _))
    | (with_reducible apply Kept.foldl; on_goal 2 => intro _ _)
    | with_reducible apply Kept.ite
    | split
    | fail_if_no_progress (with_reducible apply Kept.upd <;> try with_reducible rfl)

theorem State.workTimeout_kept (s : State) (w : TimedWork) : Kept s (s.workTimeout w) := by
  induction w generalizing s with
  | flagRead c w ih => exact (ih s).trans (State.stopCtx_kept _ _)
  | _ =>
    unfold State.workTimeout
    repeat' first
      | with_reducible apply Kept.refl
      | (with_reducible apply fun h => Kept.trans h (State.stopCtx_kept _ _))
      | (with_reducible apply fun h => Kept.trans h (State.hoistTimeout_kept _ _ _))
      | (with_reducible apply fun h => Kept.trans h (State.modWindow_kept _ _ _))
      | (with_reducible apply fun h => Kept.trans h (State.pageInTimeout_kept _ _ _))
      | (with_reducible apply fun h => Kept.trans h (State.snapEnd_kept _ _ _))
      | (with_reducible apply fun h => Kept.trans h (State.mbxStatus_kept _ _))
      | with_reducible apply Kept.ite
      | split

theorem State.completionTimeout_kept (s : State) (port1 : Bool) (second : Bool) (w : TimedWork) : Kept s (s.completionTimeout port1 second w) := by
  unfold State.completionTimeout
  repeat' first
    | with_reducible apply Kept.refl
    | assumption
    | (extract_lets +onlyGivenNames y; first | (refine Kept.step (y := y) ?_ (fun _ => ?_); on_goal 2 => clear_value y; on_goal 1 => subst y) | subst y)
    | (with_reducible apply fun h => Kept.trans h (State.fencePort1_kept _ _ _))
    | (with_reducible apply fun h => Kept.trans h (State.workTimeout_kept _ _))
    | with_reducible apply Kept.ite
    | fail_if_no_progress (with_reducible apply Kept.upd <;> try with_reducible rfl)

theorem State.mbxGo_kept (s : State) : Kept s s.mbxGo := by
  unfold State.mbxGo
  split
  · exact Kept.refl s
  · exact ⟨rfl, id, id, fun _ => rfl⟩

theorem State.mbxAck_kept (s : State) : Kept s s.mbxAck := by
  refine ⟨rfl, id, id, fun _ => ?_⟩
  simp only [State.mbxAck, State.mailboxSane, Bool.and_false, Bool.not_false]

theorem State.mbxReserved_kept (s : State) : Kept s (s.mbxReserved) := by
  unfold State.mbxReserved
  repeat' first
    | with_reducible apply Kept.refl
    | (with_reducible apply fun h => Kept.trans h (State.mbxFail_kept _ _))
    | with_reducible apply Kept.ite

theorem State.irqTimer_kept (s : State) (src : Nat) : Kept s (s.irqTimer src) := by
  unfold State.irqTimer
  repeat' first
    | with_reducible apply Kept.refl
    | assumption
    | (extract_lets +onlyGivenNames y; first | (refine Kept.step (y := y) ?_ (fun _ => ?_); on_goal 2 => clear_value y; on_goal 1 => subst y) | subst y)
    | (with_reducible apply fun h => Kept.trans h (State.pass_kept _ _))
    | (with_reducible apply fun h => Kept.trans h (State.irqPend_kept _ _))
    | with_reducible apply Kept.ite
    | split

theorem State.msixHeld_kept (s : State) (src : Nat) : Kept s (s.msixHeld src) := by
  unfold State.msixHeld
  repeat' first
    | with_reducible apply Kept.refl
    | assumption
    | (extract_lets +onlyGivenNames y; first | (refine Kept.step (y := y) ?_ (fun _ => ?_); on_goal 2 => clear_value y; on_goal 1 => subst y) | subst y)
    | (with_reducible apply fun h => Kept.trans h (State.irqSend_kept _ _))
    | fail_if_no_progress (with_reducible apply Kept.upd <;> try with_reducible rfl)

theorem State.irqClaim_kept (s : State) (src : BitVec 9) : Kept s (s.irqClaim src) := by
  unfold State.irqClaim
  repeat' first
    | with_reducible apply Kept.refl
    | assumption
    | (extract_lets +onlyGivenNames y; first | (refine Kept.step (y := y) ?_ (fun _ => ?_); on_goal 2 => clear_value y; on_goal 1 => subst y) | subst y)
    | (with_reducible apply fun h => Kept.trans h (State.irqClear_kept _ _))
    | fail_if_no_progress (with_reducible apply Kept.upd <;> try with_reducible rfl)

theorem State.modRing_kept (s : State) (r : RingId) (f : EventRing → EventRing) : Kept s (s.modRing r f) := by
  unfold State.modRing
  repeat' first
    | with_reducible apply Kept.refl
    | fail_if_no_progress (with_reducible apply Kept.upd <;> try with_reducible rfl)

theorem State.evrHead_kept (s : State) (r : RingId) (v : Word) : Kept s (s.evrHead r v) := by
  unfold State.evrHead
  repeat' first
    | with_reducible apply Kept.refl
    | assumption
    | (extract_lets +onlyGivenNames y; first | (refine Kept.step (y := y) ?_ (fun _ => ?_); on_goal 2 => clear_value y; on_goal 1 => subst y) | subst y)
    | (with_reducible apply fun h => Kept.trans h (State.modRing_kept _ _ _))
    | (with_reducible apply fun h => Kept.trans h (State.regViol_kept _))
    | with_reducible apply Kept.ite

theorem State.putEvent_kept (s : State) (r : RingId) (e : Event) : Kept s (s.putEvent r e) := by
  unfold State.putEvent
  repeat' first
    | with_reducible apply Kept.refl
    | assumption
    | (extract_lets +onlyGivenNames y; first | (refine Kept.step (y := y) ?_ (fun _ => ?_); on_goal 2 => clear_value y; on_goal 1 => subst y) | subst y)
    | (with_reducible apply fun h => Kept.trans h (State.hostWrite_kept _ _ _))
    | (with_reducible apply fun h => Kept.trans h (State.modRing_kept _ _ _))
    | (with_reducible apply fun h => Kept.trans h (State.irqEvent_kept _ _))

theorem State.eventWrite_kept (s : State) (r : RingId) : Kept s (s.eventWrite r) := by
  unfold State.eventWrite
  repeat' first
    | with_reducible apply Kept.refl
    | assumption
    | (extract_lets +onlyGivenNames y; first | (refine Kept.step (y := y) ?_ (fun _ => ?_); on_goal 2 => clear_value y; on_goal 1 => subst y) | subst y)
    | (with_reducible apply fun h => Kept.trans h (State.marker_kept _ _))
    | (with_reducible apply fun h => Kept.trans h (State.modRing_kept _ _ _))
    | (with_reducible apply fun h => Kept.trans h (State.putEvent_kept _ _ _))
    | with_reducible apply Kept.ite
    | split

theorem State.overflowWrite_kept (s : State) (r : RingId) : Kept s (s.overflowWrite r) := by
  unfold State.overflowWrite
  repeat' first
    | with_reducible apply Kept.refl
    | assumption
    | (extract_lets +onlyGivenNames y; first | (refine Kept.step (y := y) ?_ (fun _ => ?_); on_goal 2 => clear_value y; on_goal 1 => subst y) | subst y)
    | (with_reducible apply fun h => Kept.trans h (State.marker_kept _ _))
    | (with_reducible apply fun h => Kept.trans h (State.modRing_kept _ _ _))
    | (with_reducible apply fun h => Kept.trans h (State.putEvent_kept _ _ _))
    | with_reducible apply Kept.ite
    | split

theorem State.setTiles_kept (s : State) (c : CtxId) (k : Cmd) (o : FOp) (rows : List RowOut) : Kept s (s.setTiles c k o rows) := by
  have wf : ∀ (ts : List (Nat × List Byte)) (m : Cells), m.wf = true →
      (ts.foldl (fun (m : Cells) t => m.writeBytes (t.1 * plateSize + o.plateOff) t.2) m).wf = true := by
    intro ts
    induction ts with
    | nil => exact fun _ h => h
    | cons t ts ih => exact fun m h => ih _ (Cells.writeBytes_wf _ _ _ h)
  unfold State.setTiles
  extract_lets tiles overlaps
  refine Kept.trans ?_ (State.modCmd_kept _ _ _ _)
  exact Kept.memUpd rfl (fun m h p => ⟨m, h, wf tiles _ p⟩) rfl rfl

theorem State.noteImageWrite_kept (s : State) (c : CtxId) (seq : Word) (ws : List (Nat × List Byte)) : Kept s (s.noteImageWrite c seq ws) := by
  unfold State.noteImageWrite
  repeat' first
    | with_reducible apply Kept.refl
    | assumption
    | (extract_lets +onlyGivenNames y; first | (refine Kept.step (y := y) ?_ (fun _ => ?_); on_goal 2 => clear_value y; on_goal 1 => subst y) | subst y)
    | with_reducible apply Kept.ite
    | split
    | fail_if_no_progress (with_reducible apply Kept.upd <;> try with_reducible rfl)

theorem State.setAccs_kept (s : State) (k : Cmd) (o : FOp) (accs : List (Nat × Nat × List Word)) : Kept s (s.setAccs k o accs) := by
  unfold State.setAccs
  repeat' first
    | with_reducible apply Kept.refl
    | assumption
    | (extract_lets +onlyGivenNames y; first | (refine Kept.step (y := y) ?_ (fun _ => ?_); on_goal 2 => clear_value y; on_goal 1 => subst y) | subst y)
    | (with_reducible apply Kept.foldl; on_goal 2 => intro _ _)
    | with_reducible apply Kept.ite
    | split
    | fail_if_no_progress (with_reducible apply Kept.upd <;> try with_reducible rfl)

theorem State.noteAmax_kept (s : State) (c : CtxId) (k : Cmd) (o : FOp) (ys : List FNum) : Kept s (s.noteAmax c k o ys) := by
  unfold State.noteAmax
  repeat' first
    | with_reducible apply Kept.refl
    | (with_reducible apply fun h => Kept.trans h (State.modCmd_kept _ _ _ _))
    | with_reducible apply Kept.ite

theorem State.runCheck_kept (s : State) (c : CtxId) (k : Cmd) (o : FOp) (rd : Nat → Byte) : Kept s (s.runCheck c k o rd) := by
  unfold State.runCheck
  repeat' first
    | with_reducible apply Kept.refl
    | assumption
    | (extract_lets +onlyGivenNames y; first | (refine Kept.step (y := y) ?_ (fun _ => ?_); on_goal 2 => clear_value y; on_goal 1 => subst y) | subst y)
    | (with_reducible apply fun h => Kept.trans h (State.modCmd_kept _ _ _ _))
    | (with_reducible apply fun h => Kept.trans h (State.endWith_kept _ _ _ _ _))
    | with_reducible apply Kept.ite
    | split
    | fail_if_no_progress (with_reducible apply Kept.upd <;> try with_reducible rfl)

theorem State.runNoise_kept (s : State) (c : CtxId) (k : Cmd) (o : FOp) (rd : Nat → Byte) : Kept s (s.runNoise c k o rd) := by
  unfold State.runNoise
  repeat' first
    | with_reducible apply Kept.refl
    | assumption
    | (extract_lets +onlyGivenNames y; first | (refine Kept.step (y := y) ?_ (fun _ => ?_); on_goal 2 => clear_value y; on_goal 1 => subst y) | subst y)
    | (with_reducible apply fun h => Kept.trans h (State.modCmd_kept _ _ _ _))
    | split
    | fail_if_no_progress (with_reducible apply Kept.upd <;> try with_reducible rfl)

theorem State.listDone_kept (s : State) (c : CtxId) (seq : Word) : Kept s (s.listDone c seq) := by
  unfold State.listDone
  repeat' first
    | with_reducible apply Kept.refl
    | assumption
    | (extract_lets +onlyGivenNames y; first | (refine Kept.step (y := y) ?_ (fun _ => ?_); on_goal 2 => clear_value y; on_goal 1 => subst y) | subst y)
    | (with_reducible apply fun h => Kept.trans h (State.endWith_kept _ _ _ _ _))
    | (with_reducible apply fun h => Kept.trans h (State.modCmd_kept _ _ _ _))
    | (with_reducible apply fun h => Kept.trans h (State.stepFinish_kept _ _ _))
    | with_reducible apply Kept.ite
    | split

theorem State.opDone_kept (s : State) (c : CtxId) (k : Cmd) (o : FOp) (count : Nat) : Kept s (s.opDone c k o count) := by
  unfold State.opDone
  repeat' first
    | with_reducible apply Kept.refl
    | assumption
    | (extract_lets +onlyGivenNames y; first | (refine Kept.step (y := y) ?_ (fun _ => ?_); on_goal 2 => clear_value y; on_goal 1 => subst y) | subst y)
    | (with_reducible apply fun h => Kept.trans h (State.bumpFree_kept _))
    | (with_reducible apply fun h => Kept.trans h (State.modCmd_kept _ _ _ _))
    | (with_reducible apply fun h => Kept.trans h (State.listDone_kept _ _ _))
    | (with_reducible apply fun h => Kept.trans h (State.endWith_kept _ _ _ _ _))
    | with_reducible apply Kept.ite
    | fail_if_no_progress (with_reducible apply Kept.upd <;> try with_reducible rfl)

theorem State.shadowRefused_kept (s : State) (c : CtxId) (k : Cmd) : Kept s (s.shadowRefused c k) := by
  unfold State.shadowRefused
  repeat' first
    | with_reducible apply Kept.refl
    | assumption
    | (extract_lets +onlyGivenNames y; first | (refine Kept.step (y := y) ?_ (fun _ => ?_); on_goal 2 => clear_value y; on_goal 1 => subst y) | subst y)
    | (with_reducible apply fun h => Kept.trans h (State.endWith_kept _ _ _ _ _))
    | with_reducible apply Kept.ite
    | split
    | fail_if_no_progress (with_reducible apply Kept.upd <;> try with_reducible rfl)

theorem State.opEffect_kept (s : State) (c : CtxId) (k : Cmd) (o : FOp) (count : Nat) (fromPlate : Bool) (errs : SeamErrs) (rd : Nat → Byte) (reads : List (Nat × Nat)) (unmapped : Nat) : Kept s (s.opEffect c k o count fromPlate errs rd reads unmapped) := by
  unfold State.opEffect
  repeat' first
    | with_reducible apply Kept.refl
    | assumption
    | (extract_lets +onlyGivenNames y; first | (refine Kept.step (y := y) ?_ (fun _ => ?_); on_goal 2 => clear_value y; on_goal 1 => subst y) | subst y)
    | (with_reducible apply fun h => Kept.trans h (State.endWith_kept _ _ _ _ _))
    | (with_reducible apply fun h => Kept.trans h (State.violations_kept _ _ _ _))
    | (with_reducible apply fun h => Kept.trans h (State.shadowRefused_kept _ _ _))
    | (with_reducible apply fun h => Kept.trans h (State.setTiles_kept _ _ _ _ _))
    | (with_reducible apply fun h => Kept.trans h (State.setAccs_kept _ _ _ _))
    | (with_reducible apply fun h => Kept.trans h (State.noteImageWrite_kept _ _ _ _))
    | (with_reducible apply fun h => Kept.trans h (State.noteAmax_kept _ _ _ _ _))
    | (with_reducible apply fun h => Kept.trans h (State.modCmd_kept _ _ _ _))
    | (with_reducible apply fun h => Kept.trans h (State.runCheck_kept _ _ _ _ _))
    | (with_reducible apply fun h => Kept.trans h (State.runNoise_kept _ _ _ _ _))
    | (with_reducible apply fun h => Kept.trans h (State.opDone_kept _ _ _ _ _))
    | (with_reducible apply Kept.foldl; on_goal 2 => intro _ _)
    | (with_reducible refine Kept.trans ?_ (State.gate_go _ _ _ _ _ _ (by assumption)))
    | (with_reducible refine Kept.trans ?_ (State.gate_wait _ _ _ _ _ _ (by assumption)))
    | (with_reducible refine Kept.trans ?_ (State.gate_stop _ _ _ _ _ _ _ (by assumption)))
    | (with_reducible refine Kept.trans ?_ (State.cmdWrite_kept _ _ _ _ _ (by assumption)))
    | with_reducible apply Kept.ite
    | split
    | fail_if_no_progress (with_reducible apply Kept.upd <;> try with_reducible rfl)

theorem State.opRun_kept (s : State) (c : CtxId) (k : Cmd) (o : FOp) (count : Nat) (errs : SeamErrs) : Kept s (s.opRun c k o count errs) := by
  unfold State.opRun
  repeat' first
    | with_reducible apply Kept.refl
    | assumption
    | (extract_lets +onlyGivenNames y; first | (refine Kept.step (y := y) ?_ (fun _ => ?_); on_goal 2 => clear_value y; on_goal 1 => subst y) | subst y)
    | (with_reducible refine Kept.trans ?_ (State.gate_go _ _ _ _ _ _ (by assumption)))
    | (with_reducible refine Kept.trans ?_ (State.gate_wait _ _ _ _ _ _ (by assumption)))
    | (with_reducible refine Kept.trans ?_ (State.gate_stop _ _ _ _ _ _ _ (by assumption)))
    | (with_reducible apply fun h => Kept.trans h (State.endWith_kept _ _ _ _ _))
    | (with_reducible apply fun h => Kept.trans h (State.opEffect_kept _ _ _ _ _ _ _ _ _ _))
    | split

theorem State.park_kept (s : State) (c : CtxId) (k : Cmd) (tag : Nat) : Kept s (s.park c k tag) := by
  unfold State.park
  repeat' first
    | with_reducible apply Kept.refl
    | (with_reducible apply fun h => Kept.trans h (State.leaveField_kept _ _ _ _))
    | (with_reducible apply fun h => Kept.trans h (State.modCmd_kept _ _ _ _))
    | (with_reducible apply fun h => Kept.trans h (State.settle_kept _))

theorem State.waitPoint_kept (s : State) (c : CtxId) (x : Context) (k : Cmd) (o : FOp) (count : Nat) (errs : SeamErrs) : Kept s (s.waitPoint c x k o count errs) := by
  unfold State.waitPoint
  repeat' first
    | with_reducible apply Kept.refl
    | assumption
    | (extract_lets +onlyGivenNames y; first | (refine Kept.step (y := y) ?_ (fun _ => ?_); on_goal 2 => clear_value y; on_goal 1 => subst y) | subst y)
    | (with_reducible apply fun h => Kept.trans h (State.opRun_kept _ _ _ _ _ _))
    | (with_reducible apply fun h => Kept.trans h (State.modCmd_kept _ _ _ _))
    | (with_reducible apply fun h => Kept.trans h (State.endWith_kept _ _ _ _ _))
    | (with_reducible apply fun h => Kept.trans h (State.park_kept _ _ _ _))
    | with_reducible apply Kept.ite
    | split

theorem State.runOp_kept (s : State) (want : FOp → Bool) (errs : SeamErrs) : Kept s (s.runOp want errs) := by
  unfold State.runOp
  repeat' first
    | with_reducible apply Kept.refl
    | assumption
    | (extract_lets +onlyGivenNames y; first | (refine Kept.step (y := y) ?_ (fun _ => ?_); on_goal 2 => clear_value y; on_goal 1 => subst y) | subst y)
    | (with_reducible refine Kept.trans ?_ (State.gate_go _ _ _ _ _ _ (by assumption)))
    | (with_reducible refine Kept.trans ?_ (State.gate_wait _ _ _ _ _ _ (by assumption)))
    | (with_reducible refine Kept.trans ?_ (State.gate_stop _ _ _ _ _ _ _ (by assumption)))
    | (with_reducible apply fun h => Kept.trans h (State.endWith_kept _ _ _ _ _))
    | (with_reducible apply fun h => Kept.trans h (State.waitPoint_kept _ _ _ _ _ _ _))
    | with_reducible apply Kept.ite
    | split

theorem State.loadImage_kept (s : State) (c : CtxId) (k : Cmd) (mo : Model) : Kept s (s.loadImage c k mo) := by
  have wf : ∀ (f : Nat → Cells → Cells), (∀ a m, Cells.wf m = true → Cells.wf (f a m) = true) → ∀ (as : List Nat) (m : Cells),
      m.wf = true → (as.foldl (fun m a => f a m) m).wf = true := by
    intro f hf as
    induction as with
    | nil => exact fun _ h => h
    | cons a as ih => exact fun m h => ih _ (hf a m h)
  unfold State.loadImage
  split
  · exact Kept.refl s
  · refine Kept.ite (Kept.refl s) (Kept.ite ?_ ?_)
    · exact Kept.upd (Kept.refl s) rfl rfl rfl rfl rfl
    · exact Kept.memUpd rfl
        (fun m h p => ⟨m, h, wf _ (fun _ _ h => Cells.overlay_wf _ _ (Cells.clear_wf _ _ _ h)) _ _ p⟩) rfl rfl

theorem State.invoke_kept (s : State) (c : CtxId) (k : Cmd) (r : StepRun) : Kept s (s.invoke c k r) := by
  unfold State.invoke
  repeat' first
    | with_reducible apply Kept.refl
    | assumption
    | (extract_lets +onlyGivenNames y; first | (refine Kept.step (y := y) ?_ (fun _ => ?_); on_goal 2 => clear_value y; on_goal 1 => subst y) | subst y)
    | (with_reducible apply fun h => Kept.trans h (State.stepFinish_kept _ _ _))
    | (with_reducible apply fun h => Kept.trans h (State.endWith_kept _ _ _ _ _))
    | (with_reducible apply fun h => Kept.trans h (State.shadowRefused_kept _ _ _))
    | (with_reducible apply fun h => Kept.trans h (State.loadImage_kept _ _ _ _))
    | (with_reducible apply fun h => Kept.trans h (State.modCmd_kept _ _ _ _))
    | (with_reducible refine Kept.trans ?_ (State.gate_go _ _ _ _ _ _ (by assumption)))
    | (with_reducible refine Kept.trans ?_ (State.gate_wait _ _ _ _ _ _ (by assumption)))
    | (with_reducible refine Kept.trans ?_ (State.gate_stop _ _ _ _ _ _ _ (by assumption)))
    | (with_reducible refine Kept.trans ?_ (State.cmdWrite_kept _ _ _ _ _ (by assumption)))
    | with_reducible apply Kept.ite
    | split
    | fail_if_no_progress (with_reducible apply Kept.upd <;> try with_reducible rfl)

theorem State.stepInvocation_kept (s : State) (c : CtxId) : Kept s (s.stepInvocation c) := by
  unfold State.stepInvocation
  repeat' first
    | with_reducible apply Kept.refl
    | (with_reducible apply fun h => Kept.trans h (State.invoke_kept _ _ _ _))
    | with_reducible apply Kept.ite
    | split

theorem State.fenceEvent_kept (s : State) (domain : Nat) (index : Nat) (on : Bool) : Kept s (s.fenceEvent domain index on) := by
  unfold State.fenceEvent
  repeat' first
    | with_reducible apply Kept.refl
    | (with_reducible apply fun h => Kept.trans h (State.raise_kept _ _ _ _))

theorem State.fenceRequest_kept (s : State) (q : QuadId) : Kept s (s.fenceRequest q) := by
  unfold State.fenceRequest
  repeat' first
    | with_reducible apply Kept.refl
    | assumption
    | (extract_lets +onlyGivenNames y; first | (refine Kept.step (y := y) ?_ (fun _ => ?_); on_goal 2 => clear_value y; on_goal 1 => subst y) | subst y)
    | with_reducible apply Kept.ite
    | fail_if_no_progress (with_reducible apply Kept.upd <;> try with_reducible rfl)

theorem State.unfenceRequest_kept (s : State) (q : QuadId) : Kept s (s.unfenceRequest q) := by
  unfold State.unfenceRequest
  repeat' first
    | with_reducible apply Kept.refl
    | assumption
    | (extract_lets +onlyGivenNames y; first | (refine Kept.step (y := y) ?_ (fun _ => ?_); on_goal 2 => clear_value y; on_goal 1 => subst y) | subst y)
    | with_reducible apply Kept.ite
    | fail_if_no_progress (with_reducible apply Kept.upd <;> try with_reducible rfl)

theorem State.killWideParked_kept (s : State) : Kept s (s.killWideParked) := by
  unfold State.killWideParked
  repeat' first
    | with_reducible apply Kept.refl
    | assumption
    | (extract_lets +onlyGivenNames y; first | (refine Kept.step (y := y) ?_ (fun _ => ?_); on_goal 2 => clear_value y; on_goal 1 => subst y) | subst y)
    | (with_reducible apply fun h => Kept.trans h (State.requestKill_kept _ _ _ _))
    | (with_reducible apply fun h => Kept.trans h (State.killComplete_kept _ _ _))
    | (with_reducible apply Kept.foldl; on_goal 2 => intro _ _)

theorem State.fenceEffect_kept (s : State) (q : QuadId) : Kept s (s.fenceEffect q) := by
  unfold State.fenceEffect
  repeat' first
    | with_reducible apply Kept.refl
    | assumption
    | (extract_lets +onlyGivenNames y; first | (refine Kept.step (y := y) ?_ (fun _ => ?_); on_goal 2 => clear_value y; on_goal 1 => subst y) | subst y)
    | (with_reducible apply fun h => Kept.trans h (State.requestKill_kept _ _ _ _))
    | (with_reducible apply fun h => Kept.trans h (State.killWideParked_kept _))
    | (with_reducible apply fun h => Kept.trans h (State.fenceEvent_kept _ _ _ _))
    | with_reducible apply Kept.ite
    | split
    | fail_if_no_progress (with_reducible apply Kept.upd <;> try with_reducible rfl)

theorem State.zeroQuad_kept (s : State) (q : Nat) : Kept s (s.zeroQuad q) :=
  Kept.memUpd rfl (fun m h p => ⟨Cells.clear_wf _ _ _ m, h, p⟩) rfl rfl

theorem State.unfenceEffect_kept (s : State) (q : QuadId) : Kept s (s.unfenceEffect q) := by
  unfold State.unfenceEffect
  repeat' first
    | with_reducible apply Kept.refl
    | assumption
    | (extract_lets +onlyGivenNames y; first | (refine Kept.step (y := y) ?_ (fun _ => ?_); on_goal 2 => clear_value y; on_goal 1 => subst y) | subst y)
    | (with_reducible apply fun h => Kept.trans h (State.zeroQuad_kept _ _))
    | (with_reducible apply fun h => Kept.trans h (State.mapCtxs_kept _ _))
    | (with_reducible apply fun h => Kept.trans h (State.fenceEvent_kept _ _ _ _))
    | with_reducible apply Kept.ite
    | fail_if_no_progress (with_reducible apply Kept.upd <;> try with_reducible rfl)

theorem State.scramble_kept (s : State) (q : Nat) : Kept s (s.scramble q) := by
  unfold State.scramble
  extract_lets n
  generalize q * n = a
  generalize (List.range n).map (Config.testByte s.freeCtr) = bs
  exact Kept.memUpd rfl (fun m h p => ⟨Cells.writeBytes_wf bs _ a m, h, p⟩) rfl rfl

theorem State.testStart_kept (s : State) (quad : BitVec 3) : Kept s (s.testStart quad) := by
  unfold State.testStart
  repeat' first
    | with_reducible apply Kept.refl
    | assumption
    | (extract_lets +onlyGivenNames y; first | (refine Kept.step (y := y) ?_ (fun _ => ?_); on_goal 2 => clear_value y; on_goal 1 => subst y) | subst y)
    | (with_reducible apply fun h => Kept.trans h (State.scramble_kept _ _))
    | with_reducible apply Kept.ite
    | split
    | fail_if_no_progress (with_reducible apply Kept.upd <;> try with_reducible rfl)

theorem State.testDone_kept (s : State) (q : QuadId) (r : QuadTest) : Kept s (s.testDone q r) := by
  unfold State.testDone
  repeat' first
    | with_reducible apply Kept.refl
    | assumption
    | (extract_lets +onlyGivenNames y; first | (refine Kept.step (y := y) ?_ (fun _ => ?_); on_goal 2 => clear_value y; on_goal 1 => subst y) | subst y)
    | (with_reducible apply fun h => Kept.trans h (State.raise_kept _ _ _ _))
    | with_reducible apply Kept.ite
    | fail_if_no_progress (with_reducible apply Kept.upd <;> try with_reducible rfl)

theorem State.writeMaint_kept (s : State) (on : Bool) : Kept s (s.writeMaint on) := by
  unfold State.writeMaint
  repeat' first
    | with_reducible apply Kept.refl
    | assumption
    | (extract_lets +onlyGivenNames y; first | (refine Kept.step (y := y) ?_ (fun _ => ?_); on_goal 2 => clear_value y; on_goal 1 => subst y) | subst y)
    | (with_reducible apply fun h => Kept.trans h (State.settle_kept _))
    | with_reducible apply Kept.ite
    | fail_if_no_progress (with_reducible apply Kept.upd <;> try with_reducible rfl)

theorem State.freezeField_kept (s : State) : Kept s (s.freezeField) := by
  unfold State.freezeField
  repeat' first
    | with_reducible apply Kept.refl
    | assumption
    | (extract_lets +onlyGivenNames y; first | (refine Kept.step (y := y) ?_ (fun _ => ?_); on_goal 2 => clear_value y; on_goal 1 => subst y) | subst y)
    | with_reducible apply Kept.ite
    | fail_if_no_progress (with_reducible apply Kept.upd <;> try with_reducible rfl)

theorem State.freeze_kept (s : State) : Kept s (s.freeze) := by
  unfold State.freeze
  repeat' first
    | with_reducible apply Kept.refl
    | assumption
    | (extract_lets +onlyGivenNames y; first | (refine Kept.step (y := y) ?_ (fun _ => ?_); on_goal 2 => clear_value y; on_goal 1 => subst y) | subst y)
    | (with_reducible apply fun h => Kept.trans h (State.freezeField_kept _))
    | (with_reducible apply fun h => Kept.trans h (State.requestKill_kept _ _ _ _))
    | split

theorem State.captureAsk_kept (s : State) (ctx : Byte) (slot : BitVec 16) : Kept s (s.captureAsk ctx slot) := by
  unfold State.captureAsk
  repeat' first
    | with_reducible apply Kept.refl
    | assumption
    | (extract_lets +onlyGivenNames y; first | (refine Kept.step (y := y) ?_ (fun _ => ?_); on_goal 2 => clear_value y; on_goal 1 => subst y) | subst y)
    | with_reducible apply Kept.ite
    | split
    | fail_if_no_progress (with_reducible apply Kept.upd <;> try with_reducible rfl)

theorem State.captureBegin_kept (s : State) (flag : List Byte) : Kept s (s.captureBegin flag) := by
  unfold State.captureBegin
  have h : Kept s { s with fld.capState := 3, fld.capAsk := false } := Kept.upd (Kept.refl s) rfl rfl rfl rfl rfl
  refine Kept.ite (Kept.refl s) (Kept.ite h ?_)
  split
  · exact h
  · rename_i t ht
    exact Kept.upd ((State.acquire_kept s _ _ flag t ht).trans (State.modSlot_kept t _ _ _)) rfl rfl rfl rfl rfl

theorem State.captureStart_kept (s : State) (ctx : Byte) (slot : BitVec 16) (flag : List Byte) : Kept s (s.captureStart ctx slot flag) := by
  unfold State.captureStart
  repeat' first
    | with_reducible apply Kept.refl
    | assumption
    | (extract_lets +onlyGivenNames y; first | (refine Kept.step (y := y) ?_ (fun _ => ?_); on_goal 2 => clear_value y; on_goal 1 => subst y) | subst y)
    | (with_reducible apply fun h => Kept.trans h (State.captureAsk_kept _ _ _))
    | (with_reducible apply fun h => Kept.trans h (State.captureBegin_kept _ _))
    | with_reducible apply Kept.ite
    | split
    | fail_if_no_progress (with_reducible apply Kept.upd <;> try with_reducible rfl)

theorem State.plateToHost_kept (s : State) (p n a : Nat) : Kept s (s.plateToHost p n a) :=
  Kept.memUpd rfl (fun m h p => ⟨m, Cells.overlay_wf _ _ (Cells.clear_wf _ _ _ h), p⟩) rfl rfl

theorem State.writeImage_kept (s : State) (a : Nat) : Kept s (s.writeImage a) := by
  unfold State.writeImage
  repeat' first
    | with_reducible apply Kept.refl
    | assumption
    | (extract_lets +onlyGivenNames y; first | (refine Kept.step (y := y) ?_ (fun _ => ?_); on_goal 2 => clear_value y; on_goal 1 => subst y) | subst y)
    | (with_reducible apply fun h => Kept.trans h (State.hostUndefined_kept _ _ _))
    | (with_reducible apply fun h => Kept.trans h (State.zeroHost_kept _ _ _))
    | (with_reducible apply fun h => Kept.trans h (State.hostWrite_kept _ _ _))
    | (with_reducible apply fun h => Kept.trans h (State.plateToHost_kept _ _ _ _))
    | (with_reducible apply Kept.foldl; on_goal 2 => intro _ _)
    | with_reducible apply Kept.ite
    | split
    | fail_if_no_progress (with_reducible apply Kept.upd <;> try with_reducible rfl)

theorem State.captureDone_kept (s : State) : Kept s (s.captureDone) := by
  unfold State.captureDone
  repeat' first
    | with_reducible apply Kept.refl
    | assumption
    | (extract_lets +onlyGivenNames y; first | (refine Kept.step (y := y) ?_ (fun _ => ?_); on_goal 2 => clear_value y; on_goal 1 => subst y) | subst y)
    | (with_reducible apply fun h => Kept.trans h (State.writeImage_kept _ _))
    | (with_reducible apply fun h => Kept.trans h (State.handback_kept _ _ _ _ _))
    | split
    | fail_if_no_progress (with_reducible apply Kept.upd <;> try with_reducible rfl)

theorem State.releasePages_kept (s : State) (c : CtxId) : Kept s (s.releasePages c) := by
  unfold State.releasePages
  repeat' first
    | with_reducible apply Kept.refl
    | assumption
    | (extract_lets +onlyGivenNames y; first | (refine Kept.step (y := y) ?_ (fun _ => ?_); on_goal 2 => clear_value y; on_goal 1 => subst y) | subst y)
    | (with_reducible apply fun h => Kept.trans h (State.freeHandle_kept _ _ _))
    | (with_reducible apply fun h => Kept.trans h (State.releaseHandle_kept _ _ _))
    | (with_reducible apply fun h => Kept.trans h (State.releaseFrame_kept _ _))
    | (with_reducible apply fun h => Kept.trans h (State.uncharge_kept _ _ _ _))
    | (with_reducible apply Kept.foldl; on_goal 2 => intro _ _)
    | with_reducible apply Kept.ite
    | split
    | fail_if_no_progress (with_reducible apply Kept.upd <;> try with_reducible rfl)

theorem State.forgetContext_kept (s : State) (c : CtxId) : Kept s (s.forgetContext c) := by
  unfold State.forgetContext
  repeat' first
    | with_reducible apply Kept.refl
    | assumption
    | (extract_lets +onlyGivenNames y; first | (refine Kept.step (y := y) ?_ (fun _ => ?_); on_goal 2 => clear_value y; on_goal 1 => subst y) | subst y)
    | (with_reducible apply fun h => Kept.trans h (State.releasePages_kept _ _))
    | (with_reducible apply fun h => Kept.trans h (State.streamsCtxGone_kept _ _))
    | (with_reducible apply fun h => Kept.trans h (State.gcReplaced_kept _))
    | with_reducible apply Kept.ite
    | split
    | fail_if_no_progress (with_reducible apply Kept.upd <;> try with_reducible rfl)

theorem State.destroyBegin_kept (s : State) (c : CtxId) : Kept s (s.destroyBegin c) := by
  unfold State.destroyBegin
  repeat' first
    | with_reducible apply Kept.refl
    | assumption
    | (extract_lets +onlyGivenNames y; first | (refine Kept.step (y := y) ?_ (fun _ => ?_); on_goal 2 => clear_value y; on_goal 1 => subst y) | subst y)
    | (with_reducible apply fun h => Kept.trans h (State.modCtx_kept _ _ _))
    | (with_reducible apply fun h => Kept.trans h (State.requestKill_kept _ _ _ _))
    | (with_reducible apply fun h => Kept.trans h (State.settle_kept _))
    | (with_reducible apply fun h => Kept.trans h (State.snapCancel_kept _ _))
    | (with_reducible apply fun h => Kept.trans h (State.endGroup_kept _ _))
    | (with_reducible apply Kept.foldl; on_goal 2 => intro _ _)
    | with_reducible apply Kept.ite
    | split
    | fail_if_no_progress (with_reducible apply Kept.upd <;> try with_reducible rfl)

theorem State.handbackAll_kept (s : State) (c : CtxId) (x : Context) : Kept s (s.handbackAll c x) := by
  unfold State.handbackAll
  repeat' first
    | with_reducible apply Kept.refl
    | assumption
    | (extract_lets +onlyGivenNames y; first | (refine Kept.step (y := y) ?_ (fun _ => ?_); on_goal 2 => clear_value y; on_goal 1 => subst y) | subst y)
    | (with_reducible apply fun h => Kept.trans h (State.handback_kept _ _ _ _ _))
    | (with_reducible apply fun h => Kept.trans h (State.modCtx_kept _ _ _))
    | (with_reducible apply Kept.foldl; on_goal 2 => intro _ _)
    | with_reducible apply Kept.ite
    | split
    | fail_if_no_progress (with_reducible apply Kept.upd <;> try with_reducible rfl)

theorem State.destroyEnd_kept (s : State) (c : CtxId) (x : Context) : Kept s (s.destroyEnd c x) := by
  unfold State.destroyEnd
  repeat' first
    | with_reducible apply Kept.refl
    | (with_reducible apply fun h => Kept.trans h (State.tallyEvent_kept _ _))
    | (with_reducible apply fun h => Kept.trans h (State.handbackAll_kept _ _ _))
    | (with_reducible apply fun h => Kept.trans h (State.forgetContext_kept _ _))
    | (with_reducible apply fun h => Kept.trans h (State.settle_kept _))

theorem State.ctxDestroy_kept (s : State) : Kept s (s.ctxDestroy) := by
  unfold State.ctxDestroy
  repeat' first
    | with_reducible apply Kept.refl
    | assumption
    | (extract_lets +onlyGivenNames y; first | (refine Kept.step (y := y) ?_ (fun _ => ?_); on_goal 2 => clear_value y; on_goal 1 => subst y) | subst y)
    | (with_reducible apply State.mbxRun_step <;> try intro _)
    | (with_reducible apply fun h => Kept.trans h (State.mbxStatus_kept _ _))
    | (with_reducible apply fun h => Kept.trans h (State.destroyBegin_kept _ _))
    | (with_reducible apply fun h => Kept.trans h (State.destroyEnd_kept _ _ _))
    | with_reducible apply Kept.ite
    | split

theorem State.dropGroup_kept (s : State) (g : GroupId) : Kept s (s.dropGroup g) := by
  unfold State.dropGroup
  repeat' first
    | with_reducible apply Kept.refl
    | assumption
    | (extract_lets +onlyGivenNames y; first | (refine Kept.step (y := y) ?_ (fun _ => ?_); on_goal 2 => clear_value y; on_goal 1 => subst y) | subst y)
    | (with_reducible apply fun h => Kept.trans h (State.releaseFrame_kept _ _))
    | (with_reducible apply fun h => Kept.trans h (State.modGroup_kept _ _ _))
    | (with_reducible apply Kept.foldl; on_goal 2 => intro _ _)

theorem State.dropContext_kept (s : State) (c : CtxId) : Kept s (s.dropContext c) := by
  unfold State.dropContext
  repeat' first
    | with_reducible apply Kept.refl
    | assumption
    | (extract_lets +onlyGivenNames y; first | (refine Kept.step (y := y) ?_ (fun _ => ?_); on_goal 2 => clear_value y; on_goal 1 => subst y) | subst y)
    | (with_reducible apply fun h => Kept.trans h (State.leaveField_kept _ _ _ _))
    | (with_reducible apply fun h => Kept.trans h (State.discard_kept _ _ _))
    | (with_reducible apply fun h => Kept.trans h (State.modCtx_kept _ _ _))
    | (with_reducible apply fun h => Kept.trans h (State.snapCancel_kept _ _))
    | (with_reducible apply fun h => Kept.trans h (State.dropGroup_kept _ _))
    | (with_reducible apply fun h => Kept.trans h (State.forgetContext_kept _ _))
    | (with_reducible apply Kept.foldl; on_goal 2 => intro _ _)
    | split

theorem State.dropContexts_kept (s : State) (p : FnId → Bool) : Kept s (s.dropContexts p) := by
  unfold State.dropContexts
  repeat' first
    | with_reducible apply Kept.refl
    | (with_reducible apply fun h => Kept.trans h (State.dropContext_kept _ _))
    | (with_reducible apply Kept.foldl; on_goal 2 => intro _ _)

theorem State.vfFlr_kept (s : State) (vf : FnId) : Kept s (s.vfFlr vf) := by
  unfold State.vfFlr
  repeat' first
    | with_reducible apply Kept.refl
    | (with_reducible apply fun h => Kept.trans h (State.dropContexts_kept _ _))
    | (with_reducible apply fun h => Kept.trans h (State.settle_kept _))
    | with_reducible apply Kept.ite
    | fail_if_no_progress (with_reducible apply Kept.upd <;> try with_reducible rfl)

theorem State.pf0Flr_kept (s : State) : Kept s s.pf0Flr := by
  unfold State.pf0Flr
  extract_lets y
  have h : Kept s y := by
    refine Kept.trans ?_ (State.settle_kept _)
    refine Kept.trans ?_ (State.dropContexts_kept _ _)
    with_reducible apply Kept.upd <;> first | with_reducible rfl | exact Kept.refl s
  exact h.trans ⟨rfl, id, id, fun _ => rfl⟩

theorem State.applyRole_kept (s : State) : Kept s (s.applyRole) := by
  unfold State.applyRole
  repeat' first
    | with_reducible apply Kept.refl
    | assumption
    | (extract_lets +onlyGivenNames y; first | (refine Kept.step (y := y) ?_ (fun _ => ?_); on_goal 2 => clear_value y; on_goal 1 => subst y) | subst y)
    | with_reducible apply Kept.ite
    | fail_if_no_progress (with_reducible apply Kept.upd <;> try with_reducible rfl)

theorem State.applySettings_kept (s : State) : Kept s (s.applySettings) := by
  unfold State.applySettings
  repeat' first
    | with_reducible apply Kept.refl
    | assumption
    | (extract_lets +onlyGivenNames y; first | (refine Kept.step (y := y) ?_ (fun _ => ?_); on_goal 2 => clear_value y; on_goal 1 => subst y) | subst y)
    | (with_reducible apply fun h => Kept.trans h (State.announce_kept _))
    | (with_reducible apply fun h => Kept.trans h (State.evaluateAll_kept _))
    | fail_if_no_progress (with_reducible apply Kept.upd <;> try with_reducible rfl)

theorem State.applyFences_kept (s : State) : Kept s (s.applyFences) := by
  unfold State.applyFences
  repeat' first
    | with_reducible apply Kept.refl
    | assumption
    | (extract_lets +onlyGivenNames y; first | (refine Kept.step (y := y) ?_ (fun _ => ?_); on_goal 2 => clear_value y; on_goal 1 => subst y) | subst y)
    | (with_reducible apply fun h => Kept.trans h (State.fenceEvent_kept _ _ _ _))
    | (with_reducible apply Kept.foldl; on_goal 2 => intro _ _)
    | with_reducible apply Kept.ite
    | fail_if_no_progress (with_reducible apply Kept.upd <;> try with_reducible rfl)

theorem State.verifyLinks_kept (s before : State) : Kept s (s.verifyLinks before) := by
  unfold State.verifyLinks
  repeat' first
    | with_reducible apply Kept.refl
    | assumption
    | (extract_lets +onlyGivenNames y; first | (refine Kept.step (y := y) ?_ (fun _ => ?_); on_goal 2 => clear_value y; on_goal 1 => subst y) | subst y)
    | with_reducible apply Kept.ite
    | split
    | fail_if_no_progress (with_reducible apply Kept.upd <;> try with_reducible rfl)

theorem State.parentCheck_kept (s : State) : Kept s (s.parentCheck) := by
  unfold State.parentCheck
  repeat' first
    | with_reducible apply Kept.refl
    | assumption
    | (extract_lets +onlyGivenNames y; first | (refine Kept.step (y := y) ?_ (fun _ => ?_); on_goal 2 => clear_value y; on_goal 1 => subst y) | subst y)
    | (with_reducible apply fun h => Kept.trans h (State.enterHoldover_kept _))
    | with_reducible apply Kept.ite
    | split
    | fail_if_no_progress (with_reducible apply Kept.upd <;> try with_reducible rfl)

theorem State.timeStep_kept (s : State) : Kept s (s.timeStep) := by
  unfold State.timeStep
  repeat' first
    | with_reducible apply Kept.refl
    | assumption
    | (extract_lets +onlyGivenNames y; first | (refine Kept.step (y := y) ?_ (fun _ => ?_); on_goal 2 => clear_value y; on_goal 1 => subst y) | subst y)
    | (with_reducible apply fun h => Kept.trans h (State.raise_kept _ _ _ _))
    | split
    | fail_if_no_progress (with_reducible apply Kept.upd <;> try with_reducible rfl)

theorem State.sendByBe_kept (s : State) (t : Topo) (g : GroupId) (d : Nat) (f : Flit) : Kept s (s.sendByBe t g d f) := by
  unfold State.sendByBe
  repeat' first
    | with_reducible apply Kept.refl
    | assumption
    | (extract_lets +onlyGivenNames y; first | (refine Kept.step (y := y) ?_ (fun _ => ?_); on_goal 2 => clear_value y; on_goal 1 => subst y) | subst y)
    | (with_reducible apply fun h => Kept.trans h (State.queueBe_kept _ _))
    | (with_reducible apply fun h => Kept.trans h (State.modGroup_kept _ _ _))
    | split
    | fail_if_no_progress (with_reducible apply Kept.upd <;> try with_reducible rfl)

theorem State.streamSend_kept (s : State) (g : GroupId) (d : Nat) : Kept s (s.streamSend g d).2 := by
  unfold State.streamSend
  dsimp only
  exact Kept.ite (State.modGroup_kept s g _) (Kept.upd (State.modGroup_kept s g _) rfl rfl rfl rfl rfl)

theorem State.drainByBe_kept (t : Topo) (g : GroupId) (d n : Nat) (s : State) : Kept s (State.drainByBe t g d n s) := by
  induction n generalizing s with
  | zero => exact Kept.refl s
  | succ n ih =>
    unfold State.drainByBe
    generalize hs : s.streamSend g d = p
    obtain ⟨o, u⟩ := p
    have hu : Kept s u := by
      have h := State.streamSend_kept s g d
      rw [hs] at h
      exact h
    cases o with
    | none => exact hu
    | some f => exact hu.trans ((State.sendByBe_kept u _ _ _ _).trans (ih _))

theorem State.streamsByBe_kept (s : State) : Kept s (s.streamsByBe) := by
  unfold State.streamsByBe
  repeat' first
    | with_reducible apply Kept.refl
    | assumption
    | (extract_lets +onlyGivenNames y; first | (refine Kept.step (y := y) ?_ (fun _ => ?_); on_goal 2 => clear_value y; on_goal 1 => subst y) | subst y)
    | (with_reducible apply Kept.foldl; on_goal 2 => intro _ _)
    | (with_reducible apply fun h => Kept.trans h (State.drainByBe_kept _ _ _ _ _))
    | with_reducible apply Kept.ite
    | split
    | fail_if_no_progress (with_reducible apply Kept.upd <;> try with_reducible rfl)

theorem State.toFrame_kept (s : State) : Kept s (s.toFrame) := by
  unfold State.toFrame
  repeat' first
    | with_reducible apply Kept.refl
    | assumption
    | (extract_lets +onlyGivenNames y; first | (refine Kept.step (y := y) ?_ (fun _ => ?_); on_goal 2 => clear_value y; on_goal 1 => subst y) | subst y)
    | (with_reducible apply fun h => Kept.trans h (State.passToHt_kept _ _))
    | with_reducible apply Kept.ite
    | fail_if_no_progress (with_reducible apply Kept.upd <;> try with_reducible rfl)

theorem State.frameBoundary_kept (s : State) : Kept s (s.frameBoundary) := by
  unfold State.frameBoundary
  repeat' first
    | with_reducible apply Kept.refl
    | assumption
    | (extract_lets +onlyGivenNames y; first | (refine Kept.step (y := y) ?_ (fun _ => ?_); on_goal 2 => clear_value y; on_goal 1 => subst y) | subst y)
    | (with_reducible apply fun h => Kept.trans h (State.toFrame_kept _))
    | (with_reducible apply fun h => Kept.trans h (State.applyRole_kept _))
    | (with_reducible apply fun h => Kept.trans h (State.applySettings_kept _))
    | (with_reducible apply fun h => Kept.trans h (State.applyFences_kept _))
    | (with_reducible apply fun h => Kept.trans h (State.loopBegin_kept _))
    | (with_reducible apply fun h => Kept.trans h (State.verifyLinks_kept _ _))
    | (with_reducible apply fun h => Kept.trans h (State.parentCheck_kept _))
    | (with_reducible apply fun h => Kept.trans h (State.cmpFrame_kept _))
    | (with_reducible apply fun h => Kept.trans h (State.choosePlans_kept _))
    | (with_reducible apply fun h => Kept.trans h (State.streamsByBe_kept _))
    | (with_reducible apply fun h => Kept.trans h (State.sendAcks_kept _))
    | (with_reducible apply fun h => Kept.trans h (State.timeStep_kept _))
    | (with_reducible apply fun h => Kept.trans h (State.tkpSettle_kept _))
    | with_reducible apply Kept.ite
    | split
    | fail_if_no_progress (with_reducible apply Kept.upd <;> try with_reducible rfl)

theorem State.fillSlot_kept (l : LinkId) (d : Nat) (gs : List GroupId) (n : Nat) (s : State) :
    Kept s (State.fillSlot l d gs n s) := by
  induction n generalizing s with
  | zero => exact Kept.refl s
  | succ n ih =>
    unfold State.fillSlot
    dsimp only
    split
    · exact Kept.refl s
    · generalize hs : State.streamSend _ _ _ = p
      obtain ⟨o, u⟩ := p
      have hu : Kept s u := by
        have h := congrArg Prod.snd hs
        dsimp only at h
        subst h
        refine Kept.trans ?_ (State.streamSend_kept _ _ _)
        refine Kept.trans ?_ (State.modGroup_kept _ _ _)
        exact Kept.foldl _ _ (Kept.refl s) fun y g => State.modGroup_kept y g _
      cases o with
      | none => exact hu.trans (ih u)
      | some f => exact hu.trans ((State.modLink_kept u _ _).trans (ih _))

theorem State.runSlot_kept (s : State) (i : Nat) (l : LinkId) (back : Nat) : Kept s (s.runSlot i l back) :=
  State.fillSlot_kept l _ _ _ s

theorem State.linkSlot_kept (s : State) (i : Nat) (l : LinkId) : Kept s (s.linkSlot i l) := by
  unfold State.linkSlot
  repeat' first
    | with_reducible apply Kept.refl
    | assumption
    | (extract_lets +onlyGivenNames y; first | (refine Kept.step (y := y) ?_ (fun _ => ?_); on_goal 2 => clear_value y; on_goal 1 => subst y) | subst y)
    | (with_reducible apply fun h => Kept.trans h (State.modLink_kept _ _ _))
    | (with_reducible apply fun h => Kept.trans h (State.runSlot_kept _ _ _ _))
    | with_reducible apply Kept.ite
    | split
    | fail_if_no_progress (with_reducible apply Kept.upd <;> try with_reducible rfl)

theorem State.slotStart_kept (s : State) : Kept s (s.slotStart) := by
  unfold State.slotStart
  repeat' first
    | with_reducible apply Kept.refl
    | assumption
    | (extract_lets +onlyGivenNames y; first | (refine Kept.step (y := y) ?_ (fun _ => ?_); on_goal 2 => clear_value y; on_goal 1 => subst y) | subst y)
    | (with_reducible apply fun h => Kept.trans h (State.passToHt_kept _ _))
    | (with_reducible apply fun h => Kept.trans h (State.linkSlot_kept _ _ _))
    | (with_reducible apply Kept.foldl; on_goal 2 => intro _ _)
    | with_reducible apply Kept.ite
    | fail_if_no_progress (with_reducible apply Kept.upd <;> try with_reducible rfl)

theorem State.loadCal_kept (s : State) : Kept s (s.loadCal) := by
  unfold State.loadCal
  repeat' first
    | with_reducible apply Kept.refl
    | assumption
    | (extract_lets +onlyGivenNames y; first | (refine Kept.step (y := y) ?_ (fun _ => ?_); on_goal 2 => clear_value y; on_goal 1 => subst y) | subst y)
    | with_reducible apply Kept.ite
    | split
    | fail_if_no_progress (with_reducible apply Kept.upd <;> try with_reducible rfl)

theorem State.bootBank_kept (s : State) : Kept s (s.bootBank) := by
  unfold State.bootBank
  repeat' first
    | with_reducible apply Kept.refl
    | assumption
    | (extract_lets +onlyGivenNames y; first | (refine Kept.step (y := y) ?_ (fun _ => ?_); on_goal 2 => clear_value y; on_goal 1 => subst y) | subst y)
    | with_reducible apply Kept.ite
    | fail_if_no_progress (with_reducible apply Kept.upd <;> try with_reducible rfl)

theorem State.coreClear_kept (s : State) : Kept s s.coreClear :=
  ⟨rfl, fun w => by
    obtain ⟨_, h, _⟩ := s.memoriesWf_iff.mp w
    exact s.coreClear.memoriesWf_iff.mpr ⟨rfl, h, rfl⟩, id, id⟩

theorem State.abandonCapture_kept (s : State) : Kept s (s.abandonCapture) := by
  unfold State.abandonCapture
  repeat' first
    | with_reducible apply Kept.refl
    | (with_reducible apply fun h => Kept.trans h (State.hostUndefined_kept _ _ _))
    | split

theorem State.abandonShards_kept (s : State) : Kept s (s.abandonShards) := by
  unfold State.abandonShards
  repeat' first
    | with_reducible apply Kept.refl
    | assumption
    | (extract_lets +onlyGivenNames y; first | (refine Kept.step (y := y) ?_ (fun _ => ?_); on_goal 2 => clear_value y; on_goal 1 => subst y) | subst y)
    | (with_reducible apply fun h => Kept.trans h (State.hostUndefined_kept _ _ _))
    | (with_reducible apply Kept.foldl; on_goal 2 => intro _ _)
    | with_reducible apply Kept.ite
    | split

theorem State.resetBeacon_kept (s : State) : Kept s (s.resetBeacon) := by
  unfold State.resetBeacon
  repeat' first
    | with_reducible apply Kept.refl
    | (with_reducible apply fun h => Kept.trans h (State.raiseBeacon_kept _ _))
    | with_reducible apply Kept.ite

theorem State.mbxCut_kept (s : State) : Kept s (s.mbxCut) := by
  unfold State.mbxCut
  repeat' first
    | with_reducible apply Kept.refl
    | assumption
    | (extract_lets +onlyGivenNames y; first | (refine Kept.step (y := y) ?_ (fun _ => ?_); on_goal 2 => clear_value y; on_goal 1 => subst y) | subst y)
    | (with_reducible apply fun h => Kept.trans h (State.mbxFail_kept _ _))
    | with_reducible apply Kept.ite
    | fail_if_no_progress (with_reducible apply Kept.upd <;> try with_reducible rfl)

theorem State.escalate_kept (s : State) (cause : Nat) (counted : Bool) : Kept s (s.escalate cause counted) := by
  unfold State.escalate
  repeat' first
    | with_reducible apply Kept.refl
    | assumption
    | (extract_lets +onlyGivenNames y; first | (refine Kept.step (y := y) ?_ (fun _ => ?_); on_goal 2 => clear_value y; on_goal 1 => subst y) | subst y)
    | with_reducible apply Kept.ite
    | fail_if_no_progress (with_reducible apply Kept.upd <;> try with_reducible rfl)

theorem State.retireLinks_kept (s : State) : Kept s (s.retireLinks) := by
  unfold State.retireLinks
  repeat' first
    | with_reducible apply Kept.refl
    | assumption
    | (extract_lets +onlyGivenNames y; first | (refine Kept.step (y := y) ?_ (fun _ => ?_); on_goal 2 => clear_value y; on_goal 1 => subst y) | subst y)
    | (with_reducible apply fun h => Kept.trans h (State.wake_kept _ _))
    | (with_reducible apply fun h => Kept.trans h (State.train_kept _ _ _))
    | (with_reducible apply fun h => Kept.trans h (State.setLink_kept _ _ _))
    | (with_reducible apply Kept.foldl; on_goal 2 => intro _ _)
    | with_reducible apply Kept.ite
    | split
    | fail_if_no_progress (with_reducible apply Kept.upd <;> try with_reducible rfl)

theorem State.retire_kept (s : State) (cause : Nat) : Kept s (s.retire cause) := by
  have ht : ∀ e : State, Kept e { e with
      rst.retired := true, rst.coreHeld := true, rst.retireAfter := false, rst.cause := BitVec.ofNat 8 cause, rst.detail := 0 } :=
    fun e => Kept.updHeld (Kept.refl e) rfl rfl rfl rfl
  unfold State.retire
  refine Kept.trans ?_ (State.raise_kept _ _ _ _)
  refine Kept.trans ?_ (State.coreClear_kept _)
  refine Kept.trans ?_ ((State.abandonCapture_kept _).trans (State.abandonShards_kept _))
  refine Kept.trans ?_ ((State.announce_kept _).trans (State.retireLinks_kept _))
  exact ((State.escalate_kept s cause false).trans (ht _)).trans (State.raiseBeacon_kept _ _)

theorem State.coreStart_kept (s : State) (cause : Nat) (counted : Bool) : Kept s (s.coreStart cause counted) := by
  unfold State.coreStart
  extract_lets +onlyGivenNames e r y
  have hy : Kept s y := by
    refine (State.escalate_kept s cause counted).trans ?_
    exact ⟨rfl, id, id, id⟩
  clear_value y
  split
  · exact hy
  · extract_lets z
    have hz : Kept s z := hy.trans (((((State.resetBeacon_kept y).trans (State.mbxCut_kept _)).trans (State.abandonCapture_kept _)).trans
      (State.abandonShards_kept _)).trans (State.coreClear_kept _))
    clear_value z
    refine hz.trans ⟨rfl, id, fun _ => Bool.or_true _, id⟩

theorem State.coreDone_kept (s : State) : Kept s (s.coreDone) := by
  unfold State.coreDone
  repeat' first
    | with_reducible apply Kept.refl
    | assumption
    | (extract_lets +onlyGivenNames y; first | (refine Kept.step (y := y) ?_ (fun _ => ?_); on_goal 2 => clear_value y; on_goal 1 => subst y) | subst y)
    | (with_reducible apply fun h => Kept.trans h (State.raise_kept _ _ _ _))
    | (with_reducible apply fun h => Kept.trans h (State.retire_kept _ _))
    | with_reducible apply Kept.ite
    | fail_if_no_progress (with_reducible apply Kept.updHeld <;> first | with_reducible rfl | exact Bool.or_true _ | exact Bool.not_or_self _ | (with_reducible apply fun h => Kept.trans h (Kept.refl _)))

theorem State.systemClear_kept (s : State) : Kept s s.systemClear :=
  ⟨rfl, fun w => by
    obtain ⟨_, h, _⟩ := s.memoriesWf_iff.mp w
    exact s.systemClear.memoriesWf_iff.mpr ⟨rfl, h, rfl⟩,
   fun _ => by
    show (!s.rst.retired || true) = true
    exact Bool.or_true _,
   fun _ => rfl⟩

theorem State.trainAll_kept (s : State) : Kept s (s.trainAll) := by
  unfold State.trainAll
  repeat' first
    | with_reducible apply Kept.refl
    | (with_reducible apply fun h => Kept.trans h (State.train_kept _ _ _))
    | (with_reducible apply Kept.foldl; on_goal 2 => intro _ _)
    | with_reducible apply Kept.ite

theorem State.systemStart_kept (s : State) (cause : Nat) (detail : Nat) (counted : Bool) : Kept s (s.systemStart cause detail counted) := by
  unfold State.systemStart
  repeat' first
    | with_reducible apply Kept.refl
    | assumption
    | (extract_lets +onlyGivenNames y; first | (refine Kept.step (y := y) ?_ (fun _ => ?_); on_goal 2 => clear_value y; on_goal 1 => subst y) | subst y)
    | (with_reducible apply fun h => Kept.trans h (State.escalate_kept _ _ _))
    | (with_reducible apply fun h => Kept.trans h (State.resetBeacon_kept _))
    | (with_reducible apply fun h => Kept.trans h (State.abandonCapture_kept _))
    | (with_reducible apply fun h => Kept.trans h (State.abandonShards_kept _))
    | (with_reducible apply fun h => Kept.trans h (State.systemClear_kept _))
    | (with_reducible apply fun h => Kept.trans h (State.loadCal_kept _))
    | (with_reducible apply fun h => Kept.trans h (State.bootBank_kept _))
    | (with_reducible apply fun h => Kept.trans h (State.trainAll_kept _))
    | with_reducible apply Kept.ite
    | fail_if_no_progress (with_reducible apply Kept.upd <;> try with_reducible rfl)

theorem State.becomeReady_kept (s : State) : Kept s (s.becomeReady) := by
  unfold State.becomeReady
  repeat' first
    | with_reducible apply Kept.refl
    | assumption
    | (extract_lets +onlyGivenNames y; first | (refine Kept.step (y := y) ?_ (fun _ => ?_); on_goal 2 => clear_value y; on_goal 1 => subst y) | subst y)
    | (with_reducible apply fun h => Kept.trans h (State.retire_kept _ _))
    | with_reducible apply Kept.ite
    | fail_if_no_progress (with_reducible apply Kept.updHeld <;> first | with_reducible rfl | exact Bool.or_true _ | exact Bool.not_or_self _ | (with_reducible apply fun h => Kept.trans h (Kept.refl _)))

theorem State.healthEvent_kept (s : State) (part : Nat) (score : Word) (thr : Nat) (was : Bool) (new : Bool) : Kept s (s.healthEvent part score thr was new) := by
  unfold State.healthEvent
  repeat' first
    | with_reducible apply Kept.refl
    | (with_reducible apply fun h => Kept.trans h (State.raise_kept _ _ _ _))
    | with_reducible apply Kept.ite

theorem State.healthSeam_kept (s : State) (d : DieId) : Kept s (s.healthSeam d) := by
  unfold State.healthSeam
  repeat' first
    | with_reducible apply Kept.refl
    | assumption
    | (extract_lets +onlyGivenNames y; first | (refine Kept.step (y := y) ?_ (fun _ => ?_); on_goal 2 => clear_value y; on_goal 1 => subst y) | subst y)
    | (with_reducible apply fun h => Kept.trans h (State.healthEvent_kept _ _ _ _ _ _))
    | fail_if_no_progress (with_reducible apply Kept.upd <;> try with_reducible rfl)

theorem State.healthLink_kept (s : State) (l : LinkId) : Kept s (s.healthLink l) := by
  unfold State.healthLink
  repeat' first
    | with_reducible apply Kept.refl
    | assumption
    | (extract_lets +onlyGivenNames y; first | (refine Kept.step (y := y) ?_ (fun _ => ?_); on_goal 2 => clear_value y; on_goal 1 => subst y) | subst y)
    | (with_reducible apply fun h => Kept.trans h (State.healthEvent_kept _ _ _ _ _ _))
    | fail_if_no_progress (with_reducible apply Kept.upd <;> try with_reducible rfl)

theorem State.healthPort_kept (s : State) (p : Fin 2) (errs : Nat) : Kept s (s.healthPort p errs) := by
  unfold State.healthPort
  repeat' first
    | with_reducible apply Kept.refl
    | assumption
    | (extract_lets +onlyGivenNames y; first | (refine Kept.step (y := y) ?_ (fun _ => ?_); on_goal 2 => clear_value y; on_goal 1 => subst y) | subst y)
    | (with_reducible apply fun h => Kept.trans h (State.healthEvent_kept _ _ _ _ _ _))
    | fail_if_no_progress (with_reducible apply Kept.upd <;> try with_reducible rfl)

theorem State.healthUpdate_kept (s : State) (p0 : Nat) (p1 : Nat) : Kept s (s.healthUpdate p0 p1) := by
  unfold State.healthUpdate
  repeat' first
    | with_reducible apply Kept.refl
    | assumption
    | (extract_lets +onlyGivenNames y; first | (refine Kept.step (y := y) ?_ (fun _ => ?_); on_goal 2 => clear_value y; on_goal 1 => subst y) | subst y)
    | (with_reducible apply fun h => Kept.trans h (State.pass_kept _ _))
    | (with_reducible apply fun h => Kept.trans h (State.healthSeam_kept _ _))
    | (with_reducible apply fun h => Kept.trans h (State.healthLink_kept _ _))
    | (with_reducible apply fun h => Kept.trans h (State.healthPort_kept _ _ _))
    | (with_reducible apply Kept.foldl; on_goal 2 => intro _ _)
    | split
    | fail_if_no_progress (with_reducible apply Kept.upd <;> try with_reducible rfl)

theorem State.healthRead_kept (s : State) : Kept s (s.healthRead) := by
  unfold State.healthRead
  repeat' first
    | with_reducible apply Kept.refl
    | (with_reducible apply State.mbxRunAlways_step <;> try intro _)
    | (with_reducible apply fun h => Kept.trans h (State.mbxOk_kept _ _))

theorem State.escRead_kept (s : State) : Kept s (s.escRead) := by
  unfold State.escRead
  repeat' first
    | with_reducible apply Kept.refl
    | (with_reducible apply State.mbxRunAlways_step <;> try intro _)
    | (with_reducible apply fun h => Kept.trans h (State.mbxOk_kept _ _))

theorem State.emptyStamps_kept (s : State) : Kept s (s.emptyStamps) := by
  unfold State.emptyStamps
  repeat' first
    | with_reducible apply Kept.refl
    | assumption
    | (extract_lets +onlyGivenNames y; first | (refine Kept.step (y := y) ?_ (fun _ => ?_); on_goal 2 => clear_value y; on_goal 1 => subst y) | subst y)
    | fail_if_no_progress (with_reducible apply Kept.upd <;> try with_reducible rfl)

theorem State.escClear_kept (s : State) : Kept s (s.escClear) := by
  unfold State.escClear
  repeat' first
    | with_reducible apply Kept.refl
    | (with_reducible apply State.mbxRunAlways_step <;> try intro _)
    | (with_reducible apply fun h => Kept.trans h (State.emptyStamps_kept _))
    | (with_reducible apply fun h => Kept.trans h (State.mbxStatus_kept _ _))

theorem State.hostFence_kept (s : State) : Kept s (s.hostFence) := by
  unfold State.hostFence
  repeat' first
    | with_reducible apply Kept.refl
    | assumption
    | (extract_lets +onlyGivenNames y; first | (refine Kept.step (y := y) ?_ (fun _ => ?_); on_goal 2 => clear_value y; on_goal 1 => subst y) | subst y)
    | (with_reducible apply fun h => Kept.trans h (State.fenceEvent_kept _ _ _ _))
    | with_reducible apply Kept.ite
    | fail_if_no_progress (with_reducible apply Kept.upd <;> try with_reducible rfl)

theorem State.linkFence_kept (s : State) (l : LinkId) (on : Bool) : Kept s (s.linkFence l on) := by
  unfold State.linkFence
  repeat' first
    | with_reducible apply Kept.refl
    | assumption
    | (extract_lets +onlyGivenNames y; first | (refine Kept.step (y := y) ?_ (fun _ => ?_); on_goal 2 => clear_value y; on_goal 1 => subst y) | subst y)
    | (with_reducible apply fun h => Kept.trans h (State.fenceEvent_kept _ _ _ _))
    | (with_reducible apply fun h => Kept.trans h (State.train_kept _ _ _))
    | with_reducible apply Kept.ite
    | fail_if_no_progress (with_reducible apply Kept.upd <;> try with_reducible rfl)

theorem State.dropQueued_kept (s : State) (l : LinkId) : Kept s (s.dropQueued l) := by
  unfold State.dropQueued
  repeat' first
    | with_reducible apply Kept.refl
    | assumption
    | (extract_lets +onlyGivenNames y; first | (refine Kept.step (y := y) ?_ (fun _ => ?_); on_goal 2 => clear_value y; on_goal 1 => subst y) | subst y)
    | (with_reducible apply fun h => Kept.trans h (State.modLink_kept _ _ _))
    | fail_if_no_progress (with_reducible apply Kept.upd <;> try with_reducible rfl)

theorem State.drainAnswer_kept (s : State) (d : FenceDomain) (works : List TimedWork) : Kept s (s.drainAnswer d works) := by
  unfold State.drainAnswer
  repeat' first
    | with_reducible apply Kept.refl
    | assumption
    | (extract_lets +onlyGivenNames y; first | (refine Kept.step (y := y) ?_ (fun _ => ?_); on_goal 2 => clear_value y; on_goal 1 => subst y) | subst y)
    | (with_reducible apply fun h => Kept.trans h (State.dropQueued_kept _ _))
    | (with_reducible apply fun h => Kept.trans h (State.workTimeout_kept _ _))
    | (with_reducible apply fun h => Kept.trans h (State.raise_kept _ _ _ _))
    | (with_reducible apply Kept.foldl; on_goal 2 => intro _ _)
    | split

theorem State.drainExpiry_kept (s : State) (d : FenceDomain) (works : List TimedWork) : Kept s (s.drainExpiry d works) := by
  unfold State.drainExpiry
  repeat' first
    | with_reducible apply Kept.refl
    | (with_reducible apply fun h => Kept.trans h (State.drainAnswer_kept _ _ _))
    | (with_reducible apply fun h => Kept.trans h (State.canaryEvent_kept _ _ _))
    | with_reducible apply Kept.ite

theorem State.poisonQuad_kept (s : State) (q : Nat) : Kept s (s.poisonQuad q) := by
  unfold State.poisonQuad
  extract_lets g y
  have hy : Kept s y := ((State.zeroQuad_kept s q).trans (State.mapCtxs_kept _ _)).trans (State.mapHeld_kept _ _)
  exact hy.trans (Kept.upd (Kept.refl y) rfl rfl rfl rfl rfl)

theorem State.dropRequests_kept (s : State) (q : Nat) : Kept s (s.dropRequests q) := by
  unfold State.dropRequests
  repeat' first
    | with_reducible apply Kept.refl
    | assumption
    | (extract_lets +onlyGivenNames y; first | (refine Kept.step (y := y) ?_ (fun _ => ?_); on_goal 2 => clear_value y; on_goal 1 => subst y) | subst y)
    | (with_reducible apply fun h => Kept.trans h (State.modCmd_kept _ _ _ _))
    | with_reducible apply Kept.ite
    | split
    | fail_if_no_progress (with_reducible apply Kept.upd <;> try with_reducible rfl)

theorem State.resetQuad_kept (s : State) (q : Nat) : Kept s (s.resetQuad q) := by
  unfold State.resetQuad
  repeat' first
    | with_reducible apply Kept.refl
    | (with_reducible apply fun h => Kept.trans h (State.dropRequests_kept _ _))
    | (with_reducible apply fun h => Kept.trans h (State.poisonQuad_kept _ _))

theorem State.resetLink_kept (s : State) (l : LinkId) : Kept s (s.resetLink l) := by
  unfold State.resetLink
  repeat' first
    | with_reducible apply Kept.refl
    | assumption
    | (extract_lets +onlyGivenNames y; first | (refine Kept.step (y := y) ?_ (fun _ => ?_); on_goal 2 => clear_value y; on_goal 1 => subst y) | subst y)
    | (with_reducible apply fun h => Kept.trans h (State.modLink_kept _ _ _))
    | (with_reducible apply fun h => Kept.trans h (State.failLink_kept _ _ _))

theorem State.blockReset_kept (s : State) (target : BitVec 5) (isLink : Bool) : Kept s (s.blockReset target isLink) := by
  unfold State.blockReset
  repeat' first
    | with_reducible apply Kept.refl
    | assumption
    | (extract_lets +onlyGivenNames y; first | (refine Kept.step (y := y) ?_ (fun _ => ?_); on_goal 2 => clear_value y; on_goal 1 => subst y) | subst y)
    | (with_reducible apply fun h => Kept.trans h (State.resetLink_kept _ _))
    | (with_reducible apply fun h => Kept.trans h (State.resetQuad_kept _ _))
    | with_reducible apply Kept.ite
    | fail_if_no_progress (with_reducible apply Kept.upd <;> try with_reducible rfl)

theorem State.blockResetDone_kept (s : State) : Kept s (s.blockResetDone) := by
  unfold State.blockResetDone
  repeat' first
    | with_reducible apply Kept.refl
    | assumption
    | (extract_lets +onlyGivenNames y; first | (refine Kept.step (y := y) ?_ (fun _ => ?_); on_goal 2 => clear_value y; on_goal 1 => subst y) | subst y)
    | (with_reducible apply fun h => Kept.trans h (State.train_kept _ _ _))
    | with_reducible apply Kept.ite
    | split
    | fail_if_no_progress (with_reducible apply Kept.upd <;> try with_reducible rfl)

theorem State.fieldCanary_kept (s : State) : Kept s (s.fieldCanary) := by
  unfold State.fieldCanary
  repeat' first
    | with_reducible apply Kept.refl
    | (with_reducible apply fun h => Kept.trans h (State.freezeField_kept _))
    | (with_reducible apply fun h => Kept.trans h (State.endWith_kept _ _ _ _ _))
    | (with_reducible apply fun h => Kept.trans h (State.canaryEvent_kept _ _ _))
    | split

theorem State.mbxCanary_kept (s : State) : Kept s (s.mbxCanary) := by
  unfold State.mbxCanary
  repeat' first
    | with_reducible apply Kept.refl
    | (with_reducible apply fun h => Kept.trans h (State.mbxFail_kept _ _))
    | (with_reducible apply fun h => Kept.trans h (State.canaryEvent_kept _ _ _))
    | with_reducible apply Kept.ite

theorem State.overseerExpiry_kept (s : State) (hub : Nat) : Kept s (s.overseerExpiry hub) := by
  unfold State.overseerExpiry
  repeat' first
    | with_reducible apply Kept.refl
    | assumption
    | (extract_lets +onlyGivenNames y; first | (refine Kept.step (y := y) ?_ (fun _ => ?_); on_goal 2 => clear_value y; on_goal 1 => subst y) | subst y)
    | (with_reducible apply fun h => Kept.trans h (State.canaryEvent_kept _ _ _))
    | (with_reducible apply fun h => Kept.trans h (State.systemStart_kept _ _ _ _))
    | with_reducible apply Kept.ite
    | split
    | fail_if_no_progress (with_reducible apply Kept.upd <;> try with_reducible rfl)

theorem State.fenceContext_kept (s : State) (c : CtxId) : Kept s (s.fenceContext c) := by
  unfold State.fenceContext
  repeat' first
    | with_reducible apply Kept.refl
    | assumption
    | (extract_lets +onlyGivenNames y; first | (refine Kept.step (y := y) ?_ (fun _ => ?_); on_goal 2 => clear_value y; on_goal 1 => subst y) | subst y)
    | (with_reducible apply fun h => Kept.trans h (State.modCtx_kept _ _ _))
    | (with_reducible apply fun h => Kept.trans h (State.settle_kept _))
    | with_reducible apply Kept.ite
    | split
    | fail_if_no_progress (with_reducible apply Kept.upd <;> try with_reducible rfl)

theorem State.selfFaultAct_kept (s : State) (k : CanaryOf) : Kept s (s.selfFaultAct k) := by
  unfold State.selfFaultAct
  repeat' first
    | with_reducible apply Kept.refl
    | assumption
    | (extract_lets +onlyGivenNames y; first | (refine Kept.step (y := y) ?_ (fun _ => ?_); on_goal 2 => clear_value y; on_goal 1 => subst y) | subst y)
    | (with_reducible apply fun h => Kept.trans h (State.fenceContext_kept _ _))
    | (with_reducible apply fun h => Kept.trans h (State.modGroup_kept _ _ _))
    | (with_reducible apply fun h => Kept.trans h (State.snapEnd_kept _ _ _))
    | (with_reducible apply fun h => Kept.trans h (State.freeze_kept _))
    | (with_reducible apply fun h => Kept.trans h (State.drainAnswer_kept _ _ _))
    | (with_reducible apply fun h => Kept.trans h (State.systemStart_kept _ _ _ _))
    | with_reducible apply Kept.ite
    | split
    | fail_if_no_progress (with_reducible apply Kept.upd <;> try with_reducible rfl)

theorem State.selfFault_kept (s : State) (k : CanaryOf) : Kept s (s.selfFault k) := by
  unfold State.selfFault
  repeat' first
    | with_reducible apply Kept.refl
    | assumption
    | (extract_lets +onlyGivenNames y; first | (refine Kept.step (y := y) ?_ (fun _ => ?_); on_goal 2 => clear_value y; on_goal 1 => subst y) | subst y)
    | (with_reducible apply fun h => Kept.trans h (State.raise_kept _ _ _ _))
    | (with_reducible apply fun h => Kept.trans h (State.selfFaultAct_kept _ _))
    | fail_if_no_progress (with_reducible apply Kept.upd <;> try with_reducible rfl)

theorem State.expireAll_kept (s : State) (r : LimitReg) : Kept s (s.expireAll r) := by
  unfold State.expireAll
  repeat' first
    | with_reducible apply Kept.refl
    | assumption
    | (extract_lets +onlyGivenNames y; first | (refine Kept.step (y := y) ?_ (fun _ => ?_); on_goal 2 => clear_value y; on_goal 1 => subst y) | subst y)
    | (with_reducible apply fun h => Kept.trans h (State.waitExpiry_kept _ _ _))
    | (with_reducible apply fun h => Kept.trans h (State.holderTimeout_kept _ _ _))
    | (with_reducible apply fun h => Kept.trans h (State.stepMaxExpiry_kept _ _))
    | (with_reducible apply fun h => Kept.trans h (State.colCanary_kept _ _))
    | (with_reducible apply fun h => Kept.trans h (State.snapTimeout_kept _ _))
    | (with_reducible apply fun h => Kept.trans h (State.fieldCanary_kept _))
    | (with_reducible apply fun h => Kept.trans h (State.drainExpiry_kept _ _ _))
    | (with_reducible apply fun h => Kept.trans h (State.overseerExpiry_kept _ _))
    | (with_reducible apply Kept.foldl; on_goal 2 => intro _ _)
    | with_reducible apply Kept.ite
    | split
    | fail_if_no_progress (with_reducible apply Kept.upd <;> try with_reducible rfl)

theorem State.parityFault_kept (s : State) (r : LimitReg) : Kept s (s.parityFault r) := by
  unfold State.parityFault
  repeat' first
    | with_reducible apply Kept.refl
    | assumption
    | (extract_lets +onlyGivenNames y; first | (refine Kept.step (y := y) ?_ (fun _ => ?_); on_goal 2 => clear_value y; on_goal 1 => subst y) | subst y)
    | (with_reducible apply fun h => Kept.trans h (State.raise_kept _ _ _ _))
    | (with_reducible apply fun h => Kept.trans h (State.expireAll_kept _ _))
    | with_reducible apply Kept.ite
    | split
    | fail_if_no_progress (with_reducible apply Kept.upd <;> try with_reducible rfl)

theorem State.longPress_kept (s : State) : Kept s (s.longPress) := by
  unfold State.longPress
  repeat' first
    | with_reducible apply Kept.refl
    | assumption
    | (extract_lets +onlyGivenNames y; first | (refine Kept.step (y := y) ?_ (fun _ => ?_); on_goal 2 => clear_value y; on_goal 1 => subst y) | subst y)
    | (with_reducible apply fun h => Kept.trans h (State.hostFence_kept _))
    | (with_reducible apply fun h => Kept.trans h (State.escalate_kept _ _ _))
    | (with_reducible apply fun h => Kept.trans h (State.retire_kept _ _))
    | with_reducible apply Kept.ite
    | split
    | fail_if_no_progress (with_reducible apply Kept.upd <;> try with_reducible rfl)

theorem State.correct_kept (s : State) : Kept s (s.correct) := by
  unfold State.correct
  repeat' first
    | with_reducible apply Kept.refl
    | assumption
    | (extract_lets +onlyGivenNames y; first | (refine Kept.step (y := y) ?_ (fun _ => ?_); on_goal 2 => clear_value y; on_goal 1 => subst y) | subst y)
    | fail_if_no_progress (with_reducible apply Kept.upd <;> try with_reducible rfl)

theorem State.readTemps_kept (s : State) (temps : List Int) : Kept s (s.readTemps temps) := by
  unfold State.readTemps
  repeat' first
    | with_reducible apply Kept.refl
    | assumption
    | (extract_lets +onlyGivenNames y; first | (refine Kept.step (y := y) ?_ (fun _ => ?_); on_goal 2 => clear_value y; on_goal 1 => subst y) | subst y)
    | (with_reducible apply fun h => Kept.trans h (State.correct_kept _))
    | fail_if_no_progress (with_reducible apply Kept.upd <;> try with_reducible rfl)

theorem State.holdReset_kept (s : State) (h : Hold) : Kept s (s.holdReset h) := by
  unfold State.holdReset
  repeat' first
    | with_reducible apply Kept.refl
    | assumption
    | (extract_lets +onlyGivenNames y; first | (refine Kept.step (y := y) ?_ (fun _ => ?_); on_goal 2 => clear_value y; on_goal 1 => subst y) | subst y)
    | (with_reducible apply fun h => Kept.trans h (State.abandonCapture_kept _))
    | (with_reducible apply fun h => Kept.trans h (State.abandonShards_kept _))
    | (with_reducible apply fun h => Kept.trans h (State.systemClear_kept _))
    | fail_if_no_progress (with_reducible apply Kept.upd <;> try with_reducible rfl)

theorem State.trip_kept (s : State) : Kept s (s.trip) := by
  unfold State.trip
  repeat' first
    | with_reducible apply Kept.refl
    | assumption
    | (extract_lets +onlyGivenNames y; first | (refine Kept.step (y := y) ?_ (fun _ => ?_); on_goal 2 => clear_value y; on_goal 1 => subst y) | subst y)
    | (with_reducible apply fun h => Kept.trans h (State.hostFence_kept _))
    | (with_reducible apply fun h => Kept.trans h (State.raiseBeacon_kept _ _))
    | (with_reducible apply fun h => Kept.trans h (State.holdReset_kept _ _))
    | with_reducible apply Kept.ite
    | fail_if_no_progress (with_reducible apply Kept.upd <;> try with_reducible rfl)

theorem State.tripIfHot_kept (s : State) : Kept s (s.tripIfHot) := by
  unfold State.tripIfHot
  repeat' first
    | with_reducible apply Kept.refl
    | (with_reducible apply fun h => Kept.trans h (State.trip_kept _))
    | with_reducible apply Kept.ite

theorem State.tripRelease_kept (s : State) (temps : List Int) : Kept s (s.tripRelease temps) := by
  unfold State.tripRelease
  repeat' first
    | with_reducible apply Kept.refl
    | assumption
    | (extract_lets +onlyGivenNames y; first | (refine Kept.step (y := y) ?_ (fun _ => ?_); on_goal 2 => clear_value y; on_goal 1 => subst y) | subst y)
    | (with_reducible apply fun h => Kept.trans h (State.readTemps_kept _ _))
    | (with_reducible apply fun h => Kept.trans h (State.trip_kept _))
    | (with_reducible apply fun h => Kept.trans h (State.systemStart_kept _ _ _ _))
    | with_reducible apply Kept.ite
    | fail_if_no_progress (with_reducible apply Kept.upd <;> try with_reducible rfl)

theorem State.clipVolts_kept (s : State) (clipB : Bool) (volts : Nat) : Kept s (s.clipVolts clipB volts) := by
  unfold State.clipVolts
  repeat' first
    | with_reducible apply Kept.refl
    | assumption
    | (extract_lets +onlyGivenNames y; first | (refine Kept.step (y := y) ?_ (fun _ => ?_); on_goal 2 => clear_value y; on_goal 1 => subst y) | subst y)
    | with_reducible apply Kept.ite
    | fail_if_no_progress (with_reducible apply Kept.upd <;> try with_reducible rfl)

theorem State.railWarning_kept (s : State) (clipB : Bool) (volts : Nat) : Kept s (s.railWarning clipB volts) := by
  unfold State.railWarning
  repeat' first
    | with_reducible apply Kept.refl
    | assumption
    | (extract_lets +onlyGivenNames y; first | (refine Kept.step (y := y) ?_ (fun _ => ?_); on_goal 2 => clear_value y; on_goal 1 => subst y) | subst y)
    | (with_reducible apply fun h => Kept.trans h (State.clipVolts_kept _ _ _))
    | (with_reducible apply fun h => Kept.trans h (State.raise_kept _ _ _ _))
    | with_reducible apply Kept.ite
    | fail_if_no_progress (with_reducible apply Kept.upd <;> try with_reducible rfl)

theorem State.railFault_kept (s : State) (clipB : Bool) (volts : Nat) : Kept s (s.railFault clipB volts) := by
  unfold State.railFault
  repeat' first
    | with_reducible apply Kept.refl
    | assumption
    | (extract_lets +onlyGivenNames y; first | (refine Kept.step (y := y) ?_ (fun _ => ?_); on_goal 2 => clear_value y; on_goal 1 => subst y) | subst y)
    | (with_reducible apply fun h => Kept.trans h (State.hostFence_kept _))
    | (with_reducible apply fun h => Kept.trans h (State.resetBeacon_kept _))
    | (with_reducible apply fun h => Kept.trans h (State.holdReset_kept _ _))
    | (with_reducible apply fun h => Kept.trans h (State.trip_kept _))
    | (with_reducible apply fun h => Kept.trans h (State.clipVolts_kept _ _ _))
    | with_reducible apply Kept.ite
    | fail_if_no_progress (with_reducible apply Kept.upd <;> try with_reducible rfl)

theorem State.powerClear_kept (s : State) : Kept s s.powerClear := by
  refine ⟨?_, fun w => ?_, fun _ => ?_, fun _ => ?_⟩
  · unfold State.powerClear
    dsimp only
    split <;> rfl
  · obtain ⟨_, h, _⟩ := s.memoriesWf_iff.mp w
    unfold State.powerClear
    dsimp only
    split <;> exact (State.memoriesWf_iff _).mpr ⟨rfl, h, rfl⟩
  · unfold State.powerClear
    dsimp only
    split <;> exact Bool.not_or_self _
  · unfold State.powerClear
    dsimp only
    split <;> rfl

theorem State.auxLoss_kept (s : State) : Kept s (s.auxLoss) := by
  unfold State.auxLoss
  repeat' first
    | with_reducible apply Kept.refl
    | assumption
    | (extract_lets +onlyGivenNames y; first | (refine Kept.step (y := y) ?_ (fun _ => ?_); on_goal 2 => clear_value y; on_goal 1 => subst y) | subst y)
    | (with_reducible apply fun h => Kept.trans h (State.powerClear_kept _))
    | fail_if_no_progress (with_reducible apply Kept.upd <;> try with_reducible rfl)

theorem State.auxReady_kept (s : State) : Kept s (s.auxReady) := by
  unfold State.auxReady
  repeat' first
    | with_reducible apply Kept.refl
    | assumption
    | (extract_lets +onlyGivenNames y; first | (refine Kept.step (y := y) ?_ (fun _ => ?_); on_goal 2 => clear_value y; on_goal 1 => subst y) | subst y)
    | (with_reducible apply fun h => Kept.trans h (State.loadCal_kept _))
    | (with_reducible apply fun h => Kept.trans h (State.bootBank_kept _))
    | with_reducible apply Kept.ite
    | fail_if_no_progress (with_reducible apply Kept.upd <;> try with_reducible rfl)

theorem State.switchOn_kept (s : State) : Kept s (s.switchOn) := by
  unfold State.switchOn
  repeat' first
    | with_reducible apply Kept.refl
    | assumption
    | (extract_lets +onlyGivenNames y; first | (refine Kept.step (y := y) ?_ (fun _ => ?_); on_goal 2 => clear_value y; on_goal 1 => subst y) | subst y)
    | (with_reducible apply fun h => Kept.trans h (State.trainAll_kept _))
    | fail_if_no_progress (with_reducible apply Kept.updHeld <;> first | with_reducible rfl | exact Bool.or_true _ | exact Bool.not_or_self _ | (with_reducible apply fun h => Kept.trans h (Kept.refl _)))

theorem State.mainInRange_kept (s : State) (va : Nat) (vb : Nat) : Kept s (s.mainInRange va vb) := by
  unfold State.mainInRange
  repeat' first
    | with_reducible apply Kept.refl
    | assumption
    | (extract_lets +onlyGivenNames y; first | (refine Kept.step (y := y) ?_ (fun _ => ?_); on_goal 2 => clear_value y; on_goal 1 => subst y) | subst y)
    | (with_reducible apply fun h => Kept.trans h (State.switchOn_kept _))
    | (with_reducible apply fun h => Kept.trans h (State.systemStart_kept _ _ _ _))
    | with_reducible apply Kept.ite
    | split
    | fail_if_no_progress (with_reducible apply Kept.upd <;> try with_reducible rfl)

theorem State.powerRequest_kept (s : State) (cause : Nat) : Kept s (s.powerRequest cause) := by
  unfold State.powerRequest
  repeat' first
    | with_reducible apply Kept.refl
    | assumption
    | (extract_lets +onlyGivenNames y; first | (refine Kept.step (y := y) ?_ (fun _ => ?_); on_goal 2 => clear_value y; on_goal 1 => subst y) | subst y)
    | (with_reducible apply fun h => Kept.trans h (State.systemStart_kept _ _ _ _))
    | (with_reducible apply fun h => Kept.trans h (State.trip_kept _))
    | split
    | fail_if_no_progress (with_reducible apply Kept.upd <;> try with_reducible rfl)

theorem State.fclkTest_kept (s : State) (r : Readings) : Kept s (s.fclkTest r) := by
  unfold State.fclkTest
  repeat' first
    | with_reducible apply Kept.refl
    | assumption
    | (extract_lets +onlyGivenNames y; first | (refine Kept.step (y := y) ?_ (fun _ => ?_); on_goal 2 => clear_value y; on_goal 1 => subst y) | subst y)
    | (with_reducible apply fun h => Kept.trans h (State.raise_kept _ _ _ _))
    | with_reducible apply Kept.ite
    | fail_if_no_progress (with_reducible apply Kept.upd <;> try with_reducible rfl)

theorem State.takeReadings_kept (s : State) (r : Readings) : Kept s (s.takeReadings r) := by
  unfold State.takeReadings
  repeat' first
    | with_reducible apply Kept.refl
    | assumption
    | (extract_lets +onlyGivenNames y; first | (refine Kept.step (y := y) ?_ (fun _ => ?_); on_goal 2 => clear_value y; on_goal 1 => subst y) | subst y)
    | (with_reducible apply fun h => Kept.trans h (State.readTemps_kept _ _))
    | fail_if_no_progress (with_reducible apply Kept.upd <;> try with_reducible rfl)

theorem State.fclkControl_kept (s : State) (r : Readings) : Kept s (s.fclkControl r) := by
  unfold State.fclkControl
  repeat' first
    | with_reducible apply Kept.refl
    | assumption
    | (extract_lets +onlyGivenNames y; first | (refine Kept.step (y := y) ?_ (fun _ => ?_); on_goal 2 => clear_value y; on_goal 1 => subst y) | subst y)
    | (with_reducible apply fun h => Kept.trans h (State.takeReadings_kept _ _))
    | (with_reducible apply fun h => Kept.trans h (State.tripIfHot_kept _))
    | (with_reducible apply fun h => Kept.trans h (State.fclkTest_kept _ _))
    | with_reducible apply Kept.ite

theorem State.coolingUpdate_kept (s : State) (inlet : Int) (outlet : Int) (watts : Nat) : Kept s (s.coolingUpdate inlet outlet watts) := by
  unfold State.coolingUpdate
  repeat' first
    | with_reducible apply Kept.refl
    | assumption
    | (extract_lets +onlyGivenNames y; first | (refine Kept.step (y := y) ?_ (fun _ => ?_); on_goal 2 => clear_value y; on_goal 1 => subst y) | subst y)
    | (with_reducible apply fun h => Kept.trans h (State.raise_kept _ _ _ _))
    | with_reducible apply Kept.ite
    | split
    | fail_if_no_progress (with_reducible apply Kept.upd <;> try with_reducible rfl)

theorem State.tempRead_kept (s : State) : Kept s (s.tempRead) := by
  unfold State.tempRead
  repeat' first
    | with_reducible apply Kept.refl
    | (with_reducible apply State.mbxRunAlways_step <;> try intro _)
    | (with_reducible apply fun h => Kept.trans h (State.mbxOk_kept _ _))

theorem State.energyRead_kept (s : State) : Kept s (s.energyRead) := by
  unfold State.energyRead
  repeat' first
    | with_reducible apply Kept.refl
    | (with_reducible apply State.mbxRunAlways_step <;> try intro _)
    | (with_reducible apply fun h => Kept.trans h (State.mbxOk_kept _ _))

theorem State.island_kept (s : State) (k : State → State) (h : ∀ x, Kept x (k x)) : Kept s (s.island k) := by
  unfold State.island
  split
  · exact Kept.refl s
  · exact h s

theorem State.island_step {s x : State} (k : State → State) (h : Kept s x) (hk : ∀ y, Kept y (k y)) : Kept s (x.island k) :=
  h.trans (State.island_kept x k hk)

theorem State.mbxIsland_kept (s : State) (code : Nat) (k : State → State) (h : ∀ x, Kept x (k x)) :
    Kept s (s.mbxIsland code k) := State.island_kept s _ fun x => State.mbxRunAlways_kept x code k h

theorem State.mbxIsland_step {s x : State} (code : Nat) (k : State → State) (h : Kept s x) (hk : ∀ y, Kept y (k y)) :
    Kept s (x.mbxIsland code k) := h.trans (State.mbxIsland_kept x code k hk)

theorem State.svcRun_kept (s : State) (k : State → State) (h : ∀ x, Kept x (k x)) : Kept s (s.svcRun k) := by
  unfold State.svcRun
  split
  · exact State.island_kept s k h
  · exact Kept.refl s

theorem State.svcRun_step {s x : State} (k : State → State) (h : Kept s x) (hk : ∀ y, Kept y (k y)) : Kept s (x.svcRun k) :=
  h.trans (State.svcRun_kept x k hk)

theorem State.certRead_kept (s : State) : Kept s (s.certRead) := by
  unfold State.certRead
  repeat' first
    | with_reducible apply Kept.refl
    | assumption
    | (extract_lets +onlyGivenNames y; first | (refine Kept.step (y := y) ?_ (fun _ => ?_); on_goal 2 => clear_value y; on_goal 1 => subst y) | subst y)
    | (with_reducible apply State.mbxIsland_step <;> try intro _)
    | (with_reducible apply fun h => Kept.trans h (State.mbxFail_kept _ _))
    | (with_reducible apply fun h => Kept.trans h (State.mbxOk_kept _ _))
    | with_reducible apply Kept.ite

theorem State.spdm_kept (s : State) (mgmt : Bool) (r : State → SpdmReply) : Kept s (s.spdm mgmt r) := by
  unfold State.spdm
  repeat' first
    | with_reducible apply Kept.refl
    | assumption
    | (extract_lets +onlyGivenNames y; first | (refine Kept.step (y := y) ?_ (fun _ => ?_); on_goal 2 => clear_value y; on_goal 1 => subst y) | subst y)
    | (with_reducible apply fun h => Kept.trans h (State.bumpFree_kept _))
    | (with_reducible apply State.svcRun_step <;> try intro _)
    | with_reducible apply Kept.ite
    | split
    | fail_if_no_progress (with_reducible apply Kept.upd <;> try with_reducible rfl)

theorem State.serviceEvent_kept (s : State) (on : Bool) : Kept s (s.serviceEvent on) := by
  unfold State.serviceEvent
  repeat' first
    | with_reducible apply Kept.refl
    | (with_reducible apply fun h => Kept.trans h (State.raise_kept _ _ _ _))

theorem State.shortPress_kept (s : State) : Kept s (s.shortPress) := by
  unfold State.shortPress
  repeat' first
    | with_reducible apply Kept.refl
    | assumption
    | (extract_lets +onlyGivenNames y; first | (refine Kept.step (y := y) ?_ (fun _ => ?_); on_goal 2 => clear_value y; on_goal 1 => subst y) | subst y)
    | (with_reducible apply fun h => Kept.trans h (State.serviceEvent_kept _ _))
    | with_reducible apply Kept.ite
    | fail_if_no_progress (with_reducible apply Kept.upd <;> try with_reducible rfl)

theorem State.drainedWrite_kept (s : State) : Kept s (s.drainedWrite) := by
  unfold State.drainedWrite
  repeat' first
    | with_reducible apply Kept.refl
    | assumption
    | (extract_lets +onlyGivenNames y; first | (refine Kept.step (y := y) ?_ (fun _ => ?_); on_goal 2 => clear_value y; on_goal 1 => subst y) | subst y)
    | with_reducible apply Kept.ite
    | fail_if_no_progress (with_reducible apply Kept.upd <;> try with_reducible rfl)

theorem State.cancelRequest_kept (s : State) : Kept s (s.cancelRequest) := by
  unfold State.cancelRequest
  repeat' first
    | with_reducible apply Kept.refl
    | assumption
    | (extract_lets +onlyGivenNames y; first | (refine Kept.step (y := y) ?_ (fun _ => ?_); on_goal 2 => clear_value y; on_goal 1 => subst y) | subst y)
    | (with_reducible apply fun h => Kept.trans h (State.serviceEvent_kept _ _))
    | with_reducible apply Kept.ite
    | fail_if_no_progress (with_reducible apply Kept.upd <;> try with_reducible rfl)

theorem State.identityRead_kept (s : State) : Kept s (s.identityRead) := by
  unfold State.identityRead
  repeat' first
    | with_reducible apply Kept.refl
    | (with_reducible apply State.mbxIsland_step <;> try intro _)
    | (with_reducible apply fun h => Kept.trans h (State.mbxOk_kept _ _))

theorem State.islandSlot_kept (s : State) (w0 : Nat) (flag : List Byte) (p : State × CtxId × Nat × WinSlot)
    (h : s.islandSlot w0 flag = some p) : Kept s p.1 := by
  unfold State.islandSlot at h
  dsimp only at h
  split at h
  · cases h
  · obtain ⟨w, _, h⟩ := Option.bind_eq_some_iff.mp h
    split at h
    · cases h
    · obtain ⟨u, hu, rfl⟩ := Option.map_eq_some_iff.mp h
      exact State.acquire_kept s _ _ flag u hu

theorem State.stage_kept (s : State) (package : List Byte) (verified : Bool) (svn : BitVec 16) :
    Kept s (s.stage package verified svn).1 := by
  unfold State.stage
  split
  · exact ⟨rfl, id, id, id⟩
  · exact Kept.refl s

theorem State.fwStage_kept (s : State) (flag package : List Byte) (verified : Bool) (svn : BitVec 16) (portFault : Bool) :
    Kept s (s.fwStage flag package verified svn portFault) := by
  refine State.mbxIsland_kept s 0xD4 _ fun y => ?_
  dsimp only
  refine Kept.ite (Kept.refl y) ?_
  split
  · exact State.mbxStatus_kept y _
  · rename_i t c n w h
    have ht : Kept y t := State.islandSlot_kept y _ flag _ h
    split
    · exact ht.trans (State.mbxStatus_kept t _)
    · split
      · exact ht.trans (State.mbxStatus_kept t _)
      · exact ht.trans (((State.tallyHost_kept t _ _).trans (State.stage_kept _ _ _ _)).trans
          ((State.raise_kept _ _ _ _).trans (State.mbxStatus_kept _ _)))

theorem State.fwActivate_kept (s : State) : Kept s (s.fwActivate) := by
  unfold State.fwActivate
  repeat' first
    | with_reducible apply Kept.refl
    | assumption
    | (extract_lets +onlyGivenNames y; first | (refine Kept.step (y := y) ?_ (fun _ => ?_); on_goal 2 => clear_value y; on_goal 1 => subst y) | subst y)
    | (with_reducible apply State.mbxIsland_step <;> try intro _)
    | (with_reducible apply fun h => Kept.trans h (State.mbxStatus_kept _ _))
    | with_reducible apply Kept.ite
    | fail_if_no_progress (with_reducible apply Kept.upd <;> try with_reducible rfl)

theorem State.calExport_kept (s : State) (flag : List Byte) (portFault : Bool) : Kept s (s.calExport flag portFault) := by
  unfold State.calExport
  repeat' first
    | with_reducible apply Kept.refl
    | (with_reducible apply State.mbxIsland_step <;> try intro _)
    | (with_reducible refine Kept.trans ?_ (State.islandSlot_kept _ _ _ (_, _) (by assumption)))
    | (with_reducible apply fun h => Kept.trans h (State.mbxStatus_kept _ _))
    | (with_reducible apply fun h => Kept.trans h (State.hostUndefined_kept _ _ _))
    | (with_reducible apply fun h => Kept.trans h (State.hostWrite_kept _ _ _))
    | (with_reducible apply fun h => Kept.trans h (State.tallyHost_kept _ _ _))
    | (with_reducible apply fun h => Kept.trans h (State.handback_kept _ _ _ _ _))
    | with_reducible apply Kept.ite
    | split

theorem State.calAccept_kept (s : State) (img : List Byte) (svc : Bool) : Kept s (s.calAccept img svc) := by
  unfold State.calAccept
  repeat' first
    | with_reducible apply Kept.refl
    | assumption
    | (extract_lets +onlyGivenNames y; first | (refine Kept.step (y := y) ?_ (fun _ => ?_); on_goal 2 => clear_value y; on_goal 1 => subst y) | subst y)
    | fail_if_no_progress (with_reducible apply Kept.upd <;> try with_reducible rfl)

theorem State.calWrite_kept (s : State) (flag : List Byte) (data : List Byte) (portFault : Bool) : Kept s (s.calWrite flag data portFault) := by
  unfold State.calWrite
  repeat' first
    | with_reducible apply Kept.refl
    | assumption
    | (extract_lets +onlyGivenNames y; first | (refine Kept.step (y := y) ?_ (fun _ => ?_); on_goal 2 => clear_value y; on_goal 1 => subst y) | subst y)
    | (with_reducible apply State.mbxIsland_step <;> try intro _)
    | (with_reducible refine Kept.trans ?_ (State.islandSlot_kept _ _ _ (_, _) (by assumption)))
    | (with_reducible apply fun h => Kept.trans h (State.mbxStatus_kept _ _))
    | (with_reducible apply fun h => Kept.trans h (State.tallyHost_kept _ _ _))
    | (with_reducible apply fun h => Kept.trans h (State.calAccept_kept _ _ _))
    | with_reducible apply Kept.ite
    | split

theorem State.calWritten_kept (s : State) : Kept s (s.calWritten) := by
  unfold State.calWritten
  repeat' first
    | with_reducible apply Kept.refl
    | assumption
    | (extract_lets +onlyGivenNames y; first | (refine Kept.step (y := y) ?_ (fun _ => ?_); on_goal 2 => clear_value y; on_goal 1 => subst y) | subst y)
    | (with_reducible apply fun h => Kept.trans h (State.correct_kept _))
    | (with_reducible apply fun h => Kept.trans h (State.tripIfHot_kept _))
    | (with_reducible apply fun h => Kept.trans h (State.raise_kept _ _ _ _))
    | (with_reducible apply fun h => Kept.trans h (State.mbxStatus_kept _ _))
    | with_reducible apply Kept.ite
    | split
    | fail_if_no_progress (with_reducible apply Kept.upd <;> try with_reducible rfl)

theorem State.svcIn_kept (s : State) (r : State → PortReply) : Kept s (s.svcIn r) := by
  unfold State.svcIn
  repeat' first
    | with_reducible apply Kept.refl
    | assumption
    | (extract_lets +onlyGivenNames y; first | (refine Kept.step (y := y) ?_ (fun _ => ?_); on_goal 2 => clear_value y; on_goal 1 => subst y) | subst y)
    | (with_reducible apply State.svcRun_step <;> try intro _)
    | fail_if_no_progress (with_reducible apply Kept.upd <;> try with_reducible rfl)

theorem State.svcLast_kept (s : State) (code : Nat) (st : Byte) : Kept s (s.svcLast code st) := by
  unfold State.svcLast
  repeat' first
    | with_reducible apply Kept.refl
    | assumption
    | (extract_lets +onlyGivenNames y; first | (refine Kept.step (y := y) ?_ (fun _ => ?_); on_goal 2 => clear_value y; on_goal 1 => subst y) | subst y)
    | fail_if_no_progress (with_reducible apply Kept.upd <;> try with_reducible rfl)

theorem State.svcOut_kept (s : State) (code : Nat) (k : State → State × Byte) (h : ∀ x, Kept x (k x).1) :
    Kept s (s.svcOut code k) :=
  State.svcRun_kept s _ fun x => (h x).trans (State.svcLast_kept _ _ _)

theorem State.svcKeyed_kept (s : State) (code : Nat) (value : BitVec 16) (k : State → State × Byte)
    (h : ∀ x, Kept x (k x).1) : Kept s (s.svcKeyed code value k) := by
  unfold State.svcKeyed
  split
  · exact State.svcOut_kept s code k h
  · refine State.svcRun_kept s _ fun x => (State.svcLast_kept x code stBad).trans ?_
    exact ⟨rfl, id, id, id⟩

theorem State.endStream_kept (s : State) : Kept s (s.endStream) := by
  unfold State.endStream
  repeat' first
    | with_reducible apply Kept.refl
    | assumption
    | (extract_lets +onlyGivenNames y; first | (refine Kept.step (y := y) ?_ (fun _ => ?_); on_goal 2 => clear_value y; on_goal 1 => subst y) | subst y)
    | with_reducible apply Kept.ite
    | split
    | fail_if_no_progress (with_reducible apply Kept.upd <;> try with_reducible rfl)

theorem State.startStream_kept (s : State) (value : BitVec 16) : Kept s (s.startStream value).1 := by
  unfold State.startStream
  split
  · exact ⟨rfl, id, id, id⟩
  · exact ⟨rfl, id, id, id⟩
  · exact Kept.refl s

theorem State.bulkIn_kept (s : State) : Kept s (s.bulkIn) := by
  unfold State.bulkIn
  repeat' first
    | with_reducible apply Kept.refl
    | assumption
    | (extract_lets +onlyGivenNames y; first | (refine Kept.step (y := y) ?_ (fun _ => ?_); on_goal 2 => clear_value y; on_goal 1 => subst y) | subst y)
    | (with_reducible apply fun h => Kept.trans h (State.endStream_kept _))
    | with_reducible apply Kept.ite
    | split
    | fail_if_no_progress (with_reducible apply Kept.upd <;> try with_reducible rfl)

theorem State.idle_kept (s : State) : Kept s (s.idle) := by
  unfold State.idle
  repeat' first
    | with_reducible apply Kept.refl
    | assumption
    | (extract_lets +onlyGivenNames y; first | (refine Kept.step (y := y) ?_ (fun _ => ?_); on_goal 2 => clear_value y; on_goal 1 => subst y) | subst y)
    | (with_reducible apply fun h => Kept.trans h (State.pass_kept _ _))
    | (with_reducible apply fun h => Kept.trans h (State.bulkIn_kept _))
    | with_reducible apply Kept.ite
    | split
    | fail_if_no_progress (with_reducible apply Kept.upd <;> try with_reducible rfl)

theorem State.setLocate_kept (s : State) (value : BitVec 16) : Kept s (s.setLocate value).1 := by
  unfold State.setLocate
  split
  · exact ⟨rfl, id, id, id⟩
  · exact Kept.refl s

theorem State.clearRetirement_kept (s : State) : Kept s s.clearRetirement.1 := by
  unfold State.clearRetirement
  split
  · exact Kept.refl s
  · split
    · exact Kept.refl s
    · refine (State.emptyStamps_kept s).trans (Kept.trans ?_ (State.systemStart_kept _ _ _ _))
      exact ⟨rfl, id, fun _ => rfl, id⟩

theorem State.putChunk_kept (s : State) (chunk : BitVec 16) (data : List Byte) : Kept s (s.putChunk chunk data).1 := by
  unfold State.putChunk
  split
  · exact ⟨rfl, id, id, id⟩
  · exact Kept.refl s

theorem State.calCommit_kept (s : State) (value : BitVec 16) : Kept s (s.calCommit value) := by
  unfold State.calCommit
  split
  · exact State.calAccept_kept s _ _
  · exact State.svcKeyed_kept s _ _ _ fun x => Kept.refl x

theorem State.usbAttach_kept (s : State) (on : Bool) : Kept s (s.usbAttach on) := by
  unfold State.usbAttach
  repeat' first
    | with_reducible apply Kept.refl
    | assumption
    | (extract_lets +onlyGivenNames y; first | (refine Kept.step (y := y) ?_ (fun _ => ?_); on_goal 2 => clear_value y; on_goal 1 => subst y) | subst y)
    | (with_reducible apply fun h => Kept.trans h (State.endStream_kept _))
    | (with_reducible apply fun h => Kept.trans h (State.raise_kept _ _ _ _))
    | with_reducible apply Kept.ite
    | split
    | fail_if_no_progress (with_reducible apply Kept.upd <;> try with_reducible rfl)

theorem State.mgmtAnswer_kept (s : State) (st : Byte) (data : List Byte) : Kept s (s.mgmtAnswer st data) := by
  unfold State.mgmtAnswer
  repeat' first
    | with_reducible apply Kept.refl
    | assumption
    | (extract_lets +onlyGivenNames y; first | (refine Kept.step (y := y) ?_ (fun _ => ?_); on_goal 2 => clear_value y; on_goal 1 => subst y) | subst y)
    | fail_if_no_progress (with_reducible apply Kept.upd <;> try with_reducible rfl)

theorem State.mgmtIn_kept (s : State) (o : Option (List Byte)) : Kept s (s.mgmtIn o) := by
  unfold State.mgmtIn
  repeat' first
    | with_reducible apply Kept.refl
    | (with_reducible apply fun h => Kept.trans h (State.mgmtAnswer_kept _ _ _))
    | split

theorem State.mgmtKeyed_kept (s : State) (value : BitVec 16) (k : State → State) (h : ∀ x, Kept x (k x)) :
    Kept s (s.mgmtKeyed value k) := by
  unfold State.mgmtKeyed
  split
  · exact (h s).trans (State.mgmtAnswer_kept _ _ _)
  · exact State.mgmtAnswer_kept s _ _

theorem State.mgmtKeyed_step {s x : State} (value : BitVec 16) (k : State → State) (h : Kept s x) (hk : ∀ y, Kept y (k y)) :
    Kept s (x.mgmtKeyed value k) := h.trans (State.mgmtKeyed_kept x value k hk)

theorem State.mgmtPower_kept (s : State) (va : Nat) (vb : Nat) : Kept s (s.mgmtPower va vb) := by
  unfold State.mgmtPower
  repeat' first
    | with_reducible apply Kept.refl
    | (with_reducible apply fun h => Kept.trans h (State.powerRequest_kept _ _))
    | (with_reducible apply fun h => Kept.trans h (State.mainInRange_kept _ _ _))

theorem State.mgmtRequest_kept (s : State) (code value index : BitVec 16) (va vb : Nat) :
    Kept s (s.mgmtRequest code value index va vb) := by
  unfold State.mgmtRequest
  split
  all_goals first
    | exact State.mgmtIn_kept s _
    | exact State.mgmtKeyed_kept s value _ fun y => State.systemStart_kept y _ _ _
    | exact State.mgmtKeyed_kept s value _ fun y => State.mgmtPower_kept y _ _
    | exact State.mgmtKeyed_kept s value _ fun y => State.emptyStamps_kept y
    | exact (State.setLocate_kept s value).trans (State.mgmtAnswer_kept _ _ _)
    | exact State.mgmtAnswer_kept s _ _

theorem State.busError_kept (s : State) (fn : FnId) : Kept s (s.busError fn) := by
  unfold State.busError
  repeat' first
    | with_reducible apply Kept.refl
    | fail_if_no_progress (with_reducible apply Kept.upd <;> try with_reducible rfl)

theorem State.lowerClock_kept (s : State) (mhz : Nat) : Kept s (s.lowerClock mhz) := by
  unfold State.lowerClock
  repeat' first
    | with_reducible apply Kept.refl
    | assumption
    | (extract_lets +onlyGivenNames y; first | (refine Kept.step (y := y) ?_ (fun _ => ?_); on_goal 2 => clear_value y; on_goal 1 => subst y) | subst y)
    | fail_if_no_progress (with_reducible apply Kept.upd <;> try with_reducible rfl)

theorem State.profileWrite_kept (s : State) (v : Word) : Kept s (s.profileWrite v) := by
  unfold State.profileWrite
  repeat' first
    | with_reducible apply Kept.refl
    | assumption
    | (extract_lets +onlyGivenNames y; first | (refine Kept.step (y := y) ?_ (fun _ => ?_); on_goal 2 => clear_value y; on_goal 1 => subst y) | subst y)
    | (with_reducible apply fun h => Kept.trans h (State.lowerClock_kept _ _))
    | with_reducible apply Kept.ite
    | fail_if_no_progress (with_reducible apply Kept.upd <;> try with_reducible rfl)

theorem State.clockEffect_kept (s : State) : Kept s (s.clockEffect) := by
  unfold State.clockEffect
  repeat' first
    | with_reducible apply Kept.refl
    | assumption
    | (extract_lets +onlyGivenNames y; first | (refine Kept.step (y := y) ?_ (fun _ => ?_); on_goal 2 => clear_value y; on_goal 1 => subst y) | subst y)
    | (with_reducible apply fun h => Kept.trans h (State.lowerClock_kept _ _))
    | with_reducible apply Kept.ite
    | fail_if_no_progress (with_reducible apply Kept.upd <;> try with_reducible rfl)

theorem State.ringWrite_kept (s : State) (r : RingId) (o : Nat) (v : Word) : Kept s (s.ringWrite r o v) := by
  unfold State.ringWrite
  repeat' first
    | with_reducible apply Kept.refl
    | assumption
    | (extract_lets +onlyGivenNames y; first | (refine Kept.step (y := y) ?_ (fun _ => ?_); on_goal 2 => clear_value y; on_goal 1 => subst y) | subst y)
    | (with_reducible apply fun h => Kept.trans h (State.modRing_kept _ _ _))
    | (with_reducible apply fun h => Kept.trans h (State.evrHead_kept _ _ _))
    | with_reducible apply Kept.ite
    | split

theorem State.mbxCtrl_kept (s : State) (v : Word) : Kept s (s.mbxCtrl v) := by
  unfold State.mbxCtrl
  repeat' first
    | with_reducible apply Kept.refl
    | assumption
    | (extract_lets +onlyGivenNames y; first | (refine Kept.step (y := y) ?_ (fun _ => ?_); on_goal 2 => clear_value y; on_goal 1 => subst y) | subst y)
    | (with_reducible apply fun h => Kept.trans h (State.mbxAck_kept _))
    | (with_reducible apply fun h => Kept.trans h (State.mbxGo_kept _))
    | with_reducible apply Kept.ite
    | fail_if_no_progress (with_reducible apply Kept.upd <;> try with_reducible rfl)

theorem State.writeHub_kept (s : State) (o : Nat) (v : Word) : Kept s (s.writeHub o v) := by
  unfold State.writeHub
  repeat' first
    | with_reducible apply Kept.refl
    | assumption
    | (extract_lets +onlyGivenNames y; first | (refine Kept.step (y := y) ?_ (fun _ => ?_); on_goal 2 => clear_value y; on_goal 1 => subst y) | subst y)
    | (with_reducible apply fun h => Kept.trans h (State.writeP1Fence_kept _ _))
    | (with_reducible apply fun h => Kept.trans h (State.profileWrite_kept _ _))
    | (with_reducible apply fun h => Kept.trans h (State.mbxCtrl_kept _ _))
    | (with_reducible apply fun h => Kept.trans h (State.ringWrite_kept _ _ _ _))
    | with_reducible apply Kept.ite
    | split
    | fail_if_no_progress (with_reducible apply Kept.upd <;> try with_reducible rfl)

theorem State.irqRelease_kept (s : State) (srcs : List Nat) : Kept s (s.irqRelease srcs) := by
  unfold State.irqRelease
  repeat' first
    | with_reducible apply Kept.refl
    | (with_reducible apply fun h => Kept.trans h (State.irqSend_kept _ _))
    | (with_reducible apply Kept.foldl; on_goal 2 => intro _ _)

theorem State.irqQuiet_kept (s : State) (srcs : List Nat) : Kept s (s.irqQuiet srcs) := by
  unfold State.irqQuiet
  repeat' first
    | with_reducible apply Kept.refl
    | assumption
    | (extract_lets +onlyGivenNames y; first | (refine Kept.step (y := y) ?_ (fun _ => ?_); on_goal 2 => clear_value y; on_goal 1 => subst y) | subst y)
    | (with_reducible apply Kept.foldl; on_goal 2 => intro _ _)
    | with_reducible apply Kept.ite
    | split
    | fail_if_no_progress (with_reducible apply Kept.upd <;> try with_reducible rfl)

theorem State.writeIrq_kept (s : State) (o : Nat) (v : Word) : Kept s (s.writeIrq o v) := by
  unfold State.writeIrq
  repeat' first
    | with_reducible apply Kept.refl
    | assumption
    | (extract_lets +onlyGivenNames y; first | (refine Kept.step (y := y) ?_ (fun _ => ?_); on_goal 2 => clear_value y; on_goal 1 => subst y) | subst y)
    | (with_reducible apply fun h => Kept.trans h (State.irqRelease_kept _ _))
    | (with_reducible apply fun h => Kept.trans h (State.irqQuiet_kept _ _))
    | (with_reducible apply fun h => Kept.trans h (State.irqClaim_kept _ _))
    | with_reducible apply Kept.ite
    | split
    | fail_if_no_progress (with_reducible apply Kept.upd <;> try with_reducible rfl)

theorem State.writeSlot_kept (s : State) (c : Option (CtxId × Context)) (o : Nat) (v : Word) : Kept s (s.writeSlot c o v) := by
  unfold State.writeSlot
  repeat' first
    | with_reducible apply Kept.refl
    | assumption
    | (extract_lets +onlyGivenNames y; first | (refine Kept.step (y := y) ?_ (fun _ => ?_); on_goal 2 => clear_value y; on_goal 1 => subst y) | subst y)
    | (with_reducible apply fun h => Kept.trans h (State.regViol_kept _))
    | (with_reducible apply fun h => Kept.trans h (State.cqHeadWrite_kept _ _ _))
    | (with_reducible apply fun h => Kept.trans h (State.writeStop_kept _ _ _))
    | (with_reducible apply fun h => Kept.trans h (State.killOne_kept _ _))
    | (with_reducible apply fun h => Kept.trans h (State.killAll_kept _ _))
    | (with_reducible apply fun h => Kept.trans h (State.modCtx_kept _ _ _))
    | with_reducible apply Kept.ite
    | split

theorem State.writeCfe_kept (s : State) (o : Nat) (v : Word) : Kept s (s.writeCfe o v) := by
  unfold State.writeCfe
  repeat' first
    | with_reducible apply Kept.refl
    | assumption
    | (extract_lets +onlyGivenNames y; first | (refine Kept.step (y := y) ?_ (fun _ => ?_); on_goal 2 => clear_value y; on_goal 1 => subst y) | subst y)
    | (with_reducible apply fun h => Kept.trans h (State.writeSlot_kept _ _ _ _))
    | with_reducible apply Kept.ite
    | split
    | fail_if_no_progress (with_reducible apply Kept.upd <;> try with_reducible rfl)

theorem State.writeSchCtx_kept (s : State) (i : Nat) (f : Context → Context) : Kept s (s.writeSchCtx i f) := by
  unfold State.writeSchCtx
  repeat' first
    | with_reducible apply Kept.refl
    | (with_reducible apply fun h => Kept.trans h (State.regViol_kept _))
    | (with_reducible apply fun h => Kept.trans h (State.modCtx_kept _ _ _))
    | split

theorem State.writeSch_kept (s : State) (o : Nat) (v : Word) : Kept s (s.writeSch o v) := by
  unfold State.writeSch
  repeat' first
    | with_reducible apply Kept.refl
    | assumption
    | (extract_lets +onlyGivenNames y; first | (refine Kept.step (y := y) ?_ (fun _ => ?_); on_goal 2 => clear_value y; on_goal 1 => subst y) | subst y)
    | (with_reducible apply fun h => Kept.trans h (State.writeSchCtx_kept _ _ _))
    | split
    | fail_if_no_progress (with_reducible apply Kept.upd <;> try with_reducible rfl)

theorem State.writeStb_kept (s : State) (o : Nat) (v : Word) : Kept s (s.writeStb o v) := by
  unfold State.writeStb
  repeat' first
    | with_reducible apply Kept.refl
    | assumption
    | (extract_lets +onlyGivenNames y; first | (refine Kept.step (y := y) ?_ (fun _ => ?_); on_goal 2 => clear_value y; on_goal 1 => subst y) | subst y)
    | split
    | fail_if_no_progress (with_reducible apply Kept.upd <;> try with_reducible rfl)

theorem State.writeHst_kept (s : State) (o : Nat) (v : Word) : Kept s (s.writeHst o v) := by
  unfold State.writeHst
  repeat' first
    | with_reducible apply Kept.refl
    | assumption
    | (extract_lets +onlyGivenNames y; first | (refine Kept.step (y := y) ?_ (fun _ => ?_); on_goal 2 => clear_value y; on_goal 1 => subst y) | subst y)
    | (with_reducible apply fun h => Kept.trans h (State.invalidate_kept _ _ _))
    | (with_reducible apply fun h => Kept.trans h (State.directWrite_kept _ _))
    | (with_reducible apply fun h => Kept.trans h (State.evacuate_kept _ _ _))
    | with_reducible apply Kept.ite
    | split
    | fail_if_no_progress (with_reducible apply Kept.upd <;> try with_reducible rfl)

theorem State.writeOpt_kept (s : State) (o : Nat) (v : Word) : Kept s (s.writeOpt o v) := by
  unfold State.writeOpt
  repeat' first
    | with_reducible apply Kept.refl
    | assumption
    | (extract_lets +onlyGivenNames y; first | (refine Kept.step (y := y) ?_ (fun _ => ?_); on_goal 2 => clear_value y; on_goal 1 => subst y) | subst y)
    | (with_reducible apply fun h => Kept.trans h (State.openUnit_kept _ _))
    | with_reducible apply Kept.ite
    | split
    | fail_if_no_progress (with_reducible apply Kept.upd <;> try with_reducible rfl)

theorem State.linkCtrl_kept (s : State) (l : LinkId) (v : Word) : Kept s (s.linkCtrl l v) := by
  unfold State.linkCtrl
  repeat' first
    | with_reducible apply Kept.refl
    | assumption
    | (extract_lets +onlyGivenNames y; first | (refine Kept.step (y := y) ?_ (fun _ => ?_); on_goal 2 => clear_value y; on_goal 1 => subst y) | subst y)
    | (with_reducible apply fun h => Kept.trans h (State.modLink_kept _ _ _))
    | (with_reducible apply fun h => Kept.trans h (State.sleepWrite_kept _ _))
    | (with_reducible apply fun h => Kept.trans h (State.wakeWrite_kept _ _))
    | (with_reducible apply fun h => Kept.trans h (State.retrainWrite_kept _ _))
    | (with_reducible apply fun h => Kept.trans h (State.loopStart_kept _ _))
    | with_reducible apply Kept.ite

theorem State.dirmapWrite_kept (s : State) (k : Nat) (v : Word) : Kept s (s.dirmapWrite k v) := by
  unfold State.dirmapWrite
  repeat' first
    | with_reducible apply Kept.refl
    | assumption
    | (extract_lets +onlyGivenNames y; first | (refine Kept.step (y := y) ?_ (fun _ => ?_); on_goal 2 => clear_value y; on_goal 1 => subst y) | subst y)
    | with_reducible apply Kept.ite
    | fail_if_no_progress (with_reducible apply Kept.upd <;> try with_reducible rfl)

theorem State.writeLnk_kept (s : State) (o : Nat) (v : Word) : Kept s (s.writeLnk o v) := by
  unfold State.writeLnk
  repeat' first
    | with_reducible apply Kept.refl
    | assumption
    | (extract_lets +onlyGivenNames y; first | (refine Kept.step (y := y) ?_ (fun _ => ?_); on_goal 2 => clear_value y; on_goal 1 => subst y) | subst y)
    | (with_reducible apply fun h => Kept.trans h (State.topoLatch_kept _))
    | (with_reducible apply fun h => Kept.trans h (State.dirmapWrite_kept _ _ _))
    | (with_reducible apply fun h => Kept.trans h (State.announce_kept _))
    | (with_reducible apply fun h => Kept.trans h (State.evaluateAll_kept _))
    | (with_reducible apply fun h => Kept.trans h (State.linkCtrl_kept _ _ _))
    | with_reducible apply Kept.ite
    | split
    | fail_if_no_progress (with_reducible apply Kept.upd <;> try with_reducible rfl)

theorem State.writeCol_kept (s : State) (o : Nat) (v : Word) : Kept s (s.writeCol o v) := by
  unfold State.writeCol
  repeat' first
    | with_reducible apply Kept.refl
    | assumption
    | (extract_lets +onlyGivenNames y; first | (refine Kept.step (y := y) ?_ (fun _ => ?_); on_goal 2 => clear_value y; on_goal 1 => subst y) | subst y)
    | (with_reducible apply fun h => Kept.trans h (State.raiseBeacon_kept _ _))
    | (with_reducible apply fun h => Kept.trans h (State.launchDoorbell_kept _ _ _))
    | (with_reducible apply fun h => Kept.trans h (State.colHead_kept _ _ _))
    | (with_reducible apply fun h => Kept.trans h (State.regViol_kept _))
    | with_reducible apply Kept.ite
    | split
    | fail_if_no_progress (with_reducible apply Kept.upd <;> try with_reducible rfl)

theorem State.snapCtrl_kept (s : State) (n : SnapId) (v : Word) : Kept s (s.snapCtrl n v) := by
  unfold State.snapCtrl
  repeat' first
    | with_reducible apply Kept.refl
    | assumption
    | (extract_lets +onlyGivenNames y; first | (refine Kept.step (y := y) ?_ (fun _ => ?_); on_goal 2 => clear_value y; on_goal 1 => subst y) | subst y)
    | (with_reducible apply fun h => Kept.trans h (State.snapCancel_kept _ _))
    | (with_reducible apply fun h => Kept.trans h (State.snapRelease_kept _ _))
    | with_reducible apply Kept.ite

theorem State.writeSnp_kept (s : State) (o : Nat) (v : Word) : Kept s (s.writeSnp o v) := by
  unfold State.writeSnp
  repeat' first
    | with_reducible apply Kept.refl
    | assumption
    | (extract_lets +onlyGivenNames y; first | (refine Kept.step (y := y) ?_ (fun _ => ?_); on_goal 2 => clear_value y; on_goal 1 => subst y) | subst y)
    | (with_reducible apply fun h => Kept.trans h (State.regViol_kept _))
    | (with_reducible apply fun h => Kept.trans h (State.snapCtrl_kept _ _ _))
    | with_reducible apply Kept.ite
    | split
    | fail_if_no_progress (with_reducible apply Kept.upd <;> try with_reducible rfl)

theorem State.effectSeam_kept (s : State) (o : Nat) (v : Word) : Kept s (s.effectSeam o v) := by
  unfold State.effectSeam
  repeat' first
    | with_reducible apply Kept.refl
    | assumption
    | (extract_lets +onlyGivenNames y; first | (refine Kept.step (y := y) ?_ (fun _ => ?_); on_goal 2 => clear_value y; on_goal 1 => subst y) | subst y)
    | split
    | fail_if_no_progress (with_reducible apply Kept.upd <;> try with_reducible rfl)

theorem State.qfenceWrite_kept (s : State) (v : Word) : Kept s (s.qfenceWrite v) := by
  unfold State.qfenceWrite
  repeat' first
    | with_reducible apply Kept.refl
    | (with_reducible apply fun h => Kept.trans h (State.fenceRequest_kept _ _))
    | (with_reducible apply fun h => Kept.trans h (State.unfenceRequest_kept _ _))
    | (with_reducible apply Kept.foldl; on_goal 2 => intro _ _)
    | with_reducible apply Kept.ite

theorem State.qtestWrite_kept (s : State) (v : Word) : Kept s (s.qtestWrite v) := by
  unfold State.qtestWrite
  repeat' first
    | with_reducible apply Kept.refl
    | assumption
    | (extract_lets +onlyGivenNames y; first | (refine Kept.step (y := y) ?_ (fun _ => ?_); on_goal 2 => clear_value y; on_goal 1 => subst y) | subst y)
    | (with_reducible apply fun h => Kept.trans h (State.testStart_kept _ _))
    | with_reducible apply Kept.ite
    | fail_if_no_progress (with_reducible apply Kept.upd <;> try with_reducible rfl)

theorem State.fldCtrl_kept (s : State) (v : Word) : Kept s (s.fldCtrl v) := by
  unfold State.fldCtrl
  repeat' first
    | with_reducible apply Kept.refl
    | assumption
    | (extract_lets +onlyGivenNames y; first | (refine Kept.step (y := y) ?_ (fun _ => ?_); on_goal 2 => clear_value y; on_goal 1 => subst y) | subst y)
    | (with_reducible apply fun h => Kept.trans h (State.writeMaint_kept _ _))
    | (with_reducible apply fun h => Kept.trans h (State.freeze_kept _))
    | with_reducible apply Kept.ite

theorem State.effectFld_kept (s : State) (o : Nat) (v : Word) : Kept s (s.effectFld o v) := by
  unfold State.effectFld
  repeat' first
    | with_reducible apply Kept.refl
    | assumption
    | (extract_lets +onlyGivenNames y; first | (refine Kept.step (y := y) ?_ (fun _ => ?_); on_goal 2 => clear_value y; on_goal 1 => subst y) | subst y)
    | (with_reducible apply fun h => Kept.trans h (State.qfenceWrite_kept _ _))
    | (with_reducible apply fun h => Kept.trans h (State.qtestWrite_kept _ _))
    | (with_reducible apply fun h => Kept.trans h (State.fldCtrl_kept _ _))
    | (with_reducible apply fun h => Kept.trans h (State.captureAsk_kept _ _ _))
    | with_reducible apply Kept.ite
    | split
    | fail_if_no_progress (with_reducible apply Kept.upd <;> try with_reducible rfl)

theorem State.tkpCtrl_kept (s : State) (v : Word) : Kept s (s.tkpCtrl v) := by
  unfold State.tkpCtrl
  repeat' first
    | with_reducible apply Kept.refl
    | assumption
    | (extract_lets +onlyGivenNames y; first | (refine Kept.step (y := y) ?_ (fun _ => ?_); on_goal 2 => clear_value y; on_goal 1 => subst y) | subst y)
    | (with_reducible apply fun h => Kept.trans h (State.cmpClear_kept _))
    | with_reducible apply Kept.ite
    | fail_if_no_progress (with_reducible apply Kept.upd <;> try with_reducible rfl)

theorem State.effectTkp_kept (s : State) (o : Nat) (v : Word) : Kept s (s.effectTkp o v) := by
  unfold State.effectTkp
  repeat' first
    | with_reducible apply Kept.refl
    | assumption
    | (extract_lets +onlyGivenNames y; first | (refine Kept.step (y := y) ?_ (fun _ => ?_); on_goal 2 => clear_value y; on_goal 1 => subst y) | subst y)
    | (with_reducible apply fun h => Kept.trans h (State.tkpCtrl_kept _ _))
    | split
    | fail_if_no_progress (with_reducible apply Kept.upd <;> try with_reducible rfl)

theorem State.rstCtrl_kept (s : State) (v : Word) : Kept s (s.rstCtrl v) := by
  unfold State.rstCtrl
  repeat' first
    | with_reducible apply Kept.refl
    | assumption
    | (extract_lets +onlyGivenNames y; first | (refine Kept.step (y := y) ?_ (fun _ => ?_); on_goal 2 => clear_value y; on_goal 1 => subst y) | subst y)
    | (with_reducible apply fun h => Kept.trans h (State.regViol_kept _))
    | (with_reducible apply fun h => Kept.trans h (State.hostFence_kept _))
    | (with_reducible apply fun h => Kept.trans h (State.systemStart_kept _ _ _ _))
    | (with_reducible apply fun h => Kept.trans h (State.coreStart_kept _ _ _))
    | with_reducible apply Kept.ite

theorem State.lfenceWrite_kept (s : State) (v : Word) : Kept s (s.lfenceWrite v) := by
  unfold State.lfenceWrite
  repeat' first
    | with_reducible apply Kept.refl
    | (with_reducible apply fun h => Kept.trans h (State.linkFence_kept _ _ _))
    | (with_reducible apply Kept.foldl; on_goal 2 => intro _ _)

theorem State.blkResetWrite_kept (s : State) (v : Word) : Kept s (s.blkResetWrite v) := by
  unfold State.blkResetWrite
  repeat' first
    | with_reducible apply Kept.refl
    | assumption
    | (extract_lets +onlyGivenNames y; first | (refine Kept.step (y := y) ?_ (fun _ => ?_); on_goal 2 => clear_value y; on_goal 1 => subst y) | subst y)
    | (with_reducible apply fun h => Kept.trans h (State.blockReset_kept _ _ _))
    | with_reducible apply Kept.ite
    | fail_if_no_progress (with_reducible apply Kept.upd <;> try with_reducible rfl)

theorem State.effectRst_kept (s : State) (o : Nat) (v : Word) : Kept s (s.effectRst o v) := by
  unfold State.effectRst
  repeat' first
    | with_reducible apply Kept.refl
    | assumption
    | (extract_lets +onlyGivenNames y; first | (refine Kept.step (y := y) ?_ (fun _ => ?_); on_goal 2 => clear_value y; on_goal 1 => subst y) | subst y)
    | (with_reducible apply fun h => Kept.trans h (State.rstCtrl_kept _ _))
    | (with_reducible apply fun h => Kept.trans h (State.lfenceWrite_kept _ _))
    | (with_reducible apply fun h => Kept.trans h (State.blkResetWrite_kept _ _))
    | split
    | fail_if_no_progress (with_reducible apply Kept.upd <;> try with_reducible rfl)

theorem State.effectHlt_kept (s : State) (o : Nat) (v : Word) : Kept s (s.effectHlt o v) := by
  unfold State.effectHlt
  repeat' first
    | with_reducible apply Kept.refl
    | assumption
    | (extract_lets +onlyGivenNames y; first | (refine Kept.step (y := y) ?_ (fun _ => ?_); on_goal 2 => clear_value y; on_goal 1 => subst y) | subst y)
    | split
    | fail_if_no_progress (with_reducible apply Kept.upd <;> try with_reducible rfl)

theorem State.effectPwr_kept (s : State) (o : Nat) (v : Word) : Kept s (s.effectPwr o v) := by
  unfold State.effectPwr
  repeat' first
    | with_reducible apply Kept.refl
    | assumption
    | (extract_lets +onlyGivenNames y; first | (refine Kept.step (y := y) ?_ (fun _ => ?_); on_goal 2 => clear_value y; on_goal 1 => subst y) | subst y)
    | split
    | fail_if_no_progress (with_reducible apply Kept.upd <;> try with_reducible rfl)

theorem State.effectSvc_kept (s : State) (o : Nat) (v : Word) : Kept s (s.effectSvc o v) := by
  unfold State.effectSvc
  repeat' first
    | with_reducible apply Kept.refl
    | assumption
    | (extract_lets +onlyGivenNames y; first | (refine Kept.step (y := y) ?_ (fun _ => ?_); on_goal 2 => clear_value y; on_goal 1 => subst y) | subst y)
    | (with_reducible apply fun h => Kept.trans h (State.cancelRequest_kept _))
    | (with_reducible apply fun h => Kept.trans h (State.drainedWrite_kept _))
    | with_reducible apply Kept.ite
    | split
    | fail_if_no_progress (with_reducible apply Kept.upd <;> try with_reducible rfl)

theorem State.restoreParity_kept (s : State) (o : Nat) : Kept s (s.restoreParity o) := by
  unfold State.restoreParity
  repeat' first
    | with_reducible apply Kept.refl
    | assumption
    | (extract_lets +onlyGivenNames y; first | (refine Kept.step (y := y) ?_ (fun _ => ?_); on_goal 2 => clear_value y; on_goal 1 => subst y) | subst y)
    | with_reducible apply Kept.ite
    | split
    | fail_if_no_progress (with_reducible apply Kept.upd <;> try with_reducible rfl)

theorem State.post_kept (s : State) (b : PBlock) (base : Nat) (o : Nat) (v : Word) : Kept s (s.post b base o v) := by
  unfold State.post
  repeat' first
    | with_reducible apply Kept.refl
    | assumption
    | (extract_lets +onlyGivenNames y; first | (refine Kept.step (y := y) ?_ (fun _ => ?_); on_goal 2 => clear_value y; on_goal 1 => subst y) | subst y)
    | with_reducible apply Kept.ite
    | fail_if_no_progress (with_reducible apply Kept.upd <;> try with_reducible rfl)

theorem State.postedEffect_kept (s : State) (b : PBlock) : Kept s (s.postedEffect b) := by
  unfold State.postedEffect
  repeat' first
    | with_reducible apply Kept.refl
    | assumption
    | (extract_lets +onlyGivenNames y; first | (refine Kept.step (y := y) ?_ (fun _ => ?_); on_goal 2 => clear_value y; on_goal 1 => subst y) | subst y)
    | (with_reducible apply fun h => Kept.trans h (State.restoreParity_kept _ _))
    | (with_reducible apply fun h => Kept.trans h (State.effectSeam_kept _ _ _))
    | (with_reducible apply fun h => Kept.trans h (State.effectFld_kept _ _ _))
    | (with_reducible apply fun h => Kept.trans h (State.effectTkp_kept _ _ _))
    | (with_reducible apply fun h => Kept.trans h (State.effectRst_kept _ _ _))
    | (with_reducible apply fun h => Kept.trans h (State.effectHlt_kept _ _ _))
    | (with_reducible apply fun h => Kept.trans h (State.effectPwr_kept _ _ _))
    | (with_reducible apply fun h => Kept.trans h (State.effectSvc_kept _ _ _))
    | split
    | fail_if_no_progress (with_reducible apply Kept.upd <;> try with_reducible rfl)

theorem State.fileWrite_kept (s : State) (o : Nat) (v : Word) : Kept s (s.fileWrite o v) := by
  unfold State.fileWrite
  repeat' first
    | with_reducible apply Kept.refl
    | assumption
    | (extract_lets +onlyGivenNames y; first | (refine Kept.step (y := y) ?_ (fun _ => ?_); on_goal 2 => clear_value y; on_goal 1 => subst y) | subst y)
    | (with_reducible apply fun h => Kept.trans h (State.post_kept _ _ _ _ _))
    | (with_reducible apply fun h => Kept.trans h (State.restoreParity_kept _ _))
    | (with_reducible apply fun h => Kept.trans h (State.writeHub_kept _ _ _))
    | (with_reducible apply fun h => Kept.trans h (State.writeIrq_kept _ _ _))
    | (with_reducible apply fun h => Kept.trans h (State.writeCfe_kept _ _ _))
    | (with_reducible apply fun h => Kept.trans h (State.writeSch_kept _ _ _))
    | (with_reducible apply fun h => Kept.trans h (State.writeStb_kept _ _ _))
    | (with_reducible apply fun h => Kept.trans h (State.writeHst_kept _ _ _))
    | (with_reducible apply fun h => Kept.trans h (State.writeOpt_kept _ _ _))
    | (with_reducible apply fun h => Kept.trans h (State.writeLnk_kept _ _ _))
    | (with_reducible apply fun h => Kept.trans h (State.writeCol_kept _ _ _))
    | (with_reducible apply fun h => Kept.trans h (State.writeSnp_kept _ _ _))
    | with_reducible apply Kept.ite
    | split

theorem State.bar4Write_kept (s : State) (fn : FnId) (o : Nat) (v : Word) : Kept s (s.bar4Write fn o v) := by
  unfold State.bar4Write
  repeat' first
    | with_reducible apply Kept.refl
    | assumption
    | (extract_lets +onlyGivenNames y; first | (refine Kept.step (y := y) ?_ (fun _ => ?_); on_goal 2 => clear_value y; on_goal 1 => subst y) | subst y)
    | (with_reducible apply fun h => Kept.trans h (State.irqRelease_kept _ _))
    | (with_reducible apply fun h => Kept.trans h (State.wxDb_kept _ _ _ _))
    | (with_reducible apply fun h => Kept.trans h (State.wxChead_kept _ _ _ _))
    | with_reducible apply Kept.ite
    | split
    | fail_if_no_progress (with_reducible apply Kept.upd <;> try with_reducible rfl)

theorem State.write_kept (s : State) (fn : FnId) (bar : Bar) (o : Nat) (v : Word) : Kept s (s.write fn bar o v) := by
  unfold State.write
  repeat' first
    | with_reducible apply Kept.refl
    | (with_reducible apply fun h => Kept.trans h (State.fileWrite_kept _ _ _))
    | (with_reducible apply fun h => Kept.trans h (State.writeSlot_kept _ _ _ _))
    | (with_reducible apply fun h => Kept.trans h (State.sqDb_kept _ _ _ _))
    | (with_reducible apply fun h => Kept.trans h (State.bar4Write_kept _ _ _ _))
    | with_reducible apply Kept.ite
    | split

theorem State.writeDword_kept (s : State) (fn : FnId) (bar : Bar) (off : Nat) (be : BitVec 4) (v : Word) : Kept s (s.writeDword fn bar off be v) := by
  unfold State.writeDword
  repeat' first
    | with_reducible apply Kept.refl
    | assumption
    | (extract_lets +onlyGivenNames y; first | (refine Kept.step (y := y) ?_ (fun _ => ?_); on_goal 2 => clear_value y; on_goal 1 => subst y) | subst y)
    | (with_reducible apply fun h => Kept.trans h (State.busError_kept _ _))
    | (with_reducible apply fun h => Kept.trans h (State.regViol_kept _))
    | (with_reducible apply fun h => Kept.trans h (State.write_kept _ _ _ _ _))
    | with_reducible apply Kept.ite

theorem State.registerWrite_kept (s : State) (fn : FnId) (bar : Bar) (off : Nat) (be : BitVec 4) (v : Word) (second : Option (BitVec 4 × Word)) : Kept s (s.registerWrite fn bar off be v second) := by
  unfold State.registerWrite
  repeat' first
    | with_reducible apply Kept.refl
    | assumption
    | (extract_lets +onlyGivenNames y; first | (refine Kept.step (y := y) ?_ (fun _ => ?_); on_goal 2 => clear_value y; on_goal 1 => subst y) | subst y)
    | (with_reducible apply fun h => Kept.trans h (State.writeDword_kept _ _ _ _ _ _))
    | split

theorem State.readCounted_kept (s : State) (fn : FnId) (bar : Bar) (o : Nat) : Kept s (s.readCounted fn bar o) := by
  unfold State.readCounted
  repeat' first
    | with_reducible apply Kept.refl
    | assumption
    | (extract_lets +onlyGivenNames y; first | (refine Kept.step (y := y) ?_ (fun _ => ?_); on_goal 2 => clear_value y; on_goal 1 => subst y) | subst y)
    | (with_reducible apply fun h => Kept.trans h (State.regViol_kept _))
    | with_reducible apply Kept.ite
    | split
    | fail_if_no_progress (with_reducible apply Kept.upd <;> try with_reducible rfl)

theorem State.busErrorAccess_kept (s : State) (fn : FnId) (bar : Bar) (off : Nat) (write : Bool) (dwords : Nat) : Kept s (s.busErrorAccess fn bar off write dwords) := by
  unfold State.busErrorAccess
  repeat' first
    | with_reducible apply Kept.refl
    | assumption
    | (extract_lets +onlyGivenNames y; first | (refine Kept.step (y := y) ?_ (fun _ => ?_); on_goal 2 => clear_value y; on_goal 1 => subst y) | subst y)
    | (with_reducible apply fun h => Kept.trans h (State.busError_kept _ _))
    | (with_reducible apply fun h => Kept.trans h (State.readCounted_kept _ _ _ _))
    | with_reducible apply Kept.ite
    | split
    | fail_if_no_progress (with_reducible apply Kept.upd <;> try with_reducible rfl)

end Sys2Proof.Machine
end

