-- ==== Sys2Proof/Tests/Slice0.lean ====
section
/-! SUPPORT. Tests: a state that meets the hypotheses of every statement, ill-formed commands, and single steps. -/

namespace Sys2Proof.Tests

set_option Elab.async false

open Sys2Proof Sys2Proof.Machine

/-- A module whose READY reads 1. -/
def ready : State := { State.reset with hub.ready := true, rst.coreHeld := false, perst := false, pwr.mainOn := true, pwr.auxOn := true, pwr.stage := 6 }

/-- A module whose hall time runs. -/
def locked : State := { ready with tkp.state := 3 }

theorem witness_empty_queue : State.reset.pending = [] := rfl
theorem witness_locked_idle : locked.pending = [] ∧ locked.tkp.state ≠ 0 ∧ locked.tkp.owed = 0 := by decide

theorem witness_reset_invariants :
    State.reset.memoriesWf = true ∧ State.reset.retiredHeld = true ∧ State.reset.mailboxSane = true := by decide
theorem witness_step_answers : ∃ t, step State.reset = .next t := ⟨_, rfl⟩

theorem witness_partial_write : ready.hub.ready = true ∧ (ready.read 0 .bar0 (0x16028 / 4 * 4)).isSome = true ∧ (0x7 : BitVec 4) ≠ 0xF := by
  decide
theorem witness_posted_write : ready.hub.ready = true ∧ (ready.read 0 .bar0 (0x16028 / 4 * 4)).isSome = true ∧
    blockOf (0x16028 / 4 * 4) = some (.pwr, 0x16000) ∧ hasWritable .pwr (0x16028 / 4 * 4 - 0x16000) = true ∧
    ready.posted.get .pwr = none := by decide
theorem witness_posted_busy :
    let s := { ready with posted.pwr := some { offset := 0x16028, value := 0 } }
    s.hub.ready = true ∧ (s.read 0 .bar0 (0x16028 / 4 * 4)).isSome = true ∧ s.posted.get .pwr ≠ none := by decide
theorem witness_posted_no_field : blockOf (0x16000 / 4 * 4) = some (.pwr, 0x16000) ∧ hasWritable .pwr (0x16000 / 4 * 4 - 0x16000) = false ∧
    (ready.read 0 .bar0 (0x16000 / 4 * 4)).isSome = true := by decide
theorem witness_before_ready : State.reset.hub.ready = false ∧ (State.reset.read 0 .bar0 (0x1000 / 4 * 4)).isSome = true ∧
    0x1000 ≤ 0x1000 / 4 * 4 := by decide
theorem witness_unimplemented : State.reset.read 0 .bar0 (0x18000 / 4 * 4) = none := by decide

theorem witness_posted_effects :
    (∃ s : State, s.posted.pwr = some { offset := 0x16028, value := 0x00FFFFFF }) ∧
    (∃ s : State, s.posted.tkp = some { offset := 0xB008, value := 63 }) ∧
    (∃ s : State, s.posted.hlt = some { offset := 0x13010, value := 0xFFFFFFFF }) ∧
    (∃ s : State, s.posted.seam = some { offset := 0x6010, value := 0xFF }) ∧
    (∃ s : State, s.posted.rst = some { offset := 0x12010, value := 0xFFFFFFFF }) ∧
    (∃ s : State, s.posted.fld = some { offset := 0x8014, value := 0x00FFFFFF }) ∧
    (∃ s : State, s.posted.svc = some { offset := 0x17004, value := 2 } ∧ wbit 2 0 = false ∧ wbit 2 2 = false) ∧
    State.reset.posted.get .sec = none :=
  ⟨⟨{ ready with posted.pwr := some { offset := 0x16028, value := 0x00FFFFFF } }, rfl⟩,
   ⟨{ ready with posted.tkp := some { offset := 0xB008, value := 63 } }, rfl⟩,
   ⟨{ ready with posted.hlt := some { offset := 0x13010, value := 0xFFFFFFFF } }, rfl⟩,
   ⟨{ ready with posted.seam := some { offset := 0x6010, value := 0xFF } }, rfl⟩,
   ⟨{ ready with posted.rst := some { offset := 0x12010, value := 0xFFFFFFFF } }, rfl⟩,
   ⟨{ ready with posted.fld := some { offset := 0x8014, value := 0x00FFFFFF } }, rfl⟩,
   ⟨{ ready with posted.svc := some { offset := 0x17004, value := 2 } }, rfl, by decide, by decide⟩, rfl⟩

theorem witness_profile_reserved : (wfield 0x3 0 : BitVec 2) = 3 ∧ (wfield 0x30 4 : BitVec 2) = 3 := by decide
theorem witness_profile_change : (wfield 0x4 0 : BitVec 2) ≠ 3 ∧ (wfield 0x4 4 : BitVec 2) ≠ 3 ∧ State.reset.profile.clockPending = false := by
  decide
theorem witness_profile_replaced : { ready with profile.clockPending := true }.profile.clockPending = true ∧
    wbit 0x4 2 ≠ { ready with profile.clockPending := true }.profile.clocking := by decide

/-- Port 1 in service. -/
def port1On : State := { ready with hub.p1Up := true, hub.p1Fenced := false, port1.busMaster := true }
theorem witness_port1_open : port1On.hub.p1Fenced = false := rfl
theorem witness_port1_draining : { port1On with hub.p1Fenced := true, hub.p1FenceReg := true, port1.draining := some 1 }.port1.draining = some 1 ∧
    { port1On with hub.p1Fenced := true, hub.p1FenceReg := true, port1.draining := some 1 }.hub.p1FenceReg = true := by decide
theorem witness_port1_return :
    let s := { port1On with hub.p1Fenced := true, hub.p1FenceReg := true }
    s.hub.p1Fenced = true ∧ s.hub.p1Up = true ∧ s.port1.busMaster = true ∧ s.port1.d3hot = false ∧ s.port1.draining = none ∧ s.port1.lastCause = 0 ∧ { s with port1.lastCause := 1 }.port1.lastCause ≠ 0 := by decide

theorem witness_link_up : 5 ≤ (7 : BitVec 3).toNat ∧ ready.pwr.mainOn = true ∧ ready.pwr.hold = .none ∧ ready.perst = false := by decide
theorem witness_gen_low : (4 : BitVec 3).toNat < 5 := by decide
theorem witness_no_contexts : ∀ e ∈ State.reset.contexts, e.2.fn ≠ 0 := by
  decide +kernel
theorem witness_port1_fenced : { port1On with hub.p1Fenced := true, hub.p1FenceReg := true }.hub.p1Fenced = true ∧
    { port1On with hub.p1Fenced := true, hub.p1FenceReg := true }.hub.p1FenceReg = true := by decide

/-- A module whose mailbox runs the request `code` with the argument words given. -/
def asked (code : BitVec 16) (args : List Word) : State :=
  { ready with
    mbx.busy := true
    mbx.running := code
    mbx.data := Vector.ofFn fun i => args.getD i.val 0 }
theorem witness_mailbox_go : ready.mbx.busy = false ∧ wbit 0x10030 16 = true ∧ wbit 0x10030 17 = false := by decide
theorem witness_mailbox_reserved : (asked 0xFFFF []).mbx.busy = true ∧ mailboxCodes.contains (asked 0xFFFF []).mbx.running.toNat = false := by decide
theorem witness_mailbox_retired :
    let s := { asked 0x30 [] with rst.retired := true }
    s.mbx.busy = true ∧ s.mbx.running = 0x30 ∧ s.mbx.fenced = false ∧ s.rst.retired = true := by decide

/-- A source with an event whose timer has run out. -/
def timed : State := { ready with
  irq.enable := setBit ready.irq.enable 324 true, irq.first := vset ready.irq.first 324 (some 0), now := 1024000, tkp.state := 0 }
theorem witness_irq_timer : vget timed.irq.first (324 : BitVec 9).toFin = some 0 ∧ timed.irq.enable.getLsbD 324 = true ∧
    0 + 1000 * (vget timed.irq.cfg (324 : BitVec 9).toFin).micros ≤ timed.now := by decide +kernel
theorem witness_irq_timer_pass : timed.pass 0 = timed := rfl
theorem witness_irq_no_timer : vget State.reset.irq.first (511 : BitVec 9).toFin = none := by decide +kernel
/-- Its message may leave. -/
def sendable : State := { timed with
  irq.pending := setBit 0 324 true
  hub.p0Up := true
  fns := vmod timed.fns 0 fun f => { f with busMaster := true, msixEnable := true, msix := vmod f.msix 0 fun m => { m with masked := false } } }
theorem witness_irq_send : sendable.irqCanSend 324 = true := by decide +kernel
theorem witness_irq_held : timed.irqCanSend 324 = false := by decide +kernel

/-- A module with event ring 0 open and one event waiting. -/
def ringing : State := { ready with
  hub.p0Up := true
  fns := vmod ready.fns 0 fun f => { f with busMaster := true }
  evr := vmod ready.evr 0 fun q => { q with en := true, log2 := 6, fifo := [{ code := 1, subject := 0, ht := 0, payload := [] }] } }
theorem witness_ring_disabled : (vget State.reset.evr 0).en = false := by decide
theorem witness_ring_enabled : (vget ringing.evr 0).en = true ∧ (vget ringing.evr 0).fifo.length < 256 := by decide
theorem witness_ring_head : ((vget ringing.evr 0).tail - 0).toNat ≤ ((vget ringing.evr 0).tail - (vget ringing.evr 0).head).toNat := by decide
theorem witness_ring_head_bad : ((vget ringing.evr 0).tail - (vget ringing.evr 0).head).toNat < ((vget ringing.evr 0).tail - 1).toNat := by decide
theorem witness_ring_front : (vget ringing.evr 0).fifo = [{ code := 1, subject := 0, ht := 0, payload := [] }] ∧
    (vget ringing.evr 0).marker = none ∧ ringing.ringOpen 0 = true := by decide
theorem witness_ring_marker :
    let s : State := { ringing with evr := vmod ringing.evr 0 fun q => { q with marker := some { ahead := 0, firstHt := 0, lastHt := 9, count := 2 } } }
    ∃ m, (vget s.evr 0).marker = some m ∧ m.ahead = 0 ∧ s.ringOpen 0 = true := ⟨_, rfl, rfl, by decide⟩

/-- A window of 16 slots with slot 0 device-held, slot 1 host-owned and slot 2 in use. -/
def someWindow : Window := { windowReset with
  nslots := 16, wxLog2 := 6, flagBase := 0x1000, wxBase := 0x2000, wxcBase := 0x3000
  slots := [(0, { log2 := 21, p2p := false, addr := 0x100000, held := some 5, flagLen := 0, flagCrc := 0, busy := false }),
    (1, { log2 := 21, p2p := false, addr := 0x300000, held := none, flagLen := 0, flagCrc := 0, busy := false }),
    (2, { log2 := 21, p2p := false, addr := 0x500000, held := some 5, flagLen := 0, flagCrc := 0, busy := true })] }
/-- `s` with context 0 of PF0 in it. -/
def withCtx (s : State) (x : Context) : State := s.setCtx 0 { x with fn := 0, slot := 0 }
/-- A context with a window. -/
def windowed : Context := { contextReset with window := some someWindow }
theorem witness_win_cfg :
    let s := withCtx (asked 0x10 [0, 0x06000001, 0x1000, 0, 0x2000, 0, 0x3000, 0]) contextReset
    s.mbxIs 0x10 = true ∧ s.mbx.fenced = false ∧ s.rst.retired = false ∧ winCfgBad s.mbxBytes = false ∧
      (s.ctx? (ctxOf (fieldAt s.mbxBytes 0 1))).any (·.window.isNone) = true := by decide +kernel
theorem witness_win_slot :
    let s := withCtx (asked 0x11 [0x30000, 16, 0x10000, 0]) windowed
    s.mbxIs 0x11 = true ∧ s.mbx.fenced = false ∧ s.rst.retired = false ∧
      (s.ctx? (ctxOf (fieldAt s.mbxBytes 0 1))).any (·.window.isSome) = true := by decide +kernel
theorem witness_win_slot_new :
    let a := (asked 0x11 [0xF0000, 30, 0x10000, 0]).mbxBytes
    fieldAt a 0 4 = 15 * 2 ^ 16 + fieldAt a 0 1 ∧ fieldAt a 0 1 < 256 ∧ fieldAt a 4 4 = 30 + b2n false * 2 ^ 8 ∧ fieldAt a 8 8 = 0x10000 ∧
      15 < someWindow.nslots ∧ (someWindow.slots.get? 15).isNone = true ∧ someWindow.total + 2 ^ 30 ≤ 2 ^ 36 := by decide +kernel
theorem witness_win_reclaim :
    let s := withCtx (asked 0x12 [0]) windowed
    s.mbxIs 0x12 = true ∧ s.mbx.fenced = false ∧ s.rst.retired = false ∧ bits (s.mbxArg 0) 15 8 = 0 ∧
      ((s.ctx? (ctxOf (bits (s.mbxArg 0) 7 0))).bind fun x => x.slot? (bits (s.mbxArg 0) 31 16)).any
        (fun t => t.held.isSome && !t.busy) = true := by decide +kernel
theorem witness_win_reclaim_others :
    (windowed.slot? 1).any (fun t => t.held.isNone) = true ∧ (windowed.slot? 2).any (fun t => t.held.isSome && t.busy) = true := by
  decide +kernel

/-- PF0 may issue requests. -/
def mastered (s : State) : State := { s with hub.p0Up := true, fns := vmod s.fns 0 fun f => { f with busMaster := true } }
/-- A STORE descriptor: 4 bytes from VA 0 to slot 0, well formed, and the same with OP 0. -/
def storeDesc (op : Byte) : List Byte := leBytes 4 op.toNat ++ leBytes 4 0 ++ leBytes 8 7 ++ leBytes 8 0 ++ leBytes 8 0 ++ leBytes 4 4 ++ List.replicate 28 0
/-- A context with a doorbell rung and page 0 RESIDENT. -/
def storing : Context := { windowed with window := some { someWindow with tail := 1 }, pt := [(0, mkPte psResident false false (locSeam 0) 1)] }
theorem witness_wx_empty : State.reset.ctxAt 63 31 = none := by decide +kernel
theorem witness_wx_slot : ((withCtx ready windowed).ctxAt 0 0).any (fun e => e.2.window.isSome) = true ∧
    (64 - someWindow.head).toNat ≤ 2 ^ someWindow.wxLog2 ∧ 2 ^ someWindow.wxLog2 < (65 - someWindow.head).toNat ∧
    (someWindow.ctail - someWindow.chead).toNat < (someWindow.ctail - 1).toNat := by decide +kernel
theorem witness_wx_no_window : ((withCtx ready contextReset).ctxAt 0 0).any (fun e => e.2.window.isNone) = true := by decide +kernel
theorem witness_store :
    let s := mastered (withCtx ready storing)
    (storeDesc 1).length = 64 ∧ (s.ctx? 0).any (fun x => x.window.any fun w => s.mayTransfer x w && (w.slots.get? 0).any fun t => t.held.isSome && 4 ≤ t.size) = true ∧
      transferBad (storeDesc 1) = false ∧ transferBad (storeDesc 0) = true ∧ bit (fieldAt (storeDesc 1) 0 4) 8 = false ∧
      (∀ v ∈ pagesOf (fieldAt (storeDesc 1) 0x10 6) (fieldAt (storeDesc 1) 0x20 4), pteState (storing.pt.getD v 0) = psResident) := by
  decide +kernel
theorem witness_wx_complete :
    let t : Transfer := { seq := 0, desc := storeDesc 1, status := some stOk, written := 4 }
    let s := mastered (withCtx ready { storing with window := some { someWindow with head := 1, tail := 1, transfers := [t] } })
    (s.ctx? 0).any (fun x => s.mayRequest x.fn && x.window.any fun w => w.transfers == [t]) = true ∧ bit (fieldAt t.desc 0 4) 9 = false := by
  decide +kernel

/-- A 128-byte descriptor with the words given by offset. -/
def descWith (ws : Assoc Nat) : List Byte := (List.range 32).flatMap fun i => leBytes 4 (ws.getD (4 * i) 0)
/-- A command that holds the Field with its operation list in page 0, which is RESIDENT in Seam page 0. -/
def holding (k : Cmd) : State :=
  let pt : Assoc DWord := [(0, mkPte psResident false false (locSeam 0) 1), (1, mkPte psResident false false (locSeam 1) 1)]
  let k := { k with desc := leBytes 4 (1 + 2 ^ 16) ++ leBytes 4 5 ++ List.replicate 120 0, phase := .running, versions := pt
                    arrays := List.range 24, reserved := [(1, 2)] }
  { mastered (withCtx ready { contextReset with pt := pt, cmds := [k] }) with
    sch.holder := some { ctx := 0, seq := k.seq, since := 0, mark := 0, energy := 0 }
    hst.quotaSeam := Vector.replicate 64 100
    frames := [(0, { use := .page, charge := some 0, lastUse := 0, far := none }), (1, { use := .page, charge := some 0, lastUse := 0, far := none }),
      (2, { use := .shadow, charge := some 0, lastUse := 0, far := none })] }
/-- `s` with a descriptor as the next operation, and training unit 0 opened for step 5 of context 0. -/
def withOp (s : State) (ws : Assoc Nat) : State :=
  { s with
    mem := Cells.writeBytes [] 0 (descWith ws)
    opt.units := vmod s.opt.units 0 fun u => { u with valid := true, ctx := 0, openStep := 5 } }
/-- The ranges lie on pages that the command can access with no bad codeword. -/
def reachable (s : State) (x : Context) (k : Cmd) (ranges : List (Nat × Nat)) : Bool :=
  (x.entriesFor k s.freeCtr ranges).all fun e => pteState e.2 != psFar && pteState e.2 != psTransit && pteState e.2 != psPoisoned
theorem reachable_accessible (s : State) (x : Context) (k : Cmd) (ranges : List (Nat × Nat)) (h : reachable s x k ranges = true) :
    Accessible s x k (s.seamErrs []) ranges := by
  refine ⟨fun e he => ?_, fun f _ => List.not_mem_nil⟩
  simpa only [Bool.and_eq_true, bne_iff_ne, ne_eq, and_assoc] using List.all_eq_true.mp h e he
/-- The pages that the ranges touch have their shadows. -/
def shadowedBy (s : State) (x : Context) (k : Cmd) (ranges : List (Nat × Nat)) : Bool :=
  (rangePages ranges).all fun v => k.shadows.has v || k.reserved.has v || pteDrops (x.writeView k s.freeCtr v)
theorem shadowedBy_shadowed (s : State) (x : Context) (k : Cmd) (ranges : List (Nat × Nat)) (h : shadowedBy s x k ranges = true) :
    Shadowed s x k ranges := fun v hv => by
  simpa only [Bool.or_eq_true, or_assoc] using List.all_eq_true.mp h v hv
/-- The operation at the front of `s` executes, and `p` accepts it. -/
def opRuns (s : State) (p : FOp → Bool) : Bool :=
  match s.holder? with
  | none => false
  | some (c, x, k) =>
    match s.opSource c k with
    | none => false
    | some (va, _) =>
      let o := fop (s.cmdBytes x k va 128)
      let plate := k.prev?.any (·.plateLive)
      let ws := rangesOf (opWritten o k (s.opOut (s.cmdByte x k) k o plate))
      p o && k.canRun && !s.fld.frozen && !s.opBad c k o && (!o.wait || k.passedWait) && reachable s x k [(va, 128)] &&
        reachable s x k (opReads o plate (s.cmdByte x k)) && reachable s x k ws && shadowedBy s x k ws
/-- What a true `opRuns` stands for: the hypotheses of the statement about running operations are met. -/
theorem opRuns_executes (s : State) (p : FOp → Bool) (h : opRuns s p = true) :
    ∃ c k o count, OpExecutes s c k o count [] ∧ p o = true := by
  unfold opRuns at h
  split at h
  · exact absurd h (by simp)
  · rename_i c x k hh
    split at h
    · exact absurd h (by simp)
    · rename_i va count hs
      simp only [Bool.and_eq_true, Bool.not_eq_true', Bool.or_eq_true] at h
      obtain ⟨⟨⟨⟨⟨⟨⟨⟨h1, h2⟩, h3⟩, h4⟩, h5⟩, h6⟩, h7⟩, h8⟩, h9⟩ := h
      exact ⟨c, k, _, count, ⟨x, va, hh, h2, h3, hs, rfl, h4, h5, reachable_accessible s x k _ h6, reachable_accessible s x k _ h7,
        reachable_accessible s x k _ h8, shadowedBy_shadowed s x k _ h9⟩, h1⟩
/-- A descriptor of class `cls` and shape 1 × 1 with the further words `ws` and A, B, C, OUT in their places. -/
def opWords (w0 k kr : Nat) (ws : List (Nat × Nat)) : Assoc Nat :=
  [(0, w0), (4, 4), (8, 1), (0xC, 1), (0x10, k), (0x14, kr), (0x18, 0x10118), (0x20, 0x1000), (0x28, 0x1100), (0x30, 0x1200),
   (0x38, 0x200000), (0x58, 0x3F800000), (0x5C, 0x3F800000), (0x60, 0x3F800000)] ++ ws
/-- A command that has opened its unit with a CHECK. -/
def checked : Cmd := { cmdReset with unit := some 0, decision := some .apply }
def convWords : List (Nat × Nat) :=
  [(0x68, 0x00010001), (0x6C, 0x01010001), (0x70, 0x01110101), (0x74, 0x111), (0x78, 1), (0x7C, 1)]
theorem witness_matmul : opRuns (withOp (holding cmdReset) (opWords 1 1 1 [])) (ofClass 1) = true := by decide +kernel
theorem witness_bmatmul : opRuns (withOp (holding cmdReset) (opWords 2 1 1 [(0x68, 1)])) (ofClass 2) = true := by decide +kernel
theorem witness_conv : opRuns (withOp (holding cmdReset) (opWords 3 1 1 convWords)) (ofClass 3) = true := by decide +kernel
theorem witness_dwconv : opRuns (withOp (holding cmdReset) (opWords 0x404 1 1 convWords)) (ofClass 4) = true := by decide +kernel
theorem witness_attend : opRuns (withOp (holding cmdReset)
    (opWords 0x10004005 1 1 [(0x70, 1), (0x74, 6), (0x78, 1), (0x7C, 0x3F800000)])) (ofClass 5) = true := by decide +kernel
theorem witness_elem : opRuns (withOp (holding cmdReset) (opWords 6 0 0 [(0x68, 5)])) (ofClass 6) = true := by decide +kernel
theorem witness_reduce : opRuns (withOp (holding cmdReset) (opWords 7 0 0 [(0x68, 3)])) (ofClass 7) = true := by decide +kernel
theorem witness_norm : opRuns (withOp (holding cmdReset) (opWords 8 0 0 [(0x68, 1)])) (ofClass 8) = true := by decide +kernel
theorem witness_repack : opRuns (withOp (holding cmdReset) (opWords 9 0 0 [])) (ofClass 9) = true := by decide +kernel
theorem witness_gather : opRuns (withOp (holding cmdReset) (opWords 10 1 0 [])) (ofClass 10) = true := by decide +kernel
theorem witness_scatter : opRuns (withOp (holding cmdReset) (opWords 11 1 0 [])) (ofClass 11) = true := by decide +kernel
theorem witness_optstep : opRuns (withOp (holding checked)
    [(0, 0x6000400C), (4, 4), (8, 1), (0xC, 32), (0x10, 32), (0x14, 32), (0x18, 0x10118), (0x20, 0x1000), (0x28, 0x200000), (0x30, 0x200400),
     (0x58, 0x3F800000), (0x5C, 0x3F800000), (0x68, 1), (0x70, 0x1800)]) (ofClass 12) = true := by decide +kernel
theorem witness_sumsq : opRuns (withOp (holding cmdReset) (opWords 13 1 1 [])) (ofStats 0) = true := by decide +kernel
theorem witness_sumsq2 : opRuns (withOp (holding cmdReset) (opWords 13 1 1 [(0x68, 1)])) (ofStats 1) = true := by decide +kernel
theorem witness_check : opRuns (withOp (holding cmdReset) (opWords 13 1 1 [(0x68, 2)])) (ofStats 2) = true := by decide +kernel
theorem witness_noise : opRuns (withOp (holding checked)
    (opWords 13 1 1 [(0x68, 3), (0x70, 1), (0x74, 2), (0x78, 1), (0x7C, 0x10001)])) (ofStats 3) = true := by decide +kernel
theorem witness_no_holder : State.reset.holder? = none := rfl
theorem witness_frozen : { ready with fld.frozen := true }.fld.frozen = true := rfl
/-- The descriptor at the front is readable and `p` accepts it. -/
def opFetched (s : State) (p : State → CtxId → Context → Cmd → FOp → Bool) : Bool :=
  match s.holder? with
  | none => false
  | some (c, x, k) =>
    match s.opSource c k with
    | none => false
    | some (va, _) =>
      match s.gate c k.seq [(va, 128)] { ue := [], ce := [] } with
      | .go _ => k.canRun && !s.fld.frozen && p s c x k (fop (s.cmdBytes x k va 128))
      | _ => false
theorem witness_malformed : opFetched (withOp (holding cmdReset) (opWords 1 0 1 [])) (fun s c _ k o => s.opBad c k o && ofClass 1 o) = true := by
  decide +kernel
theorem witness_wait_point : opFetched (withOp (holding cmdReset) (opWords 0x1009 0 0 []))
    (fun s c x k o => !s.opBad c k o && ofClass 9 o && o.wait && !k.passedWait && (x.tagDone o.waitTag).isNone) = true := by decide +kernel
theorem witness_list_ends : (holding cmdReset).cmd? 0 0 = some (((holding cmdReset).cmd? 0 0).getD cmdReset) ∧ cmdReset.step = none := by
  decide +kernel
theorem witness_gather_rows : rowIndex (fun _ => 0) (fop (descWith (opWords 10 1 0 []))) 0 < (fop (descWith (opWords 10 1 0 []))).m ∧
    (fop (descWith (opWords 10 1 0 []))).m ≤ rowIndex (fun _ => 1) (fop (descWith (opWords 10 1 0 []))) 0 := by decide +kernel
theorem witness_check_clip : FNum.isFinite one = true ∧ posFinite half = true ∧ half.lt (fmul (fsqrt one) (FNum.pow2 (-0))) = true := by
  decide +kernel
theorem witness_check_apply : FNum.isFinite one = true ∧ posFinite FNum.zero = false ∧ FNum.isFinite FNum.nan = false := by decide +kernel
theorem witness_noise_bad : noiseEstimate .nan .nan 1 2 1 0 = none := by decide +kernel

/-- Quad 5 under test, quad 4 fenced, quad 3 with a fence pending. -/
def fencing : State := { ready with fld.fenced := 0x30, fld.testing := 0x20, fld.pend := 0x18 }
theorem witness_quads : fencing.fld.fenced.getLsbD 0 = false ∧ fencing.fld.fenced.getLsbD 5 = true ∧ fencing.fld.testing.getLsbD 5 = true ∧
    fencing.fld.testing.getLsbD 4 = false ∧ fencing.fld.pend.getLsbD 4 = true ∧ fencing.fld.pend.getLsbD 3 = true ∧
    fencing.quadHasPages 3 = false ∧ (fencing.holderIn 3).isNone = true := by decide +kernel
theorem witness_quad_busy :
    let s := { holding cmdReset with fld.pend := 0x20 }
    (s.holderIn 5).isSome = true ∧ s.quadHasPages 5 = false ∧ s.quadHasPages 0 = true := by decide +kernel

/-- A context stopped with nothing fetched, with a device-held slot 0 of 1 GiB and slot 1 of 64 KiB. -/
def capturing : State := { withCtx ready { contextReset with stop := true, window := some { someWindow with slots :=
    [(0, { log2 := 30, p2p := false, addr := 0, held := some 1, flagLen := 0, flagCrc := 0, busy := false }),
     (1, { log2 := 16, p2p := false, addr := 0, held := some 1, flagLen := 0, flagCrc := 0, busy := false })] } } with
  fld.maint := true, fld.capRun := some (0, 0) }
theorem witness_maint : ∀ e ∈ capturing.contexts, e.2.stop = true ∧ e.2.cmds = [] := by decide +kernel
theorem witness_maint_refused : (withCtx ready contextReset).contexts.any (fun e => !e.2.stop) = true := by decide +kernel
theorem witness_freeze : ready.fld.frozen = false ∧ ready.holder?.isNone = true ∧ (holding cmdReset).fld.frozen = false ∧
    (holding cmdReset).holder?.isSome = true := by decide +kernel
theorem witness_capture : capturing.fld.capState ≠ 1 ∧ capturing.fld.maint = true ∧ capturing.fld.testing = 0 ∧ { capturing with fld.testing := 1 }.fld.testing ≠ 0 ∧
    ((capturing.ctx? (ctxOf 0)).bind fun x => x.slot? 0).any (fun w => w.held.isSome && 30 ≤ w.log2 && !w.p2p) = true ∧
    ((capturing.ctx? (ctxOf 0)).bind fun x => x.slot? 1).any (fun w => w.held.isSome && w.log2 < 30) = true ∧
    capturing.captureSlot.isSome = true := by decide +kernel
theorem witness_capture_runs : { capturing with fld.capState := 1 }.fld.capState = 1 := rfl

theorem witness_scrub_free : (State.reset.ownerOf 294911).isNone = true ∧ State.reset.frames.has 294911 = false := by decide +kernel
theorem witness_arbiter : ready.arbChoice 23 0x1F = some (0, false) ∧ ready.arbChoice 23 0x10 = some (4, false) ∧ ready.classMasked 4 = false ∧
    ∀ j : Fin 5, ready.classExpired 23 j.val = false := by decide +kernel
theorem witness_page_in :
    let s := { withCtx ready contextReset with hst.pageIns := [{ ctx := 0, vpn := 134217727, slot := 0, page := 0, frame := 7 }] }
    (s.hst.pageIns.find? fun p => p.ctx == 0 && p.vpn == 134217727).any (fun p => (s.ctx? p.ctx).isSome) = true := by decide +kernel

/-- A running HOIST command with the argument words given, in context 0 otherwise as `x`. -/
def hoisting (ws : Assoc Nat) (x : Context) : State :=
  { withCtx ready { x with cmds := [{ cmdReset with
      phase := .running
      desc := leBytes 4 2 ++ List.replicate 60 0 ++ (List.range 16).flatMap fun i => leBytes 4 (ws.getD (4 * i) 0) }] } with
    hst.quotaSeam := Vector.replicate 64 100
    frames := [(3, { use := .page, charge := some 0, lastUse := 0, far := none })] }
/-- Handle 1 of one page, RESIDENT in Seam page 3, with the slots of `someWindow`; slot 0 in the far pool. -/
def handled : Context := { windowed with
  pt := [(5, mkPte psResident false false (locSeam 3) 1)], tables := [(0, 9)], farPool := [0]
  handles := [(1, { vpn := 5, pages := 1, freed := false, held := [] })] }
/-- The request of the running HOIST command with OP `op` satisfies `p`. -/
def hoistAsks (s : State) (op : Nat) (p : Context → HReq → Bool) : Bool :=
  (s.ctx? 0).any fun x => (x.hoistOp op).any fun k => p x (hreq k.args) && !hreqReserved k.args
theorem witness_hoist_reserved : ((hoisting [(0, 0x80000001)] contextReset).ctx? 0).any
    (fun x => (x.hoistOp 1).any fun k => hreqReserved k.args) = true := by decide +kernel
theorem witness_alloc : hoistAsks (hoisting [(0, 0x001), (8, 0x7FFFFFF), (0xC, 1)] { handled with tables := [(511, 9)] }) 1 (fun x r =>
    r.pages != 0 && r.vpn + r.pages ≤ 2 ^ 27 && x.pt.all (fun e => e.1 < r.vpn || r.vpn + r.pages ≤ e.1) &&
      ((hoisting [(0, 0x001), (8, 0x7FFFFFF), (0xC, 1)] { handled with tables := [(511, 9)] }).placeRefused r).isNone && lowestFreeKey x.handles 0 < 65536 &&
      ((hoisting [(0, 0x001), (8, 0x7FFFFFF), (0xC, 1)] { handled with tables := [(511, 9)] }).allocPages 0 r (lowestFreeKey x.handles 0) r.pages 0).isSome) = true := by
  decide +kernel
theorem witness_free : hoistAsks (hoisting [(0, 2), (4, 1)] handled) 2 (fun x r => (x.live r.handle).isSome) = true := by decide +kernel
theorem witness_place : hoistAsks (hoisting [(0, 0x170103), (4, 1)] handled) 3 (fun x r => (x.live r.handle).any fun h =>
    ((hoisting [(0, 0x170103), (4, 1)] handled).placeRefused r).isNone &&
      ((hoisting [(0, 0x170103), (4, 1)] handled).placePages 0 r h.vpn (x.handlePages r.handle h).keys).isSome) = true := by decide +kernel
theorem witness_place_no_room :
    let s := { hoisting [(0, 0x303), (4, 1)] handled with hst.quotaFar := Vector.replicate 64 0 }
    hoistAsks s 3 (fun x r => (x.live r.handle).any fun h => (s.placeRefused r).isNone &&
      (s.placePages 0 r h.vpn (x.handlePages r.handle h).keys).isNone) = true := by decide +kernel
theorem witness_load : hoistAsks (hoisting [(0, 4), (4, 1), (0x28, 2)] handled) 4 (fun x r => (x.live r.handle).any fun h =>
    (x.slot? r.slot).any fun w => w.held.isSome && !w.p2p && r.len != 0 && r.dstOff + r.len ≤ h.pages * pageSize && r.slotOff + r.len ≤ w.size &&
      !r.check && (pagesOf (h.vpn * pageSize + r.dstOff) r.len).all (fun v => pteState (x.pt.getD v 0) != psPoisoned) &&
      ((hoisting [(0, 4), (4, 1), (0x28, 2)] handled).writeCommittedAt 0 true (h.vpn * pageSize + r.dstOff) [1, 2]).isSome) = true := by
  decide +kernel
theorem witness_farslot_add : hoistAsks (hoisting [(0, 5), (0x10, 2)] handled) 5 (fun x r =>
    (x.slot? r.slot).any fun w => w.held.isSome && !w.p2p && pageSize ≤ w.size && !x.farPool.contains r.slot) = true := by decide +kernel
theorem witness_farslot_release : hoistAsks (hoisting [(0, 6)] handled) 6 (fun x r =>
    x.farPool.contains r.slot && x.farUsed.all fun p => p / 512 != r.slot) = true := by decide +kernel
theorem witness_farslot_used : hoistAsks (hoisting [(0, 6)] { handled with farUsed := [0] }) 6 (fun x r =>
    x.farPool.contains r.slot && x.farUsed.any fun p => p / 512 == r.slot) = true := by decide +kernel
theorem witness_setflags : hoistAsks (hoisting [(0, 0x1807), (4, 1)] handled) 7 (fun x r => (x.live r.handle).isSome && r.ro && r.pin) = true := by
  decide +kernel
theorem witness_handle_release :
    let x : Context := { contextReset with handles := [(65535, { vpn := 5, pages := 1, freed := true, held := [] })] }
    ((withCtx ready x).ctx? 0).any (fun x => (x.handles.get? 65535).any (·.freed) && !x.handleInUse 65535) = true := by decide +kernel

theorem witness_dtw :
    let s : State := { withCtx ready handled with hst.dtwVpn := 5, hst.dtwLo := 1 }
    (s.ctx? (ctxOf 0)).any (fun x => x.tables.has (s.hst.dtwVpn.toNat / 262144) && pteState (x.pt.getD s.hst.dtwVpn.toNat 0) != psTransit) = true ∧
      pteState (s.hst.dtwHi ++ s.hst.dtwLo) < 6 ∧ pteState (s.hst.dtwHi ++ s.hst.dtwLo) ≠ psTransit := by decide +kernel
theorem witness_dtw_refused : ((withCtx ready contextReset).ctx? (ctxOf 0)).any (fun x => !x.tables.has (134217727 / 262144)) = true ∧
    ((withCtx ready contextReset).ctx? (ctxOf 255)).isNone = true := by decide +kernel
theorem witness_table_read :
    let s := withCtx (asked 0x21 [0, 134217727]) handled
    s.mbxIs 0x21 = true ∧ s.mbx.fenced = false ∧ s.rst.retired = false ∧ s.mbxArg 0 < 256 ∧ s.mbxArg 1 < 2 ^ 27 ∧
      (s.ctx? (ctxOf (s.mbxArg 0))).isSome = true := by decide +kernel
theorem witness_table_read_bad : 256 ≤ (asked 0x21 [256, 0]).mbxArg 0 ∧ 2 ^ 27 ≤ (asked 0x21 [0, 134217728]).mbxArg 1 := by decide +kernel
theorem witness_invalidate : ready.hst.invBusy = none ∧ { ready with hst.invBusy := some (true, 0) }.hst.invBusy = some (true, 0) ∧
    { ready with hst.invBusy := some (false, 255) }.hst.invBusy = some (false, 255) := by decide +kernel
theorem witness_evacuate : (5 : BitVec 3).toNat < 6 ∧ ready.hst.evacBusy = false ∧ (∀ f ∈ ready.frames.keys, f / dieStride / 4 ≠ 5) ∧
    6 ≤ (6 : BitVec 3).toNat ∧ { ready with hst.evacBusy := true }.hst.evacBusy = true := by decide +kernel

theorem witness_ctx_create_bad : (asked 0x30 [0, 0, 0, 0, 0, 0, 0]).createBad (asked 0x30 [0, 0, 0, 0, 0, 0, 0]).mbxBytes = true := by decide +kernel
/-- A module of 256 contexts. -/
def full : State := { asked 0x30 [0, 0x606] with ctxs := Vector.replicate 256 (some contextReset) }
theorem witness_ctx_create_full : full.createBad full.mbxBytes = false ∧ 256 ≤ full.ctxCount := by decide +kernel
theorem witness_ctx_create :
    let s := asked 0x30 [0, 0x1010, 0x1000, 0, 0x2000, 0, 1]
    s.mbxIs 0x30 = true ∧ s.mbx.fenced = false ∧ s.rst.retired = false ∧ s.createBad s.mbxBytes = false ∧
      Fin.ofNat 64 (bits (fieldAt s.mbxBytes 0 4) 5 0) = (0 : FnId) ∧ s.ctxCount < 256 ∧
      s.ctxCountFn 0 < 32 ∧ s.freeCtxNumber = some 0 ∧ s.freeSlotOf 0 = some 0 := by decide +kernel
theorem witness_ctx_destroy :
    let s := withCtx (asked 0x31 [0]) contextReset
    s.mbxIs 0x31 = true ∧ s.mbx.fenced = false ∧ s.rst.retired = false ∧ s.mbxArg 0 = (0 : CtxId).val ∧
      (s.ctx? 0).any (fun x => x.cmds.isEmpty) = true ∧ s.snapsOf 0 = [] ∧ s.groupsOf 0 = [] ∧ (s.ctx? (ctxOf 255)).isNone = true := by decide +kernel
theorem witness_ctx_destroy_bad : 256 ≤ (asked 0x31 [256]).mbxArg 0 := by decide +kernel
theorem witness_ctx_destroy_waits :
    let s := withCtx (asked 0x31 [0]) { contextReset with cmds := [{ cmdReset with phase := .running }] }
    ((s.destroyBegin 0).ctx? 0).any (fun x => !x.cmds.isEmpty) = true := by decide +kernel
theorem witness_vf_flr :
    let s : State := { ready with fns := vmod ready.fns 63 fun f => { f with enabled := true } }
    (63 : FnId) ≠ 0 ∧ (vget s.fns 63).enabled = true ∧ (∀ e ∈ s.contexts, e.2.fn ≠ 63) ∧ (vget s.fns 1).enabled = false := by decide +kernel

/-- A context with a ring of 64 entries, one descriptor waiting, and room in its completion ring. -/
def fetching : Context := { contextReset with sqLog := 6, cqLog := 6, sqTail := 1 }
/-- A MARKER's descriptor, a STEP's, and one of no kind. -/
def markerDesc : List Byte := leBytes 4 4 ++ List.replicate 124 0
def stepDesc : List Byte := descWith [(0, 3), (0x40, 0x10001), (0x50, 1000)]
theorem witness_doorbell : ((withCtx ready fetching).ctxAt 0 0).any (fun e => (64 - e.2.sqHead).toNat ≤ 2 ^ e.2.sqLog && (64 - e.2.sqTail).toNat ≤ 2 ^ e.2.sqLog &&
    2 ^ e.2.sqLog < (65 - e.2.sqHead).toNat) = true := by decide +kernel
theorem witness_cq_head : ((withCtx ready { fetching with cqTail := 3 }).ctx? 0).any (fun x => (x.cqTail - 3).toNat ≤ (x.cqTail - x.cqHead).toNat &&
    (x.cqTail - x.cqHead).toNat < (x.cqTail - 4).toNat) = true ∧ ((withCtx ready fetching).ctx? 1).isNone = true := by decide +kernel
theorem witness_fetch :
    let s := mastered (withCtx ready fetching)
    (s.ctx? 0).any (fun x => s.mayFetch x) = true ∧ markerDesc.length = 128 ∧
      descriptorBad { cmdReset with seq := 0, stamp := s.cfe.stamp, desc := markerDesc, endIdx := noOp } = false ∧ isStepDesc markerDesc = false := by
  decide +kernel
theorem witness_fetch_step : stepDesc.length = 128 ∧ isStepDesc stepDesc = true ∧
    descriptorBad { cmdReset with seq := 0, stamp := 0, desc := stepDesc, endIdx := noOp } = false := by decide +kernel
theorem witness_fetch_bad : descriptorBad { cmdReset with desc := List.replicate 128 0 } = true := by decide +kernel
theorem witness_fetch_stopped : ((withCtx ready { fetching with stop := true }).ctx? 0).any (fun x => !(withCtx ready fetching).mayFetch x) = true := by
  decide +kernel

/-- Context 0 with one command, of the kind given by `kind`, in phase `p`. -/
def commanded (kind : Nat) (k : Cmd) : State :=
  mastered (withCtx ready { fetching with cmds := [{ k with desc := leBytes 4 kind ++ List.replicate 124 0 }] })
theorem witness_dispatch :
    let s := commanded 4 cmdReset
    (s.ctx? 0).any (fun x => x.nextCmd.any fun k => s.dispatchable x k && k.stalled.isEmpty && !k.usesField && !k.isStep) = true ∧
      s.fld.maint = false ∧ s.rst.coreHeld = false := by decide +kernel
theorem witness_marker :
    ((commanded 4 { cmdReset with phase := .running }).ctx? 0).any
      (fun x => (x.cmds.find? fun k => k.isMarker && k.phase == .running && k.ending.isNone).isSome) = true := by decide +kernel
theorem witness_kill_complete : ((commanded 1 { cmdReset with phase := .running, killing := some .software }).cmd? 0 0).any
    (fun k => k.killing.isSome) = true := by decide +kernel
theorem witness_command_end : ((commanded 1 { cmdReset with phase := .running, ending := some stOk }).cmd? 0 0).any
      (fun k => k.ending.isSome && !k.finished) = true ∧
    ((commanded 1 { cmdReset with phase := .running, ending := some stOk, finished := true }).cmd? 0 0).any
      (fun k => k.ending.isSome && k.finished) = true := by decide +kernel
theorem witness_record :
    let s := commanded 1 cmdReset
    (s.ctx? 0).any (fun x => s.mayRequest x.fn && (x.cmd? 0).any fun k => !k.irq) = true ∧
      ((withCtx ready fetching).ctx? 0).any (fun x => !(withCtx ready fetching).mayRequest x.fn) = true := by decide +kernel
theorem witness_wait_limit : ((commanded 1 { cmdReset with phase := .parked }).ctx? 0).any (fun x => (x.cmd? 0).any fun k =>
    k.phase == .parked && k.ending.isNone && k.killing.isNone && (x.tagDone k.tag).isNone) = true := by decide +kernel
theorem witness_run_limit : (holding cmdReset).holder?.any (fun h => h.2.2.ending.isNone && h.2.2.killing.isNone) = true := by decide +kernel

/-- Model `n` of context 0. -/
def vision (n : Nat) : Model := { ctx := 0, number := n, mwidth := 0, opcount := 1, batch := 256, oplist := 0, index := 0, img := 0, imgPages := 0 }
/-- A running table operation of context 0 with KIND_ARGS words `ws` (by offset in the descriptor), and one model set. -/
def tabling (ws : Assoc Nat) : State :=
  let s := withCtx ready { contextReset with cmds := [{ cmdReset with desc := descWith ([(0, 3)] ++ ws), phase := .running }] }
  { s with stb.models := [vision 3]
           stb.quota := Vector.replicate 64 2 }
/-- A stream of model 3, row 9, at 30 frames a second. -/
def stream : Stream := { model := 3, ctx := 0, row := 9, t0 := 0, rateNum := 30, rateDen := 1, frame := 0, served := 0, missed := 0, late := 0, userTag := 0, lastHt := 0 }
def tabled (s : State) (sop : Nat) (p : Cmd → Bool) : Bool := (s.ctx? 0).any fun x => (x.tableOp sop).any p
theorem witness_admission :
    let s := tabling [(0x40, 0x302), (0x44, 9), (0x50, 0x1001E), (0x54, 4)]
    tabled s 2 (fun k => !admitReserved k false && bits (k.word 0x50) 15 0 == 30 && bits (k.word 0x50) 31 16 == 1 && k.word 0x44 == 9 &&
      (s.model? 0 (bits (k.word 0x40) 15 8)).isSome) = true ∧
      s.stb.entries = [] ∧ 0 < min 32768 (vget s.stb.quota 0).toNat ∧ s.entriesOfFn 0 = 0 := by decide +kernel
theorem witness_admission_full :
    let s := { tabling [(0x40, 0x302), (0x44, 8), (0x50, 0x1001E)] with stb.entries := [(0, stream), (5, { stream with row := 7 })] }
    tabled s 2 (fun k => !admitReserved k false && (s.model? 0 (bits (k.word 0x40) 15 8)).isSome) = true ∧
      min 32768 (vget s.stb.quota 0).toNat ≤ s.entriesOfFn 0 := by decide +kernel
theorem witness_admission_bad : tabled (tabling [(0x40, 0x402), (0x44, 8), (0x50, 0x1001E)]) 2
    (fun k => ((tabling [(0x40, 0x402), (0x44, 8), (0x50, 0x1001E)]).model? 0 (bits (k.word 0x40) 15 8)).isNone) = true := by decide +kernel
theorem witness_release :
    let s := { tabling [(0x40, 0x303), (0x44, 9)] with stb.entries := [(0, stream)] }
    tabled s 3 (fun k => !admitReserved k true && ((s.entriesOf 0).find? fun e =>
      e.2.model.toNat == bits (k.word 0x40) 15 8 && e.2.row == BitVec.ofNat 32 (k.word 0x44)).isSome) = true ∧
      tabled (tabling [(0x40, 0x303)]) 3 (fun _ => true) = true := by decide +kernel
theorem witness_model_clear :
    let s := tabling [(0x40, 0x10304)]
    tabled s 4 (fun k => bit (k.word 0x40) 16 && bits (k.word 0x40) 31 19 == 0 && bits (k.word 0x40) 18 17 == 0 && k.word 0x44 == 0 &&
      !((k.args.drop 0x24).any (· != 0)) && (s.model? 0 (bits (k.word 0x40) 15 8)).isSome) = true ∧ s.entriesOf 0 = [] := by decide +kernel
theorem witness_model_clear_bad : tabled (tabling [(0x40, 0x10404)]) 4 (fun k => bit (k.word 0x40) 16 && bits (k.word 0x40) 31 19 == 0 &&
    !((k.args.drop 0x24).any (· != 0)) && ((tabling [(0x40, 0x10404)]).model? 0 (bits (k.word 0x40) 15 8)).isNone) = true := by decide +kernel
theorem witness_model_set :
    let s := tabling [(0x40, 0x404), (0x44, 0x1000FFFF), (0x48, 128), (0x50, 4), (0x58, 4096), (0x60, 2048)]
    tabled s 4 (fun k => !bit (k.word 0x40) 16 && bits (k.word 0x40) 31 19 == 0 && !((k.args.drop 0x24).any (· != 0)) &&
      bits (k.word 0x40) 18 17 != 3 && bits (k.word 0x44) 15 0 != 0 && bits (k.word 0x44) 31 29 == 0 && bits (k.word 0x44) 28 16 == 4096 &&
      fieldAt k.desc 0x48 8 == 128 && fieldAt k.desc 0x50 8 == 4 && fieldAt k.desc 0x58 8 == 4096 && k.word 0x60 == 2048) = true ∧
      s.stb.models.length < 256 := by decide +kernel
theorem witness_model_full :
    let s : State := { tabling [(0x40, 0x404), (0x44, 0x10001)] with stb.models := List.replicate 256 (vision 3) }
    tabled s 4 (fun k => (s.model? 0 (bits (k.word 0x40) 15 8)).isNone && bits (k.word 0x44) 28 16 == 1) = true ∧ 256 ≤ s.stb.models.length := by decide +kernel
theorem witness_model_bad : tabled (tabling [(0x40, 0x404)]) 4 (fun k => !bit (k.word 0x40) 16 && bits (k.word 0x44) 15 0 == 0) = true ∧
    tabled (tabling [(0x40, 0x80404)]) 4 (fun k => bits (k.word 0x40) 31 19 != 0) = true ∧
    (ready.ctx? 0).isNone = true := by decide +kernel

/-- A module whose hall time runs, with a serving context: one STEP of the operands `ws`, in phase `p`, with run `r`. -/
def serving (p : Phase) (r : Option StepRun) : State :=
  let pt : Assoc DWord := [(0, mkPte psResident false false (locSeam 0) 1)]
  let s := withCtx locked { contextReset with
    pt := pt, stepMax := 1000
    cmds := [{ cmdReset with desc := descWith [(0, 3), (0x40, 0x1000001), (0x48, 0), (0x50, 1000), (0x54, 10), (0x58, 20), (0x60, 4096)], phase := p, step := r,
                             versions := pt, arrays := List.range 24 }] }
  { s with
    stb.entries := [(0, stream), (2, { stream with row := 7 })]
    stb.models := [{ ctx := 0, number := 3, mwidth := 0, opcount := 1, batch := 2, oplist := 0, index := 64, img := 0, imgPages := 0 }]
    hst.quotaSeam := Vector.replicate 64 100
    frames := [(0, { use := .page, charge := some 0, lastUse := 0, far := none })]
    sch.holder := if p = .running then some { ctx := 0, seq := 0, since := 0, mark := 0, energy := 0 } else none }
/-- A run with invocations `l` left. -/
def running (l : List (Nat × List Served)) : StepRun :=
  { built := true, served := [], deferred := 0, missed := [], invs := l, current := none, killAt := 3100000, estNs := 0, opsTotal := 0 }
theorem witness_step_ready :
    let s := serving .fetched none
    (s.ctx? 0).any (fun x => x.nextCmd.any fun k => k.isStep && s.stepReady x k && !k.step.any (·.built)) = true := by decide +kernel
theorem witness_step_none : ((withCtx ready contextReset).ctx? 0).any (fun x => x.nextCmd.isNone) = true := by decide +kernel
theorem witness_work_list : ((serving .fetched none).ctx? 0).any (fun x => x.nextCmd.any fun k =>
    ((serving .fetched none).buildList 0 k).invs.isEmpty && k.deadline == 1000) = true := by decide +kernel
theorem witness_kill_point :
    let s := serving .fetched (some (running []))
    (s.ctx? 0).any (fun x => (x.cmds.find? fun k => k.isStep && k.phase == .fetched && k.ending.isNone && k.killing.isNone && k.step.any (·.built)).isSome) = true ∧
      (s.passToHt 3100000).holder?.isNone = true := by decide +kernel
/-- The same beside a training command that holds the Field. -/
def victim : State :=
  let s := serving .fetched (some (running []))
  { (s.setCtx 1 { contextReset with cmds := [{ cmdReset with desc := leBytes 4 1 ++ List.replicate 124 0, phase := .running }] }) with
    sch.holder := some { ctx := 1, seq := 0, since := 0, mark := 0, energy := 0 } }
theorem witness_kill_point_victim : (victim.passToHt 3100000).holder?.any (fun h => !h.2.2.isStep && !h.2.1.nokillOk && h.2.2.dispatched && h.2.2.usesField) = true := by
  decide +kernel
theorem witness_step_invoked :
    let sv : List Served := [{ entry := 0, row := 9, frame := 0, model := 3 }]
    let s := serving .running (some (running [(3, sv)]))
    (s.ctx? 0).any (fun x => (x.cmds.find? fun k => k.isStep && k.canRun).isSome) = true ∧ s.holds 0 0 = true ∧ (s.model? 0 3).isSome = true ∧
      (match s.gate 0 0 [(64, (indexVector 2 sv).length)] { ue := [], ce := [] } with
       | .go s1 => (s1.cmdWrite 0 0 [(64, indexVector 2 sv)]).isSome
       | _ => false) = true := by decide +kernel
theorem witness_step_report :
    let s := serving .running (some (running []))
    (match s.gate 0 0 [(4096, (stepReport (running [])).length)] { ue := [], ce := [] } with
     | .go s1 => (s1.cmdWrite 0 0 [(4096, stepReport (running []))]).isSome
     | _ => false) = true ∧ (s.ctx? 0).any (fun x => x.cmds.any fun k => k.reportVa == 4096) = true := by decide +kernel
theorem witness_step_max : (serving .running (some (running []))).holder?.any (fun h => h.1 == 0 && h.2.2.isStep && h.2.2.ending.isNone && h.2.2.killing.isNone) = true ∧
    ((serving .running none).ctx? 0).any (fun x => x.stepMax != 0) = true := by decide +kernel

theorem witness_budget_window : ready.tkp.ht / 16 % (max 1 ready.sch.budgetWin.toNat * 1000000) = 0 := by decide +kernel
theorem witness_tally_interval :
    let s : State := { withCtx ready contextReset with sch.tallyC2Eff := true, sch.intervalNs := [(0, 10000)] }
    s.tkp.ht / 16 % 10000 = 0 ∧ s.sch.holder.isNone = true ∧ (s.ctx? 0).isSome = true ∧ ready.sch.intervalNs = [] := by decide +kernel
theorem witness_tally_period :
    let s : State := { withCtx ready contextReset with sch.tallyPeriod := 1 }
    s.sch.tallyPeriod ≠ 0 ∧ s.contexts.map (·.1) = [0] ∧ (s.ctx? 0).isSome = true ∧ ready.sch.tallyPeriod = 0 := by decide +kernel
theorem witness_vtime_read :
    let s := withCtx (asked 0x40 [0]) contextReset
    s.mbxIs 0x40 = true ∧ s.mbx.fenced = false ∧ s.rst.retired = false ∧ (s.ctx? (ctxOf (s.mbxArg 0))).isSome = true ∧
      256 ≤ (asked 0x40 [256]).mbxArg 0 ∧ ((asked 0x40 [255]).ctx? (ctxOf 255)).isNone = true := by decide +kernel
theorem witness_tally_read : (asked 0x41 [0]).mbxIs 0x41 = true ∧ (asked 0x42 [0]).mbxIs 0x42 = true := by decide +kernel
theorem witness_stb_read :
    let s := { asked 0x42 [32767] with stb.entries := [(32767, stream)] }
    (s.stb.entries.get? (s.mbxArg 0 % 32768)).isSome = true ∧ bit (s.mbxArg 0) 15 = false ∧ bit (s.mbxArg 0) 16 = false ∧
      bit ((asked 0x42 [65536]).mbxArg 0) 16 = true ∧ 2 ^ 17 ≤ (asked 0x42 [131072]).mbxArg 0 ∧ bit ((asked 0x42 [32768]).mbxArg 0) 15 = true := by decide +kernel

/-- Training unit 0 bound to context 0, with one patch entry at VA 16 and a word at VA 64. -/
def opening (src : Nat) : State :=
  let s := withCtx ready { contextReset with pt := [(0, mkPte psResident false false (locSeam 0) 1)] }
  { s with
    opt.units := vmod s.opt.units 0 fun u => { u with valid := true, ctx := 0, lse := 16 }
    opt.pvaLo := 16, opt.pcount := 1, opt.openStep := 7
    mem := Cells.writeBytes [] 16 (leBytes 8 64 ++ leBytes 8 src)
    frames := [(0, { use := .page, charge := some 0, lastUse := 0, far := none })] }
theorem witness_open :
    let s := opening 0xFFFF
    s.opt.openBusy = false ∧ (vget s.opt.units 0).valid = true ∧ s.opt.pcount.toNat ≤ 4096 ∧ s.opt.pvaLo.toNat % 16 = 0 ∧
      (s.ctx? (ctxOf (vget s.opt.units 0).ctx.toNat)).any (fun x => !(s.patchList x).isEmpty && (s.patchList x).all fun b => !s.patchBad 0 b) = true := by
  decide +kernel
theorem witness_open_refused : (vget ready.opt.units 0).valid = false ∧ (ready.ctx? 0).isNone = true ∧
    ((opening 3).ctx? 0).any (fun x => ((opening 3).patchList x).any ((opening 3).patchBad 0)) = true ∧
    { opening 0xFFFF with opt.openBusy := true }.opt.openBusy = true := by decide +kernel
/-- A tracked tensor of unit 0. -/
def tensor : Tracked := { unit := 0, tensorId := 11, e5m2 := false, h := 64, margin := 15, hist := [], eCur := 0, pendValid := true, pendNonfinite := false,
                          pstep := 6, pend := 0x3F800000, lastStep := 5 }
theorem witness_open_records :
    let s := { opening 0 with opt.tracked := [(0, tensor)] }
    s.opt.tracked.map (·.1) = [0] ∧ tensor.unit = 0 ∧ tensor.pendValid = true ∧ tensor.pstep < 7 ∧ ¬ tensor.pstep < 6 := by decide +kernel
theorem witness_track :
    let s : State := { asked 0x50 [0xF4000, 12] with opt.units := vmod ready.opt.units 0 fun u => { u with valid := true } }
    s.mbxIs 0x50 = true ∧ s.mbx.fenced = false ∧ s.rst.retired = false ∧ bit (s.mbxArg 0) 7 = false ∧ bit (s.mbxArg 0) 15 = false ∧
      bits (s.mbxArg 0) 31 20 = 0 ∧ bits (s.mbxArg 0) 14 8 = 64 ∧ (vget s.opt.units (unitOf (bits (s.mbxArg 0) 5 0))).valid = true ∧
      s.opt.tracked = [] ∧ lowestFreeKey s.opt.tracked 0 < 4096 := by decide +kernel
theorem witness_track_bad : bits ((asked 0x50 [0]).mbxArg 0) 14 8 = 0 ∧ 64 < bits ((asked 0x50 [0x4100]).mbxArg 0) 14 8 := by decide +kernel
/-- `n` tracked tensors with numbers from `a`. -/
def tracking (a n : Nat) : Assoc Tracked := (List.range n).map fun i => (a + i, { tensor with tensorId := BitVec.ofNat 32 i })
theorem witness_track_full : 4096 ≤ lowestFreeKey (tracking 0 4096) 0 := by decide +kernel
theorem witness_untrack :
    let s := { asked 0x51 [4095] with opt.tracked := [(4095, tensor)] }
    s.mbxIs 0x51 = true ∧ s.mbxArg 0 < 4096 ∧ (s.opt.tracked.get? (s.mbxArg 0)).isSome = true ∧ 4096 ≤ (asked 0x51 [4096]).mbxArg 0 ∧
      ((asked 0x51 [0]).opt.tracked.get? 0).isNone = true := by decide +kernel
theorem witness_hist_read :
    let s := { asked 0x52 [4095] with opt.tracked := [(4095, tensor)] }
    s.mbxIs 0x52 = true ∧ s.mbxArg 0 < 4096 ∧ (s.opt.tracked.get? (s.mbxArg 0)).isSome = true ∧ ((asked 0x52 [0]).opt.tracked.get? 0).isNone = true := by
  decide +kernel
theorem witness_hist_write :
    let s := { asked 0x53 [0, 0x3FF40] with opt.tracked := [(0, tensor)] }
    s.mbxIs 0x53 = true ∧ s.mbxArg 0 < 4096 ∧ (s.opt.tracked.get? (s.mbxArg 0)).isSome = true ∧
      bit (fieldAt (s.mbxBytes.drop 4) 0 4) 7 = false ∧ bits (fieldAt (s.mbxBytes.drop 4) 0 4) 6 0 = 64 ∧
      bits (fieldAt (s.mbxBytes.drop 4) 0 4) 31 18 = 0 ∧ 64 < bits (fieldAt ((asked 0x53 [0, 0x41]).mbxBytes.drop 4) 0 4) 6 0 := by decide +kernel
theorem witness_noise_averages : (asked 0x54 [63]).mbxIs 0x54 = true ∧ (asked 0x54 [63]).mbxArg 0 = (63 : UnitId).val ∧ 64 ≤ (asked 0x54 [64]).mbxArg 0 ∧
    (asked 0x55 [63]).mbxIs 0x55 = true ∧ (asked 0x55 [63]).mbxArg 0 = (63 : UnitId).val ∧ 64 ≤ (asked 0x55 [64]).mbxArg 0 := by decide +kernel

/-- A frame with SECONDS 1 and VALID 1, and its CRC. -/
def timeFrame : BitVec 72 :=
  let body : BitVec 72 := 1#72 ||| (1#72 <<< 48)
  body ||| ((crc16Frame body).setWidth 72 <<< 56)
theorem witness_time_code : ready.tkp.state = 0 ∧ frameAccepted timeFrame = true ∧ frameAccepted 0 = false ∧ ready.tkp.rckLoss = false ∧
    locked.tkp.state ≠ 0 ∧ ready.tkp.roleEff = false ∧ { ready with tkp.roleEff := true }.tkp.roleEff = true ∧
    carriesTime (ready.link (linkOf ready.tkp.parentUsed.toNat)).state = false ∧ { ready with tkp.rckLoss := true }.tkp.rckLoss = true := by decide +kernel
/-- Every link of `s` in state `st`. -/
def linked (s : State) (st : BitVec 4) : State :=
  { s with lnk.links := s.lnk.links.map fun k => { k with state := st, lanesLive := 0xFFFF, light := true, partnerGen := s.lnk.gen } }
theorem witness_time_parent : carriesTime ((linked ready lsUp).link (linkOf ready.tkp.parentUsed.toNat)).state = true := by decide +kernel
theorem witness_holdover : { ready with tkp.state := tkHoldover }.tkp.state = tkHoldover ∧ ready.tkp.state ≠ tkHoldover := by decide +kernel
theorem witness_cmp_clear : { ready with tkp.cmpFault := true }.tkp.cmpFault = true ∧ ready.tkp.cmpFault = false := by decide +kernel

/-- Hall time runs and stands in the gap of a frame. -/
def gapped (st : BitVec 3) : State := { linked locked lsUp with tkp.state := st, tkp.ht := 16 * 9984 }
theorem witness_exchange : (gapped tkLocked).tkp.state ≠ 0 ∧ carriesTime ((gapped tkLocked).link 23).state = true ∧ 9984 ≤ (gapped tkLocked).tkp.ht / 16 % 10000 ∧
    (gapped tkLocked).tkp.toAcquire = false ∧ (gapped tkLocked).tkp.roleEff = false ∧ linkOf (gapped tkLocked).tkp.parentUsed.toNat = 0 ∧
    ((2000 : Int) - 0) - (0 - 0) = 2 * 1000 ∧ 16 * (gapped tkLocked).tkp.guardEff < (1000 : Int).natAbs ∧
    ((2 : Int) - 0) - (0 - 0) = 2 * 1 ∧ (1 : Int).natAbs ≤ 16 * (gapped tkLocked).tkp.guardEff ∧ (0 : Int) ≤ -(-1) := by decide +kernel
theorem witness_exchange_acquire : (gapped tkAcquire).tkp.state = tkAcquire ∧ 1024 < (1025 : Int).natAbs := by decide +kernel
theorem witness_exchange_none : carriesTime (locked.link 0).state = false ∧ ready.tkp.state = 0 := by decide +kernel

theorem witness_frame : locked.tkp.state ≠ 0 ∧ locked.tkp.stepBy = none ∧ 16 * locked.ht = locked.tkp.ht ∧ ready.tkp.state = 0 := by decide +kernel
theorem witness_slot : ∀ g : GroupId, (locked.group g).state ≠ 1 := by decide +kernel
theorem witness_ht_read : (asked 0x60 []).mbxIs 0x60 = true ∧ (asked 0x60 []).mbx.fenced = false ∧ (asked 0x60 []).rst.retired = false := by decide +kernel
theorem witness_late_read : (asked 0x61 [1]).mbxIs 0x61 = true ∧ (asked 0x61 [1]).mbxArg 0 = 1 ∧ (asked 0x61 [1]).tkp.straggler = false ∧
    { asked 0x61 [1] with tkp.straggler := true }.tkp.straggler = true ∧ (asked 0x61 [0]).mbxArg 0 = 0 ∧ 2 ≤ (asked 0x61 [2]).mbxArg 0 := by decide +kernel

theorem witness_light : (ready.link 23).state = lsDown ∧ ready.pwr.mainOn = true ∧ ((linked ready lsUp).link 0).state ≠ lsDown ∧
    ((linked ready lsUp).link 0).state ≠ lsFailed ∧ ((linked ready lsFailed).link 0).retries < 2 ∧ ((linked ready lsLoop).link 0).state = lsLoop := by decide +kernel
theorem witness_retrain : ((linked ready lsUp).link 23).loopPend = false ∧ (linked ready lsUp).linkOut 23 = false ∧
    { ready with rst.lfence := 1 }.linkOut 0 = true := by decide +kernel
theorem witness_training : ((linked ready lsTraining).link 0).state = lsTraining ∧ (lanesOff 0x7FFF).length < 2 ∧ 2 ≤ (lanesOff 0x3FFF).length ∧
    ready.rst.retired = false ∧ ((linked ready lsWaking).link 0).state = lsWaking := by decide +kernel
theorem witness_discover : evaluates ((linked ready lsDiscover).link 0).state = true ∧ evaluates ((linked ready lsDown).link 0).state = false ∧
    discovers ((linked ready lsMismatch).link 23).state = true ∧ discovers (ready.link 0).state = false := by decide +kernel
/-- The topology of a 2 × 1 × 1 hall: links 0 to 3 lead to the other module by X+, 4 to 7 by X−, the rest nowhere. -/
def pairRegs (s : State) : State := { s with
  lnk.sx := 2, lnk.sy := 1, lnk.sz := 1
  lnk.dirmap := Vector.ofFn fun i => if i.val < 4 then 0 else if i.val < 8 then 1 else 6 }
theorem witness_latch : topoBad (pairRegs ready).topoRegs = false ∧ (∀ g, ((pairRegs ready).group g).state ≠ 1) ∧ topoBad ready.topoRegs = true := by decide +kernel
theorem witness_verdict : ({ linked ready lsDiscover with lnk.topo := some (pairRegs ready).topoRegs }.verdict 23).isSome = true ∧ (ready.verdict 0).isNone = true := by
  decide +kernel
theorem witness_partner_read : (asked 0x70 [23]).mbxIs 0x70 = true ∧ (asked 0x70 [23]).mbxArg 0 = (23 : LinkId).val ∧ ((asked 0x70 [23]).link 23).state ≠ lsLoop ∧
    (asked 0x70 [23]).linkOut 23 = false ∧ 24 ≤ (asked 0x70 [24]).mbxArg 0 := by decide +kernel

theorem witness_codeword : discovers ((linked ready lsUp).link 0).state = true ∧ discovers (ready.link 0).state = false := by decide +kernel
theorem witness_lanes :
    let k := (linked ready lsUp).link 0
    (List.range 16).filter (fun i => k.lanesLive.getLsbD i && (0x8000 : BitVec 16).getLsbD i) = [15] ∧
      2 ≤ ((List.range 16).filter (fun i => k.lanesLive.getLsbD i && (0x8001 : BitVec 16).getLsbD i)).length ∧
      k.laneDropped = false ∧ k.dropping = none ∧ k.light = true := by decide +kernel
theorem witness_lane_dropped : (((linked ready lsDegraded).modLink 0 fun k => { k with laneDropped := true, droppedLane := 15 }).link 0).laneDropped = true := by
  decide +kernel
theorem witness_lane_interval :
    let s := { (linked ready lsUp).modLink 0 (fun k => { k with laneNow := vset k.laneNow 15 5 }) with lnk.dropThr := 4 }
    max 1 s.lnk.dropThr.toNat < vget (s.link 0).laneNow 15 ∧ (∀ j, j ≠ 15 → vget (s.link 0).laneNow j ≤ max 1 s.lnk.dropThr.toNat) ∧
      (s.link 0).lanesLive.getLsbD 15 = true ∧ (∀ i, vget (ready.link 0).laneNow i ≤ max 1 ready.lnk.dropThr.toNat) := by decide +kernel
theorem witness_lane_map : (((linked locked lsUp).modLink 0 fun k => { k with dropping := some 15 }).link 0).dropping = some 15 ∧
    (((linked locked lsUp).modLink 0 fun k => { k with dropping := some 15, ackHt := some 3 }).link 0).ackHt = some 3 := by decide +kernel
theorem witness_unplug : ∀ j : Fin 4, usableState ((linked ready lsUp).link (linkOf (4 * 5 + j.val))).state = true := by decide +kernel

theorem witness_sleep :
    let s := linked ready lsUp
    (s.link 23).state ≠ lsLoop ∧ (s.link 23).loopPend = false ∧ s.linkOut 23 = false ∧ usableState (s.link 23).state = true ∧ s.inPlan 23 = false ∧
      ((linked ready lsSleep).link 23).state = lsSleep ∧ usableState ((linked ready lsSleep).link 23).state = false ∧ (s.link 23).loopFar = false ∧
      ((linked ready lsLoop).link 0).state = lsLoop ∧ ((linked ready lsLoop).link 0).light = true := by decide +kernel
theorem witness_sleep_asked : (((linked ready lsUp).modLink 0 fun k => { k with sleepAsked := true, loopFar := true }).link 0).sleepAsked = true ∧
    (((linked ready lsUp).modLink 0 fun k => { k with loopFar := true }).link 0).loopFar = true ∧ (ready.link 0).sleepAsked = false := by decide +kernel

/-- The module at (0, 0, 0) of a latched 2 × 1 × 1 hall, its links in state `st`. -/
def inHall (s : State) (st : BitVec 4) : State := { linked (pairRegs s) st with lnk.topo := some (pairRegs s).topoRegs }
/-- A BE flit for x = `x`, with `hops` hops, destination generation `gen` and class `cls`. -/
def beFlit (x hops gen cls : Nat) : List Byte := (mkFlit fkBe cls 0 (x, 0, 0) (1, 0, 0) gen 0 0 0 []).take 1 ++ [BitVec.ofNat 8 hops] ++ (mkFlit fkBe cls 0 (x, 0, 0) (1, 0, 0) gen 0 0 0 []).drop 2
theorem witness_be_flit :
    let s := inHall ready lsUp
    usableState (s.link 0).state = true ∧ Flit.slice (beFlit 1 0 0 0) = s.lnk.sliceId.toNat ∧
      s.lnk.topo.any (fun t => (t.beDir (beFlit 1 0 0 0)).isSome && (s.beLink t (hopped (beFlit 1 62 0 0))).isSome && (t.beDir (beFlit 0 0 0 0)).isNone) = true ∧
      Flit.hops (beFlit 1 62 0 0) = 62 ∧ 63 ≤ Flit.hops (beFlit 1 63 0 0) ∧ Flit.dstGen (beFlit 0 0 1 0) ≠ s.lnk.gen.toNat % 65536 ∧
      Flit.dstGen (beFlit 0 0 s.lnk.gen.toNat 0) = s.lnk.gen.toNat % 65536 ∧ Flit.cls (beFlit 0 0 0 0) ≠ 1 ∧ usableState (ready.link 0).state = false := by
  decide +kernel
theorem witness_be_flit_waits : (inHall ready lsDiscover).lnk.topo.any (fun t => ((inHall ready lsDiscover).beLink t (hopped (beFlit 1 0 0 0))).isNone) = true := by
  decide +kernel
theorem witness_be_other_slice : Flit.slice (beFlit 1 0 0 0) ≠ { ready with lnk.sliceId := 1 }.lnk.sliceId.toNat := by decide +kernel
/-- An accepted collective of 2 members: ALLGATHER of 4 bytes from VA 0 to VA 8, both entries there. -/
def gathering : Collective := { num := 0, desc := descWith [(0, 3), (0x18, 0), (0x20, 8), (0x28, 4)], status := stOk, accepted := true, hold := [], entries := [(0, []), (1, leBytes 4 1 ++ leBytes 60 0)], start := some 0, ending := none, endHt := 0, sent := 0, lost := false }
/-- Active group 63 of the hall's two modules, serving context 0, with collective `k`. -/
def grouped (s : State) (k : List Collective) : State := s.modGroup 63 fun q => { q with
  state := 1, cols := k, args := leBytes 4 0x10000 ++ leBytes 4 0 ++ leBytes 4 0x010102 ++ leBytes 52 0
  gens := Vector.replicate 6 s.lnk.gen }
/-- A SCHED flit of group 63. -/
def schedFlit (dst src : Nat) : List Byte := mkFlit fkSched 0 0 (0, 0, 0) (1, 0, 0) dst src 63 0 []
theorem witness_sched_flit :
    let s := grouped (inHall ready lsUp) [gathering]
    let gen := s.lnk.gen.toNat
    usableState (s.link 0).state = true ∧ groupOf (Flit.group (schedFlit gen gen) % 64) = 63 ∧ (s.group 63).state = 1 ∧
      Flit.dstGen (schedFlit gen gen) = s.lnk.gen.toNat % 65536 ∧ Flit.srcGen (schedFlit gen gen) = (vget (s.group 63).gens (dirFin (s.dirOf 0))).toNat % 65536 ∧
      Flit.dstGen (schedFlit (gen + 1) 0) ≠ s.lnk.gen.toNat % 65536 ∧ Flit.srcGen (schedFlit gen (gen + 1)) ≠ (vget (s.group 63).gens (dirFin (s.dirOf 0))).toNat % 65536 ∧
      (s.group 63).cols = [gathering] ∧ gathering.ending = none := by decide +kernel
theorem witness_stale_flit :
    let s := (grouped (inHall ready lsUp) [gathering]).modGroup 63 fun q => { q with tx := vmod q.tx 0 fun y => { y with be := [(7, 1)] } }
    ((List.finRange 64).find? (fun g => (s.group g).state == 1 && (s.group g).tx.toList.any fun y => y.be.any fun b => b.1 == (7 : Word))) = some 63 := by
  decide +kernel
theorem witness_hold : ready.lnk.waiting = [] ∧ (∀ i, vget (ready.link 0).queues i = []) ∧ { ready with lnk.waiting := [(0, [])] }.lnk.waiting = [(0, [])] ∧
    vget ((ready.modLink 0 fun k => { k with queues := vset k.queues 0 [(0, [])] }).link 0).queues 0 = [(0, [])] := by decide +kernel

theorem witness_abort :
    let s := { withCtx (grouped (inHall ready lsUp) [gathering]) { contextReset with cmds := [cmdReset] } with col.bound := [0] }
    (s.group 63).state ≠ 0 ∧ (s.group 0).state = 0 ∧ (s.ctx? 0).isSome = true ∧ s.col.bound.contains (0 : CtxId).val = true ∧
      s.col.bound.contains (1 : CtxId).val = false := by decide +kernel
theorem witness_abort_command : cmdReset.ending = none ∧ cmdReset.phase = .fetched ∧ { cmdReset with phase := .running }.phase ≠ .fetched ∧ cmdReset.usesField = false := by
  decide +kernel
theorem witness_beacon :
    let s := inHall ready lsRetired
    let p := leBytes 4 0 ++ leBytes 4 1 ++ leBytes 16 0
    (s.link 23).state = lsRetired ∧ s.col.known.contains (beaconId p) = false ∧ fieldAt p 0 2 = s.lnk.sliceId.toNat ∧ s.ht ≤ fieldAt p 0x10 8 + 1000000 ∧
      usableState (ready.link 0).state = false ∧ (ready.link 0).state ≠ lsRetired := by decide +kernel

/-- A GROUP_LAUNCH for context 0 over the hall's two modules, with a plan image of one entry at VA 0. -/
def launching : State :=
  let s := inHall (withCtx (asked 0x80 [0x10000, 0, 0x10102, 0, 0, 0, 0x1000, 0, 0x2000, 0, 0]) { contextReset with
    det := 1, pt := [(0, mkPte psResident false false (locSeam 0) 1)] }) lsUp
  { s with
    lnk.links := s.lnk.links.map fun k => { k with seen := true }
    lnk.heard := List.range 24
    mem := Cells.writeBytes [] 0 (leBytes 4 0x18001 ++ leBytes 4 1 ++ leBytes 24 0 ++ leBytes 4 0 ++ leBytes 4 0x10000 ++ leBytes 8 0 ++
      leBytes 4 0x010000 ++ leBytes 12 0) }
theorem witness_launch :
    let s := launching
    let a := slice s.mbxBytes 0 64
    s.mbxIs 0x80 = true ∧ s.mbx.fenced = false ∧ s.rst.retired = false ∧ (s.ctx? (ctxOf (fieldAt a 0 1))).any (fun x => s.lnk.topo.any fun t =>
      !s.launchBad a x t && (s.planImage x t a).any fun p => p.fabric == s.profile.fabricEff && decide (p.total ≤ s.planFree) &&
        (s.takeScratch x.fn (fieldAt a 0x28 4)).isSome) = true ∧ (s.group 0).state = 0 ∧ s.liveGroups = [] := by decide +kernel
theorem witness_launch_bad : ((withCtx (asked 0x80 []) contextReset).ctx? 0).isSome = true ∧ (asked 0x80 []).lnk.topo = none ∧
    ((launching.ctx? 0).any fun x => launching.lnk.topo.any fun t => launching.launchBad (List.replicate 64 0) x t) = true := by decide +kernel
theorem witness_launch_full : ∀ g, (({ launching with col.groups := launching.col.groups.map fun (q : Group) => { q with state := 2 } } : State).group g).state ≠ 0 := by decide +kernel
theorem witness_launch_scratch :
    let s := { launching with mbx.data := vset launching.mbx.data 10 1 }
    (s.ctx? 0).any (fun x => (s.takeScratch x.fn (fieldAt (slice s.mbxBytes 0 64) 0x28 4)).isNone) = true := by decide +kernel
theorem witness_group_end :
    let s := grouped (inHall (asked 0x81 [63]) lsUp) []
    s.mbxIs 0x81 = true ∧ s.mbxArg 0 = (63 : GroupId).val ∧ (s.group 63).state ≠ 0 ∧ (s.group 63).cols = [] ∧ (s.group 63).scratch = [] ∧
      ((asked 0x81 [63]).group 63).state = 0 ∧ 64 ≤ (asked 0x81 [64]).mbxArg 0 := by decide +kernel
theorem witness_group_read : (asked 0x82 [63]).mbxIs 0x82 = true ∧ ((grouped (asked 0x82 [63]) []).group 63).state ≠ 0 ∧ 64 ≤ (asked 0x82 [64]).mbxArg 0 := by
  decide +kernel
theorem witness_launch_doorbell :
    let q := (grouped (inHall ready lsUp) []).group 63
    q.state ≠ 0 ∧ (64 - q.lhead).toNat ≤ 64 ∧ (64 - q.ldb).toNat ≤ 64 ∧ 64 < (65 - q.lhead).toNat ∧ (q.ctail - 0).toNat ≤ (q.ctail - q.chead).toNat ∧
      (q.ctail - q.chead).toNat < (q.ctail - 1).toNat := by decide +kernel

/-- Group 63 with one descriptor waiting, in state `st`. -/
def launched (st : BitVec 2) (k : List Collective) : State :=
  (mastered (grouped (withCtx (inHall locked lsUp) { contextReset with pt := [(0, mkPte psResident false false (locSeam 0) 1)] }) k)).modGroup 63 fun q =>
    { q with state := st, ldb := 1 }
theorem witness_collective_fetch :
    let s := launched 1 []
    let q := s.group 63
    q.state ≠ 0 ∧ q.state ≠ 2 ∧ q.lhead ≠ q.ldb ∧ (q.lhead - q.chead).toNat < 64 ∧ s.mayRequest 0 = true ∧
      (s.ctx? (ctxOf q.ctx.toNat)).any (fun x => s.entryStatus x q { gathering with accepted := false, entries := [] } == stOk &&
        (x.notResident (s.colPages x q gathering)).isEmpty && s.entryStatus x q { gathering with desc := List.replicate 128 0 } != stOk) = true ∧
      (launched 2 []).mayLaunch ((launched 2 []).group 63) = true := by decide +kernel
theorem witness_collective_pages :
    let k := { gathering with accepted := false, hold := [0], start := none }
    let s := launched 1 [k]
    (s.group 63).cols.find? (fun k => !k.accepted && k.ending.isNone) = some k ∧ (s.ctx? (ctxOf (s.group 63).ctx.toNat)).any (fun x => (x.notResident [0]).isEmpty) = true ∧
      (s.group 63).early = [] ∧ 2 ≤ (s.group 63).count ∧ (contextReset.notResident [0]) = [] ∧
      { contextReset with pt := [(0, mkPte psFar false false 0 1)] }.notResident [0] ≠ [] := by decide +kernel
theorem witness_readiness :
    let k := { gathering with entries := [(0, [])], start := none }
    let s := launched 1 [k]
    (s.group 63).state = 1 ∧ entryRank (leBytes 4 1) < (s.group 63).count ∧ k.num.toNat % 256 = (0 : Byte).toNat ∧ k.entries.has (entryRank (leBytes 4 1)) = false ∧
      k.entries.has (entryRank (leBytes 4 0)) = true ∧ (s.group 63).count ≤ entryRank (leBytes 4 2) := by decide +kernel
theorem witness_decision : (gathering.entries.length = ((launched 1 [gathering]).group 63).count) ∧ ((launched 1 [gathering]).group 63).decide gathering = none ∧
    ((launched 1 [gathering]).group 63).decide { gathering with entries := [(0, leBytes 4 0x80000), (1, [])] } = some stBad := by decide +kernel
theorem witness_data_start : ((launched 1 [{ gathering with start := none }]).group 63).cols = [{ gathering with start := none }] ∧
    (launched 1 []).tkp.state ≠ 0 := by decide +kernel
theorem witness_collective_record : ((launched 1 [{ gathering with ending := some stOk }]).group 63).cols = [{ gathering with ending := some stOk }] ∧
    gathering.irq = false ∧ (launched 1 []).mayRequest 0 = true ∧ ready.mayRequest 0 = false := by decide +kernel
theorem witness_collective_canary : ((launched 1 [gathering]).group 63).cols = [gathering] ∧ gathering.accepted = true ∧ gathering.ending = none ∧
    ((launched 1 []).group 63).cols = [] := by decide +kernel

/-- Group 63 in the data phase of a collective with OP `op`, every buffer in one resident page. -/
def moving (op : Nat) : State :=
  let s := launched 1 [{ gathering with desc := descWith [(0, op), (0x18, 0), (0x20, 64), (0x28, 4), (0x30, if op = 7 then 128 else 0)] }]
  { s with hst.quotaSeam := Vector.replicate 64 100, frames := [(0, { use := .page, charge := some 0, lastUse := 0, far := none })] }
def moves (op : Nat) : Bool :=
  let s := moving op
  let q := s.group 63
  match q.running op, s.ctx? (ctxOf q.ctx.toNat) with
  | some k, some x =>
    let out := s.colResult x q k [.node (.leaf 0) (.leaf 1)] [(1, [1, 2, 3, 4])]
    (s.writeCommittedAt (ctxOf q.ctx.toNat) false k.dst out).isSome && !s.sch.tallyC2Eff && unmappedIn x false (s.colBuffers x q k).1 == 0 &&
      (rangePages ((s.colBuffers x q k).1 ++ [(k.dst, out.length)])).all fun p => pteState (x.pt.getD p 0) != psPoisoned
  | _, _ => false
theorem witness_collectives : moves 1 = true ∧ moves 2 = true ∧ moves 3 = true ∧ moves 4 = true ∧ moves 5 = true ∧ moves 6 = true ∧ moves 7 = true := by
  decide +kernel
theorem witness_collectives_idle : ((moving 3).group 63).running 4 = none := by decide +kernel
theorem witness_collective_poisoned : pteState (({ contextReset with pt := [(0, mkPte psPoisoned false false 0 1)] } : Context).pt.getD 0 0) = psPoisoned := by decide +kernel
theorem witness_reduction : ((moving 1).group 63).count = 2 ∧ { (moving 1).group 63 with det := 1 }.det = 1 ∧ boxCount (leBytes 8 0 ++ leBytes 4 0x010103 ++ leBytes 52 0) = 3 ∧
    boxCount (leBytes 8 0 ++ leBytes 4 0x010104 ++ leBytes 52 0) = 4 ∧ ((moving 1).group 63).rank ≠ 1 := by decide +kernel

/-- A context whose page 0 holds one DATA shard's entry (8 bytes from VA 64 to slot 0) and whose slot 2 takes records. -/
def shooting : Context := { windowed with pt := [(0, mkPte psResident false false (locSeam 0) 1)] }
def shard0 : List Byte := leBytes 4 0 ++ leBytes 4 0 ++ leBytes 8 77 ++ leBytes 8 64 ++ leBytes 4 8 ++ leBytes 4 0
/-- A SNAP_BEGIN of it. -/
def beginning : State :=
  { withCtx (asked 0x90 [0, 1, 2, 1, 0, 0, 2, 0]) { shooting with window := some { someWindow with slots := someWindow.slots.modify 2 fun w => { w with busy := false } } } with
    mem := Cells.writeBytes [] 0 shard0 }
theorem witness_snap_begin :
    let s := beginning
    s.mbxIs 0x90 = true ∧ s.mbx.fenced = false ∧ s.rst.retired = false ∧ s.snapArgsBad (slice s.mbxBytes 0 64) = false ∧
      (s.acquire 0 2 []).isSome = true ∧ (s.snap 0).state = 0 ∧ (s.snp.slots.toList.filter fun q => q.live && q.ctx.toNat == 0).length < 2 := by decide +kernel
theorem witness_snap_begin_bad : (asked 0x90 []).snapArgsBad (slice (asked 0x90 []).mbxBytes 0 64) = true ∧ (beginning.acquire 0 1 [0]).isNone = true := by decide +kernel
theorem witness_snap_begin_full : ∀ i, (({ beginning with snp.slots := Vector.replicate 8 { snapSlotReset with state := 3 } } : State).snap i).state ≠ 0 := by decide +kernel
theorem witness_acquire : (windowed.slot? 0).any (fun w => w.held.isSome) = true ∧ (windowed.slot? 1).any (fun w => w.held.isNone) = true ∧
    flagOwner [1] = true ∧ flagOwner [] = false := by decide +kernel
/-- Snapshot 7 of context 0 over shards `l`, in state `st`. -/
def snapping (st : BitVec 2) (l : List (List Byte)) (x : Context) : State :=
  (mastered (withCtx ready x)).modSnap 7 fun t => { t with state := st, list := l.map shardOf, record := 0, held := [(0, mkPte psFrozen false false (locSeam 0) 1)] }
theorem witness_snap_freeze :
    let s := snapping 1 [shard0] shooting
    (s.snap 7).state = 1 ∧ s.openInProgress (s.snap 7).list = false ∧ (s.ctx? (ctxOf (s.snap 7).ctx.toNat)).isSome = true ∧
      (s.snap 7).list.all (·.isRange) = true ∧ pagesOf 64 8 = [0] ∧ pteState (shooting.pt.getD 0 0) = psResident ∧ pteFrame (shooting.pt.getD 0 0) < 24 * dieStride := by
  decide +kernel
theorem witness_snap_freeze_waits : ({ snapping 1 [leBytes 4 2] shooting with opt.openBusy := true } : State).openInProgress ((snapping 1 [leBytes 4 2] shooting).snap 7).list = true := by
  decide +kernel
theorem witness_snap_read : (asked 0x91 [7]).mbxIs 0x91 = true ∧ (asked 0x91 [7]).mbxArg 0 = (7 : SnapId).val ∧ 8 ≤ (asked 0x91 [8]).mbxArg 0 := by decide +kernel

/-- A REFERENCE shard of 8 bytes from VA 64. -/
def shard1 : List Byte := leBytes 4 1 ++ leBytes 4 0 ++ leBytes 8 78 ++ leBytes 8 64 ++ leBytes 4 8 ++ leBytes 4 0
theorem witness_shard :
    let s := snapping 2 [shard1, shard0] shooting
    let t := s.snap 7
    (s.ctx? (ctxOf t.ctx.toNat)).any (fun x => s.mayRequest x.fn) = true ∧ t.state = 2 ∧ t.list[t.done]? = some (shardOf shard1) ∧ (shardOf shard1).kind = 1 ∧
      (∀ v ∈ shardPages [shardOf shard1], pteState (t.held.getD v 0) ≠ psPoisoned) := by decide +kernel
theorem witness_shard_data :
    let s := snapping 2 [shard0, shard0] shooting
    let t := s.snap 7
    t.list[t.done]? = some (shardOf shard0) ∧ (shardOf shard0).kind = 0 ∧ t.list[t.done + 1]? = some (shardOf shard0) ∧ (shardOf shard0).writes = true ∧
      (s.acquire 0 (shardOf shard0).slot []).isSome = true ∧ (∀ v ∈ shardPages [shardOf shard0], pteState (t.held.getD v 0) ≠ psPoisoned) := by decide +kernel
theorem witness_shard_poisoned :
    let s := (snapping 2 [shard1] shooting).modSnap 7 fun t => { t with held := [(0, mkPte psPoisoned false false (locSeam 0) 1)] }
    ∃ v ∈ shardPages [shardOf shard1], pteState ((s.snap 7).held.getD v 0) = psPoisoned := by decide +kernel
/-- A snapshot that waits for slot 1, which the host owns. -/
def waiting : State := snapping 2 [leBytes 4 0x10000 ++ shard0.drop 4] shooting
theorem witness_shard_waits :
    let t := waiting.snap 7
    t.state = 2 ∧ (t.list[t.done]?).any (fun h => h.writes && h.slot == 1) = true ∧ (waiting.acquire 0 1 []).isNone = true ∧
      (shooting.slot? 1).any (fun w => w.held.isNone) = true ∧ flagOwner [1] = true ∧ (ready.snap 0).state ≠ 2 := by decide +kernel
theorem witness_snap_states : (ready.snap 7).state = 0 ∧ ((snapping 1 [] shooting).snap 7).state = 1 ∧ ((snapping 3 [] shooting).snap 7).state = 3 := by decide +kernel
theorem witness_digest :
    let s := withCtx (asked 0x92 [0, 0, 0, 0, 8, 0]) windowed
    s.mbxIs 0x92 = true ∧ bits (s.mbxArg 0) 15 8 = 0 ∧ s.mbxArg 1 = 0 ∧ fieldAt s.mbxBytes 16 8 = 8 ∧
      (s.ctx? (ctxOf (bits (s.mbxArg 0) 7 0))).any (fun x => (x.slot? (bits (s.mbxArg 0) 31 16)).any fun w => !w.p2p && decide (fieldAt s.mbxBytes 8 8 + 8 ≤ w.size) &&
        w.held.isSome) = true ∧ ((asked 0x92 [0]).ctx? 0).isNone = true := by decide +kernel
theorem witness_digest_range : (windowed.slot? 0).any (fun w => decide (w.size < 2 ^ 30)) = true := by decide +kernel

theorem witness_core_reset : ready.rst.inReset ≠ some true ∧ (asked 0x30 []).mbx.busy = true ∧ { ready with rst.inReset := some true }.rst.inReset = some true := by decide +kernel
theorem witness_core_done :
    let s : State := { ready with rst.inReset := some false }
    s.rst.inReset = some false ∧ s.rst.retireAfter = false ∧ { s with rst.retireAfter := true }.rst.retireAfter = true ∧ s.rst.retired = false ∧
      ready.rst.inReset ≠ some false := by decide +kernel
theorem witness_system_reset : ready.pwr.mainOn = true ∧ ready.pwr.hold = .none ∧ { ready with pwr.hold := .trip }.pwr.hold ≠ .none ∧
    State.reset.pwr.mainOn = false ∧ ((linked ready lsUp).link 23).light = true ∧ (ready.link 0).light = false := by decide +kernel
theorem witness_becomes_ready :
    let s : State := { ready with rst.inReset := some true }
    s.rst.inReset = some true ∧ s.sec.islandOnly = false ∧ s.pwr.hold = .none ∧ s.pwr.mainOn = true ∧ s.rst.retireAfter = false ∧
      { s with rst.retireAfter := true }.rst.retireAfter = true ∧ { s with sec.islandOnly := true }.sec.islandOnly = true := by decide +kernel
theorem witness_escalation : { ready with rst.escMask := 0x20 }.rst.escMask.getLsbD 5 = true ∧ { ready with rst.escMask := 0x20 }.rst.escMask.getLsbD 6 = false := by decide +kernel

/-- A module whose quad 5, host interface and link 23 are fenced. -/
def shut : State := { linked ready lsUp with fld.fenced := 0x20, rst.hostFenced := true, rst.lfence := 0x800000 }
theorem witness_fences : ready.rst.hostFenced = false ∧ shut.rst.hostFenced = true ∧ shut.rst.lfence.getLsbD 23 = true ∧ shut.rst.lfencePend.getLsbD 23 = false ∧
    (shut.link 23).light = true ∧ shut.rst.blkBusy = none ∧ shut.rst.lfence.getLsbD 0 = false ∧ shut.fld.fenced.getLsbD 5 = true ∧ shut.linkOut 23 = true ∧
    { shut with rst.lfencePend := 0x800000 }.rst.lfencePend.getLsbD 23 = true ∧ shut.fld.fenced.getLsbD 0 = false ∧ shut.linkOut 0 = false ∧
    ({ ready with rst.lfence := 1 }.link 0).light = false := by decide +kernel
theorem witness_block_reset : ready.rst.blkBusy = none ∧ (5 : BitVec 5).toNat < 6 ∧ 6 ≤ (6 : BitVec 5).toNat ∧ (23 : BitVec 5).toNat < 24 ∧ 24 ≤ (24 : BitVec 5).toNat ∧
    (shooting.pt.get? 0).isSome = true ∧ pteFrame (shooting.pt.getD 0 0) / dieStride / 4 = 0 ∧ pteState (shooting.pt.getD 0 0) = psResident := by decide +kernel
theorem witness_block_done :
    let s : State := { linked ready lsDown with rst.blkBusy := some (true, 23) }
    s.rst.blkBusy = some (true, (23 : LinkId).val) ∧ (s.link 23).light = true ∧ s.rst.lfence.getLsbD 23 = false ∧ (s.link 23).state = lsDown ∧
      (shut.link 23).state ≠ lsDown ∧ { ready with rst.blkBusy := some (false, 5) }.rst.blkBusy = some (false, 5) := by decide +kernel

theorem witness_field_canary : (holding cmdReset).holder?.isSome = true ∧ ready.holder?.isNone = true := by decide +kernel
theorem witness_self_fault : ((grouped ready []).group 63).state ≠ 0 ∧ (ready.group 0).state = 0 ∧ ((snapping 2 [] shooting).snap 7).state = 2 ∧ (ready.snap 0).state = 0 ∧
    shut.domainFenced .host = true ∧ ready.domainFenced .host = false := by decide +kernel
theorem witness_parity : ready.rst.badParity.contains (limitOffset .runLimit) = false ∧
    { ready with rst.badParity := [0x2010] }.rst.badParity.contains (limitOffset .runLimit) = true := by decide +kernel
theorem witness_long_press : ready.rst.retired = false ∧ { shut with rst.retired := true }.rst.retired = true ∧ shut.rst.hostFenced = true ∧
    usableState ((linked ready lsUp).link 0).state = true := by decide +kernel

/-- A module held after a rail fault, a power-on request over SVC waiting for its clips. -/
def railed : State := { ready with pwr.hold := .rail, pwr.mainOn := false, pwr.stage := 7, pwr.onAsked := some 0x0A }
theorem witness_rails : ready.pwr.mainOn = true ∧ railed.pwr.mainOn = false ∧ decide (4999 < 5000 ∨ 5800 < 4999) = true ∧ decide (5000 < 5000 ∨ 5800 < 5000) = false ∧
    ready.pwr.railWarnA = false ∧ ready.pwr.railWarnB = false := by decide +kernel
theorem witness_aux : State.reset.pwr.auxOn = true ∧ State.reset.pwr.stage = 0 ∧ State.reset.cal.torn = false ∧ (∀ b, State.reset.cal.stored = some b → calImageOk b = true) ∧
    State.reset.bankOk false = true ∧ { State.reset with cal.torn := true }.cal.torn = true ∧ calImageOk [] = false ∧ State.reset.cal.writing = none ∧
    { State.reset with sec.svnMin := 1 }.bankOk false = false ∧ { State.reset with sec.svnMin := 1 }.bankOk true = false ∧
    { State.reset with sec.banks := #v[{ good := false, svn := 0, data := none }, bankReset] }.bankOk false = false ∧
    { State.reset with sec.banks := #v[{ good := false, svn := 0, data := none }, bankReset] }.bankOk true = true := by
  refine ⟨rfl, rfl, rfl, ?_, by decide +kernel, rfl, rfl, rfl, by decide +kernel, by decide +kernel, by decide +kernel, by decide +kernel⟩
  intro b h; cases h
theorem witness_main_power : { State.reset with pwr.stage := 1 }.pwr.hold = .none ∧ { State.reset with pwr.stage := 1 }.pwr.mainOn = false ∧ railed.pwr.hold = .rail ∧
    railed.pwr.onAsked = some 0x0A ∧ ready.pwr.stage ≠ 1 ∧ { railed with pwr.onAsked := none }.pwr.onAsked = none ∧ { ready with pwr.hold := .trip }.pwr.hold = .trip := by
  decide +kernel

/-- Readings of 40 °C on every die at a power of `w` watts. -/
def reading (w : Nat) (temps : List Int) : Readings := { temps := temps, watts := w, watts10 := w, va := 5400, vb := 5400, ia := 100, ib := 100, auxMv := 12000 }
theorem witness_trip : ready.pwr.hold = .none ∧ { ready with pwr.hold := .trip }.pwr.hold = .trip ∧ ready.pwr.mainOn = true := by decide +kernel
/-- The calibration image with no thermal offset at all. -/
def calm : State := { ready with cal.offsets := .image (some []) }
theorem witness_hot : 64 * 110 ≤ (calm.readTemps [0, 64 * 110]).pwr.hottest.2 ∧ (calm.readTemps [0, 64 * 110 - 1]).pwr.hottest.2 < 64 * 110 ∧
    (calm.readTemps [0, 64 * 70 - 1]).pwr.hottest.2 < 64 * 70 ∧ 64 * 70 ≤ (calm.readTemps [64 * 70]).pwr.hottest.2 ∧
    (calm.readTemps []).pwr.hottest = (0, 0) ∧ calm.profile.clockPending = false ∧ calm.profile.clockingEff = false ∧
    { calm with pwr.sinceRise := 9 }.pwr.sinceRise + 1 = 10 ∧ { calm with profile.clockPending := true }.profile.clockPending = true := by decide +kernel

theorem witness_cool : flowOf 0 1999 0 = 0xFFFF ∧ (flowOf 0 5800 1331).toNat = 64000 * 5800 / (697 * 1331) ∧ 64000 * 5800 / (697 * 1331) ≤ 65535 ∧
    ready.pwr.coolWarn = false := by decide +kernel
theorem witness_island_reads : (asked 0xF0 []).mbx.busy = true ∧ (asked 0xF0 []).mbx.running.toNat = 0xF0 ∧ (asked 0xF0 []).mbx.fenced = false ∧
    (asked 0xA2 []).mbx.running.toNat = 0xA2 ∧ { asked 0xA0 [] with mbx.fenced := true }.mbx.fenced = true ∧ ready.mbx.busy = false := by decide +kernel

/-- A mailbox request for the slots of the capture test: slot 0 of context 0, owned by the device. -/
def owning (code : BitVec 16) (args : List Word) : State := { capturing with mbx := (asked code args).mbx }
theorem witness_identity : (owning 0xD0 []).cal.writing = none ∧ (owning 0xD0 []).mbx.busy = true ∧ (owning 0xD0 []).mbx.running.toNat = 0xD0 ∧
    (owning 0xD0 []).mbx.fenced = false ∧ (owning 0xD0 [2]).mbxArg 0 / 2 % 32768 ≠ 0 ∧ (owning 0xD0 [1]).sec.attestReady = false ∧
    { owning 0xD0 [1] with sec.attestReady := true }.sec.attestReady = true ∧ { owning 0xD0 [] with cal.writing := some ([], true) }.cal.writing.isSome = true ∧
    { owning 0xD0 [] with mbx.fenced := true }.mbx.fenced = true ∧ ready.mbx.busy = false := by decide +kernel
theorem witness_fw_stage : ((owning 0xD4 [0, 2 ^ 26]).islandSlot 0 []).any (fun e => 2 ^ 26 ≤ 2 ^ e.2.2.2.log2) = true ∧ (owning 0xD4 [0, 2 ^ 26]).mbxArg 1 = 2 ^ 26 ∧
    ((owning 0xD4 [0x10000, 65537]).islandSlot 0x10000 []).any (fun e => 2 ^ e.2.2.2.log2 < 65537) = true ∧ ((owning 0xD4 []).islandSlot 0x100 []).isNone = true ∧
    (ready.islandSlot 0 []).isNone = true ∧ (0 : BitVec 16) ≤ 0 ∧ (0 : BitVec 16) < 1 := by decide +kernel
theorem witness_fw_activate : { owning 0xD5 [1] with sec.staged := true }.bankOk true = true ∧ (owning 0xD5 [1]).mbxArg 0 % 2 ^ 32 < 2 ∧
    (owning 0xD5 [1]).sec.staged = false ∧ (owning 0xD5 [1]).sec.bank = false ∧ 2 ≤ (owning 0xD5 [2]).mbxArg 0 % 2 ^ 32 := by decide +kernel

/-- A module with four full chunks in its buffer. -/
def chunked : State := { ready with svc.chunks := Vector.replicate 4 (some []) }
theorem witness_cal_requests : ((owning 0xD8 []).islandSlot 0 []).isSome = true ∧ ((owning 0xD9 []).islandSlot 0x100 []).isNone = true ∧
    calImageOk (slice [] 0 16384) = false ∧ (owning 0xD9 []).mbx.running.toNat = 0xD9 ∧ (owning 0xD8 []).mbx.running.toNat = 0xD8 := by decide +kernel
theorem witness_chunks : ready.pwr.auxOn = true ∧ ready.cal.writing = none ∧ (3 : BitVec 16).toNat = (3 : Fin 4).val ∧ 4 ≤ (4 : BitVec 16).toNat ∧
    (List.replicate 4096 (0 : Byte)).length = 4096 ∧ (vget chunked.svc.chunks 0).isSome = true ∧ chunked.chunkImage = some [] ∧ calImageOk [] = false ∧
    vget ready.svc.chunks 3 = none ∧ (0 : BitVec 16) ≠ 0x6480 ∧ chunked.svc.chunks = #v[some [], some [], some [], some []] := by decide +kernel
theorem witness_image_written : { ready with cal.writing := some ([], true) }.cal.writing = some ([], true) ∧
    { owning 0xD9 [] with cal.writing := some ([], false) }.mbx.busy = true := by decide +kernel
theorem witness_good_image : ∃ b, calImageOk b = true ∧ ∃ s : State, s.cal.writing = some (b, false) :=
  ⟨_, good_image_exists, { ready with cal.writing := some (_, false) }, rfl⟩

theorem witness_spdm : ready.sec.attestReady = false ∧ { ready with sec.attestReady := true }.sec.attestReady = true ∧ ready.cal.writing = none ∧
    { ready with cal.writing := some ([], true) }.cal.writing.isSome = true ∧ (∀ n ∈ [1, 8], 1 ≤ n ∧ n ≤ 8) ∧ (∃ n ∈ [9], n < 1 ∨ 8 < n) ∧
    { ready with cal.loaded := .image none }.cal.loaded = .image none ∧ { ready with cal.loaded := .image (some []) }.cal.loaded = .image (some []) := by decide +kernel

/-- A retired module, its presence window open. -/
def outOfService : State := { ready with rst.retired := true, rst.coreHeld := true, svc.presence := true }
theorem witness_svc : ready.pwr.auxOn = true ∧ ready.cal.writing = none ∧ { ready with pwr.auxOn := false }.pwr.auxOn = false ∧ outOfService.rst.retired = true ∧
    outOfService.svc.presence = true ∧ outOfService.rst.escMask.getLsbD 0x0A = false ∧ ready.svc.presence = false ∧ railed.pwr.hold = .rail ∧
    2 ≤ (2 : BitVec 16).toNat ∧ ready.sec.attestReady = false ∧ ready.rst.retired = false := by decide +kernel

theorem witness_button : outOfService.rst.retired = true ∧ ready.rst.retired = false ∧ ready.svc.request = false ∧ ready.svc.drained = false ∧
    { ready with svc.drained := true }.svc.drained = true ∧ { ready with svc.request := true }.svc.request = true := by decide +kernel
theorem witness_drained : (∀ c, ready.ctx? c = none) ∧ (∀ g, (ready.group g).state ≠ 1) ∧ (∀ n, (ready.snap n).state ≠ 1 ∧ (ready.snap n).state ≠ 2) ∧
    ((capturing.ctx? 0).isSome = true) ∧ ((grouped ready []).group 63).state = 1 ∧ ((snapping 2 [] shooting).snap 7).state = 2 := by decide +kernel
theorem witness_usb : ready.svc.attached = false ∧ { ready with svc.attached := true }.svc.attached = true := by decide +kernel
theorem witness_mgmt : ready.cal.writing = none ∧ (1 : BitVec 16).toNat = 1 ∧ (0x23 : BitVec 16) ∉ [(0x01 : BitVec 16), 0x02, 0x03, 0x04, 0x05, 0x20, 0x21, 0x22, 0x24] ∧
    (0x6481 : BitVec 16) ≠ 0x6480 ∧ railed.pwr.hold = .rail ∧ { ready with pwr.hold := .trip }.pwr.hold = .trip := by decide +kernel

theorem witness_reserved_profile : (0x3 : Word).toNat % 4 = 3 ∧ (0x30 : Word).toNat / 16 % 4 = 3 := by decide
theorem witness_cq_context : ((withCtx ready { fetching with cqTail := 3 }).ctx? 0).isSome = true := by decide +kernel

/-! ## The other clauses of the statements: their hypotheses meet too -/

theorem witness_stream_idle : { ready with svc.bulk := [[1], [2]] }.svc.bulk = [1] :: [2] :: [] ∧ { ready with svc.bulk := [[1]] }.svc.bulk = [[1]] :=
  ⟨rfl, rfl⟩
theorem witness_host_reads : (ready.read 0 .bar0 (0 / 4 * 4)).isSome = true ∧ ready.beforeReady 0 .bar0 (0 / 4 * 4) = false ∧
    ready.silent 0 .bar0 (0 / 4 * 4) = false ∧ ready.silent 0 .bar4 (0x1000 / 4 * 4) = true ∧ (ready.read 0 .bar4 (0x1000 / 4 * 4)).isSome = true := by decide +kernel
theorem witness_link_widths : (7 : BitVec 3).toNat ∈ [5, 6, 7] ∧ (16 : BitVec 5).toNat ∈ [4, 8, 16] ∧ (4 : BitVec 3).toNat ∉ [5, 6, 7] ∧
    (5 : BitVec 5).toNat ∉ [4, 8, 16] ∧ ready.sec.islandOnly = false ∧ ready.snp.debts = [] ∧ { ready with hub.p1FenceReg := true }.hub.p1FenceReg = true := by decide
/-- A mailbox request finds the core domains usable. -/
theorem witness_asked (code : BitVec 16) (args : List Word) : (asked code args).rst.coreHeld = false ∧ (asked code args).islandBusy = false := ⟨rfl, rfl⟩
theorem witness_mailbox_waits :
    let s := { asked 0x30 [] with rst.coreHeld := true }
    s.mbx.busy = true ∧ s.mbx.running = 0x30 ∧ s.mbx.fenced = false ∧ s.rst.retired = false ∧ s.rst.coreHeld = true := by decide
theorem witness_irq_fired : timed.tkp.ht < 2 ^ 68 ∧ timed.irq.fired.getLsbD 324 = false ∧
    { timed with irq.fired := setBit 0 324 true }.irq.fired.getLsbD 324 = true := by decide +kernel
theorem witness_reclaim_waits :
    let s := withCtx (asked 0x12 [0]) windowed
    (s.ctx? 0).any (fun x => !s.mayRequest x.fn && (mastered s).mayRequest x.fn && !x.farPool.contains 0) = true ∧
      ((withCtx ready handled).ctx? 0).any (fun x => x.farPool.contains 0 && (x.window.any fun w => (w.slots.get? 0).isSome)) = true := by decide +kernel
/-- The command of `holding` with its WAIT_TAG done with status `st`. -/
def tagged (st : Byte) : State := (holding cmdReset).modCtx 0 fun x => { x with tags := [(0, .done st)] }
theorem witness_wait_done : opFetched (withOp (tagged 5) (opWords 0x1009 0 0 [])) (fun _ _ x _ o => x.tagDone o.waitTag == some 5) = true ∧
    opFetched (withOp (tagged stOk) (opWords 0x1009 0 0 [])) (fun _ _ x _ o => x.tagDone o.waitTag == some stOk) = true := by decide +kernel
theorem witness_capture_open : capturing.fld.capAsk = false ∧ capturing.mayRequest 0 = false ∧ (mastered capturing).mayRequest 0 = true ∧
    (mastered capturing).captureSlot.isSome = true ∧ { capturing with fld.capAsk := true }.fld.capAsk = true ∧
    (((capturing.modSlot 0 0 fun w => { w with held := none }).ctx? 0).bind fun x => x.slot? 0).any (fun w => w.held.isNone && 30 ≤ w.log2) = true := by
  decide +kernel
theorem witness_scrub_mapped : ((withCtx ready handled).ownerOf 3).isSome = true ∧ (if ready.profile.seamEccActive then 2 else 1) < 2 ∧
    ∀ h ∈ [({ page := 294911, symbols := 1 } : SeamHit)], 0 < h.symbols ∧ h.symbols ≤ if ready.profile.seamEccActive then 2 else 1 := by decide +kernel
theorem witness_page_in_asks : (withCtx ready contextReset).mayRequest 0 = false ∧ (mastered (withCtx ready contextReset)).mayRequest 0 = true := by decide +kernel

theorem witness_hoist_waits :
    let s := hoisting [(0, 0x301), (8, 7), (0xC, 1)] handled
    hoistAsks s 1 (fun x r => x.hoistNeedsHost r && !s.mayRequest x.fn) = true ∧
      hoistAsks (hoisting [(0, 0x303), (4, 1)] handled) 3 (fun x r => x.hoistNeedsHost r) = true ∧
      hoistAsks (hoisting [(0, 4), (4, 1), (0x28, 2)] handled) 4 (fun x r => x.hoistNeedsHost r) = true ∧
      hoistAsks (hoisting [(0, 5), (0x10, 2)] handled) 5 (fun x r => x.hoistNeedsHost r) = true ∧
      hoistAsks (hoisting [(0, 6)] handled) 6 (fun x r => x.hoistNeedsHost r) = true := by decide +kernel
theorem witness_alloc_no_room :
    let s := { hoisting [(0, 0x001), (8, 0x7FFFFFF), (0xC, 1)] { handled with tables := [(511, 9)] } with hst.quotaSeam := Vector.replicate 64 0 }
    hoistAsks s 1 (fun x r => (s.placeRefused r).isNone && r.place != 3 && (s.allocPages 0 r (lowestFreeKey x.handles 0) r.pages 0).isNone) = true := by decide +kernel
/-- Handle 1 freed while a command still holds its pages. -/
def freeing : Context := { handled with handles := [(1, { vpn := 5, pages := 1, freed := true, held := [] })] }
theorem witness_freed_handle : hoistAsks (hoisting [(0, 2), (4, 1)] freeing) 2 (fun x r => (x.live r.handle).any (·.freed)) = true ∧
    hoistAsks (mastered (hoisting [(0, 4), (4, 1), (0x28, 2)] freeing)) 4 (fun x r => (x.live r.handle).any (·.freed) && r.len != 0) = true ∧
    (mastered (hoisting [(0, 4), (4, 1), (0x28, 2)] handled)).mayRequest 0 = true ∧
    hoistAsks (hoisting [(0, 0x170103), (4, 1)] handled) 3 (fun x r => !x.hoistNeedsHost r) = true := by decide +kernel
theorem witness_farslot_refused : hoistAsks (mastered (hoisting [(0, 5), (0x10, 1)] handled)) 5 (fun x r =>
    (x.slot? r.slot).any fun w => w.held.isNone && !w.p2p && pageSize ≤ w.size && !x.farPool.contains r.slot) = true ∧ flagOwner [] = false := by decide +kernel
theorem witness_farslot_copies :
    let s := mastered (hoisting [(0, 6)] { handled with pt := [(5, mkPte psFar false false (locFar 0 0) 1)], farUsed := [0] })
    hoistAsks s 6 (fun x r => x.farPool.contains r.slot && s.mayRequest x.fn && s.farPageIn 0 x r.slot) = true ∧
      hoistAsks (mastered (hoisting [(0, 6)] handled)) 6 (fun x r => !(mastered (hoisting [(0, 6)] handled)).farPageIn 0 x r.slot) = true := by decide +kernel

theorem witness_evacuate_page :
    let s := hoisting [] handled
    s.hst.evacFull = false ∧ (s.frames.get? 3).any (fun e => e.use != .withheld) = true ∧ (s.poisonedAt 3).isNone = true ∧
      (s.anyDieBut 0).any (fun d => (s.freeFrame d).isSome) = true ∧ { s with hst.evacFull := true }.hst.evacFull = true ∧
      s.quadFrames 5 = [] := by decide +kernel
theorem witness_destroy_hands_back :
    let s : State := { withCtx (asked 0x31 [0]) windowed with hub.p0Up := true }
    ((s.destroyBegin 0).ctx? 0).any (fun x => x.cmds.isEmpty && (s.destroyBegin 0).handbackWaits x) = true ∧
      ((withCtx (asked 0x31 [0]) contextReset).destroyBegin 0).handbackWaits contextReset = false := by decide +kernel
theorem witness_dispatch_unknown :
    let s := (commanded 2 cmdReset).modCtx 0 fun x => { x with cmds := x.cmds.map fun k => { k with desc := leBytes 4 2 ++ List.replicate 60 0 ++ leBytes 64 9 } }
    (s.ctx? 0).any (fun x => x.nextCmd.any fun k => s.dispatchable x k && !k.usesField && !s.listWaits x k && k.hoistUnknown) = true := by decide +kernel
theorem witness_dispatch_field :
    let s := commanded 1 cmdReset
    (s.ctx? 0).any (fun x => x.nextCmd.any fun k => s.dispatchable x k && k.isField && k.footCount == 0 && (s.choice.any fun e => e.1 == 0 && e.2.1 == k) &&
      (s.dispatchChecks 0 x k).isNone && s.seamRoom x.fn 0) = true ∧
      (let s := { s with rst.retired := true }; s.choice.any fun e => (s.ctx? 0).any fun x => (s.dispatchChecks 0 x e.2.1).isSome) = true ∧
      { ready with fld.maint := true }.fld.maint = true ∧ fetching.ends = [] := by decide +kernel
theorem witness_step_unbuilt : ((serving .fetched none).ctx? 0).any (fun x => ((serving .fetched none).unbuiltStep x).isSome) = true ∧
    ((withCtx ready contextReset).ctx? 0).any (fun x => ((withCtx ready contextReset).unbuiltStep x).isNone) = true := by decide +kernel
theorem witness_step_max_parity : ((serving .running none).ctx? 0).any (fun x => x.stepMax == 0) = false ∧
    ({ serving .running none with rst.badParity := [offStepMax 0] }).rst.badParity.contains (offStepMax 0) = true := by decide +kernel
theorem witness_invocation_pages :
    let sv : List Served := [{ entry := 0, row := 9, frame := 0, model := 3 }]
    let s := serving .running (some (running [(3, sv)]))
    (s.ctx? 0).any (fun x => (x.cmd? 0).any fun k => (s.model? 0 3).any fun mo =>
      reachable s x k ((mo.index, (indexVector mo.batch sv).length) :: imageReads x k s.freeCtr mo)) = true := by decide +kernel
theorem witness_open_owed :
    let s : State := { withCtx ready { contextReset with pt := [(0, mkPte psFar false false (locFar 0 0) 1)] } with opt.owed := [(0, 64, 0)] }
    s.patchWaits 0 64 = true ∧ (mastered s).patchWaits 0 64 = false ∧ ready.opt.owed = [] ∧ (24 : Int) < (wfield 25 0 : BitVec 6).toInt ∧
      (wfield 39 0 : BitVec 6).toInt < -24 := by decide +kernel
theorem witness_time_code_island : { ready with sec.islandOnly := true }.sec.islandOnly = true ∧ ready.sec.islandOnly = false := by decide
/-- The same with an image whose lane trims are 0. -/
def trimmed (st : BitVec 3) : State := { gapped st with cal.loaded := .image (some []) }
theorem witness_theta : let s := trimmed tkLocked
    s.theta2 0 0 2000 0 0 true = 2000 ∧ s.theta2 0 0 64 0 0 true = 64 ∧ s.theta2 23 0 65 0 0 true = 65 ∧ s.theta2 0 0 2049 0 0 true = 2049 ∧
      32 * s.tkp.guardEff < (2000 : Int).natAbs ∧ (64 : Int).natAbs ≤ 32 * s.tkp.guardEff ∧ (trimmed tkHoldover).tkp.holdoverOver = false ∧
      (trimmed tkRack).tkp.state = tkRack ∧ linkOf s.tkp.parentUsed.toNat ≠ 23 := by decide +kernel
theorem witness_clock_room : locked.ht + 20000 < 2 ^ 64 ∧ frameFrom (3 + 2000) < 2 ^ 64 := by decide +kernel
theorem witness_discover_awaits : ((linked ready lsDiscover).link 0).awaited = none ∧
    (((linked ready lsDiscover).modLink 0 fun k => { k with awaited := some 4095 }).link 0).awaited ≠ none := by decide +kernel
theorem witness_codewords :
    let s := linked ready lsUp
    let u := s.modLink 0 fun k => { k with awaited := some 4095, cwNext := 4096 }
    evaluates (s.link 0).state = true ∧ (List.replicate 15 (0 : Fin 16)).length ≤ 15 ∧ 15 < (List.replicate 16 (0 : Fin 16)).length ∧
      (s.link 0).awaited = none ∧ (u.link 0).awaited = some 4095 ∧ (u.link 0).awaited ≠ some 0 ∧ carriesFlits (u.link 0).state = true ∧
      0 < (u.link 0).cwNext ∧ (u.link 0).cwNext ≤ 0 + 4096 ∧ (u.link 0).cwNext ≤ 4096 ∧
      carriesFlits (ready.link 0).state = false ∧ ((linked ready lsDisabled).link 0).state = lsDisabled ∧
      carriesFlits ((linked ready lsDisabled).link 0).state = false ∧ (0xFFFF : BitVec 16).getLsbD ((linked ready lsDisabled).timeLane 0) = true := by decide +kernel
theorem witness_lane_maps :
    let s := (linked ready lsUp).modLink 0 fun k => { k with laneDropped := true, droppedLane := 15 }
    (s.link 0).laneDropped = true ∧ (s.link 0).droppedLane ≠ 0 ∧ (s.link 0).awaited = none ∧ (s.link 0).dropping = none := by decide +kernel
theorem witness_loops :
    let s := linked ready lsUp
    (s.link 23).loopFar = false ∧ (s.link 23).state ≠ lsSleep ∧ (s.link 23).state ≠ lsWaking ∧ ready.lanesFailed [500001] = 1 ∧ ready.lanesFailed [500000] = 0 ∧
      ((s.modLink 23 fun k => { k with loopPend := true }).link 23).loopPend = true := by decide +kernel
theorem witness_flits_here :
    let s := inHall ready lsUp
    let f := mkFlit fkBe 1 0 (1, 0, 0) (0, 0, 0) s.lnk.gen.toNat s.lnk.gen.toNat 0 0 []
    let own := beFlit 0 0 s.lnk.gen.toNat 0
    Flit.cls f = 1 ∧ (s.sourceDir f).isSome = true ∧ s.lnk.topo.any (fun t => (t.beDir own).isNone) = true ∧ Flit.cls own ≠ 1 ∧
      (s.group (groupOf (fieldAt (Flit.payload own) 0 2 % 64))).state ≠ 1 ∧ (s.link 0).awaited = none := by decide +kernel
theorem witness_flits_stale :
    let s := grouped (inHall ready lsUp) [gathering]
    let gen := s.lnk.gen.toNat
    let f := mkFlit fkBe 1 0 (0, 0, 0) (1, 0, 0) gen gen 0 0 (leBytes 4 63 ++ List.replicate 44 0)
    (s.lnk.topo.any fun t => (t.beDir f).isNone) = true ∧ (s.sourceDir f).isSome = true ∧ Flit.dstGen f = s.lnk.gen.toNat % 65536 ∧
      groupOf (fieldAt (Flit.payload f) 0 2 % 64) = 63 ∧ (s.sourceDir f).any (fun d => Flit.srcGen f == (vget (s.group 63).gens (dirFin d)).toNat % 65536) = true := by
  decide +kernel
theorem witness_stream_take : ({ got := [(1, 5)], acked := [], later := [], data := [], parts := [] } : StreamRx).got.getD 1 0 = 5 ∧ (5 : Nat) < 2 ^ 22 := by decide
theorem witness_stream_number : ((grouped ready []).group 63).numOf 0 = some 0 ∧ ((grouped ready []).group 63).numOf 200 = none := by decide +kernel
theorem witness_hold_queue : longestWait [(5, ([] : Flit)), (3, [])] = some (3, []) ∧ longestWait ([] : List (Nat × Flit)) = none := by decide
theorem witness_beacon_awaits : (((linked ready lsUp).modLink 0 fun k => { k with awaited := some 0 }).link 0).awaited ≠ none ∧
    ((inHall ready lsRetired).link 23).awaited = none := by decide +kernel
theorem witness_entry_numbers :
    let s := launched 1 [{ gathering with entries := [(0, [])], start := none }]
    (s.group 63).numOf (0 : Byte).toNat = some 0 ∧ (s.group 63).ctail.toNat ≤ 0 ∧ entryOk (leBytes 4 1) = true ∧ 0x0C ≤ fieldAt (leBytes 4 0x0C0001) 2 1 ∧
      ((s.modGroup 63 fun q => { q with ctail := 1, cols := [] }).group 63).ctail = 1 ∧ ((launched 1 []).group 63).early = [] := by decide +kernel
theorem witness_start_pages :
    let s := launched 1 [{ gathering with start := none }]
    (s.ctx? (ctxOf (s.group 63).ctx.toNat)).any (fun x => (x.notResident (s.colPages x (s.group 63) gathering)).isEmpty) = true ∧
      gathering.entries.length = (s.group 63).count ∧ s.tkp.state ≠ 0 ∧
      (let t := s.modCtx 0 fun x => { x with pt := [(0, mkPte psFar false false (locFar 0 0) 1)] }
       (t.ctx? 0).any fun x => !(x.notResident (t.colPages x (t.group 63) gathering)).isEmpty) = true := by decide +kernel
theorem witness_collective_no_room :
    let s := { moving 3 with hst.quotaSeam := Vector.replicate 64 0 }
    let s := s.modCtx 0 fun x => { x with pt := [(0, mkPte psFrozen false false (locSeam 0) 1)] }
    (s.writeCommittedAt 0 false 8 [1]).isNone = true := by decide +kernel
theorem witness_scratch_errors : (((moving 1).modGroup 63 fun q => { q with scratch := [294911] }).group 63).scratch.contains 294911 = true := by decide +kernel
theorem witness_tree : ([.node (.leaf 1) (.leaf 0)] : List RedTree)[0]? = some (.node (.leaf 1) (.leaf 0)) := rfl

theorem witness_snap_waits :
    let s := (beginning.modSlot 0 2 fun w => { w with held := none })
    s.snapArgsBad (slice s.mbxBytes 0 64) = false ∧ ((s.ctx? 0).bind fun x => x.slot? 2).any (fun w => w.held.isNone) = true ∧ s.mayRequest 0 = false ∧
      (mastered s).mayRequest 0 = true ∧ flagOwner [] = false ∧ flagOwner [1] = true := by decide +kernel
theorem witness_snap_ends :
    let s := snapping 2 [shard0, shard0] shooting
    s.snp.debts = [] ∧ (s.ctx? (ctxOf (s.snap 7).ctx.toNat)).any (fun x => s.mayRequest x.fn) = true ∧
      ({ s with hub.p0Up := false }.mayRequest 0) = false ∧ (s.snap 7).list[0 + 1]? = some (shardOf shard0) ∧ (s.snap 7).list.length ≠ 0 + 1 := by decide +kernel
theorem witness_wait_without_slot :
    let s := snapping 2 [leBytes 4 0xF0000 ++ shard0.drop 4] shooting
    (s.ctx? 0).any (fun x => ((s.snap 7).list[0]?).any fun h => h.writes && (x.slot? h.slot).isNone) = true ∧ (mastered waiting).mayRequest 0 = true ∧
      ({ waiting with hub.p0Up := false }).mayRequest 0 = false := by decide +kernel
theorem witness_digest_waits :
    let s := withCtx (asked 0x92 [0, 0, 0, 0, 8, 0]) windowed
    s.mayRequest 0 = false ∧ (mastered s).mayRequest 0 = true := by decide +kernel

theorem witness_retire_after : { ready with rst.inReset := some false, rst.retireAfter := true, rst.retired := true }.rst.retired = true ∧
    { ready with rst.inReset := some true, rst.retireAfter := true }.rst.retired = false ∧ ∀ g, (ready.group g).state ≠ 1 := by decide +kernel
theorem witness_drains : ([.ringFetch 0] : List TimedWork) ≠ [] ∧ ((ready.modLink 23 fun k => { k with control := [[]] }).link 23).queued ≠ 0 ∧
    (ready.link 23).queued = 0 ∧ shut.linkOut 23 = true ∧ shut.rst.hostFenced = true := by decide +kernel
theorem witness_quad_reset :
    let s := { moving 3 with rst.blkBusy := none }
    let k := gathering
    (s.touchesQuad (s.group 63) k 0) = true ∧ k.start.isSome = true ∧ k.ending = none ∧ ((holding cmdReset).holderIn 5).isSome = true ∧
      { ready with rst.blkBusy := some (true, 23) }.rst.blkBusy ≠ some (true, 0) := by decide +kernel
theorem witness_parity_work : (∀ l, ready.linkOut l = false ∨ (ready.link l).queued = 0) ∧ (∀ e ∈ ready.contexts, e.2.cmds = []) := by decide +kernel
theorem witness_press_counts : { ready with rst.escMask := 0x200 }.rst.escMask.getLsbD 9 = true ∧ ready.rst.escMask.getLsbD 9 = false := by decide
theorem witness_release_cold : ({ calm with pwr.hold := .trip, pwr.mainOn := false }.readTemps [0]).pwr.hottest.2 < 64 * 70 ∧
    { calm with pwr.hold := .trip, pwr.mainOn := false }.pwr.hold = .trip := by decide +kernel
theorem witness_calibration_asked : { ready with cal.state := 1 }.islandBusy = true ∧ (owning 0xD8 []).islandBusy = false ∧
    (owning 0xD4 [0]).islandWaits 0 = true ∧ (mastered (owning 0xD4 [0])).islandWaits 0 = false ∧ ((mastered (owning 0xD4 [0])).islandSlot 0 []).isSome = true ∧
    (owning 0xD4 []).islandWaits 0x100 = false := by decide +kernel
theorem witness_spdm_closed : { ready with sec.islandOnly := true }.sec.islandOnly = true ∧ { ready with cal.state := 1 }.islandBusy = true ∧
    ready.islandBusy = false ∧ ready.pwr.auxOn = true := by decide +kernel
theorem witness_packets : (List.replicate 512 (0 : Byte)).length = 512 * 1 := List.length_replicate
theorem witness_no_topology : ready.lnk.topo = none ∧ usableState ((linked ready lsUp).link 0).state = true := by decide +kernel

/-! ## Ill-formed commands are refused, each by its check -/

theorem test_ill_offset : (Instr.registerWrite 0 .bar4 0x2000 0xF 0 none).ill = some .offset := by decide
theorem test_ill_aligned : (Instr.busErrorAccess 0 .bar0 2 true 1).ill = some .aligned := by decide
theorem test_ill_second : (Instr.registerWrite 1 .bar0 0xFFC 0xF 0 (some (0xF, 0))).ill = some .second := by decide
theorem test_ill_dwords : (Instr.busErrorAccess 0 .bar0 0 false 0).ill = some .dwords := by decide
theorem test_ill_page : (Instr.pageInDone 0 (2 ^ 27)).ill = some .page := by decide
theorem test_ill_length : (Instr.commandFetch 0 [0]).ill = some .length := by decide
theorem test_ill_seam_page : (Instr.matmul [{ page := 24 * 12288, symbols := 2 }]).ill = some .seamPage := by decide
theorem test_ill_handle : (Instr.handleRelease 0 65536).ill = some .handle := by decide
theorem test_ill_rate : (Instr.pcieLinkUp false 4 16).ill = some .rate := by decide
theorem test_ill_function : (Instr.vfFlr 0).ill = some .function := by decide
theorem test_ill_index : (Instr.challenge true 16).ill = some .index := by decide
theorem test_well_formed : (Instr.registerWrite 0 .bar0 0xFFFFC 0xF 0 none).wellFormed = true ∧ (Instr.vfFlr 63).wellFormed = true := by decide

/-! ## Worked examples of the spec (03_formats.md, 13_reset_health.md, 15_power_bringup.md) -/

/-- 0.3 as FP8-E4M3 is 0x2A, which is 1.25 × 2^-2. -/
theorem test_e4m3_three_tenths : e4m3.encode true none (ofBits 0x3E99999A) = 0x2A ∧ toBits (e4m3.decode 0x2A) = 0x3EA00000 := by decide +kernel
/-- 500 overflows FP8-E4M3, with SAT and without, and −500 without SAT gives the NaN of sign 0. -/
theorem test_e4m3_overflow : e4m3.encode true none (FNum.ofInt 500) = 0x7E ∧ e4m3.encode false none (FNum.ofInt 500) = 0x7F ∧
    e4m3.encode true none (FNum.ofInt (-500)) = 0xFE ∧ e4m3.encode false none (FNum.ofInt (-500)) = 0x7F ∧ e4m3.encode false none (FNum.ofInt 464) = 0x7E := by decide +kernel
/-- 61,440 is the tie between 57,344 and 65,536 in FP8-E5M2. -/
theorem test_e5m2_tie : e5m2.encode false none (FNum.ofInt 60000) = 0x7B ∧ e5m2.encode false none (FNum.ofInt 61440) = 0x7C ∧ e5m2.encode true none (FNum.ofInt 61440) = 0x7B := by decide +kernel
/-- The block of 13.0, 0.1 and −2.5, of largest magnitude 13.0. -/
theorem test_bx8_block : (encodeBlock 6 true (fun _ => none) ([0x41500000, 0x3DCCCCCD, 0xC0200000].map ofBits)).take 4 = [0x7A, 0x7D, 0x45, 0xEA] := by decide +kernel
/-- The block of 6.8, 5.0, 0.7 and −1.3. -/
theorem test_bx4_block : (encodeBlock 7 true (fun _ => none) ([0x40D9999A, 0x40A00000, 0x3F333333, 0xBFA66666].map ofBits)).take 3 = [0x7F, 0x67, 0xB1] := by decide +kernel
/-- Stochastic rounding of 1 + 2^-9 goes up for the draws below 2^30. -/
theorem test_bf16_draw : bf16.encode true (some 0x3FFFFFFF) (ofBits 0x3F804000) = 0x3F81 ∧ bf16.encode true (some 0x40000000) (ofBits 0x3F804000) = 0x3F80 := by decide +kernel
/-- 40 replays a second settle at 10,240 (R367). -/
theorem test_score_settles : healthNext 6 10240 160 = 10240 := by decide +kernel
/-- 5.8 kW at a rise of 20.8 K is 4.00 L/min (R408). -/
theorem test_flow_four_litres : flowOf 0 5800 1331 = 400 := by decide +kernel
/-- 1,540 s: three stamps within 600 s; 1,700 s: two (R364). -/
theorem test_escalation_window : { State.reset with now := 1540 * 10 ^ 9, rst.stamps := [1540, 1150, 1000] }.escRecent = 3 ∧
    { State.reset with now := 1700 * 10 ^ 9, rst.stamps := [1700, 1150, 1000] }.escRecent = 2 := by decide +kernel

end Sys2Proof.Tests
end

/-! What judges a host access before a field sees it (12_host_attachment.md R318, R319, R321, R322). -/

namespace Sys2Proof.Machine

/-! ## One dword of a write: the outcomes of `State.writeDword` -/

section
variable {s : State} {fn : FnId} {bar : Bar} {off : Nat} {be : BitVec 4} {v : Word}

/-- R319: an unimplemented offset is a bus error, whatever READY and the byte enables are. -/
theorem State.writeDword_of_unimplemented (h : s.read fn bar (off / 4 * 4) = none) :
    s.writeDword fn bar off be v = s.busError fn := by
  simp [State.writeDword, h]

/-- R322: before READY an implemented register outside the HUB block takes no write. -/
theorem State.writeDword_of_beforeReady (himpl : (s.read fn bar (off / 4 * 4)).isSome = true)
    (hearly : s.beforeReady fn bar (off / 4 * 4) = true) : s.writeDword fn bar off be v = s := by
  simp [State.writeDword, Option.isNone_eq_false_iff.2 himpl, hearly]

/-- R318: a write without all four byte enables is counted and writes nothing. -/
theorem State.writeDword_of_partial (himpl : (s.read fn bar (off / 4 * 4)).isSome = true)
    (hopen : s.beforeReady fn bar (off / 4 * 4) = false) (hbe : be ≠ 0xF) :
    s.writeDword fn bar off be v = s.regViol := by
  simp only [State.writeDword, Option.isNone_eq_false_iff.2 himpl, hopen, bne_iff_ne.2 hbe, Bool.false_eq_true, if_false, if_true]

/-- A whole dword at an implemented offset reaches its register. -/
theorem State.writeDword_of_whole (himpl : (s.read fn bar (off / 4 * 4)).isSome = true)
    (hopen : s.beforeReady fn bar (off / 4 * 4) = false) :
    s.writeDword fn bar off 0xF v = s.write fn bar (off / 4 * 4) v := by
  simp [State.writeDword, Option.isNone_eq_false_iff.2 himpl, hopen]

theorem exec_registerWrite_oneDword :
    exec (.registerWrite fn bar off be v none) s = .next (s.writeDword fn bar off be v) := rfl

theorem exec_busErrorAccess {write : Bool} {dwords : Nat} :
    exec (.busErrorAccess fn bar off write dwords) s = .next (s.busErrorAccess fn bar off write dwords) := rfl

end

/-! ## READY -/

theorem State.beforeReady_of_ready {s : State} (h : s.hub.ready = true) (fn : FnId) (bar : Bar) (o : Nat) :
    s.beforeReady fn bar o = false := by
  simp [State.beforeReady, h]

theorem State.beforeReady_of_pastHub {s : State} {fn : FnId} {o : Nat} (h : s.hub.ready = false)
    (hpast : fn ≠ 0 ∨ 0x1000 ≤ o) : s.beforeReady fn .bar0 o = true := by
  simpa [State.beforeReady, h] using hpast

/-! ## Posting (R321) -/

section
variable {s : State} {b : PBlock} {base o : Nat} {v : Word}

theorem State.post_of_noWritable (h : hasWritable b (o - base) = false) : s.post b base o v = s := by
  simp [State.post, h]

theorem State.post_of_idle (hw : hasWritable b (o - base) = true) (hidle : s.posted.get b = none) :
    s.post b base o v = { s with posted := s.posted.put b (some { offset := o, value := v }) } := by
  simp [State.post, hw, hidle]

theorem State.post_of_busy (hw : hasWritable b (o - base) = true) (hbusy : s.posted.get b ≠ none) :
    s.post b base o v = { s with hub.postedDrop := satInc s.hub.postedDrop } := by
  simp [State.post, hw, Option.isSome_iff_ne_none.2 hbusy]

/-- A whole dword written to a posted block is judged by `State.post` alone. -/
theorem State.writeDword_posted (hready : s.hub.ready = true)
    (himpl : (s.read 0 .bar0 (o / 4 * 4)).isSome = true) (hblock : blockOf (o / 4 * 4) = some (b, base)) :
    s.writeDword 0 .bar0 o 0xF v = s.post b base (o / 4 * 4) v := by
  rw [State.writeDword_of_whole himpl (State.beforeReady_of_ready hready 0 .bar0 _)]
  simp [State.write, hready, State.fileWrite, hblock]

end

/-! ## BUS_ERROR_ACCESS (R319) -/

section
variable {s : State} {fn : FnId} {bar : Bar} {off : Nat}

theorem State.busErrorAccess_of_unsupported {write : Bool} {dwords : Nat}
    (h : 2 < dwords ∨ s.read fn bar (off / 4 * 4) = none) :
    s.busErrorAccess fn bar off write dwords = s.busError fn := by
  rcases h with hlong | hnone
  · simp [State.busErrorAccess, hlong]
  · simp [State.busErrorAccess, hnone]

/-- A read of one implemented dword is counted exactly where the silent rule answers it. -/
theorem State.busErrorAccess_read_of_implemented (himpl : (s.read fn bar (off / 4 * 4)).isSome = true)
    (hopen : s.beforeReady fn bar (off / 4 * 4) = false) :
    s.busErrorAccess fn bar off false 1 = if s.silent fn bar (off / 4 * 4) = true then s.regViol else s := by
  simp [State.busErrorAccess, State.readCounted, Option.isNone_eq_false_iff.2 himpl, hopen]

end

/-- Settles O8: each clause is one outcome of `State.writeDword`, `State.post` or `State.busErrorAccess`. -/
theorem hostWritesAreJudged : Obligations.HostWritesAreJudged := by
  unfold Obligations.HostWritesAreJudged
  simp only [exec_registerWrite_oneDword, exec_busErrorAccess]
  refine ⟨?partialWrite, ?postedWrite, ?beforeReady, ?unimplementedWrite, ?busError, ?silentRead⟩
  case partialWrite =>
    intro s fn bar o be v hready himpl hbe
    rw [State.writeDword_of_partial himpl (State.beforeReady_of_ready hready fn bar _) hbe]
    rfl
  case postedWrite =>
    intro s o v b base hready himpl hblock
    rw [State.writeDword_posted hready himpl hblock]
    exact ⟨fun hw => congrArg _ (State.post_of_noWritable hw),
      fun hw hidle => congrArg _ (State.post_of_idle hw hidle),
      fun hw hbusy => congrArg _ (State.post_of_busy hw hbusy)⟩
  case beforeReady =>
    intro s fn o be v hready himpl hpast
    rw [State.writeDword_of_beforeReady himpl (State.beforeReady_of_pastHub hready hpast)]
  case unimplementedWrite =>
    intro s fn bar o be v hnone
    rw [State.writeDword_of_unimplemented hnone]
    rfl
  case busError =>
    intro s fn bar o dwords write h
    rw [State.busErrorAccess_of_unsupported h]
    rfl
  case silentRead =>
    intro s fn bar o himpl hopen
    rw [State.busErrorAccess_read_of_implemented himpl hopen]
    rfl

end Sys2Proof.Machine

/-! HUB_PROFILE: what a write of it and CLOCK_CHANGE_EFFECT leave (01_module.md R20, R21). -/

namespace Sys2Proof.Machine

/-! ## A write of HUB_PROFILE -/

/-- A write of `v` asks for another ENVELOPE or CLOCKING than the one written last. -/
def Profile.changedBy (p : Profile) (v : Word) : Bool := wfield v 0 != p.envelope || wbit v 2 != p.clocking

/-- The operating profile after an accepted write of `v`; what is in effect stays. -/
def Profile.written (p : Profile) (v : Word) : Profile :=
  { p with
    envelope := wfield v 0
    clocking := wbit v 2
    determinism := wfield v 4
    seamEcc := wbit v 8
    fabric := wbit v 12
    clockPending := p.clockPending || p.changedBy v }

theorem Profile.changedBy_iff {p : Profile} {v : Word} :
    p.changedBy v = true ↔ (wfield v 0 : BitVec 2) ≠ p.envelope ∨ wbit v 2 ≠ p.clocking := by
  simp [Profile.changedBy]

section
variable {s : State} {v : Word}

/-- R20: a reserved encoding has the write ignored as a whole. -/
theorem State.profileWrite_of_reserved (h : (wfield v 0 : BitVec 2) = 3 ∨ (wfield v 4 : BitVec 2) = 3) :
    s.profileWrite v = s := by
  have hres : ((wfield v 0 : BitVec 2) == 3 || (wfield v 4 : BitVec 2) == 3) = true := by simpa using h
  simp only [State.profileWrite, hres, if_true]

theorem accepted_of_noReserved (henv : (wfield v 0 : BitVec 2) ≠ 3) (hdet : (wfield v 4 : BitVec 2) ≠ 3) :
    ((wfield v 0 : BitVec 2) == 3 || (wfield v 4 : BitVec 2) == 3) = false := by
  rw [beq_false_of_ne henv, beq_false_of_ne hdet, Bool.or_self]

/-- A write that replaces no pending change sets the profile alone. -/
theorem State.profileWrite_of_replacesNone (henv : (wfield v 0 : BitVec 2) ≠ 3) (hdet : (wfield v 4 : BitVec 2) ≠ 3)
    (h : s.profile.clockPending = false ∨ s.profile.changedBy v = false) :
    s.profileWrite v = { s with profile := s.profile.written v } := by
  have hkeep : (s.profile.changedBy v && s.profile.clockPending) = false := by
    rcases h with h | h <;> simp [h]
  simp only [Profile.changedBy] at hkeep
  simp only [State.profileWrite, accepted_of_noReserved henv hdet, hkeep, Bool.false_eq_true, if_false]
  rfl

/-- R21: a change that replaces one not yet in effect also lowers the clock to the lower of the two ceilings. -/
theorem State.profileWrite_of_replacesPending (henv : (wfield v 0 : BitVec 2) ≠ 3) (hdet : (wfield v 4 : BitVec 2) ≠ 3)
    (hpend : s.profile.clockPending = true) (hchg : s.profile.changedBy v = true) :
    s.profileWrite v = { s.lowerClock (min (ceilingOf s.profile.envelope s.profile.clocking) (ceilingOf (wfield v 0) (wbit v 2))) with
      profile := s.profile.written v } := by
  have hlower : (s.profile.changedBy v && s.profile.clockPending) = true := by rw [hchg, hpend, Bool.and_self]
  simp only [Profile.changedBy] at hlower
  simp only [State.profileWrite, accepted_of_noReserved henv hdet, hlower, Bool.false_eq_true, if_false, if_true]
  rfl

end

/-! ## CLOCK_CHANGE_EFFECT -/

section
variable {s : State}

theorem State.clockEffect_of_idle (h : s.profile.clockPending = false) : s.clockEffect = s := by
  simp [State.clockEffect, h]

/-- The written ENVELOPE and CLOCKING take effect; besides them only FCLK moves, to the STEADY clock or down to the new ceiling. -/
theorem State.clockEffect_of_pending (h : s.profile.clockPending = true) :
    ∃ f : BitVec 12, s.clockEffect = { s with
      profile := { s.profile with
        clockPending := false, envelopeEff := s.profile.envelope, clockingEff := s.profile.clocking }
      pwr := { s.pwr with fclk := f } } := by
  simp only [State.clockEffect, h, if_true]
  split
  case isTrue => exact ⟨_, rfl⟩
  case isFalse => exact ⟨_, rfl⟩

end

/-! ## The commands and the statements -/

theorem exec_hubProfileWrite {s : State} {v : Word} : exec (.hubProfileWrite v) s = .next (s.profileWrite v) := rfl

theorem exec_clockChangeEffect {s : State} : exec .clockChangeEffect s = .next s.clockEffect := rfl

/-- Settles O10: each clause is one outcome of `State.profileWrite` or `State.clockEffect`. -/
theorem profileWritesAndClockChange : Obligations.ProfileWritesAndClockChange := by
  unfold Obligations.ProfileWritesAndClockChange
  simp only [exec_hubProfileWrite, exec_clockChangeEffect]
  refine ⟨?reserved, ?replacesNone, ?replacesPending, ?takesEffect, ?nonePending⟩
  case reserved =>
    intro s v h
    rw [State.profileWrite_of_reserved h]
  case replacesNone =>
    intro s v henv hdet h
    have hnone : s.profile.clockPending = false ∨ s.profile.changedBy v = false :=
      h.imp_right fun ⟨he, hc⟩ => by simp [Profile.changedBy, he, hc]
    rw [State.profileWrite_of_replacesNone henv hdet hnone]
    rfl
  case replacesPending =>
    intro s v henv hdet hpend h
    rw [State.profileWrite_of_replacesPending henv hdet hpend (Profile.changedBy_iff.2 h)]
    simp only [State.lowerClock, Profile.written, hpend, Bool.true_or]
  case takesEffect =>
    intro s h
    obtain ⟨f, hf⟩ := State.clockEffect_of_pending h
    exact ⟨f, congrArg _ hf⟩
  case nonePending =>
    intro s h
    rw [State.clockEffect_of_idle h]

/-! ## HUB_PROFILE as a register: offset 0x10 of PF0's BAR0 -/

/-- A two-bit field of a register word is 3 exactly when its number is. -/
theorem wfield_two_eq_three_iff {v : Word} {lo : Nat} : (wfield v lo : BitVec 2) = 3 ↔ v.toNat / 2 ^ lo % 4 = 3 := by
  simp [wfield, ← BitVec.toNat_inj]

/-- HUB_PROFILE answers whatever READY is. -/
theorem State.read_hubProfile_isSome (s : State) : (s.read 0 .bar0 0x10).isSome = true := by
  simp [State.read, State.fileWord, State.hubWord]

/-- R322: HUB_PROFILE takes writes before READY too, as every register of the HUB block. -/
theorem State.writeDword_hubProfile {s : State} {v : Word} :
    s.writeDword 0 .bar0 0x10 0xF v = s.profileWrite v := by
  have hopen : s.beforeReady 0 .bar0 0x10 = false := by simp [State.beforeReady]
  rw [State.writeDword_of_whole (State.read_hubProfile_isSome s) hopen]
  have hparity : s.restoreParity 0x10 = s := by
    have h : carriesParity 0x10 = false := by decide
    simp [State.restoreParity, h]
  simp [State.write, State.fileWrite, blockOf, hparity, State.writeHub]

/-- Settles O59: both ways of writing HUB_PROFILE are `State.profileWrite`. -/
theorem reservedProfileWritesAreIgnored : Obligations.ReservedProfileWritesAreIgnored := by
  unfold Obligations.ReservedProfileWritesAreIgnored
  intro s v h
  have hres : (wfield v 0 : BitVec 2) = 3 ∨ (wfield v 4 : BitVec 2) = 3 := by
    rw [wfield_two_eq_three_iff, wfield_two_eq_three_iff]
    simpa using h
  rw [exec_hubProfileWrite, exec_registerWrite_oneDword, State.writeDword_hubProfile, State.profileWrite_of_reserved hres]
  exact ⟨rfl, rfl⟩

end Sys2Proof.Machine

/-! A Field operation that executes: what its accesses meet, what its writes need, and how it ends (02_field.md R48;
04_seam_hoist.md R104, R113; 05_commands.md R140). -/

namespace Sys2Proof.Machine

/-! ## Tables -/

section
variable {α : Type} {m : Assoc α} {i j : Nat} {v : α}

theorem Assoc.get?_put_same : (m.put i v).get? i = some v := by
  induction m with
  | nil => simp [Assoc.put, Assoc.get?]
  | cons e r ih =>
    obtain ⟨k, w⟩ := e
    simp only [Assoc.put]
    split
    case isTrue => simp [Assoc.get?]
    case isFalse =>
      split
      case isTrue => simp [Assoc.get?]
      case isFalse hne => simpa [Assoc.get?, Ne.symm hne] using ih

theorem Assoc.get?_put_other (h : j ≠ i) : (m.put i v).get? j = m.get? j := by
  induction m with
  | nil => simp [Assoc.put, Assoc.get?, h.symm]
  | cons e r ih =>
    obtain ⟨k, w⟩ := e
    simp only [Assoc.put]
    split
    case isTrue => simp [Assoc.get?, h.symm]
    case isFalse =>
      split
      case isTrue heq => simp [Assoc.get?, ← heq, h.symm]
      case isFalse => simp only [Assoc.get?, ih]

theorem Assoc.get?_del_other (h : j ≠ i) : (m.del i).get? j = m.get? j := by
  induction m with
  | nil => rfl
  | cons e r ih =>
    obtain ⟨k, w⟩ := e
    by_cases hk : k = i
    · subst hk
      simpa [Assoc.del, Assoc.get?, h.symm] using ih
    · simp only [Assoc.del, bne_iff_ne, ne_eq, hk, not_false_eq_true, List.filter_cons_of_pos, Assoc.get?]
      rw [← ih, Assoc.del]

end

/-! ## A context's command by its number -/

section
variable {s : State} {c : CtxId} {seq : Word} {x : Context} {k : Cmd}

theorem Context.seq_of_cmd? (h : x.cmd? seq = some k) : k.seq = seq := by
  simpa using List.find?_some h

theorem Context.cmd?_modCmd {f : Cmd → Cmd} (hf : ∀ j, (f j).seq = j.seq) (h : x.cmd? seq = some k) :
    (x.modCmd seq f).cmd? seq = some (f k) := by
  have hkeep : ((fun j : Cmd => j.seq == seq) ∘ fun j => if j.seq == seq then f j else j) = fun j => j.seq == seq := by
    funext j
    by_cases hj : j.seq = seq <;> simp [hj, hf]
  have hk : (k.seq == seq) = true := beq_iff_eq.2 (Context.seq_of_cmd? h)
  simp only [Context.cmd?] at h
  simp only [Context.cmd?, Context.modCmd, List.find?_map, hkeep, h, Option.map_some, hk, if_true]

theorem State.cmd?_eq_some_iff : s.cmd? c seq = some k ↔ ∃ x, s.ctx? c = some x ∧ x.cmd? seq = some k := by
  simp [State.cmd?, Option.bind_eq_some_iff]

theorem State.ctx?_modCmd {f : Cmd → Cmd} (h : s.ctx? c = some x) : (s.modCmd c seq f).ctx? c = some (x.modCmd seq f) := by
  simp [State.modCmd, h]

theorem State.cmd?_modCmd {f : Cmd → Cmd} (hf : ∀ j, (f j).seq = j.seq) (h : s.cmd? c seq = some k) :
    (s.modCmd c seq f).cmd? c seq = some (f k) := by
  obtain ⟨x, hx, hk⟩ := State.cmd?_eq_some_iff.1 h
  exact State.cmd?_eq_some_iff.2 ⟨_, State.ctx?_modCmd hx, Context.cmd?_modCmd hf hk⟩

theorem State.cmd?_tallySeam {n : Nat} : (s.tallySeam c n).cmd? c seq = s.cmd? c seq := by
  unfold State.tallySeam
  split
  case isTrue => cases h : s.ctx? c <;> simp [State.cmd?, h, Context.cmd?]
  case isFalse => rfl

/-- The command that holds the Field is a command of its context. -/
theorem State.holder_is_cmd (h : s.holder? = some (c, x, k)) : s.ctx? c = some x ∧ x.cmd? k.seq = some k := by
  simp only [State.holder?, Option.bind_eq_some_iff, Option.map_eq_some_iff, Prod.mk.injEq] at h
  obtain ⟨_, _, y, hy, j, hj, rfl, rfl, rfl⟩ := h
  exact ⟨hy, by rw [Context.seq_of_cmd? hj]; exact hj⟩

end

/-! ## The gate of an access that nothing stops -/

/-- Command `k` of context `x` in state `s` and command `j` of context `y` in state `t` see the same memory and compute the same: an
access that nothing stops leaves this of a command. -/
structure SameView (s : State) (x : Context) (k : Cmd) (t : State) (y : Context) (j : Cmd) : Prop where
  mem : t.mem = s.mem
  freeCtr : t.freeCtr = s.freeCtr
  fld : t.fld = s.fld
  opt : t.opt = s.opt
  pt : y.pt = x.pt
  stale : y.stale = x.stale
  versions : j.versions = k.versions
  shadows : j.shadows = k.shadows
  reserved : j.reserved = k.reserved

namespace SameView

section
variable {s t u : State} {x y z : Context} {k j i : Cmd}

theorem trans (h : SameView s x k t y j) (h' : SameView t y j u z i) : SameView s x k u z i where
  mem := h'.mem.trans h.mem
  freeCtr := h'.freeCtr.trans h.freeCtr
  fld := h'.fld.trans h.fld
  opt := h'.opt.trans h.opt
  pt := h'.pt.trans h.pt
  stale := h'.stale.trans h.stale
  versions := h'.versions.trans h.versions
  shadows := h'.shadows.trans h.shadows
  reserved := h'.reserved.trans h.reserved

variable (h : SameView s x k t y j)
include h

theorem entriesFor (ctr : Nat) (ranges : List (Nat × Nat)) : y.entriesFor j ctr ranges = x.entriesFor k ctr ranges := by
  simp only [Context.entriesFor, Context.seen, Context.viewAt, h.stale, h.versions, h.shadows]

theorem accessible {errs : SeamErrs} {ranges : List (Nat × Nat)} (ha : Accessible s x k errs ranges) : Accessible t y j errs ranges := by
  simpa only [Accessible, Context.framesFor, h.entriesFor, h.freeCtr, h.shadows] using ha

theorem viewAt_own (i : Cmd) (ctr key vpn : Nat) : y.viewAt i ctr key vpn = x.viewAt i ctr key vpn := by
  simp only [Context.viewAt, h.stale]

theorem viewAt (ctr key vpn : Nat) : y.viewAt j ctr key vpn = x.viewAt k ctr key vpn := by
  simp only [Context.viewAt, h.stale, h.versions]

theorem writeView (ctr vpn : Nat) : y.writeView j ctr vpn = x.writeView k ctr vpn := by
  rw [Context.writeView, Context.writeView, Context.view, Context.view, h.viewAt, h.pt, h.stale]

theorem shadowed {ranges : List (Nat × Nat)} (hs : Shadowed s x k ranges) : Shadowed t y j ranges := by
  simpa only [Shadowed, h.writeView, h.freeCtr, h.shadows, h.reserved] using hs

theorem cmdByte (i : Cmd) : t.cmdByte y i = s.cmdByte x i := by
  funext va
  simp only [State.cmdByte, h.viewAt_own, h.mem, h.freeCtr]

theorem opOut (rd : Nat → Byte) (i : Cmd) (o : FOp) (plate : Bool) : t.opOut rd i o plate = s.opOut rd i o plate := by
  have hA : t.operandA rd i o plate = s.operandA rd i o plate := by
    funext r col
    simp only [State.operandA, State.plateElem, h.fld]
  simp only [State.opOut, hA, h.opt]

end
end SameView

section
variable {s : State} {c : CtxId} {seq : Word} {x : Context} {k : Cmd} {ranges : List (Nat × Nat)} {errs : SeamErrs}

/-- R113: what an access of a command meets where its pages can be accessed: it goes on at once, and sees what it saw. -/
theorem State.gate_of_accessible (hx : s.ctx? c = some x) (hk : x.cmd? seq = some k) (h : Accessible s x k errs ranges) :
    ∃ t y j, s.gate c seq ranges errs = .go t ∧ t.ctx? c = some y ∧ y.cmd? seq = some j ∧ SameView s x k t y j := by
  obtain ⟨hentries, hframes⟩ := h
  have hpoison : ((x.entriesFor k s.freeCtr ranges).any fun e => pteState e.2 == psPoisoned) = false := by
    simpa using fun v p hp => (hentries (v, p) hp).2.2
  have hfar : ((x.entriesFor k s.freeCtr ranges).filter fun e => pteState e.2 == psFar || pteState e.2 == psTransit) = [] := by
    rw [List.filter_eq_nil_iff]
    intro e he
    simpa using ⟨(hentries e he).1, (hentries e he).2.1⟩
  have hbad : errs.ue.filter (x.framesFor k s.freeCtr ranges).contains = [] := by
    rw [List.filter_eq_nil_iff]
    intro f hf
    simpa using fun hmem => hframes f hmem hf
  simp only [State.gate, hx, hk, Option.bind_some, Option.map_some, hpoison, hfar, hbad, List.isEmpty_nil, Bool.not_true,
    Bool.false_eq_true, if_false, if_true]
  exact ⟨_, _, _, rfl, State.ctx?_modCmd hx, Context.cmd?_modCmd (fun _ => rfl) hk, ⟨rfl, rfl, rfl, rfl, rfl, rfl, rfl, rfl, rfl⟩⟩

end

/-! ## Writes whose shadows are there -/

section
variable {s : State} {c : CtxId} {seq : Word} {k : Cmd}

/-- A page has its shadow, or one reserved for it at dispatch. -/
def Cmd.hasRoomFor (k : Cmd) (v : Nat) : Prop := k.shadows.has v = true ∨ k.reserved.has v = true

theorem Cmd.hasRoomFor_useReserved {v w g : Nat} (h : k.hasRoomFor w) :
    ({ k with shadows := k.shadows.put v g, reserved := k.reserved.del v } : Cmd).hasRoomFor w := by
  by_cases hw : w = v
  · subst hw
    simp [Cmd.hasRoomFor, Assoc.has, Assoc.get?_put_same]
  · simpa [Cmd.hasRoomFor, Assoc.has, Assoc.get?_put_other hw, Assoc.get?_del_other hw] using h

/-- The shadow of a page that has one, or one reserved, needs no free page, and leaves room for every other. -/
theorem State.makeShadow_of_hasRoom {ctr v : Nat} (hk : s.cmd? c seq = some k) (hv : k.hasRoomFor v) :
    ∃ t j, s.makeShadow c seq ctr v = some t ∧ t.cmd? c seq = some j ∧ ∀ w, k.hasRoomFor w → j.hasRoomFor w := by
  obtain ⟨x, hx, hxk⟩ := State.cmd?_eq_some_iff.1 hk
  simp only [State.makeShadow, hx, hxk, Option.bind_some]
  cases hs : k.shadows.get? v with
  | some f => exact ⟨s, k, rfl, hk, fun _ h => h⟩
  | none =>
    obtain ⟨g, hg⟩ : ∃ g, k.reserved.get? v = some g := by
      simpa [Cmd.hasRoomFor, Assoc.has, hs, Option.isSome_iff_exists] using hv
    simp only [hg]
    refine ⟨_, _, rfl, State.cmd?_modCmd (fun _ => rfl) (k := k) ?_, fun w h => Cmd.hasRoomFor_useReserved h⟩
    rw [State.cmd?_tallySeam]
    exact hk

theorem State.makeShadows_of_hasRoom {ctr : Nat} {vs : List Nat} (hk : s.cmd? c seq = some k) (hvs : ∀ v ∈ vs, k.hasRoomFor v) :
    ∃ t j, s.makeShadows c seq ctr vs = some t ∧ t.cmd? c seq = some j := by
  induction vs generalizing s k with
  | nil => exact ⟨s, k, rfl, hk⟩
  | cons v vs ih =>
    obtain ⟨t, j, hmake, hj, hroom⟩ := State.makeShadow_of_hasRoom (ctr := ctr) hk (hvs v List.mem_cons_self)
    simp only [State.makeShadows, hmake, Option.bind_some]
    exact ih hj fun w hw => hroom w (hvs w (List.mem_cons_of_mem v hw))

/-- R104: a write whose pages have their shadows, or take no writes, is done. -/
theorem State.cmdWrite_of_shadowed {x : Context} {ws : List (Nat × List Byte)} (hx : s.ctx? c = some x) (hk : x.cmd? seq = some k)
    (h : Shadowed s x k (rangesOf ws)) : ∃ t, s.cmdWrite c seq ws = some t := by
  have htouch : ∀ vs : List Nat, (s.modCmd c seq fun k => { k with touched := (k.touched ++ vs).eraseDups }).cmd? c seq =
      some { k with touched := (k.touched ++ vs).eraseDups } := fun vs =>
    State.cmd?_modCmd (fun _ => rfl) (State.cmd?_eq_some_iff.2 ⟨x, hx, hk⟩)
  obtain ⟨t, j, hmake, hj⟩ := State.makeShadows_of_hasRoom (ctr := s.freeCtr) (htouch (rangePages (rangesOf ws)))
    (vs := (rangePages (rangesOf ws)).filter fun v => !(!k.shadows.has v && pteDrops (x.writeView k s.freeCtr v))) (by
      intro v hv
      obtain ⟨hpage, hkept⟩ := List.mem_filter.1 hv
      show k.shadows.has v = true ∨ k.reserved.has v = true
      rcases h v hpage with hs | hr | hdrop
      · exact .inl hs
      · exact .inr hr
      · exact .inl (by simpa [hdrop] using hkept))
  simp only [rangesOf] at hmake
  simp only [State.cmdWrite, hx, hk, Option.bind_some, hmake, hj, Option.map_some, Option.some.injEq, exists_eq']

end

/-! ## An operation from its fetch to its count -/

/-- CHECK's and NOISE's own effect on the unit and the command (07_training.md R194, R210); no other operation has one. -/
def State.statsEffect (s : State) (c : CtxId) (k : Cmd) (o : FOp) (rd : Nat → Byte) : State :=
  if o.cls == 13 && o.smode == 2 then s.runCheck c k o rd
  else if o.cls == 13 && o.smode == 3 then s.runNoise c k o rd else s

section
variable {s s1 t : State} {c : CtxId} {k : Cmd} {o : FOp} {count : Nat} {errs : SeamErrs} {rd : Nat → Byte} {want : FOp → Bool}

theorem State.runOp_of_ready (h : OpReady s s1 c k o count errs) (hw : want o = true) :
    s.runOp want errs = s1.opRun c k o count errs := by
  obtain ⟨x, va, hholder, hrun, hfrozen, hsource, hgate, rfl, hgood, hwait⟩ := h
  have hpass : (!(fop (s.cmdBytes x k va 128)).wait || k.passedWait) = true := by simpa using hwait
  simp only [State.runOp, hholder, hrun, hfrozen, hsource, hgate, hw, hgood, State.waitPoint, hpass, Bool.not_true, Bool.or_false,
    Bool.and_false, Bool.false_eq_true, if_false, if_true]

/-- A row does nothing where the next operation is another row's. -/
theorem State.runOp_of_otherRow (h : OpReady s s1 c k o count errs) (hknown : o.known = true) (hw : want o = false) :
    s.runOp want errs = s := by
  obtain ⟨x, va, hholder, hrun, hfrozen, hsource, hgate, rfl, -⟩ := h
  simp only [State.runOp, hholder, hrun, hfrozen, hsource, hgate, hw, hknown, Bool.not_true, Bool.or_false, Bool.not_false,
    Bool.and_self, Bool.false_eq_true, if_false, if_true]

theorem State.opRun_of_writes (h : OpWrites s1 t c k o errs rd) :
    s1.opRun c k o count errs = (t.statsEffect c k o rd).opDone c k o count := by
  obtain ⟨x, s2, s3, s4, hx, rfl, hread, hwrite, hdone, rfl⟩ := h
  simp only [opWritten, rangesOf] at hwrite hdone
  simp only [State.opRun, hx, hread, State.opEffect, hwrite, hdone]
  rfl

end

section
variable {s s1 t : State} {c : CtxId} {k : Cmd} {o : FOp} {count : Nat} {errs : SeamErrs} {rd : Nat → Byte} {want : FOp → Bool}

/-- The row that names the operation runs it: outputs written, CHECK's or NOISE's effect, the operation counted. -/
theorem State.runOp_runs (hready : OpReady s s1 c k o count errs) (hwrites : OpWrites s1 t c k o errs rd) (hw : want o = true) :
    s.runOp want errs = (t.statsEffect c k o rd).opDone c k o count := by
  rw [State.runOp_of_ready hready hw, State.opRun_of_writes hwrites]

theorem State.runOp_ofClass {n : Nat} (hready : OpReady s s1 c k o count errs) (hwrites : OpWrites s1 t c k o errs rd)
    (hn : n ≠ 13) (hcls : o.cls = n) : s.runOp (ofClass n) errs = t.opDone c k o count := by
  rw [State.runOp_runs hready hwrites (by simp [ofClass, hcls])]
  simp [State.statsEffect, hcls, hn]

theorem State.runOp_ofStats {m : Nat} (hready : OpReady s s1 c k o count errs) (hwrites : OpWrites s1 t c k o errs rd)
    (hcls : o.cls = 13) (hmode : o.smode = m) :
    s.runOp (ofStats m) errs = (if m = 2 then t.runCheck c k o rd else if m = 3 then t.runNoise c k o rd else t).opDone c k o count := by
  rw [State.runOp_runs hready hwrites (by simp [ofStats, hcls, hmode])]
  simp [State.statsEffect, hcls, hmode]

end

/-- Command `k` stands in the state as `j`, and the pages that its operation reads and writes can be accessed: the operation writes. -/
theorem opWrites_of_accessible {s : State} {c : CtxId} {x : Context} {k j : Cmd} {o : FOp} {errs : SeamErrs} {plate : Bool}
    {ws : List (Nat × List Byte)} (hplate : k.prev?.any (·.plateLive) = plate)
    (hws : opWritten o k (s.opOut (s.cmdByte x k) k o plate) = ws) (hx : s.ctx? c = some x) (hj : x.cmd? k.seq = some j)
    (hreads : Accessible s x j errs (opReads o plate (s.cmdByte x k))) (hwrites : Accessible s x j errs (rangesOf ws))
    (hshadows : Shadowed s x j (rangesOf ws)) : ∃ t, OpWrites s t c k o errs (s.cmdByte x k) := by
  subst hplate hws
  obtain ⟨s2, x2, j2, hread, hx2, hj2, hsame⟩ := State.gate_of_accessible hx hj hreads
  obtain ⟨s3, x3, j3, hwrite, hx3, hj3, hsame'⟩ :=
    State.gate_of_accessible (errs := { errs with ce := [] }) hx2 hj2 (hsame.accessible hwrites)
  have hdone : ∀ n, ∃ s4, (s3.violations c n false).cmdWrite c k.seq
      (opWritten o k (s.opOut (s.cmdByte x k) k o (k.prev?.any (·.plateLive)))) = some s4 := by
    intro n
    refine State.cmdWrite_of_shadowed ?_ hj3 ?_
    · rwa [State.ctx?, State.violations_ctxs]
    · rw [Shadowed, State.violations_freeCtr]
      exact (hsame.trans hsame').shadowed hshadows
  obtain ⟨s4, hs4⟩ := hdone (unmappedBytes x k s.freeCtr (opReads o (k.prev?.any (·.plateLive)) (s.cmdByte x k)))
  rw [← hsame.opOut] at hwrite hs4
  exact ⟨_, x, s2, s3, s4, hx, rfl, hread, hwrite, hs4, rfl⟩

/-- An operation that executes starts, and writes its outputs. -/
theorem OpExecutes.ready_writes {s : State} {c : CtxId} {k : Cmd} {o : FOp} {count : Nat} {hits : List SeamHit}
    (h : OpExecutes s c k o count hits) :
    ∃ s1 t rd, OpReady s s1 c k o count (s.seamErrs hits) ∧ OpWrites s1 t c k o (s.seamErrs hits) rd := by
  obtain ⟨x, va, hholder, hrun, hfrozen, hsource, ho, hgood, hwait, hdesc, hreads, hwrites, hshadows⟩ := h
  obtain ⟨hx, hk⟩ := State.holder_is_cmd hholder
  obtain ⟨s1, x1, j, hgate, hx1, hj, hsame⟩ := State.gate_of_accessible (errs := { s.seamErrs hits with ce := [] }) hx hk hdesc
  rw [← hsame.cmdByte] at hreads
  rw [← hsame.cmdByte, ← hsame.opOut] at hwrites hshadows
  obtain ⟨t, ht⟩ := opWrites_of_accessible rfl rfl hx1 hj (hsame.accessible hreads) (hsame.accessible hwrites)
    (hsame.shadowed hshadows)
  exact ⟨s1, t, _, ⟨x, va, hholder, hrun, hfrozen, hsource, hgate, ho, hgood, hwait⟩, ht⟩

/-- Settles O18: every row is `State.runOp` for the operations it names, which runs one that is ready and whose writes are done;
an operation that executes is such a one. -/
theorem fieldOperationsRun : Obligations.FieldOperationsRun := by
  unfold Obligations.FieldOperationsRun
  refine ⟨fun s c k o count hits => ?_, fun s s1 c k o count hits hready hknown hcls => ?otherRow⟩
  case otherRow =>
    have hw : ofClass 1 o = false := by simp [ofClass, hcls]
    exact congrArg _ (State.runOp_of_otherRow hready hknown hw)
  intro ends
  have hends : ∀ s1 t rd, OpReady s s1 c k o count (s.seamErrs hits) → OpWrites s1 t c k o (s.seamErrs hits) rd → ends t rd := by
    intro s1 t rd hready hwrites
    have hrow : ∀ n, n ≠ 13 → o.cls = n →
        Host.Outcome.next (φ := Fault) (ρ := Refusal) (s.runOp (ofClass n) (s.seamErrs hits)) = .next (t.opDone c k o count) :=
      fun n hn hcls => congrArg _ (State.runOp_ofClass hready hwrites hn hcls)
    have hstats : ∀ m, o.cls = 13 → o.smode = m →
        Host.Outcome.next (φ := Fault) (ρ := Refusal) (s.runOp (ofStats m) (s.seamErrs hits)) =
          .next ((if m = 2 then t.runCheck c k o rd else if m = 3 then t.runNoise c k o rd else t).opDone c k o count) :=
      fun m hcls hmode => congrArg _ (State.runOp_ofStats hready hwrites hcls hmode)
    exact ⟨hrow 1 (by decide), hrow 2 (by decide), hrow 3 (by decide), hrow 4 (by decide), hrow 5 (by decide), hrow 6 (by decide),
      hrow 7 (by decide), hrow 8 (by decide), hrow 9 (by decide), hrow 10 (by decide), hrow 11 (by decide), hrow 12 (by decide),
      hstats 0, hstats 1, hstats 2, hstats 3⟩
  refine ⟨hends, fun hexec => ?_⟩
  obtain ⟨s1, t, rd, hready, hwrites⟩ := hexec.ready_writes
  exact ⟨s1, t, rd, hready, hwrites, hends s1 t rd hready hwrites⟩

end Sys2Proof.Machine

/-! What Field operations put out, row by row (02_field.md R28, R36, R44, R45). -/

namespace Sys2Proof.Machine

/-! ## Rows of the classes on cells -/

theorem epilogueRow_outputs (o : FOp) (c bias : Nat → FNum) (n : Nat) (v : Nat → FNum × Nat) :
    (epilogueRow o c bias ((List.range n).map v)).2.1 =
      (List.range n).map fun j => fmul (epilogueY o (v j).1 (c j) (bias j)) o.scaleOut := by
  simp only [epilogueRow, List.length_map, List.length_range, List.map_map]
  refine List.map_congr_left fun j hj => ?_
  simp [List.getElem?_range (List.mem_range.1 hj)]

/-- The rows of a class on cells are the epilogues of its accumulator rows, in order. -/
theorem cellRows_rows (o : FOp) (n : Nat) (val : Nat → List (FNum × Nat)) (c : Nat → Nat → FNum) (bias : Nat → FNum) :
    (cellRows o n val c bias).rows = (List.range n).map fun r => .vals (epilogueRow o (c r) bias (val r)).2.1 := by
  induction n with
  | zero => rfl
  | succ n ih =>
    simp only [cellRows] at ih
    simp only [cellRows, List.range_succ, List.foldl_append, List.foldl_cons, List.foldl_nil, List.map_append, ih, List.map_cons,
      List.map_nil]

/-- R28, R36: row `i`, column `j` of MATMUL is the epilogue of the dot-adds of A's row `i` and B's column `j`, times SCALE_OUT. -/
theorem matmulOut_rows (rd : Nat → Byte) (o : FOp) (hcls : o.cls = 1) : (matmulOut rd o).rows =
    (List.range o.m).map fun i => .vals ((List.range o.n).map fun j =>
      fmul (epilogueY o (cellValue o (fun k => elemAt rd o.fmtA (o.addrA + i * o.strideA) k)
        (fun k => elemDown rd o.fmtB o.addrB o.strideB k j)).1
        (elemAt rd o.fmtC (o.addrC + i * o.strideC) j) (elemAt rd o.fmtC o.addrBias j)) o.scaleOut) := by
  have hrows : o.outRows = o.m := by simp [FOp.outRows, hcls]
  simp only [matmulOut, cellRows_rows, hrows, epilogueRow_outputs, biasAt]
  refine List.map_congr_left fun i hi => ?_
  have hbatch : i / o.m = 0 := Nat.div_eq_of_lt (List.mem_range.1 hi)
  have hrow : i % o.m = i := Nat.mod_eq_of_lt (List.mem_range.1 hi)
  simp only [hbatch, hrow, Nat.zero_mul, Nat.add_zero]

/-! ## Rows of the Rim's classes -/

theorem rimRows_rows (o : FOp) (rows : List (List FNum)) :
    (rimRows o rows).rows = rows.map fun r => .vals (r.map (rimFn o.act)) := by
  simp [rimRows]

theorem elemOut_sum_rows (rd : Nat → Byte) (o : FOp) (a : Nat → Nat → FNum) (hsum : o.binop = 1) : (elemOut rd o a).rows =
    (List.range o.m).map fun i => .vals ((List.range o.n).map fun j =>
      rimFn o.act (fadd (rn32 (a i j)) (rn32 (elemAt rd o.fmtB (o.addrB + i * o.strideB) j)))) := by
  simp [elemOut, rimRows_rows, hsum, binop, Function.comp_def]

theorem reduceOut_rows (rd : Nat → Byte) (o : FOp) : (reduceOut rd o).rows =
    (List.range o.m).map fun i => .vals
      [rimFn o.act ((reduceRow (ropOf o.binop) (rowF rd o.fmtA (o.addrA + i * o.strideA) o.n)).getD
        (ofBits (Config.emptyReduce o.binop).toNat))] := by
  simp [reduceOut, rimRows_rows, Function.comp_def]

/-! ## Rows taken over -/

theorem repackOut_row (rd : Nat → Byte) (o : FOp) {i : Nat} (hi : i < o.m) :
    (repackOut rd o).rows[i]? = some (takeRow rd o (o.addrA + i * o.strideA)) := by
  simp [repackOut, List.getElem?_range hi]

theorem gatherOut_row (rd : Nat → Byte) (o : FOp) {i : Nat} (hi : i < o.k) : (gatherOut rd o).rows[i]? =
    some (if rowIndex rd o i < o.m then takeRow rd o (o.addrA + rowIndex rd o i * o.strideA) else .vals (List.replicate o.n .zero)) := by
  simp [gatherOut, List.getElem?_range hi]

/-- Settles O20: the rows of each class as its own lemma gives them. -/
theorem fieldOutputsByClass : Obligations.FieldOutputsByClass := by
  unfold Obligations.FieldOutputsByClass
  refine ⟨matmulOut_rows, elemOut_sum_rows, reduceOut_rows, fun rd o i hi => repackOut_row rd o hi, fun rd o i hi => ?gather⟩
  case gather =>
    rw [gatherOut_row rd o hi]
    exact ⟨fun hin => by rw [if_pos hin], fun hout => by rw [if_neg (Nat.not_lt.2 hout)]⟩

end Sys2Proof.Machine

/-! Quad fences and self-tests: what each command of FLD_FENCE and FLD_QTEST leaves (02_field.md R53 to R58). -/

namespace Sys2Proof.Machine

/-! ## The commands -/

section
variable {s : State} {q : QuadId}

theorem exec_quadFenceRequest : exec (.quadFenceRequest q) s = .next (s.fenceRequest q) := rfl
theorem exec_quadUnfenceRequest : exec (.quadUnfenceRequest q) s = .next (s.unfenceRequest q) := rfl
theorem exec_quadFenceEffect : exec (.quadFenceEffect q) s = .next (s.fenceEffect q) := rfl
theorem exec_quadUnfenceEffect : exec (.quadUnfenceEffect q) s = .next (s.unfenceEffect q) := rfl
theorem exec_quadTestStart {quad : BitVec 3} : exec (.quadTestStart quad) s = .next (s.testStart quad) := rfl
theorem exec_quadTestDone {r : QuadTest} : exec (.quadTestDone q r) s = .next (s.testDone q r) := rfl

/-! ## Requests (Table 2.12) -/

theorem State.fenceRequest_of_unfenced (h : s.fld.fenced.getLsbD q.val = false) :
    s.fenceRequest q = { s with fld := { s.fld with pend := setBit s.fld.pend q.val true } } := by
  simp only [State.fenceRequest, h, Bool.false_eq_true, if_false]

theorem State.fenceRequest_of_fenced (h : s.fld.fenced.getLsbD q.val = true) : s.fenceRequest q = s := by
  simp only [State.fenceRequest, h, if_true]

theorem State.unfenceRequest_of_fenced (h : s.fld.fenced.getLsbD q.val = true) :
    s.unfenceRequest q = { s with fld := { s.fld with pend := setBit s.fld.pend q.val true } } := by
  simp only [State.unfenceRequest, h, if_true]

theorem State.unfenceRequest_of_unfenced (h : s.fld.fenced.getLsbD q.val = false) : s.unfenceRequest q = s := by
  simp only [State.unfenceRequest, h, Bool.false_eq_true, if_false]

/-! ## A fence takes effect (R53, R54), and an unfence (R57) -/

theorem State.fenceEffect_of_pages (h : s.quadHasPages q.val = true) : s.fenceEffect q = s := by
  simp [State.fenceEffect, h]

section
variable (hpend : s.fld.pend.getLsbD q.val = true) (hopen : s.fld.fenced.getLsbD q.val = false)
  (hpages : s.quadHasPages q.val = false)
include hpend hopen hpages

theorem State.fenceEffect_of_unused (h : s.holderIn q.val = none) : s.fenceEffect q =
    ({ s with fld := { s.fld with
      fenced := setBit s.fld.fenced q.val true, pend := setBit s.fld.pend q.val false } }).killWideParked.raise 0x23 q.val
        (leBytes 4 4) := by
  simp only [State.fenceEffect, hpend, hopen, hpages, h, Bool.not_true, Bool.or_false, Bool.false_eq_true, if_false]
  rfl

theorem State.fenceEffect_of_holder {c : CtxId} {k : Cmd} (h : s.holderIn q.val = some (c, k)) :
    s.fenceEffect q = s.requestKill c k.seq .fence := by
  simp only [State.fenceEffect, hpend, hopen, hpages, h, Bool.not_true, Bool.or_false, Bool.false_eq_true, if_false]

end

theorem State.unfenceEffect_of_pending (hpend : s.fld.pend.getLsbD q.val = true) (hfenced : s.fld.fenced.getLsbD q.val = true)
    (htest : s.fld.testing.getLsbD q.val = false) : s.unfenceEffect q =
    ({ s with
      mem := s.mem.clear (4 * q.val * dieStride * pageSize) (4 * dieStride * pageSize)
      ctxs := s.ctxs.map fun (o : Option Context) => o.map fun (x : Context) => { x with stale := [] }
      fld := { s.fld with fenced := setBit s.fld.fenced q.val false, pend := setBit s.fld.pend q.val false }
      rst := { s.rst with epoch := s.rst.epoch + 1 } }).raise 0x23 q.val (leBytes 4 0) := by
  simp only [State.unfenceEffect, hpend, hfenced, htest, Bool.not_false, Bool.and_self, if_true]
  rfl

/-! ## Self-tests (R55, R58) -/

theorem State.testStart_of_noQuad {quad : BitVec 3} (h : 6 ≤ quad.toNat) : s.testStart quad = s := by
  simp [State.testStart, Nat.not_lt.2 h]

/-- QUAD of FLD_QTEST names every quad. -/
theorem toNat_ofNat_quad (q : QuadId) : (BitVec.ofNat 3 q.val).toNat = q.val := by
  rw [BitVec.toNat_ofNat, Nat.mod_eq_of_lt (Nat.lt_trans q.isLt (by decide))]

theorem State.testStart_of_testing (h : s.fld.testing.getLsbD q.val = true) : s.testStart (BitVec.ofNat 3 q.val) =
    { s with fld := { s.fld with testQuad := BitVec.ofNat 3 q.val, results := vset s.fld.results q 6 } } := by
  simp only [State.testStart, toNat_ofNat_quad, q.isLt, dite_true, Fin.eta, h, if_true]

theorem State.testStart_of_unfenced (h : s.fld.testing.getLsbD q.val = false) (hopen : s.fld.fenced.getLsbD q.val = false) :
    s.testStart (BitVec.ofNat 3 q.val) =
      { s with fld := { s.fld with testQuad := BitVec.ofNat 3 q.val, results := vset s.fld.results q 5 } } := by
  simp only [State.testStart, toNat_ofNat_quad, q.isLt, dite_true, Fin.eta, h, hopen, Bool.not_false, Bool.false_eq_true, if_false, if_true]

theorem State.testStart_of_fenced (h : s.fld.testing.getLsbD q.val = false) (hfenced : s.fld.fenced.getLsbD q.val = true) :
    s.testStart (BitVec.ofNat 3 q.val) = { s with
      mem := s.mem.writeBytes (q.val * (4 * dieStride * pageSize))
        ((List.range (4 * dieStride * pageSize)).map (Config.testByte s.freeCtr))
      fld := { (({ s.fld with testQuad := BitVec.ofNat 3 q.val, results := vset s.fld.results q 1 } : Fld).forgetQuad q.val) with
        testing := setBit s.fld.testing q.val true }
      freeCtr := s.freeCtr + 1 } := by
  simp only [State.testStart, State.scramble, toNat_ofNat_quad, q.isLt, dite_true, Fin.eta, h, hfenced, Bool.not_true,
    Bool.false_eq_true, if_false]

theorem State.testDone_of_testing {r : QuadTest} (h : s.fld.testing.getLsbD q.val = true) : s.testDone q r =
    ({ s with fld := { s.fld with
      testing := setBit s.fld.testing q.val false, results := vset s.fld.results q (quadCode r) } }).raise 0x03 q.val
        (leBytes 4 (quadCode r).toNat) := by
  simp only [State.testDone, h, if_true]

end

/-- Settles O22: each clause is one outcome of a request, an effect or a self-test. -/
theorem quadFencesAndSelfTests : Obligations.QuadFencesAndSelfTests := by
  unfold Obligations.QuadFencesAndSelfTests
  simp only [exec_quadFenceRequest, exec_quadUnfenceRequest, exec_quadFenceEffect, exec_quadUnfenceEffect, exec_quadTestStart,
    exec_quadTestDone]
  refine ⟨fun s q hopen => ?unfenced, fun s q hfenced => ?fenced, fun s q hpend hopen hpages => ?fenceEffect, fun s q hpages => ?waits,
    fun s q hpend hfenced htest => ?unfenceEffect, fun s q => ?testStart, fun s quad hquad => ?noQuad, fun s q r htest => ?testDone⟩
  case unfenced =>
    exact ⟨congrArg _ (State.fenceRequest_of_unfenced hopen), congrArg _ (State.unfenceRequest_of_unfenced hopen)⟩
  case fenced =>
    exact ⟨congrArg _ (State.unfenceRequest_of_fenced hfenced), congrArg _ (State.fenceRequest_of_fenced hfenced)⟩
  case fenceEffect =>
    exact ⟨fun hnone => congrArg _ (State.fenceEffect_of_unused hpend hopen hpages hnone),
      fun c k hholder => congrArg _ (State.fenceEffect_of_holder hpend hopen hpages hholder)⟩
  case waits => exact congrArg _ (State.fenceEffect_of_pages hpages)
  case unfenceEffect => exact congrArg _ (State.unfenceEffect_of_pending hpend hfenced htest)
  case testStart =>
    exact ⟨fun htest => congrArg _ (State.testStart_of_testing htest),
      fun htest hopen => congrArg _ (State.testStart_of_unfenced htest hopen),
      fun htest hfenced => congrArg _ (State.testStart_of_fenced htest hfenced)⟩
  case noQuad => exact congrArg _ (State.testStart_of_noQuad hquad)
  case testDone => exact congrArg _ (State.testDone_of_testing htest)

end Sys2Proof.Machine

/-! MAINT, FREEZE and the capture of the Field (02_field.md R56, R59 to R61). -/

namespace Sys2Proof.Machine

section
variable {s : State}

/-! ## MAINT and FREEZE (R59) -/

theorem exec_maint {on : Bool} : exec (.maint on) s = .next (s.writeMaint on) := rfl
theorem exec_freeze : exec .freeze s = .next s.freeze := rfl

theorem State.writeMaint_of_idle (h : ∀ e ∈ s.contexts, e.2.stop = true ∧ e.2.cmds = []) :
    s.writeMaint true = { s with fld := { s.fld with maint := true } } := by
  have hall : (s.contexts.all fun e => e.2.stop && e.2.cmds.isEmpty) = true := by
    simpa only [List.all_eq_true, Bool.and_eq_true, List.isEmpty_iff] using h
  simp only [State.writeMaint, hall, if_true]

theorem State.writeMaint_of_busy {e : CtxId × Context} (he : e ∈ s.contexts) (h : e.2.stop = false ∨ e.2.cmds ≠ []) :
    s.writeMaint true = s := by
  have hall : (s.contexts.all fun e => e.2.stop && e.2.cmds.isEmpty) = false := by
    refine List.all_eq_false.2 ⟨e, he, ?_⟩
    rcases h with h | h <;> simp [h]
  simp only [State.writeMaint, hall, Bool.false_eq_true, if_false, if_true]

theorem State.writeMaint_off : s.writeMaint false = ({ s with fld := { s.fld with maint := false } }).settle := rfl

theorem State.freeze_of_noHolder (h : s.fld.frozen = false) (hnone : s.holder? = none) :
    s.freeze = { s with fld := { s.fld with frozen := true, frozenOp := none } } := by
  simp only [State.freeze, State.freezeField, h, hnone, Option.map_none, Bool.false_eq_true, if_false]

theorem State.freeze_of_holder {c : CtxId} {x : Context} {k : Cmd} (h : s.fld.frozen = false) (hholder : s.holder? = some (c, x, k)) :
    s.freeze = ({ s with fld := { s.fld with frozen := true, frozenOp := some (BitVec.ofNat 32 k.opNumber) } }).requestKill c
      k.seq .freeze := by
  simp only [State.freeze, State.freezeField, h, hholder, Option.map_some, Bool.false_eq_true, if_false]

/-! ## Window slots (R330) -/

section
variable {c : CtxId} {n : Nat} {flag : List Byte} {x : Context} {w : WinSlot} (hx : s.ctx? c = some x) (hw : x.slot? n = some w)
include hx hw

theorem State.acquire_of_held (h : w.held.isSome = true) : s.acquire c n flag = some s := by
  simp only [State.acquire, hx, hw, Option.bind_some, h, if_true]

theorem State.acquire_of_handedOver (h : w.held = none) (howner : flagOwner flag = true) : s.acquire c n flag =
    some ((s.modSlot c n fun w => { w with held := some (flagSeq flag), flagLen := flagLenOf flag, flagCrc := flagCrcOf flag }).tallyHost
      c 16) := by
  simp only [State.acquire, hx, hw, Option.bind_some, h, howner, Option.isSome_none, Bool.false_eq_true, if_false, if_true]

theorem State.acquire_of_hostOwned (h : w.held = none) (howner : flagOwner flag = false) : s.acquire c n flag = none := by
  simp only [State.acquire, hx, hw, Option.bind_some, h, howner, Option.isSome_none, Bool.false_eq_true, if_false]

end

/-- What is counted for a context and the Field's registers are apart. -/
theorem State.tallyHost_updFld {c : CtxId} {n : Nat} {f : Fld} :
    ({ s with fld := f } : State).tallyHost c n = { s.tallyHost c n with fld := f } := by
  unfold State.tallyHost
  split
  case isTrue => rfl
  case isFalse => rfl

/-! ## FLD_CAPT.START: what is asked for (R59) -/

/-- The state in which a capture with CTX and SLOT has been asked for. -/
def State.captureAsked (s : State) (ctx : Byte) (slot : BitVec 16) : State :=
  { s with fld := { s.fld with capCtx := ctx, capSlot := slot, capAsk := true } }

variable {ctx : Byte} {slot : BitVec 16} {flag : List Byte}

theorem State.modSlot_captureAsked {c : CtxId} {n : Nat} {f : WinSlot → WinSlot} :
    (s.captureAsked ctx slot).modSlot c n f = { s.modSlot c n f with fld := (s.captureAsked ctx slot).fld } := rfl

theorem exec_fieldCapture : exec (.fieldCapture ctx slot flag) s = .next (s.captureStart ctx slot flag) := rfl

theorem State.captureAsk_of_running (h : s.fld.capState = 1) : s.captureAsk ctx slot = s := if_pos h

theorem State.captureAsk_of_refused (hidle : s.fld.capState ≠ 1) (h : (s.captureAsked ctx slot).captureRefused = true) :
    s.captureAsk ctx slot = { s with fld := { s.fld with capCtx := ctx, capSlot := slot, capAsk := false, capState := 3 } } :=
  (if_neg hidle).trans (if_pos h)

theorem State.captureAsk_of_accepted (hidle : s.fld.capState ≠ 1) (h : (s.captureAsked ctx slot).captureRefused = false) :
    s.captureAsk ctx slot = s.captureAsked ctx slot :=
  (if_neg hidle).trans (if_neg (Bool.eq_false_iff.1 h))

/-- R56, R59: a capture into a defined slot is refused while a quad is in self-test, outside MAINT and FROZEN, for a slot below 1 GiB
and for one of port 1. -/
theorem State.captureRefused_iff {x : Context} {w : WinSlot} (hx : s.ctx? (ctxOf s.fld.capCtx.toNat) = some x)
    (hw : x.slot? s.fld.capSlot.toNat = some w) : s.captureRefused = true ↔
      w.log2 < 30 ∨ w.p2p = true ∨ s.fld.testing ≠ 0 ∨ (s.fld.maint = false ∧ s.fld.frozen = false) := by
  simp only [State.captureRefused, hx, hw, Option.bind_some, Bool.or_eq_true, bne_iff_ne, Bool.not_eq_true', Bool.or_eq_false_iff,
    decide_eq_true_eq]
  tauto

/-! ## The slot's flag word is read (R59) -/

theorem State.captureBegin_of_notAsked (h : s.fld.capAsk = false) : s.captureBegin flag = s := by
  simp only [State.captureBegin, h, Bool.not_false, Bool.true_or, if_true]

theorem State.captureBegin_of_mayNot (h : s.mayRequest 0 = false) : s.captureBegin flag = s := by
  simp only [State.captureBegin, h, Bool.not_false, Bool.or_true, if_true]

section
variable (hask : s.fld.capAsk = true) (hmay : s.mayRequest 0 = true) (haccept : s.captureRefused = false)
include hask hmay haccept

theorem State.captureBegin_of_acquired {t : State} (h : s.acquire (ctxOf s.fld.capCtx.toNat) s.fld.capSlot.toNat flag = some t) :
    s.captureBegin flag = { t.modSlot (ctxOf s.fld.capCtx.toNat) s.fld.capSlot.toNat fun w => { w with busy := true } with
      fld := { t.fld with capAsk := false, capState := 1, capRun := some (s.fld.capCtx, s.fld.capSlot) } } := by
  simp only [State.captureBegin, hask, hmay, haccept, h, Bool.not_true, Bool.or_self, Bool.false_eq_true, if_false]
  rfl

theorem State.captureBegin_of_notAcquired (h : s.acquire (ctxOf s.fld.capCtx.toNat) s.fld.capSlot.toNat flag = none) :
    s.captureBegin flag = { s with fld := { s.fld with capState := 3, capAsk := false } } := by
  simp only [State.captureBegin, hask, hmay, haccept, h, Bool.not_true, Bool.or_self, Bool.false_eq_true, if_false]

end

/-! ## FIELD_CAPTURE as a whole -/

/-- A capture asked for goes on with the slot's flag word, whatever the operands. -/
theorem State.captureStart_of_asked (h : s.fld.capAsk = true) : s.captureStart ctx slot flag = s.captureBegin flag :=
  congrArg (State.captureBegin · flag) (if_pos h)

theorem State.captureStart_of_notAsked (h : s.fld.capAsk = false) :
    s.captureStart ctx slot flag = (s.captureAsk ctx slot).captureBegin flag :=
  congrArg (State.captureBegin · flag) (if_neg (Bool.eq_false_iff.1 h))

theorem State.captureStart_of_running (hask : s.fld.capAsk = false) (hrun : s.fld.capState = 1) : s.captureStart ctx slot flag = s := by
  rw [State.captureStart_of_notAsked hask, State.captureAsk_of_running hrun, State.captureBegin_of_notAsked hask]

section
variable {x : Context} {w : WinSlot} (hx : s.ctx? (ctxOf ctx.toNat) = some x) (hw : x.slot? slot.toNat = some w)
include hx hw

theorem State.captureStart_of_refused (hask : s.fld.capAsk = false) (hidle : s.fld.capState ≠ 1)
    (h : w.log2 < 30 ∨ w.p2p = true ∨ s.fld.testing ≠ 0 ∨ (s.fld.maint = false ∧ s.fld.frozen = false)) :
    s.captureStart ctx slot flag =
      { s with fld := { s.fld with capCtx := ctx, capSlot := slot, capAsk := false, capState := 3 } } := by
  have hrefused := (State.captureRefused_iff (s := s.captureAsked ctx slot) hx hw).2 h
  rw [State.captureStart_of_notAsked hask, State.captureAsk_of_refused hidle hrefused]
  exact State.captureBegin_of_notAsked rfl

theorem State.captureRefused_captureAsked (hlog : 30 ≤ w.log2) (hport : w.p2p = false) (htest : s.fld.testing = 0)
    (hstill : s.fld.maint = true ∨ s.fld.frozen = true) : (s.captureAsked ctx slot).captureRefused = false := by
  rw [Bool.eq_false_iff, ne_eq, State.captureRefused_iff (s := s.captureAsked ctx slot) hx hw]
  rintro (h | h | h | ⟨hmaint, hfrozen⟩)
  · exact absurd h (Nat.not_lt.2 hlog)
  · exact absurd (hport.symm.trans h) (by decide)
  · exact h htest
  · rcases hstill with h | h
    · exact absurd (hmaint.symm.trans h) (by decide)
    · exact absurd (hfrozen.symm.trans h) (by decide)

end

theorem State.captureStart_of_accepted (hask : s.fld.capAsk = false) (hidle : s.fld.capState ≠ 1)
    (haccept : (s.captureAsked ctx slot).captureRefused = false) :
    s.captureStart ctx slot flag = (s.captureAsked ctx slot).captureBegin flag := by
  rw [State.captureStart_of_notAsked hask, State.captureAsk_of_accepted hidle haccept]

/-! ## CAPTURE_DONE (R60, R61) -/

theorem exec_captureDone : exec .captureDone s = .next s.captureDone := rfl

theorem State.captureDone_of_mayNot (h : s.mayRequest 0 = false) : s.captureDone = s := by
  unfold State.captureDone
  split
  case h_1 => rfl
  case h_2 => simp only [h, Bool.not_false, if_true]

theorem State.captureDone_of_slot {c : CtxId} {n : Nat} {w : WinSlot} (hmay : s.mayRequest 0 = true)
    (h : s.captureSlot = some (c, n, w)) : s.captureDone = { (s.writeImage w.addr.toNat).handback c n captureLen 0 with
      fld := { ((s.writeImage w.addr.toNat).handback c n captureLen 0).fld with capState := 2, capRun := none } } := by
  simp only [State.captureDone, h, hmay, Bool.not_true, Bool.false_eq_true, if_false]

end

/-- Settles O23: each clause is one outcome of a write of MAINT, of FREEZE, of FIELD_CAPTURE or of CAPTURE_DONE. -/
theorem fieldMaintenanceAndCapture : Obligations.FieldMaintenanceAndCapture := by
  unfold Obligations.FieldMaintenanceAndCapture
  simp only [exec_maint, exec_freeze, exec_fieldCapture, exec_captureDone]
  refine ⟨fun s h => ?maintOn, fun s e he h => ?maintBusy, fun s => ?maintOff, fun s hrun => ?freeze,
    fun s ctx slot flag hask hrun => ?running, fun s ctx slot flag x w hask hidle hx hw =>
      ⟨fun hlog hport htest hstill => ?accepted, fun h => ?refused⟩,
    fun s ctx slot flag hask => ?asked, fun s hmay => ?doneWaits, fun s c n w hmay hslot => ?done⟩
  case maintOn => exact congrArg _ (State.writeMaint_of_idle h)
  case maintBusy => exact congrArg _ (State.writeMaint_of_busy he h)
  case maintOff => exact congrArg _ State.writeMaint_off
  case freeze =>
    exact ⟨fun hnone => congrArg _ (State.freeze_of_noHolder hrun hnone),
      fun c x k hholder => congrArg _ (State.freeze_of_holder hrun hholder)⟩
  case running => exact congrArg _ (State.captureStart_of_running hask hrun)
  case accepted =>
    have haccept := State.captureRefused_captureAsked hx hw hlog hport htest hstill
    have hbegin := State.captureBegin_of_acquired (s := s.captureAsked ctx slot) (flag := flag) rfl
    rw [State.captureStart_of_accepted hask hidle haccept]
    refine ⟨fun hmay => ?waits, fun hmay hheld => ?held, fun hmay hnone howner => ?handedOver, fun hmay hnone howner => ?hostOwned⟩
    case waits => exact congrArg _ (State.captureBegin_of_mayNot hmay)
    case held =>
      rw [hbegin hmay haccept (State.acquire_of_held hx hw hheld)]
      rfl
    case handedOver =>
      rw [hbegin hmay haccept (State.acquire_of_handedOver hx hw hnone howner), State.modSlot_captureAsked, State.tallyHost_updFld]
      rfl
    case hostOwned =>
      rw [State.captureBegin_of_notAcquired (s := s.captureAsked ctx slot) rfl hmay haccept
        (State.acquire_of_hostOwned hx hw hnone howner)]
      rfl
  case refused => exact congrArg _ (State.captureStart_of_refused hx hw hask hidle h)
  case asked =>
    refine ⟨fun hmay => ?_, fun ctx' slot' => ?_⟩
    · rw [State.captureStart_of_asked hask, State.captureBegin_of_mayNot hmay]
    · rw [State.captureStart_of_asked hask, State.captureStart_of_asked hask]
  case doneWaits => exact congrArg _ (State.captureDone_of_mayNot hmay)
  case done => exact congrArg _ (State.captureDone_of_slot hmay hslot)

end Sys2Proof.Machine

/-! What every command keeps: the memories' canonical form, a retired module's hold, the mailbox's sanity and the queue.
Each arm of `exec` is one operation of Laws/Kept.lean, or a few in a row. -/

namespace Sys2Proof.Machine

section
variable {s : State} {c : CtxId}

theorem exec_handleRelease_kept {h : Nat} : ∃ t, exec (.handleRelease c h) s = .next t ∧ Kept s t := by
  refine ⟨_, rfl, ?_⟩
  split
  · exact (State.releaseHandle_kept s c h).ite (Kept.refl s)
  · exact Kept.refl s

theorem exec_place_kept {hits : List SeamHit} : ∃ t, exec (.place c hits) s = .next t ∧ Kept s t := by
  refine ⟨_, rfl, ?_⟩
  split
  · exact Kept.refl s
  · exact (State.hoistErrs_kept ..).trans (State.hoistRun_kept _ _ _ _ fun x _ r => State.placeReq_kept _ _ x r)

theorem exec_port1HotReset_kept {w : P1Event} : ∃ t, exec (.port1HotReset w) s = .next t ∧ Kept s t := by
  refine ⟨_, rfl, ?_⟩
  split
  · exact (State.port1Down_kept s).trans (State.fencePort1_kept ..)
  · exact (State.port1Down_kept s).trans (State.fencePort1_kept ..)
  · exact State.fencePort1_kept ..

theorem exec_strayCompletion_kept {f : PortFn} : ∃ t, exec (.strayCompletion f) s = .next t ∧ Kept s t := by
  refine ⟨_, rfl, ?_⟩
  split
  · exact (Kept.refl s).upd rfl rfl rfl rfl rfl
  · exact (Kept.refl s).upd rfl rfl rfl rfl rfl

end

/-- Every command answers a next state, and what `Kept` names is kept up to it. -/
theorem exec_kept (i : Instr) (s : State) : ∃ t, exec i s = .next t ∧ Kept s t := by
  cases i with
  | registerWrite => exact ⟨_, rfl, State.registerWrite_kept ..⟩
  | busErrorAccess => exact ⟨_, rfl, State.busErrorAccess_kept ..⟩
  | postedWriteEffect => exact ⟨_, rfl, State.postedEffect_kept ..⟩
  | hubProfileWrite => exact ⟨_, rfl, State.profileWrite_kept ..⟩
  | clockChangeEffect => exact ⟨_, rfl, State.clockEffect_kept ..⟩
  | matmul | bmatmul | conv | dwconv | attend | elem | reduce | norm | repack | gather | scatter | optstep | sumsq |
    sumsq2 | check | noise =>
    exact ⟨_, rfl, State.runOp_kept ..⟩
  | pageInDone => exact ⟨_, rfl, State.pageInDone_kept ..⟩
  | quadFenceRequest => exact ⟨_, rfl, State.fenceRequest_kept ..⟩
  | quadFenceEffect => exact ⟨_, rfl, State.fenceEffect_kept ..⟩
  | quadUnfenceRequest => exact ⟨_, rfl, State.unfenceRequest_kept ..⟩
  | quadUnfenceEffect => exact ⟨_, rfl, State.unfenceEffect_kept ..⟩
  | quadTestStart => exact ⟨_, rfl, State.testStart_kept ..⟩
  | quadTestDone => exact ⟨_, rfl, State.testDone_kept ..⟩
  | maint => exact ⟨_, rfl, State.writeMaint_kept ..⟩
  | freeze => exact ⟨_, rfl, State.freeze_kept ..⟩
  | fieldCapture => exact ⟨_, rfl, State.captureStart_kept ..⟩
  | captureDone => exact ⟨_, rfl, State.captureDone_kept ..⟩
  | seamRefresh | tenureExpiry | rckLoss | perstNDeassert | presenceWindowExpiry => exact ⟨_, rfl, (Kept.refl s).upd rfl rfl rfl rfl rfl⟩
  | seamScrub => exact ⟨_, rfl, (Kept.foldl _ _ (Kept.refl s) State.seamUe_kept).trans (State.seamCe_kept ..)⟩
  | seamArbGrant => exact ⟨_, rfl, State.arbGrant_kept ..⟩
  | alloc => exact ⟨_, rfl, State.hoistRun_kept s _ _ _ fun x k r => State.allocReq_kept s _ x k r⟩
  | freeHandle => exact ⟨_, rfl, State.hoistRun_kept s _ _ _ fun x _ r => State.freeReq_kept s _ x r⟩
  | handleRelease => exact exec_handleRelease_kept
  | place => exact exec_place_kept
  | load => exact ⟨_, rfl, (State.loadAcquire_kept ..).trans (State.hoistRun_kept _ _ _ _ fun x _ r => State.loadReq_kept _ _ x r _ _ _)⟩
  | farslotAdd =>
    exact ⟨_, rfl, (State.loadAcquire_kept ..).trans (State.hoistRun_kept _ _ _ _ fun x _ r => State.farslotAdd_kept _ _ x r _)⟩
  | farslotRelease => exact ⟨_, rfl, State.hoistRun_kept s _ _ _ fun x _ r => State.farslotRelease_kept s _ x r⟩
  | setflags => exact ⟨_, rfl, State.hoistRun_kept s _ _ _ fun x _ r => State.setFlags_kept s _ x r⟩
  | directTableWrite => exact ⟨_, rfl, State.directWrite_kept ..⟩
  | tableRead => exact ⟨_, rfl, State.tableRead_kept ..⟩
  | invalidate => exact ⟨_, rfl, State.invalidate_kept ..⟩
  | invalidateDone => exact ⟨_, rfl, State.invalidateDone_kept ..⟩
  | evacuate => exact ⟨_, rfl, State.evacuate_kept ..⟩
  | evacuationDone => exact ⟨_, rfl, State.evacuationDone_kept ..⟩
  | ctxCreate => exact ⟨_, rfl, State.ctxCreate_kept ..⟩
  | ctxDestroy => exact ⟨_, rfl, State.ctxDestroy_kept ..⟩
  | sqDb => exact ⟨_, rfl, State.sqDb_kept ..⟩
  | commandFetch => exact ⟨_, rfl, State.fetch_kept ..⟩
  | commandDispatch => exact ⟨_, rfl, State.dispatch_kept ..⟩
  | marker => exact ⟨_, rfl, State.marker_kept ..⟩
  | cqHeadWrite => exact ⟨_, rfl, State.cqHeadWrite_kept ..⟩
  | stopFetch => exact ⟨_, rfl, State.writeStop_kept ..⟩
  | killOne => exact ⟨_, rfl, State.killOne_kept ..⟩
  | killAll => exact ⟨_, rfl, State.killAll_kept ..⟩
  | killComplete => exact ⟨_, rfl, State.killComplete_kept ..⟩
  | commandEnd => exact ⟨_, rfl, State.commandEnd_kept ..⟩
  | waitLimitExpiry => exact ⟨_, rfl, State.waitExpiry_kept ..⟩
  | runLimitExpiry => exact ⟨_, rfl, State.holderTimeout_kept ..⟩
  | stepFetch => exact ⟨_, rfl, (State.fetch_kept ..).ite (Kept.refl s)⟩
  | stepReady => exact ⟨_, rfl, (State.stepBecomesReady_kept ..).trans (State.settle_kept _)⟩
  | workListBuild => exact ⟨_, rfl, (State.workListBuild_kept ..).trans (State.settle_kept _)⟩
  | deadlineKill => exact ⟨_, rfl, State.deadlineKill_kept ..⟩
  | stepInvocation => exact ⟨_, rfl, State.stepInvocation_kept ..⟩
  | stepMaxExpiry => exact ⟨_, rfl, State.stepMaxExpiry_kept ..⟩
  | admitStream => exact ⟨_, rfl, State.admitStream_kept ..⟩
  | releaseStream => exact ⟨_, rfl, State.releaseStream_kept ..⟩
  | modelSet => exact ⟨_, rfl, State.modelSet_kept ..⟩
  | budgetWindowReset => exact ⟨_, rfl, (State.budgetReset_kept s).trans (State.settle_kept _)⟩
  | tallyInterval => exact ⟨_, rfl, State.tallyInterval_kept ..⟩
  | tallyPeriod => exact ⟨_, rfl, State.tallyPeriodic_kept ..⟩
  | vtimeRead => exact ⟨_, rfl, State.vtimeRead_kept ..⟩
  | tallyRead => exact ⟨_, rfl, State.tallyRead_kept ..⟩
  | stbRead => exact ⟨_, rfl, State.stbRead_kept ..⟩
  | openStep => exact ⟨_, rfl, State.openUnit_kept ..⟩
  | openComplete => exact ⟨_, rfl, State.openComplete_kept ..⟩
  | optTrack => exact ⟨_, rfl, State.optTrack_kept ..⟩
  | optUntrack => exact ⟨_, rfl, State.optUntrack_kept ..⟩
  | optHistRead => exact ⟨_, rfl, State.histRead_kept ..⟩
  | optHistWrite => exact ⟨_, rfl, State.histWrite_kept ..⟩
  | optNoiseRead => exact ⟨_, rfl, State.noiseRead_kept ..⟩
  | optNoiseWrite => exact ⟨_, rfl, State.noiseWrite_kept ..⟩
  | timeCodeFrame => exact ⟨_, rfl, State.timeCode_kept ..⟩
  | rckLossClear => exact ⟨_, rfl, ((Kept.refl s).upd rfl rfl rfl rfl rfl).trans (State.tkpSettle_kept _)⟩
  | frameBoundary => exact ⟨_, rfl, State.frameBoundary_kept ..⟩
  | timeExchange => exact ⟨_, rfl, State.timeExchange_kept ..⟩
  | holdoverExpiry => exact ⟨_, rfl, ((Kept.refl s).upd rfl rfl rfl rfl rfl).ite (Kept.refl s)⟩
  | counterParityError => exact ⟨_, rfl, State.counterParity_kept ..⟩
  | slotCmpFault => exact ⟨_, rfl, State.cmpFault_kept ..⟩
  | cmpClear => exact ⟨_, rfl, State.cmpClear_kept ..⟩
  | htRead => exact ⟨_, rfl, State.htRead_kept ..⟩
  | lateRead => exact ⟨_, rfl, State.lateRead_kept ..⟩
  | codewordReceive => exact ⟨_, rfl, State.codeword_kept ..⟩
  | replayRequest => exact ⟨_, rfl, State.replay_kept ..⟩
  | beFlitReceive => exact ⟨_, rfl, State.beReceive_kept ..⟩
  | schedFlitReceive => exact ⟨_, rfl, State.schedReceive_kept ..⟩
  | staleFlitReceive => exact ⟨_, rfl, State.staleArrive_kept ..⟩
  | discoverFlitReceive => exact ⟨_, rfl, State.discoverReceive_kept ..⟩
  | discoverPeriod => exact ⟨_, rfl, State.sendDiscovery_kept ..⟩
  | lightDetected => exact ⟨_, rfl, State.lightDetected_kept ..⟩
  | trainingComplete => exact ⟨_, rfl, State.trainingComplete_kept ..⟩
  | autoRetrain => exact ⟨_, rfl, State.autoRetrain_kept ..⟩
  | retrain => exact ⟨_, rfl, State.retrainWrite_kept ..⟩
  | topoLatch => exact ⟨_, rfl, State.topoLatch_kept ..⟩
  | laneLossOfLock => exact ⟨_, rfl, State.lossOfLock_kept ..⟩
  | laneErrorInterval => exact ⟨_, rfl, State.laneInterval_kept ..⟩
  | laneMap => exact ⟨_, rfl, State.laneMap_kept ..⟩
  | laneMapAck => exact ⟨_, rfl, (State.modLink_kept ..).ite (Kept.refl s)⟩
  | restripe => exact ⟨_, rfl, State.restripe_kept ..⟩
  | laneMapTimeout => exact ⟨_, rfl, (State.failLink_kept ..).ite (Kept.refl s)⟩
  | fibreUnplug => exact ⟨_, rfl, Kept.foldl _ _ (Kept.refl s) fun y _ => State.lightLost_kept y _⟩
  | beHoldExpiry => exact ⟨_, rfl, State.holdExpiry_kept ..⟩
  | sleep => exact ⟨_, rfl, State.sleepWrite_kept ..⟩
  | wake => exact ⟨_, rfl, State.wakeWrite_kept ..⟩
  | wakeTone => exact ⟨_, rfl, (State.wake_kept ..).ite (Kept.refl s)⟩
  | loopStart => exact ⟨_, rfl, State.loopStart_kept ..⟩
  | loopTestEnd => exact ⟨_, rfl, State.loopEnd_kept ..⟩
  | linkPartnerRead => exact ⟨_, rfl, State.partnerRead_kept ..⟩
  | groupLaunch => exact ⟨_, rfl, State.groupLaunch_kept ..⟩
  | groupEnd => exact ⟨_, rfl, State.groupEnd_kept ..⟩
  | groupRead => exact ⟨_, rfl, State.groupRead_kept ..⟩
  | colGLdb => exact ⟨_, rfl, State.launchDoorbell_kept ..⟩
  | collectiveAccept => exact ⟨_, rfl, (State.collectiveAccept_kept ..).trans (State.settle_kept _)⟩
  | allreduce | reduceScatter | allgather | allgatherv | broadcast | alltoall | alltoallv => exact ⟨_, rfl, State.colRun_kept ..⟩
  | readinessEntry => exact ⟨_, rfl, State.readiness_kept ..⟩
  | dataPhaseStart => exact ⟨_, rfl, State.dataStart_kept ..⟩
  | streamAck => exact ⟨_, rfl, State.streamAck_kept ..⟩
  | collectiveComplete => exact ⟨_, rfl, (State.colFinish_kept ..).trans (State.settle_kept _)⟩
  | collectiveCanaryExpiry => exact ⟨_, rfl, State.colCanary_kept ..⟩
  | colGCheadWrite => exact ⟨_, rfl, State.colHead_kept ..⟩
  | abort => exact ⟨_, rfl, State.raiseBeacon_kept ..⟩
  | beaconReceive => exact ⟨_, rfl, State.beaconReceive_kept ..⟩
  | snapBegin => exact ⟨_, rfl, State.snapBegin_kept ..⟩
  | snapshotFreeze => exact ⟨_, rfl, State.snapFreeze_kept ..⟩
  | shardProcess => exact ⟨_, rfl, State.shardProcess_kept ..⟩
  | snapshotWaitExpiry => exact ⟨_, rfl, State.snapTimeout_kept ..⟩
  | cancel => exact ⟨_, rfl, State.snapCancel_kept ..⟩
  | snapshotRelease => exact ⟨_, rfl, State.snapRelease_kept ..⟩
  | snapRead => exact ⟨_, rfl, State.snapRead_kept ..⟩
  | digestSlot => exact ⟨_, rfl, State.digestSlot_kept ..⟩
  | slotFlagPoll => exact ⟨_, rfl, State.flagPoll_kept ..⟩
  | mbxAck => exact ⟨_, rfl, State.mbxAck_kept ..⟩
  | mbxReservedCode => exact ⟨_, rfl, State.mbxReserved_kept ..⟩
  | winCfg => exact ⟨_, rfl, State.winCfg_kept ..⟩
  | winSlot => exact ⟨_, rfl, State.winSlot_kept ..⟩
  | winReclaim => exact ⟨_, rfl, State.winReclaim_kept ..⟩
  | wxDb => exact ⟨_, rfl, State.wxDb_kept ..⟩
  | wxCheadWrite => exact ⟨_, rfl, State.wxChead_kept ..⟩
  | store => exact ⟨_, rfl, State.storeRun_kept ..⟩
  | wxComplete => exact ⟨_, rfl, State.wxComplete_kept ..⟩
  | p1Fence => exact ⟨_, rfl, State.writeP1Fence_kept ..⟩
  | hp1PerstN => exact ⟨_, rfl, (State.port1Down_kept s).trans (State.fencePort1_kept ..)⟩
  | port1HotReset => exact exec_port1HotReset_kept
  | port1FenceDrained => exact ⟨_, rfl, State.port1Drained_kept ..⟩
  | completionTimeout => exact ⟨_, rfl, State.completionTimeout_kept ..⟩
  | strayCompletion => exact exec_strayCompletion_kept
  | busMasterDisable => exact ⟨_, rfl, State.busMasterOff_kept ..⟩
  | vfFlr => exact ⟨_, rfl, State.vfFlr_kept ..⟩
  | pf0Flr => exact ⟨_, rfl, State.pf0Flr_kept ..⟩
  | irqCoalesceTimer => exact ⟨_, rfl, State.irqTimer_kept ..⟩
  | msixHeldSend => exact ⟨_, rfl, State.msixHeld_kept ..⟩
  | irqClaim => exact ⟨_, rfl, State.irqClaim_kept ..⟩
  | eventRingEnable | eventRingDisable => exact ⟨_, rfl, State.modRing_kept ..⟩
  | evrHeadWrite => exact ⟨_, rfl, State.evrHead_kept ..⟩
  | eventRecordWrite => exact ⟨_, rfl, State.eventWrite_kept ..⟩
  | overflowRecord => exact ⟨_, rfl, State.overflowWrite_kept ..⟩
  | coreReset => exact ⟨_, rfl, State.coreStart_kept ..⟩
  | coreResetComplete => exact ⟨_, rfl, State.coreDone_kept ..⟩
  | systemReset | hotResetP0 | dlDownP0 => exact ⟨_, rfl, State.systemStart_kept ..⟩
  | systemResetReady | startupReady => exact ⟨_, rfl, State.becomeReady_kept ..⟩
  | perstN => exact ⟨_, rfl, ((Kept.refl s).upd rfl rfl rfl rfl rfl).trans (State.systemStart_kept ..)⟩
  | hostFence => exact ⟨_, rfl, State.hostFence_kept ..⟩
  | rstLfence => exact ⟨_, rfl, State.linkFence_kept ..⟩
  | drainExpiry => exact ⟨_, rfl, State.drainExpiry_kept ..⟩
  | blockReset => exact ⟨_, rfl, State.blockReset_kept ..⟩
  | blockResetDone => exact ⟨_, rfl, State.blockResetDone_kept ..⟩
  | fieldProgressExpiry => exact ⟨_, rfl, State.fieldCanary_kept ..⟩
  | mailboxCanaryExpiry => exact ⟨_, rfl, State.mbxCanary_kept ..⟩
  | overseerCanaryExpiry => exact ⟨_, rfl, State.overseerExpiry_kept ..⟩
  | canarySelfFault => exact ⟨_, rfl, State.selfFault_kept ..⟩
  | parityFault => exact ⟨_, rfl, State.parityFault_kept ..⟩
  | attnLongPress => exact ⟨_, rfl, State.longPress_kept ..⟩
  | attnShortPress => exact ⟨_, rfl, State.shortPress_kept ..⟩
  | healthUpdate => exact ⟨_, rfl, State.healthUpdate_kept ..⟩
  | healthRead => exact ⟨_, rfl, State.healthRead_kept ..⟩
  | escRead => exact ⟨_, rfl, State.escRead_kept ..⟩
  | escClear => exact ⟨_, rfl, State.escClear_kept ..⟩
  | certRead => exact ⟨_, rfl, State.certRead_kept ..⟩
  | identityRead => exact ⟨_, rfl, State.identityRead_kept ..⟩
  | fwStage => exact ⟨_, rfl, State.fwStage_kept ..⟩
  | fwActivate => exact ⟨_, rfl, State.fwActivate_kept ..⟩
  | calExport => exact ⟨_, rfl, State.calExport_kept ..⟩
  | calWrite => exact ⟨_, rfl, State.calWrite_kept ..⟩
  | calImageWritten => exact ⟨_, rfl, State.calWritten_kept ..⟩
  | getVersion | getCapabilities | negotiateAlgorithms | getDigests | getCertificate | challenge | getMeasurements |
    spdmUnsupported =>
    exact ⟨_, rfl, State.spdm_kept ..⟩
  | getLast | getIdentity | getCert | getHealth | getEsc => exact ⟨_, rfl, State.svcIn_kept ..⟩
  | streamOut => exact ⟨_, rfl, State.svcOut_kept s _ _ fun y => State.startStream_kept y _⟩
  | locate => exact ⟨_, rfl, State.svcOut_kept s _ _ fun y => State.setLocate_kept y _⟩
  | svcSystemReset => exact ⟨_, rfl, State.svcKeyed_kept s _ _ _ fun y => State.systemStart_kept y ..⟩
  | svcPowerOn => exact ⟨_, rfl, State.svcKeyed_kept s _ _ _ fun y => (State.powerRequest_kept y _).upd rfl rfl rfl rfl rfl⟩
  | clearRetirement => exact ⟨_, rfl, State.svcKeyed_kept s _ _ _ State.clearRetirement_kept⟩
  | svcEscClear => exact ⟨_, rfl, State.svcKeyed_kept s _ _ _ State.emptyStamps_kept⟩
  | calChunk => exact ⟨_, rfl, State.svcOut_kept s _ _ fun y => State.putChunk_kept y _ _⟩
  | calCommit => exact ⟨_, rfl, State.calCommit_kept ..⟩
  | usbBusReset => exact ⟨_, rfl, (State.endStream_kept s).upd rfl rfl rfl rfl rfl⟩
  | usbAttach => exact ⟨_, rfl, State.usbAttach_kept ..⟩
  | drained => exact ⟨_, rfl, State.drainedWrite_kept ..⟩
  | cancelRequest => exact ⟨_, rfl, State.cancelRequest_kept ..⟩
  | mgmtVendorRequest => exact ⟨_, rfl, State.svcRun_kept s _ fun y => State.mgmtRequest_kept y ..⟩
  | mgmtPowerOn => exact ⟨_, rfl, State.svcRun_kept s _ fun y => State.mgmtPower_kept y ..⟩
  | mctpControl | pldmSensorRead => exact ⟨_, rfl, State.svcRun_kept s _ fun y => (Kept.refl y).upd rfl rfl rfl rfl rfl⟩
  | railWarning => exact ⟨_, rfl, State.railWarning_kept ..⟩
  | railFault => exact ⟨_, rfl, State.railFault_kept ..⟩
  | auxLoss => exact ⟨_, rfl, State.auxLoss_kept ..⟩
  | powerOn => exact ⟨_, rfl, State.powerClear_kept ..⟩
  | auxReady => exact ⟨_, rfl, State.auxReady_kept ..⟩
  | mainPowerInRange => exact ⟨_, rfl, State.mainInRange_kept ..⟩
  | fclkControlTest => exact ⟨_, rfl, State.fclkControl_kept ..⟩
  | thermalTrip => exact ⟨_, rfl, (State.readTemps_kept s _).trans (State.tripIfHot_kept _)⟩
  | thermalRelease => exact ⟨_, rfl, State.tripRelease_kept ..⟩
  | coolingUpdate => exact ⟨_, rfl, State.coolingUpdate_kept ..⟩
  | tempRead => exact ⟨_, rfl, State.tempRead_kept ..⟩
  | energyRead => exact ⟨_, rfl, State.energyRead_kept ..⟩
  | maskMaxExpiry => exact ⟨_, rfl, State.maskMaxExpiry_kept ..⟩
  | slotStart => exact ⟨_, rfl, State.slotStart_kept ..⟩
  | pcieLinkUp => exact ⟨_, rfl, State.pcieLinkUp_kept ..⟩
  | busMasterEnable => exact ⟨_, rfl, State.busMasterOn_kept ..⟩
  | sleepRequestReceive => exact ⟨_, rfl, State.sleepAsk_kept ..⟩
  | sleepReplyReceive => exact ⟨_, rfl, State.sleepReply_kept ..⟩
  | farLoopRequestReceive => exact ⟨_, rfl, State.farLoop_kept ..⟩
  | usbConfigured => exact ⟨_, rfl, ((Kept.refl s).upd rfl rfl rfl rfl rfl).trans (State.raise_kept ..)⟩

theorem exec_next_kept {i : Instr} {s t : State} (h : exec i s = .next t) : Kept s t := by
  obtain ⟨u, hu, hkept⟩ := exec_kept i s
  have heq : u = t := Host.Outcome.next.inj (hu.symm.trans h)
  exact heq ▸ hkept

/-- Settles O4: an idle step and every command keep the canonical form. -/
theorem stepKeepsMemoriesCanonical : Obligations.StepKeepsMemoriesCanonical := by
  unfold Obligations.StepKeepsMemoriesCanonical
  intro s t hwf hstep
  unfold step at hstep
  split at hstep
  case h_1 =>
    cases hstep
    exact (State.idle_kept s).memories hwf
  case h_2 c rest hpending => exact (exec_next_kept hstep).memories hwf

end Sys2Proof.Machine

/-! Upkeep of Seam: refresh, patrol scrub, the port arbiter, the automatic masks and page-ins (04_seam_hoist.md R88 to R90, R113, R119,
R120). -/

namespace Sys2Proof.Machine

section
variable {s : State}

/-! ## Patrol scrub (R88, R89) -/

theorem State.seamErrs_of_corrected {hits : List SeamHit} (h : ∀ e ∈ hits, 0 < e.symbols ∧ e.symbols ≤ s.correctable) :
    s.seamErrs hits = { ue := [], ce := hits.map fun e => Fin.ofNat 24 (e.page / dieStride) } := by
  have hue : (hits.filter fun e => s.correctable < e.symbols) = [] :=
    List.filter_eq_nil_iff.2 fun e he => by simpa using (h e he).2
  have hce : (hits.filter fun e => 0 < e.symbols && e.symbols ≤ s.correctable) = hits :=
    List.filter_eq_self.2 fun e he => by simpa using h e he
  simp only [State.seamErrs, hue, hce, List.map_nil]

theorem State.seamErrs_of_uncorrectable {f n : Nat} (h : s.correctable < n) :
    s.seamErrs [{ page := f, symbols := n }] = { ue := [f], ce := [] } := by
  simp [State.seamErrs, h]

theorem exec_seamScrub {hits : List SeamHit} : exec (.seamScrub hits) s =
    .next (((s.seamErrs hits).ue.foldl (fun s f => s.seamUe f) s).seamCe (s.seamErrs hits).ce) := rfl

theorem exec_seamScrub_corrected {hits : List SeamHit} (h : ∀ e ∈ hits, 0 < e.symbols ∧ e.symbols ≤ s.correctable) :
    exec (.seamScrub hits) s = .next (s.seamCe (hits.map fun e => Fin.ofNat 24 (e.page / dieStride))) := by
  rw [exec_seamScrub, State.seamErrs_of_corrected h, List.foldl_nil]

theorem exec_seamScrub_uncorrectable {f n : Nat} (h : s.correctable < n) :
    exec (.seamScrub [{ page := f, symbols := n }]) s = .next (s.seamUe f) := by
  rw [exec_seamScrub, State.seamErrs_of_uncorrectable h]
  rfl

/-- The state in which an uncorrectable error on a die is counted. -/
def State.ueCounted (s : State) (d : DieId) : State :=
  { s with
    seam := { s.seam with dies := vmod s.seam.dies d fun e => { e with ueCount := satInc e.ueCount } }
    hlt := { s.hlt with deltas := { s.hlt.deltas with ue := vmod s.hlt.deltas.ue d (· + 1) } } }

theorem State.seamUe_of_unused {f : Nat} (howner : s.ownerOf f = none) (hfree : s.frames.has f = false) :
    s.seamUe f = { s.ueCounted (Fin.ofNat 24 (f / dieStride)) with
      frames := s.frames.put f { use := .withheld, charge := none, lastUse := s.now, far := none } } := by
  have howner' : (s.ueCounted (Fin.ofNat 24 (f / dieStride))).ownerOf f = none := howner
  unfold State.seamUe
  simp only [State.ueCounted] at howner'
  simp only [howner', hfree, Bool.false_eq_true, if_false, State.ueCounted]

theorem State.seamUe_of_mapped {f : Nat} {c : CtxId} {vpn : Nat} {p : DWord} (howner : s.ownerOf f = some (c, vpn, p)) :
    s.seamUe f = ((((s.ueCounted (Fin.ofNat 24 (f / dieStride))).modCtx c fun x =>
        x.mapPtes fun q => if pteAt f q then pteMove q psPoisoned (locSeam f) else q).mapHeld
          fun q => if pteAt f q then pteMove q psPoisoned (locSeam f) else q).raise 0x02 (Fin.ofNat 24 (f / dieStride) : DieId).val
        (leBytes 4 (c.val + pteHandle p * 2 ^ 16) ++ leBytes 4 vpn ++ leBytes 4 (f % dieStride))) := by
  have howner' : (s.ueCounted (Fin.ofNat 24 (f / dieStride))).ownerOf f = some (c, vpn, p) := howner
  unfold State.seamUe
  simp only [State.ueCounted] at howner'
  simp only [howner', State.ueCounted]

/-! ## The port arbiter (R119, R120) -/

section
variable {d : DieId} {waiting : BitVec 5}

/-- The classes that wait, when none below `k` does: `k` is the first. -/
theorem filter_waiting_eq_cons {k : Nat} (hk : k < 5) (hwaits : waiting.getLsbD k = true)
    (hfirst : ∀ j : Nat, j < k → waiting.getLsbD j = false) :
    ((List.range 5).filter fun j => waiting.getLsbD j) =
      k :: (((List.range 5).drop (k + 1)).filter fun j => waiting.getLsbD j) := by
  have hsplit : List.range 5 = List.range k ++ k :: (List.range 5).drop (k + 1) := by
    interval_cases k <;> rfl
  have hlow : (List.range k).filter (fun j => waiting.getLsbD j) = [] :=
    List.filter_eq_nil_iff.2 fun j hj => by simp [hfirst j (List.mem_range.1 hj)]
  conv_lhs => rw [hsplit]
  rw [List.filter_append, hlow, List.filter_cons, if_pos hwaits, List.nil_append]

theorem State.arbChoice_of_noneExpired {k : Nat} (hk : k < 5) (hwaits : waiting.getLsbD k = true) (hopen : s.classMasked k = false)
    (hfirst : ∀ j : Nat, j < k → waiting.getLsbD j = false) (hwell : ∀ j : Nat, j < 5 → s.classExpired d j = false) :
    s.arbChoice d waiting = some (k, false) := by
  have hnone : (((List.range 5).filter fun j => waiting.getLsbD j).filter fun j => !s.classMasked j).find?
      (fun j => s.classExpired d j) = none := by
    refine List.find?_eq_none.2 fun j hj => ?_
    have hj5 : j < 5 := List.mem_range.1 (List.mem_filter.1 (List.mem_filter.1 hj).1).1
    simp [hwell j hj5]
  rw [filter_waiting_eq_cons hk hwaits hfirst] at hnone
  simp only [List.filter_cons, hopen, Bool.not_false, if_true] at hnone
  simp only [State.arbChoice, filter_waiting_eq_cons hk hwaits hfirst, List.filter_cons, hopen, Bool.not_false, if_true,
    List.isEmpty_cons, Bool.false_eq_true, if_false, hnone, List.head?_cons, Option.map_some]

theorem State.arbChoice_of_noneWaiting : s.arbChoice d 0 = none := by
  simp [State.arbChoice]

theorem State.arbGrant_of_none {ns : Nat} (h : s.arbChoice d waiting = none) : s.arbGrant d waiting ns = s := by
  simp only [State.arbGrant, h]

theorem State.arbGrant_of_some {ns k : Nat} {byCounter : Bool} (h : s.arbChoice d waiting = some (k, byCounter)) :
    ∃ e : SeamDie, s.arbGrant d waiting ns = { s with seam := { s.seam with dies := vset s.seam.dies d e } } ∧
      e.starve = (if byCounter then (vget s.seam.dies d).starve + 1 else (vget s.seam.dies d).starve) ∧
      e.ceCount = (vget s.seam.dies d).ceCount ∧ e.ueCount = (vget s.seam.dies d).ueCount ∧
      (∀ i : Fin 5, vget e.waits i = (if i.val = k then 0
        else if waiting.getLsbD i.val && !s.classMasked i.val then vget (vget s.seam.dies d).waits i + 1
        else vget (vget s.seam.dies d).waits i)) ∧
      (∀ i : Fin 5, i.val ≠ k → vget e.waitObs i = vget (vget s.seam.dies d).waitObs i) := by
  simp only [State.arbGrant, h]
  refine ⟨_, rfl, rfl, rfl, rfl, fun i => ?waits, fun i hi => ?waitObs⟩
  case waits => rw [vget_ofFn]
  case waitObs => rw [vget_ofFn, if_neg hi]

end

/-! ## Page-ins (R113) -/

section
variable {c : CtxId} {vpn : Nat} {p : PageIn} {x : Context}

theorem State.pageInDone_of_mayRequest (hp : s.hst.pageIns.find? (fun p => p.ctx == c && p.vpn == vpn) = some p)
    (hx : s.ctx? c = some x) (hmay : s.mayRequest x.fn = true) : s.pageInDone c vpn = (s.finishPageIn p).settle := by
  simp only [State.pageInDone, hp, hx, Option.any_some, hmay, if_true]

theorem State.pageInDone_of_mayNot (hp : s.hst.pageIns.find? (fun p => p.ctx == c && p.vpn == vpn) = some p)
    (hx : s.ctx? c = some x) (hmay : s.mayRequest x.fn = false) : s.pageInDone c vpn = s := by
  simp only [State.pageInDone, hp, hx, Option.any_some, hmay, Bool.false_eq_true, if_false]

theorem State.tallyPage_hst : (s.tallyPage c).hst = s.hst :=
  (State.tallySeam_hst _ c pageSize).trans (State.tallyHost_hst s c pageSize)

theorem State.finishPageIn_hst (hx : s.ctx? p.ctx = some x) : (s.finishPageIn p).hst = { s.hst with
    pageins := s.hst.pageins + 1, pageIns := s.hst.pageIns.filter fun q => q.frame != p.frame } := by
  simp only [State.finishPageIn, hx, State.tallyPage_hst]
  rfl

end

end

/-- Settles O24: each clause is one outcome of a scrub, of the arbiter or of a page-in. -/
theorem seamUpkeepAndArbitration : Obligations.SeamUpkeepAndArbitration := by
  unfold Obligations.SeamUpkeepAndArbitration
  refine ⟨fun _ _ => rfl, fun s hits h => ?corrected, fun s f n howner hfree hn => ?unused, fun s f n c vpn p howner hn => ?mapped,
    fun s d waiting ns k byCounter h => ?grant, fun s d waiting k hk hwaits hopen hfirst hwell => ?lowest,
    fun s d waiting ns h => ?idle, fun _ => rfl, fun s c vpn p x hp hx => ⟨fun hmay => ?arrives, fun hmay => ?waits, ?counted⟩⟩
  case corrected => exact exec_seamScrub_corrected h
  case unused => exact (exec_seamScrub_uncorrectable hn).trans (congrArg _ (State.seamUe_of_unused howner hfree))
  case mapped => exact (exec_seamScrub_uncorrectable hn).trans (congrArg _ (State.seamUe_of_mapped howner))
  case grant =>
    obtain ⟨e, he, hrest⟩ := State.arbGrant_of_some (ns := ns) h
    exact ⟨e, congrArg _ he, hrest⟩
  case lowest => exact State.arbChoice_of_noneExpired hk hwaits hopen hfirst hwell
  case idle => exact congrArg _ (State.arbGrant_of_none (h ▸ State.arbChoice_of_noneWaiting))
  case arrives => exact congrArg _ (State.pageInDone_of_mayRequest hp hx hmay)
  case waits => exact congrArg _ (State.pageInDone_of_mayNot hp hx hmay)
  case counted =>
    have hnamed : p.ctx = c ∧ p.vpn = vpn := by simpa using List.find?_some hp
    exact State.finishPageIn_hst (hnamed.1 ▸ hx)

end Sys2Proof.Machine

/-! Requests of the Hoist: when one runs, and what each leaves (04_seam_hoist.md R91, R97 to R102, R112). -/

namespace Sys2Proof.Machine

/-! ## The request's bytes (Table 4.4) -/

theorem leNat_mod_256 (bs : List Byte) : leNat bs % 256 = (bs.getD 0 0).toNat := by
  cases bs with
  | nil => rfl
  | cons b bs =>
    have hb : b.toNat < 256 := b.isLt
    simp only [leNat, List.getD_cons_zero]
    omega

theorem fieldAt_mod_256 (l : List Byte) (off : Nat) {n : Nat} (hn : 0 < n) : fieldAt l off n % 256 = (l.getD off 0).toNat := by
  rw [fieldAt, leNat_mod_256, slice_getD _ _ _ _ hn, Nat.add_zero]

theorem fieldAt_one (l : List Byte) (off : Nat) : fieldAt l off 1 = (l.getD off 0).toNat := by
  have hbyte : slice l off 1 = [l.getD off 0] := by
    obtain ⟨b, hb⟩ := List.length_eq_one_iff.1 (slice_length l off 1)
    have hget := slice_getD l off 1 0 Nat.one_pos
    rw [hb] at hget ⊢
    simpa using hget
  simp [fieldAt, hbyte, leNat]

theorem hreq_op (a : List Byte) : (hreq a).op = fieldAt a 0 4 % 256 := by
  have hbits : (hreq a).op = fieldAt a 0 4 / 1 % 256 := rfl
  rw [hbits, Nat.div_one]

/-- The OP of a request is the code its command shows. -/
theorem hreq_args_op (k : Cmd) : (hreq k.args).op = k.subop := by
  rw [hreq_op, fieldAt_mod_256 _ _ (by decide), Cmd.args, slice_getD _ _ _ _ (by decide), Cmd.subop, fieldAt_one]

section
variable {s : State} {c : CtxId} {x : Context} {k : Cmd} {op : Nat}

theorem Context.op_of_hoistOp (hk : x.hoistOp op = some k) : (hreq k.args).op = op := by
  have hfound := List.find?_some hk
  simp only [Bool.and_eq_true, beq_iff_eq] at hfound
  obtain ⟨⟨⟨_, hsub⟩, _⟩, _⟩ := hfound
  rw [hreq_args_op, hsub]

/-! ## When a request runs (R98) -/

theorem Context.hoistNeedsHost_alloc (hk : x.hoistOp 1 = some k) : x.hoistNeedsHost (hreq k.args) = ((hreq k.args).place == 3) := by
  simp only [Context.hoistNeedsHost, Context.op_of_hoistOp hk]

theorem Context.hoistNeedsHost_free (hk : x.hoistOp 2 = some k) : x.hoistNeedsHost (hreq k.args) = false := by
  simp only [Context.hoistNeedsHost, Context.op_of_hoistOp hk]

theorem Context.hoistNeedsHost_setflags (hk : x.hoistOp 7 = some k) : x.hoistNeedsHost (hreq k.args) = false := by
  simp only [Context.hoistNeedsHost, Context.op_of_hoistOp hk]

section
variable {f : State → Context → Cmd → HReq → Except Byte State} (hx : s.ctx? c = some x) (hk : x.hoistOp op = some k)
include hx hk

theorem State.hoistRun_of_reserved (hres : hreqReserved k.args = true) : s.hoistRun c op f = s.endWith c k.seq stBad 0 := by
  simp only [State.hoistRun, hx, hk, Option.bind_some, Option.map_some, hres, if_true]

theorem State.hoistRun_of_waits (hres : hreqReserved k.args = false) (hneeds : x.hoistNeedsHost (hreq k.args) = true)
    (hmay : s.mayRequest x.fn = false) : s.hoistRun c op f = s := by
  simp only [State.hoistRun, hx, hk, Option.bind_some, Option.map_some, hres, hneeds, hmay, Bool.not_false, Bool.and_self,
    Bool.false_eq_true, if_false, if_true]

theorem State.hoistRun_of_runs (hres : hreqReserved k.args = false)
    (hfree : x.hoistNeedsHost (hreq k.args) = false ∨ s.mayRequest x.fn = true) :
    s.hoistRun c op f = s.hoistEnd c k (f s x k (hreq k.args)) := by
  have hgo : (x.hoistNeedsHost (hreq k.args) && !s.mayRequest x.fn) = false := by
    rcases hfree with h | h <;> simp [h]
  simp only [State.hoistRun, hx, hk, Option.bind_some, Option.map_some, hres, hgo, Bool.false_eq_true, if_false]

theorem State.hoistRun_of_ok {t : State} (hres : hreqReserved k.args = false)
    (hfree : x.hoistNeedsHost (hreq k.args) = false ∨ s.mayRequest x.fn = true) (hok : f s x k (hreq k.args) = .ok t) :
    s.hoistRun c op f = t.endWith c k.seq stOk 0 := by
  rw [State.hoistRun_of_runs hx hk hres hfree, hok]
  rfl

theorem State.hoistRun_of_error {st : Byte} (hres : hreqReserved k.args = false)
    (hfree : x.hoistNeedsHost (hreq k.args) = false ∨ s.mayRequest x.fn = true) (herr : f s x k (hreq k.args) = .error st) :
    s.hoistRun c op f = s.endWith c k.seq st 0 := by
  rw [State.hoistRun_of_runs hx hk hres hfree, herr]
  rfl

end

/-! ## The commands -/

theorem exec_alloc : exec (.alloc c) s = .next (s.hoistRun c 1 fun s x k r => s.allocReq c x k r) := rfl
theorem exec_freeHandle : exec (.freeHandle c) s = .next (s.hoistRun c 2 fun s x _ r => s.freeReq c x r) := rfl
theorem exec_handleRelease {h : Nat} : exec (.handleRelease c h) s = execHandleRelease c h s := rfl
theorem exec_place {hits : List SeamHit} : exec (.place c hits) s = execPlace c hits s := rfl
theorem exec_load {flag data : List Byte} {fault : Bool} : exec (.load c flag data fault) s =
    .next ((s.loadAcquire c flag 4).hoistRun c 4 fun s x _ r => s.loadReq c x r flag data fault) := rfl
theorem exec_farslotAdd {flag : List Byte} : exec (.farslotAdd c flag) s =
    .next ((s.loadAcquire c flag 5).hoistRun c 5 fun s x _ r => s.farslotAdd c x r flag) := rfl
theorem exec_farslotRelease : exec (.farslotRelease c) s = .next (s.hoistRun c 6 fun s x _ r => s.farslotRelease c x r) := rfl
theorem exec_setflags : exec (.setflags c) s = .next (s.hoistRun c 7 fun s x _ r => s.setFlags c x r) := rfl

theorem State.hoistErrs_of_noHits {mine : List Nat} : s.hoistErrs mine (s.seamErrs []) = s := rfl

/-- A PLACE that meets no bad codeword is its request alone. -/
theorem exec_place_of_noHits (hx : s.ctx? c = some x) (hk : x.hoistOp 3 = some k) :
    exec (.place c []) s = .next (s.hoistRun c 3 fun s x _ r => s.placeReq c x r) := by
  simp only [exec_place, execPlace, hx, hk, Option.bind_some, Option.map_some, State.hoistErrs_of_noHits]

section
variable {flag : List Byte} (hx : s.ctx? c = some x) (hk : x.hoistOp op = some k)
include hx hk

theorem State.loadAcquire_of_mayNot (hmay : s.mayRequest x.fn = false) : s.loadAcquire c flag op = s := by
  simp only [State.loadAcquire, hx, hk, Option.bind_some, Option.any_some, hmay, Bool.and_false, Bool.not_false, Bool.or_true, if_true]

/-- The flag word changes nothing where the slot is device-held already, or the host owns it. -/
theorem State.loadAcquire_of_notHandedOver (hsame : (s.acquire c (hreq k.args).slot flag).getD s = s) : s.loadAcquire c flag op = s := by
  simp only [State.loadAcquire, hx, hk, Option.bind_some, hsame, ite_self]

end

/-! ## ALLOC and FREE (R97, R99 to R101) -/

section
variable {r : HReq}

section
variable (hpages : r.pages ≠ 0) (hend : r.vpn + r.pages ≤ 2 ^ 27)
  (hunmapped : ∀ e ∈ x.pt, r.vpn ≤ e.1 → e.1 < r.vpn + r.pages → pteState e.2 = psUnmapped)
include hpages hend hunmapped

/-- The pages asked for are there to be mapped: the first row of Table 4.5a does not refuse the request. -/
theorem HReq.badAlloc_eq_false : (r.pages == 0 || 2 ^ 27 < r.vpn + r.pages ||
    x.pt.any fun e => r.vpn ≤ e.1 && e.1 < r.vpn + r.pages && pteState e.2 != psUnmapped) = false := by
  have hany : (x.pt.any fun e => r.vpn ≤ e.1 && e.1 < r.vpn + r.pages && pteState e.2 != psUnmapped) = false := by
    rw [List.any_eq_false]
    intro e he hmapped
    simp only [Bool.and_eq_true, decide_eq_true_eq, bne_iff_ne] at hmapped
    obtain ⟨⟨hlow, hhigh⟩, hne⟩ := hmapped
    exact hne (hunmapped e he hlow hhigh)
  simp only [hany, beq_eq_false_iff_ne.2 hpages, decide_eq_false (Nat.not_lt.2 hend), Bool.or_self]

variable (hplace : s.placeRefused r = none) (hhandle : lowestFreeKey x.handles 0 < 65536)
include hplace hhandle

theorem State.allocReq_of_noRoom (h : s.allocPages c r (lowestFreeKey x.handles 0) r.pages 0 = none) :
    s.allocReq c x k r = .error stNoRoom := by
  simp only [State.allocReq, HReq.badAlloc_eq_false hpages hend hunmapped, hplace, Nat.not_le.2 hhandle, h, Bool.false_eq_true, if_false]

theorem State.allocReq_of_room {t : State} (h : s.allocPages c r (lowestFreeKey x.handles 0) r.pages 0 = some t) :
    s.allocReq c x k r = .ok ((t.modCtx c fun y => { y with handles := y.handles.put (lowestFreeKey x.handles 0) {
      vpn := r.vpn, pages := r.pages, freed := false, held := [] } }).modCmd c k.seq
        fun j => { j with handle := lowestFreeKey x.handles 0 }) := by
  simp only [State.allocReq, HReq.badAlloc_eq_false hpages hend hunmapped, hplace, Nat.not_le.2 hhandle, h, Bool.false_eq_true, if_false]

end

section
variable {h : Handle} (hlive : x.live r.handle = some h)
include hlive

theorem State.freeReq_of_live : s.freeReq c x r = .ok (s.freeHandle c r.handle) := by
  simp only [State.freeReq, hlive]

theorem State.freeHandle_of_freed (hx : s.ctx? c = some x) (hfreed : h.freed = true) : s.freeHandle c r.handle = s := by
  simp only [State.freeHandle, hx, hlive, Option.bind_some, Option.filter_some, hfreed, Bool.not_true, Bool.false_eq_true, if_false,
    Option.map_none]

/-! ## PLACE (R100) -/

theorem State.placeReq_of_moved {t : State} (hplace : s.placeRefused r = none)
    (hmove : s.placePages c r h.vpn (x.handlePages r.handle h).keys = some t) : s.placeReq c x r = .ok t := by
  simp only [State.placeReq, hlive, hplace, hmove]

theorem State.placeReq_of_noRoom (hplace : s.placeRefused r = none)
    (hmove : s.placePages c r h.vpn (x.handlePages r.handle h).keys = none) : s.placeReq c x r = .error stNoRoom := by
  simp only [State.placeReq, hlive, hplace, hmove]

/-! ## LOAD (R102) -/

section
variable {w : WinSlot} {flag data : List Byte} (hx : s.ctx? c = some x) (hw : x.slot? r.slot = some w) (hheld : w.held.isSome = true)
  (hport : w.p2p = false) (hlen : r.len ≠ 0) (hdst : r.dstOff + r.len ≤ h.pages * pageSize) (hsrc : r.slotOff + r.len ≤ w.size)
  (hcheck : r.check = false)
include hx hw hheld hport hlen hdst hsrc hcheck

theorem State.loadReq_of_freed (hfreed : h.freed = true) : s.loadReq c x r flag data false = .ok (s.tallyHost c r.len) := by
  simp only [State.loadReq, hlive, hw, State.acquire_of_held hx hw hheld, beq_eq_false_iff_ne.2 hlen, Nat.not_lt.2 hdst, Nat.not_lt.2 hsrc,
    hport, hcheck, hfreed, decide_false, Bool.or_self, Bool.false_and, Bool.false_eq_true, if_false, if_true]

theorem State.loadReq_of_written {t : State} (hfreed : h.freed = false)
    (hsound : ∀ v ∈ pagesOf (h.vpn * pageSize + r.dstOff) r.len, pteState (x.pt.getD v 0) ≠ psPoisoned)
    (hwrite : s.writeCommittedAt c true (h.vpn * pageSize + r.dstOff) (slice data r.slotOff r.len) = some t) :
    s.loadReq c x r flag data false = .ok (((t.tallyHost c r.len).tallySeam c r.len).modCtx c fun y =>
      y.dropStale (pagesOf (h.vpn * pageSize + r.dstOff) r.len).contains) := by
  have hany : ((pagesOf (h.vpn * pageSize + r.dstOff) r.len).any fun v => pteState (x.pt.getD v 0) == psPoisoned) = false :=
    List.any_eq_false.2 fun v hv => by simpa using hsound v hv
  simp only [State.loadReq, hlive, hw, State.acquire_of_held hx hw hheld, beq_eq_false_iff_ne.2 hlen, Nat.not_lt.2 hdst, Nat.not_lt.2 hsrc,
    hport, hcheck, hfreed, hany, hwrite, decide_false, Bool.or_self, Bool.false_and, Bool.false_eq_true, if_false]

end

/-! ## SETFLAGS (Table 4.5) -/

theorem State.setFlags_of_live : s.setFlags c x r = .ok (s.modCtx c fun y => { y.dropStale (x.handlePages r.handle h).has with
    pt := y.pt.map fun e => if (x.handlePages r.handle h).has e.1 then
      (e.1, (e.2 &&& ~~~(0x30#64)) ||| BitVec.ofNat 64 (b2n r.ro * 16 + b2n r.pin * 32)) else e }) := by
  simp only [State.setFlags, hlive]

end

/-! ## The far pool (R112) -/

section
variable {w : WinSlot} {flag : List Byte} (hx : s.ctx? c = some x) (hw : x.slot? r.slot = some w)
include hx hw

theorem State.farslotAdd_of_held (hport : w.p2p = false) (hsize : pageSize ≤ w.size) (hnew : x.farPool.contains r.slot = false)
    (hheld : w.held.isSome = true) :
    s.farslotAdd c x r flag = .ok (s.modCtx c fun y => { y with
      farPool := y.farPool.filter (fun p => p < r.slot) ++ r.slot :: y.farPool.filter fun p => r.slot < p }) := by
  simp only [State.farslotAdd, hw, State.acquire_of_held hx hw hheld, hport, hnew, Nat.not_lt.2 hsize, decide_false, Bool.or_self,
    Bool.false_eq_true, if_false]

theorem State.farslotAdd_of_hostOwned (hheld : w.held = none) (howner : flagOwner flag = false) :
    s.farslotAdd c x r flag = .error stBad := by
  simp only [State.farslotAdd, hw, State.acquire_of_hostOwned hx hw hheld howner, ite_self]

end

end

/-- The state once the pages on their way out of a slot have arrived. -/
def State.slotArrived (s : State) (c : CtxId) (slot : Nat) : State :=
  (s.hst.pageIns.filter fun p => p.ctx == c && p.slot == slot).foldl (fun (s : State) p => s.finishPageIn p) s

section
variable {d : CtxId} {n : Nat}

theorem State.isSome_ctx?_modCtx {f : Context → Context} : ((s.modCtx d f).ctx? c).isSome = (s.ctx? c).isSome := by
  by_cases hcd : c = d
  · subst hcd
    rw [State.ctx?_modCtx_same, Option.isSome_map]
  · rw [State.ctx?_modCtx_other _ _ _ _ hcd]

theorem State.isSome_ctx?_tallyHost : ((s.tallyHost d n).ctx? c).isSome = (s.ctx? c).isSome := by
  unfold State.tallyHost
  split
  case isTrue => exact State.isSome_ctx?_modCtx
  case isFalse => rfl

theorem State.isSome_ctx?_tallySeam : ((s.tallySeam d n).ctx? c).isSome = (s.ctx? c).isSome := by
  unfold State.tallySeam
  split
  case isTrue => exact State.isSome_ctx?_modCtx
  case isFalse => rfl

theorem State.isSome_ctx?_finishPageIn {p : PageIn} : ((s.finishPageIn p).ctx? c).isSome = (s.ctx? c).isSome := by
  unfold State.finishPageIn
  split
  case h_1 => rfl
  case h_2 =>
    exact (State.isSome_ctx?_tallySeam.trans State.isSome_ctx?_tallyHost).trans State.isSome_ctx?_modCtx

theorem State.isSome_ctx?_slotArrived : ((s.slotArrived d n).ctx? c).isSome = (s.ctx? c).isSome := by
  unfold State.slotArrived
  generalize s.hst.pageIns.filter (fun p => p.ctx == d && p.slot == n) = ps
  induction ps generalizing s with
  | nil => rfl
  | cons p ps ih => exact ih.trans State.isSome_ctx?_finishPageIn

end

section
variable {r : HReq} {x1 : Context} (hpool : x.farPool.contains r.slot = true) (hx1 : (s.slotArrived c r.slot).ctx? c = some x1)
include hpool hx1

theorem State.farslotRelease_of_farPage (hfar : (s.slotArrived c r.slot).farPageIn c x1 r.slot = true) :
    s.farslotRelease c x r = .error stNoRoom := by
  simp only [State.slotArrived] at hx1 hfar
  simp only [State.farslotRelease, hpool, hx1, hfar, Bool.not_true, Bool.false_eq_true, if_false, if_true]

theorem State.farslotRelease_of_noFarPage (hfar : (s.slotArrived c r.slot).farPageIn c x1 r.slot = false) :
    s.farslotRelease c x r = .ok ((((s.slotArrived c r.slot).dropCopies c r.slot).modCtx c fun y => { y with
      farPool := y.farPool.filter (· != r.slot) }).handback c r.slot 0 0) := by
  simp only [State.slotArrived] at hx1 hfar ⊢
  simp only [State.farslotRelease, hpool, hx1, hfar, Bool.not_true, Bool.false_eq_true, if_false]

end

/-! ## HANDLE_RELEASE (R101) and pages taken into use (R91) -/

theorem exec_handleRelease_of_unreferenced {h : Nat} {e : Handle} (hx : s.ctx? c = some x) (he : x.handles.get? h = some e)
    (hfreed : e.freed = true) (hunused : x.handleInUse h = false) : exec (.handleRelease c h) s = .next (s.releaseHandle c h) := by
  simp only [exec_handleRelease, execHandleRelease, hx, he, Option.any_some, hfreed, hunused, Bool.not_false, Bool.and_self, if_true]

theorem State.claim_mem {f : Nat} {e : Frame} : (s.claim f e).mem = s.mem.clear (f * pageSize) pageSize := rfl

end

/-- Settles O25: each clause is one outcome of a request, once it runs. -/
theorem hoistRequestsPlaceAndCopy : Obligations.HoistRequestsPlaceAndCopy := by
  unfold Obligations.HoistRequestsPlaceAndCopy
  refine ⟨fun s c x k hx hk hres => ?reserved, fun s c x k hx hres hneeds hmay => ?waits,
    fun s c x k hx hk hres hhost hpages hend hunmapped hplace hhandle => ?alloc, fun s c x k h hx hk hres hlive => ?free,
    fun s c x k h hx hk hres hlive hplace hhost => ?place,
    fun s c x k h w flag data hmay hx hk hres hlive hw hheld hport hlen hdst hsrc hcheck => ?load,
    fun s c x k w flag hx hk hres hw hmay hport hsize hnew => ?farslotAdd,
    fun s c x k hx hk hres hpool hmay => ?farslotRelease, fun s c x k h hx hk hres hlive => ?setflags,
    fun s c x h e hx he hfreed hunused => exec_handleRelease_of_unreferenced hx he hfreed hunused, fun s f e a => ?claim⟩
  case reserved => exact congrArg _ (State.hoistRun_of_reserved hx hk hres)
  case waits =>
    have hrun {op : Nat} {f : State → Context → Cmd → HReq → Except Byte State} (hk : x.hoistOp op = some k) :
        s.hoistRun c op f = s := State.hoistRun_of_waits hx hk hres hneeds hmay
    refine ⟨fun hk => ?allocWaits, fun hk => ?placeWaits, fun hk => ?releaseWaits, fun flag data fault hk => ?loadWaits,
      fun flag hk => ?addWaits⟩
    case allocWaits => rw [exec_alloc, hrun hk]
    case placeWaits => rw [exec_place_of_noHits hx hk, hrun hk]
    case releaseWaits => rw [exec_farslotRelease, hrun hk]
    case loadWaits => rw [exec_load, State.loadAcquire_of_mayNot hx hk hmay, hrun hk]
    case addWaits => rw [exec_farslotAdd, State.loadAcquire_of_mayNot hx hk hmay, hrun hk]
  case alloc =>
    have hfree : x.hoistNeedsHost (hreq k.args) = false ∨ s.mayRequest x.fn = true :=
      hhost.imp_left fun hne => (Context.hoistNeedsHost_alloc hk).trans (beq_eq_false_iff_ne.2 hne)
    refine ⟨fun hnone => ?noRoom, fun hsome => ?room⟩
    case noRoom =>
      exact congrArg _ (State.hoistRun_of_error hx hk hres hfree (State.allocReq_of_noRoom hpages hend hunmapped hplace hhandle hnone))
    case room =>
      obtain ⟨t, ht⟩ := Option.isSome_iff_exists.1 hsome
      exact ⟨t, ht,
        congrArg _ (State.hoistRun_of_ok hx hk hres hfree (State.allocReq_of_room hpages hend hunmapped hplace hhandle ht))⟩
  case free =>
    rw [exec_freeHandle]
    exact ⟨congrArg _ (State.hoistRun_of_ok hx hk hres (.inl (Context.hoistNeedsHost_free hk)) (State.freeReq_of_live hlive)),
      State.freeHandle_of_freed hlive hx⟩
  case place =>
    rw [exec_place_of_noHits hx hk]
    refine ⟨fun hsome => ?moved, fun hnone => ?noRoom⟩
    case moved =>
      obtain ⟨t, ht⟩ := Option.isSome_iff_exists.1 hsome
      exact ⟨t, ht, congrArg _ (State.hoistRun_of_ok hx hk hres hhost (State.placeReq_of_moved hlive hplace ht))⟩
    case noRoom =>
      exact congrArg _ (State.hoistRun_of_error hx hk hres hhost (State.placeReq_of_noRoom hlive hplace hnone))
  case load =>
    have hsame : s.loadAcquire c flag 4 = s :=
      State.loadAcquire_of_notHandedOver hx hk (by rw [State.acquire_of_held hx hw hheld, Option.getD_some])
    rw [exec_load, hsame]
    refine ⟨fun hfreed => ?freed, fun hfreed hsound hsome => ?written⟩
    case freed =>
      exact congrArg _ (State.hoistRun_of_ok hx hk hres (.inr hmay)
        (State.loadReq_of_freed hlive hx hw hheld hport hlen hdst hsrc hcheck hfreed))
    case written =>
      obtain ⟨t, ht⟩ := Option.isSome_iff_exists.1 hsome
      exact ⟨t, ht, congrArg _ (State.hoistRun_of_ok hx hk hres (.inr hmay)
        (State.loadReq_of_written hlive hx hw hheld hport hlen hdst hsrc hcheck hfreed hsound ht))⟩
  case farslotAdd =>
    rw [exec_farslotAdd]
    refine ⟨fun hheld => ?held, fun hheld howner => ?hostOwned⟩
    case held =>
      rw [State.loadAcquire_of_notHandedOver hx hk (by rw [State.acquire_of_held hx hw hheld, Option.getD_some])]
      exact congrArg _ (State.hoistRun_of_ok hx hk hres (.inr hmay) (State.farslotAdd_of_held hx hw hport hsize hnew hheld))
    case hostOwned =>
      rw [State.loadAcquire_of_notHandedOver hx hk (by rw [State.acquire_of_hostOwned hx hw hheld howner, Option.getD_none])]
      exact congrArg _ (State.hoistRun_of_error hx hk hres (.inr hmay) (State.farslotAdd_of_hostOwned hx hw hheld howner))
  case farslotRelease =>
    have hsome : ((s.slotArrived c (hreq k.args).slot).ctx? c).isSome = true := by
      rw [State.isSome_ctx?_slotArrived, hx, Option.isSome_some]
    obtain ⟨x1, hx1⟩ := Option.isSome_iff_exists.1 hsome
    exact ⟨x1, hx1,
      fun hfar => congrArg _ (State.hoistRun_of_ok hx hk hres (.inr hmay) (State.farslotRelease_of_noFarPage hpool hx1 hfar)),
      fun hfar => congrArg _ (State.hoistRun_of_error hx hk hres (.inr hmay) (State.farslotRelease_of_farPage hpool hx1 hfar))⟩
  case setflags =>
    rw [exec_setflags]
    exact congrArg _ (State.hoistRun_of_ok hx hk hres (.inl (Context.hoistNeedsHost_setflags hk)) (State.setFlags_of_live hlive))
  case claim =>
    rw [State.claim_mem]
    exact ⟨Cells.read_clear_inside _ _ _ _, Cells.read_clear_outside _ _ _ _⟩

end Sys2Proof.Machine

/-! Direct table writes, TABLE_READ, invalidation and evacuation (04_seam_hoist.md R109 to R111, R116). -/

namespace Sys2Proof.Machine

section
variable {s : State}

/-! ## Direct table writes (R109, R111) -/

section
variable {c : Byte} {x : Context}

theorem exec_directTableWrite : exec (.directTableWrite c) s = .next (s.directWrite c) := rfl

theorem State.directWrite_of_noContext (hx : s.ctx? (ctxOf c.toNat) = none) :
    s.directWrite c = { s with hst := { s.hst with dtwCtx := c, dtwErr := true } } := by
  have hx' : ({ s with hst := { s.hst with dtwCtx := c, dtwErr := false } } : State).ctx? (ctxOf c.toNat) = none := hx
  simp only [State.directWrite, hx']

theorem State.directWrite_of_refused (hx : s.ctx? (ctxOf c.toNat) = some x)
    (h : dtwRefused x s.hst.dtwVpn.toNat (s.hst.dtwHi ++ s.hst.dtwLo) = true) :
    s.directWrite c = { s with hst := { s.hst with dtwCtx := c, dtwErr := true } } := by
  have hx' : ({ s with hst := { s.hst with dtwCtx := c, dtwErr := false } } : State).ctx? (ctxOf c.toNat) = some x := hx
  simp only [State.directWrite, hx', h, if_true]

theorem State.directWrite_of_accepted (hx : s.ctx? (ctxOf c.toNat) = some x)
    (h : dtwRefused x s.hst.dtwVpn.toNat (s.hst.dtwHi ++ s.hst.dtwLo) = false) :
    s.directWrite c = ({ s with hst := { s.hst with dtwCtx := c, dtwErr := false } } : State).modCtx (ctxOf c.toNat) fun y => { y with
      pt := if (s.hst.dtwHi ++ s.hst.dtwLo : DWord) = 0 then y.pt.del s.hst.dtwVpn.toNat
        else y.pt.put s.hst.dtwVpn.toNat (s.hst.dtwHi ++ s.hst.dtwLo)
      released := y.released.del s.hst.dtwVpn.toNat
      stale := noteStale y.stale s.hst.dtwVpn.toNat (y.pt.getD s.hst.dtwVpn.toNat 0) (s.hst.dtwHi ++ s.hst.dtwLo) } := by
  have hx' : ({ s with hst := { s.hst with dtwCtx := c, dtwErr := false } } : State).ctx? (ctxOf c.toNat) = some x := hx
  simp only [State.directWrite, hx', h, Bool.false_eq_true, if_false]

theorem dtwRefused_eq_false_iff {vpn : Nat} {new : DWord} : dtwRefused x vpn new = false ↔
    pteState new ≠ psTransit ∧ pteState new < 6 ∧ pteState (x.pt.getD vpn 0) ≠ psTransit ∧ x.tables.has (vpn / 262144) = true := by
  simp only [dtwRefused, Bool.or_eq_false_iff, beq_eq_false_iff_ne, decide_eq_false_iff_not, Bool.not_eq_false', Nat.not_lt,
    Nat.lt_succ_iff, and_assoc]

theorem dtwRefused_of_noTable {vpn : Nat} {new : DWord} (h : x.tables.has (vpn / 262144) = false) : dtwRefused x vpn new = true := by
  simp only [dtwRefused, h, Bool.not_false, Bool.or_true]

end

/-! ## TABLE_READ (R110) -/

theorem exec_tableRead : exec .tableRead s = .next s.tableRead := rfl

section
variable (hrun : s.mbxIs 0x21 = true) (hopen : s.mbx.fenced = false) (hlive : s.rst.retired = false) (hcore : s.rst.coreHeld = false)
include hrun hopen hlive hcore

theorem State.tableRead_of_context {x : Context} (hctx : s.mbxArg 0 < 256) (hvpn : s.mbxArg 1 < 2 ^ 27)
    (hx : s.ctx? (ctxOf (s.mbxArg 0)) = some x) :
    s.tableRead = s.mbxEnd stOk (leBytes 4 0 ++ leBytes 8 (x.pt.getD (s.mbxArg 1) 0).toNat) := by
  have hbad : (decide (256 ≤ s.mbxArg 0) || decide (2 ^ 27 ≤ s.mbxArg 1)) = false := by
    simp only [decide_eq_false (Nat.not_le.2 hctx), decide_eq_false (Nat.not_le.2 hvpn), Bool.or_self]
  rw [State.tableRead, State.mbxRun_runs _ _ _ hrun hopen hlive (.inl hcore)]
  simp only [hbad, hx]
  rfl

theorem State.tableRead_of_bad (h : 256 ≤ s.mbxArg 0 ∨ 2 ^ 27 ≤ s.mbxArg 1 ∨ s.ctx? (ctxOf (s.mbxArg 0)) = none) :
    s.tableRead = s.mbxEnd stOk (leBytes 4 8 ++ leBytes 8 0) := by
  rw [State.tableRead, State.mbxRun_runs _ _ _ hrun hopen hlive (.inl hcore)]
  dsimp only
  split
  case h_1 x hbad hx =>
    simp only [Bool.or_eq_false_iff, decide_eq_false_iff_not] at hbad
    rcases h with hctx | hvpn | hnone
    · exact absurd hctx hbad.1
    · exact absurd hvpn hbad.2
    · exact absurd (hnone.symm.trans hx) (by simp)
  case h_2 => rfl

end

/-! ## Invalidation (R111) -/

section
variable {c : Byte} {all : Bool}

theorem exec_invalidate : exec (.invalidate c all) s = .next (s.invalidate c all) := rfl

theorem State.invalidate_of_idle (h : s.hst.invBusy = none) :
    s.invalidate c all = { s with hst := { s.hst with invCtx := c, invAll := all, invBusy := some (all, c) } } := by
  simp only [State.invalidate, h, Option.isSome_none, Bool.false_eq_true, if_false]

theorem State.invalidate_of_busy (h : s.hst.invBusy ≠ none) :
    s.invalidate c all = { s with hst := { s.hst with invCtx := c, invAll := all } } := by
  simp only [State.invalidate, Option.isSome_iff_ne_none.2 h, if_true]

theorem exec_invalidateDone : exec .invalidateDone s = .next s.invalidateDone := rfl

theorem State.invalidateDone_of_idle (h : s.hst.invBusy = none) : s.invalidateDone = s := by
  simp only [State.invalidateDone, h]

theorem State.invalidateDone_of_all (h : s.hst.invBusy = some (true, c)) : s.invalidateDone =
    { s.mapCtxs fun x => { x with stale := [] } with hst := { s.hst with invBusy := none } } := by
  simp only [State.invalidateDone, h, if_true, State.mapCtxs_hst]

theorem State.invalidateDone_of_one (h : s.hst.invBusy = some (false, c)) : s.invalidateDone =
    { s.modCtx (ctxOf c.toNat) fun x => { x with stale := [] } with hst := { s.hst with invBusy := none } } := by
  simp only [State.invalidateDone, h, Bool.false_eq_true, if_false, State.modCtx_hst]

end

/-! ## Evacuation (R116) -/

section
variable {q : BitVec 3} {hits : List SeamHit}

/-- The state in which an evacuation of a quad has begun. -/
def State.evacuating (s : State) (q : BitVec 3) : State :=
  { s with hst := { s.hst with evacQuad := q, evacBusy := true, evacState := 1, evacFull := false } }

theorem exec_evacuate : exec (.evacuate q hits) s = .next (s.evacuate q (s.seamErrs hits)) := rfl

theorem State.evacuate_of_ignored {errs : SeamErrs} (h : s.hst.evacBusy = true ∨ 6 ≤ q.toNat) : s.evacuate q errs = s := by
  have hignored : (s.hst.evacBusy || 6 ≤ q.toNat) = true := by simpa using h
  simp only [State.evacuate, hignored, if_true]

theorem State.evacuate_of_idle {errs : SeamErrs} (hq : q.toNat < 6) (hidle : s.hst.evacBusy = false) : s.evacuate q errs =
    ((s.evacuating q).quadFrames q.toNat).foldl (fun s f => s.evacuatePage q.toNat f)
      ((s.evacuating q).hoistErrs ((s.evacuating q).quadFrames q.toNat) errs) := by
  have hgo : (s.hst.evacBusy || 6 ≤ q.toNat) = false := by simpa [hidle] using hq
  simp only [State.evacuate, hgo, Bool.false_eq_true, if_false]
  rfl

theorem State.quadFrames_eq_nil {n : Nat} (h : ∀ f ∈ s.frames.keys, f / dieStride / 4 ≠ n) : s.quadFrames n = [] := by
  refine List.map_eq_nil_iff.2 (List.filter_eq_nil_iff.2 fun e he => ?_)
  simp [h e.1 (List.mem_map_of_mem he)]

theorem State.evacuatePage_of_full {n f : Nat} (h : s.hst.evacFull = true) : s.evacuatePage n f = s := by
  simp only [State.evacuatePage, h, if_true]

theorem State.foldl_evacuatePage_of_full {n : Nat} (h : s.hst.evacFull = true) (fs : List Nat) :
    fs.foldl (fun s f => s.evacuatePage n f) s = s := by
  induction fs with
  | nil => rfl
  | cons f fs ih => rw [List.foldl_cons, State.evacuatePage_of_full h, ih]

theorem State.evacuatePage_of_room {n f d g : Nat} {e : Frame} (hfull : s.hst.evacFull = false) (he : s.frames.get? f = some e)
    (huse : e.use ≠ .withheld) (hsound : s.poisonedAt f = none) (hdie : s.anyDieBut n = some d) (hfree : s.freeFrame d = some g) :
    s.evacuatePage n f = s.moveFrame f g := by
  simp only [State.evacuatePage, hfull, he, beq_eq_false_iff_ne.2 huse, hsound, hdie, Option.bind_some, hfree, Bool.false_eq_true, if_false]

theorem exec_evacuationDone : exec .evacuationDone s = .next s.evacuationDone := rfl

theorem State.evacuationDone_of_full (hbusy : s.hst.evacBusy = true) (hfull : s.hst.evacFull = true) :
    s.evacuationDone = { s with hst := { s.hst with evacBusy := false, evacState := 3 } } := by
  simp only [State.evacuationDone, hbusy, if_true, State.foldl_evacuatePage_of_full hfull, hfull]

theorem State.evacuationDone_of_emptied (hbusy : s.hst.evacBusy = true) (hroom : s.hst.evacFull = false)
    (hempty : s.quadFrames s.hst.evacQuad.toNat = []) :
    s.evacuationDone = { s with hst := { s.hst with evacBusy := false, evacState := 2 } } := by
  simp only [State.evacuationDone, hbusy, hempty, List.foldl_nil, hroom, Bool.false_eq_true, List.isEmpty_nil, if_true, if_false]

end

end

/-- Settles O26: each clause is one outcome of a direct write, of TABLE_READ, of an invalidation or of an evacuation. -/
theorem tableWritesInvalidateEvacuate : Obligations.TableWritesInvalidateEvacuate := by
  unfold Obligations.TableWritesInvalidateEvacuate
  simp only [exec_directTableWrite, exec_tableRead, exec_invalidate, exec_invalidateDone, exec_evacuate, exec_evacuationDone]
  refine ⟨fun s c x hx => ⟨fun hdefined hnew hold htable => ?written, fun htable => ?noTable⟩, fun s c hx => ?noContext,
    fun s hrun hopen hlive hcore => ⟨fun x hctx hvpn hx => ?entry, fun hbad => ?bad⟩,
    fun s c all => ⟨fun hidle => ?invalidates, fun hbusy => ?invalidating⟩,
    fun s c => ⟨fun hall => ?doneAll, fun hone => ?doneOne, fun hidle => ?doneNone⟩,
    fun s q hq hidle hnone => ?evacuatesNone, fun s q hits hq hidle => ?evacuates,
    fun s q f d g e hfull he huse hsound hdie hfree => ?moved, fun s q hits hignored => ?ignored,
    fun s hbusy => ⟨fun hfull => ?full, fun hroom hempty => ?emptied⟩⟩
  case written =>
    exact congrArg _ (State.directWrite_of_accepted hx (dtwRefused_eq_false_iff.2 ⟨hnew, hdefined, hold, htable⟩))
  case noTable => exact congrArg _ (State.directWrite_of_refused hx (dtwRefused_of_noTable htable))
  case noContext => exact congrArg _ (State.directWrite_of_noContext hx)
  case entry => exact congrArg _ (State.tableRead_of_context hrun hopen hlive hcore hctx hvpn hx)
  case bad => exact congrArg _ (State.tableRead_of_bad hrun hopen hlive hcore hbad)
  case invalidates => exact congrArg _ (State.invalidate_of_idle hidle)
  case invalidating => exact congrArg _ (State.invalidate_of_busy hbusy)
  case doneAll => exact congrArg _ (State.invalidateDone_of_all hall)
  case doneOne => exact congrArg _ (State.invalidateDone_of_one hone)
  case doneNone => exact congrArg _ (State.invalidateDone_of_idle hidle)
  case evacuatesNone =>
    have hempty : (s.evacuating q).quadFrames q.toNat = [] := State.quadFrames_eq_nil hnone
    rw [State.evacuate_of_idle hq hidle, hempty, List.foldl_nil]
    exact congrArg _ (State.hoistErrs_of_noHits (s := s.evacuating q))
  case evacuates => exact congrArg _ (State.evacuate_of_idle hq hidle)
  case moved => exact State.evacuatePage_of_room hfull he huse hsound hdie hfree
  case ignored => exact congrArg _ (State.evacuate_of_ignored hignored)
  case full => exact congrArg _ (State.evacuationDone_of_full hbusy hfull)
  case emptied => exact congrArg _ (State.evacuationDone_of_emptied hbusy hroom hempty)

end Sys2Proof.Machine

/-! Rings of commands: doorbells, ring heads, STOP, and the fetch of descriptors (05_commands.md R131 to R136, R140). -/

namespace Sys2Proof.Machine

section
variable {s : State} {c : CtxId} {x : Context}

/-! ## Doorbells (R131) -/

section
variable {fn : FnId} {slot : Fin 32} {v : Word}

theorem exec_sqDb : exec (.sqDb fn slot v) s = .next (s.sqDb fn slot v) := rfl

theorem doorbellOk_iff {head tail : Word} {size : Nat} :
    doorbellOk v head tail size = true ↔ (v - head).toNat ≤ size ∧ (v - tail).toNat ≤ size := by
  simp [doorbellOk]

theorem State.sqDb_of_emptySlot (h : s.ctxAt fn slot = none) : s.sqDb fn slot v = s.regViol := by
  simp only [State.sqDb, h]

theorem State.sqDb_of_accepted (hslot : s.ctxAt fn slot = some (c, x)) (hv : doorbellOk v x.sqHead x.sqTail (2 ^ x.sqLog) = true) :
    s.sqDb fn slot v = s.modCtx c fun y => { y with sqTail := v } := by
  simp only [State.sqDb, hslot, hv, if_true]

theorem State.sqDb_of_refused (hslot : s.ctxAt fn slot = some (c, x)) (hv : doorbellOk v x.sqHead x.sqTail (2 ^ x.sqLog) = false) :
    s.sqDb fn slot v = s.dbBad c := by
  simp only [State.sqDb, hslot, hv, Bool.false_eq_true, if_false]

end

/-! ## Ring heads and STOP (R134, R135) -/

section
variable {h : Word} {on : Bool}

theorem exec_cqHeadWrite : exec (.cqHeadWrite c h) s = .next (s.cqHeadWrite c h) := rfl
theorem exec_stopFetch : exec (.stopFetch c on) s = .next (s.writeStop c on) := rfl

theorem State.cqHeadWrite_of_noContext (hx : s.ctx? c = none) : s.cqHeadWrite c h = s.regViol := by
  simp only [State.cqHeadWrite, hx]

theorem State.cqHeadWrite_of_accepted (hx : s.ctx? c = some x) (hle : (x.cqTail - h).toNat ≤ (x.cqTail - x.cqHead).toNat) :
    s.cqHeadWrite c h = s.modCtx c fun y => { y with cqHead := h, cqIrqs := unconsumed y.cqIrqs h y.cqTail } := by
  simp only [State.cqHeadWrite, hx, headOk, decide_eq_true hle, if_true]

theorem State.cqHeadWrite_of_refused (hx : s.ctx? c = some x) (hgt : (x.cqTail - x.cqHead).toNat < (x.cqTail - h).toNat) :
    s.cqHeadWrite c h = s.dbBad c := by
  simp only [State.cqHeadWrite, hx, headOk, decide_eq_false (Nat.not_le.2 hgt), Bool.false_eq_true, if_false]

/-- DB_BAD counts in its context alone. -/
theorem State.ctx?_dbBad_same : (s.dbBad c).ctx? c = (s.ctx? c).map fun y => { y with dbBad := satInc y.dbBad } :=
  State.ctx?_modCtx_same s c _

theorem State.ctx?_dbBad_other {d : CtxId} (h : d ≠ c) : (s.dbBad c).ctx? d = s.ctx? d := State.ctx?_modCtx_other s c d _ h

theorem State.writeStop_of_noContext (hx : s.ctx? c = none) : s.writeStop c on = s.regViol := by
  simp only [State.writeStop, hx]

theorem State.writeStop_of_context (hx : s.ctx? c = some x) :
    s.writeStop c on = s.modCtx c fun y => { y with stop := on || y.fenced } := by
  simp only [State.writeStop, hx]

end

/-! ## Fetch (R132, R133, R140) -/

/-- The command that a fetch of `desc` from context `x` makes, before its descriptor is checked. -/
def State.fetchedCmd (s : State) (x : Context) (desc : List Byte) : Cmd :=
  { cmdReset with seq := x.sqHead, stamp := s.cfe.stamp, desc := desc, endIdx := noOp }

/-- The state once command `k` has been fetched as the next of context `c`. -/
def State.takeCmd (s : State) (c : CtxId) (k : Cmd) : State :=
  (({ (s.modCtx c fun y => { y with sqHead := y.sqHead + 1, cmds := y.cmds ++ [k] }) with
    cfe := { s.cfe with stamp := s.cfe.stamp + 1 } }).tallyHost c 128).settle

section
variable {desc : List Byte}

theorem exec_commandFetch : exec (.commandFetch c desc) s = .next (s.fetch c desc) := rfl

theorem exec_stepFetch_of_step (h : isStepDesc desc = true) : exec (.stepFetch c desc) s = .next (s.fetch c desc) :=
  congrArg _ (if_pos h)

theorem exec_stepFetch_of_other (h : isStepDesc desc = false) : exec (.stepFetch c desc) s = .next s :=
  congrArg _ (if_neg (Bool.eq_false_iff.1 h))

/-- A descriptor of 128 bytes is fetched whole. -/
theorem slice_whole {n : Nat} (h : desc.length = n) : slice desc 0 n = desc := by
  simpa [h] using slice_append [] desc []

theorem State.fetch_of_mayNot (hx : s.ctx? c = some x) (hmay : s.mayFetch x = false) : s.fetch c desc = s := by
  simp only [State.fetch, hx, hmay, Bool.false_eq_true, if_false]

section
variable (hx : s.ctx? c = some x) (hlen : desc.length = 128) (hmay : s.mayFetch x = true)
include hx hlen hmay

theorem State.fetch_of_wellFormed (hgood : descriptorBad (s.fetchedCmd x desc) = false) :
    s.fetch c desc = s.takeCmd c (s.fetchedCmd x desc) := by
  simp only [State.fetchedCmd] at hgood
  simp only [State.fetch, hx, hmay, slice_whole hlen, hgood, Bool.false_eq_true, if_false, if_true]
  rfl

theorem State.fetch_of_malformed (hbad : descriptorBad (s.fetchedCmd x desc) = true) :
    s.fetch c desc = s.takeCmd c { s.fetchedCmd x desc with bad := true, ending := some stBad } := by
  simp only [State.fetchedCmd] at hbad
  simp only [State.fetch, hx, hmay, slice_whole hlen, hbad, if_true]
  rfl

end

end

end

/-- Settles O60: an accepted write moves CQ_HEAD alone, a refused one counts alone. -/
theorem cqHeadAcceptsOnlyConsumedEntries : Obligations.CqHeadAcceptsOnlyConsumedEntries := by
  unfold Obligations.CqHeadAcceptsOnlyConsumedEntries
  intro s c h x hx
  rw [exec_cqHeadWrite]
  rcases Nat.lt_or_ge (x.cqTail - x.cqHead).toNat (x.cqTail - h).toNat with hgt | hle
  case inl =>
    rw [State.cqHeadWrite_of_refused hx hgt]
    refine ⟨_, _, rfl, State.ctx?_dbBad_same.trans (congrArg _ hx), rfl, fun d hd => State.ctx?_dbBad_other hd,
      fun hle => absurd hgt (Nat.not_lt.2 hle), fun _ => ⟨rfl, rfl⟩⟩
  case inr =>
    rw [State.cqHeadWrite_of_accepted hx hle]
    refine ⟨_, _, rfl, (State.ctx?_modCtx_same s c _).trans (congrArg _ hx), rfl, fun d hd => State.ctx?_modCtx_other s c d _ hd,
      fun _ => ⟨rfl, rfl⟩, fun hgt => absurd hgt (Nat.not_lt.2 hle)⟩

/-- Settles O28: each clause is one outcome of a doorbell, of a head write, of STOP or of a fetch. -/
theorem ringsFetchAndStop : Obligations.RingsFetchAndStop := by
  unfold Obligations.RingsFetchAndStop
  simp only [exec_sqDb, exec_cqHeadWrite, exec_stopFetch, exec_commandFetch]
  refine ⟨fun s fn slot v => ⟨fun hnone => ?emptySlot, fun c x hslot hhead htail => ?accepted, fun c x hslot h => ?refused⟩,
    fun s c x h hx => ⟨fun hle => ?headAccepted, fun hgt => ?headRefused, fun on => ?stop⟩,
    fun s c hnone h on => ⟨?headNoContext, ?stopNoContext⟩,
    fun s c x desc hx hlen =>
      ⟨fun hmay hgood => ?wellFormed, fun hmay hbad => ?malformed, fun hmay => ?mayNot, fun hother => ?otherDesc⟩⟩
  case emptySlot => exact congrArg _ (State.sqDb_of_emptySlot hnone)
  case accepted => exact congrArg _ (State.sqDb_of_accepted hslot (doorbellOk_iff.2 ⟨hhead, htail⟩))
  case refused =>
    have hv : doorbellOk v x.sqHead x.sqTail (2 ^ x.sqLog) = false := by
      rw [Bool.eq_false_iff, ne_eq, doorbellOk_iff, not_and_or, Nat.not_le, Nat.not_le]
      exact h
    exact congrArg _ (State.sqDb_of_refused hslot hv)
  case headAccepted => exact congrArg _ (State.cqHeadWrite_of_accepted hx hle)
  case headRefused => exact congrArg _ (State.cqHeadWrite_of_refused hx hgt)
  case stop => exact congrArg _ (State.writeStop_of_context hx)
  case headNoContext => exact congrArg _ (State.cqHeadWrite_of_noContext hnone)
  case stopNoContext => exact congrArg _ (State.writeStop_of_noContext hnone)
  case wellFormed =>
    have hfetch := State.fetch_of_wellFormed hx hlen hmay hgood
    exact ⟨congrArg _ hfetch, fun hstep => (exec_stepFetch_of_step hstep).trans (congrArg _ hfetch)⟩
  case malformed => exact congrArg _ (State.fetch_of_malformed hx hlen hmay hbad)
  case mayNot => exact congrArg _ (State.fetch_of_mayNot hx hmay)
  case otherDesc => exact exec_stepFetch_of_other hother

end Sys2Proof.Machine

/-! A Field operation that does not run: a malformed descriptor, a wait point, the end of the list (05_commands.md R140, R142;
02_field.md R38, R48, R50). -/

namespace Sys2Proof.Machine

section
variable {s s1 : State} {c : CtxId} {x : Context} {k : Cmd} {o : FOp} {va count : Nat} {errs : SeamErrs} {want : FOp → Bool}

/-! ## No operation starts (R59) -/

theorem State.runOp_of_noHolder (h : s.holder? = none) : s.runOp want errs = s := by
  simp only [State.runOp, h]

theorem State.runOp_of_frozen (h : s.fld.frozen = true) : s.runOp want errs = s := by
  unfold State.runOp
  split
  case h_1 => rfl
  case h_2 => simp only [h, Bool.or_true, if_true]

/-! ## The descriptor of the next operation is read -/

section
variable (hholder : s.holder? = some (c, x, k)) (hrun : k.canRun = true) (hfrozen : s.fld.frozen = false)
  (hsource : s.opSource c k = some (va, count)) (hgate : s.gate c k.seq [(va, 128)] { errs with ce := [] } = .go s1)
  (hwant : want (fop (s.cmdBytes x k va 128)) = true)
include hholder hrun hfrozen hsource hgate hwant

/-- R38: a malformed descriptor ends its command with BAD_DESCRIPTOR. -/
theorem State.runOp_of_malformed (hbad : s.opBad c k (fop (s.cmdBytes x k va 128)) = true) :
    s.runOp want errs = s1.endWith c k.seq stBad k.opNumber := by
  simp only [State.runOp, hholder, hrun, hfrozen, hsource, hgate, hwant, hbad, Bool.not_true, Bool.or_self, Bool.and_false,
    Bool.false_eq_true, if_false, if_true]

/-- A well-formed operation comes to its wait point, if it has one. -/
theorem State.runOp_of_wellFormed (hgood : s.opBad c k (fop (s.cmdBytes x k va 128)) = false) :
    s.runOp want errs = s1.waitPoint c x k (fop (s.cmdBytes x k va 128)) count errs := by
  simp only [State.runOp, hholder, hrun, hfrozen, hsource, hgate, hwant, hgood, Bool.not_true, Bool.or_self, Bool.and_false,
    Bool.false_eq_true, if_false]

end

/-! ## The wait point (R50, R142) -/

section
variable (hwait : o.wait = true) (hnew : k.passedWait = false)
include hwait hnew

theorem State.waitPoint_of_pending (htag : x.tagDone o.waitTag = none) : s.waitPoint c x k o count errs = s.park c k o.waitTag := by
  simp only [State.waitPoint, hwait, hnew, htag, Bool.not_true, Bool.or_self, Bool.false_eq_true, if_false]

theorem State.waitPoint_of_failed {st : Byte} (htag : x.tagDone o.waitTag = some st) (hst : st ≠ stOk) :
    s.waitPoint c x k o count errs = s.endWith c k.seq st k.opNumber := by
  simp only [State.waitPoint, hwait, hnew, htag, beq_false_of_ne hst, Bool.not_true, Bool.or_self, Bool.false_eq_true, if_false]

theorem State.waitPoint_of_ok (htag : x.tagDone o.waitTag = some stOk) : s.waitPoint c x k o count errs =
    (s.modCmd c k.seq fun j => { j with passedWait := true }).opRun c { k with passedWait := true } o count errs := by
  simp only [State.waitPoint, hwait, hnew, htag, BEq.rfl, Bool.not_true, Bool.or_self, Bool.false_eq_true, if_false, if_true]

end

/-! ## The end of the list (R48) -/

theorem State.listDone_of_command {seq : Word} (hk : s.cmd? c seq = some k) (hlist : k.step = none) :
    s.listDone c seq = s.endWith c seq k.goodStatus k.opIdx := by
  simp only [State.listDone, hk, hlist]

/-! ## The rows -/

section
variable {hits : List SeamHit}

theorem exec_matmul : exec (.matmul hits) s = .next (s.runOp (ofClass 1) (s.seamErrs hits)) := rfl
theorem exec_conv : exec (.conv hits) s = .next (s.runOp (ofClass 3) (s.seamErrs hits)) := rfl
theorem exec_reduce : exec (.reduce hits) s = .next (s.runOp (ofClass 7) (s.seamErrs hits)) := rfl
theorem exec_repack : exec (.repack hits) s = .next (s.runOp (ofClass 9) (s.seamErrs hits)) := rfl
theorem exec_optstep : exec (.optstep hits) s = .next (s.runOp (ofClass 12) (s.seamErrs hits)) := rfl
theorem exec_noise : exec (.noise hits) s = .next (s.runOp (ofStats 3) (s.seamErrs hits)) := rfl

theorem ofClass_of_eq {n : Nat} (h : o.cls = n) : ofClass n o = true := beq_iff_eq.2 h

end

end

/-- Settles O19: each clause is one outcome of `State.runOp`, of its wait point or of `State.listDone`. -/
theorem fieldOperationsStopOrWait : Obligations.FieldOperationsStopOrWait := by
  unfold Obligations.FieldOperationsStopOrWait
  simp only [exec_matmul, exec_conv, exec_reduce, exec_repack, exec_optstep, exec_noise]
  refine ⟨fun s s1 c x k va count hits hholder hrun hfrozen hsource hgate hbad hcls => ?malformed,
    fun s s1 c x k va count hits hholder hrun hfrozen hsource hgate hgood hcls hwait hnew => ?waitPoint,
    fun s c k hlist hk => State.listDone_of_command hk hlist, fun s hits hnone => ?noHolder, fun s hits hfrozen => ?frozen⟩
  case malformed =>
    exact congrArg _ (State.runOp_of_malformed hholder hrun hfrozen hsource hgate (ofClass_of_eq hcls) hbad)
  case waitPoint =>
    rw [State.runOp_of_wellFormed hholder hrun hfrozen hsource hgate (ofClass_of_eq hcls) hgood]
    exact ⟨fun htag => congrArg _ (State.waitPoint_of_pending hwait hnew htag),
      fun st htag hst => congrArg _ (State.waitPoint_of_failed hwait hnew htag hst),
      fun htag => congrArg _ (State.waitPoint_of_ok hwait hnew htag)⟩
  case noHolder => simp only [State.runOp_of_noHolder hnone, and_self]
  case frozen => simp only [State.runOp_of_frozen hfrozen, and_self]

end Sys2Proof.Machine

/-! How a command is dispatched, killed, ended and recorded (05_commands.md R139, R140, R143, R146 to R153; 06_scheduling_streams.md
R163). -/

namespace Sys2Proof.Machine

section
variable {s : State} {c : CtxId} {x : Context} {k : Cmd} {seq : Word}

/-! ## Dispatch (R139, R140) -/

theorem exec_commandDispatch {hits : List SeamHit} : exec (.commandDispatch c hits) s = .next (s.dispatch c (s.seamErrs hits)) := rfl

theorem Context.fetched_of_nextCmd (h : x.nextCmd = some k) : k.phase = .fetched ∧ k.ending = none ∧ k.killing = none := by
  have hfound := List.find?_some h
  simpa only [Bool.and_eq_true, beq_iff_eq, Option.isNone_iff_eq_none, and_assoc] using hfound

theorem Cmd.usesField_of_isField (h : k.isField = true) : k.usesField = true := by
  simp only [Cmd.usesField, h, Bool.true_or]

theorem Cmd.isStep_of_isField (h : k.isField = true) : k.isStep = false := by
  have hkind : k.kind = 1 := by simpa only [Cmd.isField, beq_iff_eq] using h
  simp [Cmd.isStep, Cmd.isServe, hkind]

/-- MAINT and the core reset hold every dispatch back. -/
theorem State.dispatch_of_held {errs : SeamErrs} (h : s.fld.maint = true ∨ s.rst.coreHeld = true) : s.dispatch c errs = s := by
  unfold State.dispatch
  split
  case h_1 => rfl
  case h_2 => rcases h with h | h <;> simp only [h, Bool.or_true, Bool.true_or, if_true]

/-- A command off the Field starts with its context's version of memory. -/
theorem State.startRun_of_offField {pages : List Nat} {r3 : Bool} (hx : s.ctx? c = some x) (h : k.usesField = false) :
    s.startRun c k pages r3 = s.modCmd c k.seq fun j =>
      { j with phase := .running, versions := x.pt, touched := pages, opIdx := 0, endIdx := noOp } := by
  have hstep : k.isStep = false := (Bool.or_eq_false_iff.1 h).2
  simp only [State.startRun, hx, h, hstep, Bool.false_and, Bool.false_eq_true, if_false]

/-- A footprint of no entries lies in no page. -/
theorem pagesOf_noFootprint (h : k.footCount = 0) : pagesOf k.footVa (16 * k.footCount) = [] := by
  simp only [h, Nat.mul_zero, pagesOf, if_true]

theorem State.listWaits_of_noFootprint (h : k.footCount = 0) : s.listWaits x k = false := by
  simp only [State.listWaits, pagesOf_noFootprint h, Context.notResident, List.filter_nil, List.isEmpty_nil, Bool.not_true, Bool.and_false]

theorem State.footPages_of_noFootprint (h : k.footCount = 0) : s.footPages x k = ([], []) := by
  have hbytes : s.footBytes x k = [] := by simp only [State.footBytes, h, List.range_zero, List.map_nil]
  simp only [State.footPages, hbytes, pagesOf_noFootprint h, List.map_nil, List.filter_nil, List.flatMap_nil, List.append_nil,
    List.eraseDups_nil]

theorem State.listErrs_of_noHits : s.listErrs x k (s.seamErrs []) = s := rfl

theorem State.makeRoom_of_room {fn : FnId} {fuel : Nat} (h : s.seamRoom fn 0 = true) : s.makeRoom fn 0 (fuel + 1) = s := by
  simp only [State.makeRoom, h, Nat.zero_le, decide_true, Bool.and_self, if_true]

/-- R140: the first check that fails ends the command that the Scheduler chose. -/
theorem State.dispatchField_of_failed {r3 : Bool} {st : Byte} (hchoice : s.choice = some (c, k, r3))
    (hst : s.dispatchChecks c x k = some st) : s.dispatchField c x k = s.endWith c k.seq st noOp := by
  simp only [State.dispatchField, hchoice, hst, BEq.rfl, Bool.and_self, Option.isSome_some, Bool.true_or, if_true]

/-- R139: the command that the Scheduler chose, with no footprint, runs at once. -/
theorem State.dispatchField_of_passed {r3 : Bool} (hchoice : s.choice = some (c, k, r3)) (hfoot : k.footCount = 0)
    (hpass : s.dispatchChecks c x k = none) (hroom : s.seamRoom x.fn 0 = true) :
    s.dispatchField c x k = (s.modCmd c k.seq fun j => { j with touched := [] }).startRun c k [] r3 := by
  have hroom' : (s.modCmd c k.seq fun j => { j with touched := [] }).seamRoom x.fn 0 = true := hroom
  simp only [State.dispatchField, hchoice, hpass, State.footPages_of_noFootprint hfoot, Context.notResident, List.eraseDups_nil,
    List.filter_nil, List.isEmpty_nil, List.length_nil, State.makeRoom_of_room hroom', State.reserveShadows, BEq.rfl, Bool.and_self,
    Bool.not_true, Bool.false_eq_true, if_false, if_true]

section
variable {errs : SeamErrs} (hx : s.ctx? c = some x) (hnext : x.nextCmd = some k) (hready : s.dispatchable x k = true)
  (hstalled : k.stalled = []) (hmaint : s.fld.maint = false) (hcore : s.rst.coreHeld = false) (hlist : s.listWaits x k = false)
include hx hnext hready hstalled hmaint hcore hlist

theorem State.dispatch_of_offField (hfield : k.usesField = false) : s.dispatch c errs =
    (if k.hoistUnknown then (s.startRun c k [] false).endWith c k.seq stBad 0 else s.startRun c k [] false).settle := by
  simp only [State.dispatch, hx, hnext, hready, hstalled, hmaint, hcore, hlist, hfield, Option.bind_some, Option.map_some, List.isEmpty_nil,
    Bool.not_true, Bool.or_self, Bool.false_eq_true, if_false]

theorem State.dispatch_of_field (hfield : k.isField = true) : s.dispatch c (s.seamErrs []) = (s.dispatchField c x k).settle := by
  simp only [State.dispatch, hx, hnext, hready, hstalled, hmaint, hcore, hlist, Cmd.usesField_of_isField hfield,
    Cmd.isStep_of_isField hfield, State.listErrs_of_noHits, Option.bind_some, Option.map_some, List.isEmpty_nil, Bool.not_true, Bool.or_self,
    Bool.false_and, Bool.false_eq_true, if_false, if_true]

end

/-! ## MARKER (R140) -/

theorem exec_marker : exec (.marker c) s = .next (s.marker c) := rfl

theorem State.marker_of_running (hx : s.ctx? c = some x)
    (hk : x.cmds.find? (fun k => k.isMarker && k.phase == .running && k.ending.isNone) = some k) :
    s.marker c = s.endWith c k.seq stOk 0 := by
  simp only [State.marker, hx, hk, Option.bind_some]

/-! ## Kills (R147 to R149) -/

theorem exec_killOne : exec (.killOne c) s = .next (s.killOne c) := rfl
theorem exec_killAll : exec (.killAll c) s = .next (s.killAll c) := rfl
theorem exec_killComplete : exec (.killComplete c seq) s = .next (s.killComplete c seq) := rfl

theorem State.killOne_of_context (hx : s.ctx? c = some x) : s.killOne c = (s.requestKill c x.killSeq .software).settle := by
  simp only [State.killOne, hx]

theorem State.killAll_of_context (hx : s.ctx? c = some x) :
    s.killAll c = (x.cmds.foldl (fun s k => s.requestKill c k.seq .software) s).settle := by
  simp only [State.killAll, hx]

/-- Software kills what is not being killed, or only by a deadline (Table 5.6). -/
theorem Cmd.mayKill_software : k.mayKill .software = k.killing.all (·.isDeadline) := by
  cases hk : k.killing with
  | none => simp only [Cmd.mayKill, hk, Option.all_none]
  | some w => simp only [Cmd.mayKill, hk, Option.all_some, KillCause.isDeadline, Bool.not_false, Bool.and_true]

theorem State.requestKill_software : s.requestKill c seq .software = s.modCmd c seq fun k =>
    if k.usesField = true ∧ k.ending = none ∧ k.killing.all (·.isDeadline) = true then { k with killing := some .software } else k := by
  refine congrArg (s.modCmd c seq) (funext fun k => ?_)
  have hkept : (!k.usesField || k.ending.isSome || !k.mayKill .software) = true ↔
      ¬ (k.usesField = true ∧ k.ending = none ∧ k.killing.all (·.isDeadline) = true) := by
    simp only [Cmd.mayKill_software, Bool.or_eq_true, Bool.not_eq_true', Option.isSome_iff_ne_none, ne_eq, not_and_or, Bool.not_eq_true,
      or_assoc]
  simp only [hkept, ite_not, ite_self]

theorem State.killComplete_of_killing {why : KillCause} (hk : s.cmd? c seq = some k) (hwhy : k.killing = some why) :
    s.killComplete c seq = (if ((s.killDone c k why).cmd? c seq).any (·.finished) then (s.killDone c k why).recordDue c seq
      else s.killDone c k why).settle := by
  simp only [State.killComplete, hk, hwhy]

/-! ## The end of a command and its record (R146, R152) -/

theorem exec_commandEnd : exec (.commandEnd c seq) s = .next (s.commandEnd c seq) := rfl

section
variable {st : Byte} (hk : s.cmd? c seq = some k) (hst : k.ending = some st)
include hk hst

theorem State.commandEnd_of_unfinished (h : k.finished = false) :
    s.commandEnd c seq = ((s.conclude c k st).recordDue c seq).settle := by
  simp only [State.commandEnd, hk, hst, h, Bool.false_eq_true, if_false]

theorem State.commandEnd_of_finished (h : k.finished = true) : s.commandEnd c seq = (s.flushRecords c).settle := by
  simp only [State.commandEnd, hk, hst, h, if_true]

end

/-- An update of a context is what it makes of that context. -/
theorem State.modCtx_congr {f g : Context → Context} (hx : s.ctx? c = some x) (h : f x = g x) : s.modCtx c f = s.modCtx c g := by
  have hc : vget s.ctxs c = some x := hx
  simp only [State.modCtx, vmod, hc, Option.map_some, h]

theorem State.flushRecords_of_one (hx : s.ctx? c = some x) (h : x.ends = [seq]) : s.flushRecords c = s.writeRecord c seq := by
  simp only [State.flushRecords, hx, h, List.foldl_cons, List.foldl_nil]

theorem State.recordDue_of_first (hx : s.ctx? c = some x) (h : x.ends = []) :
    s.recordDue c seq = (s.modCtx c fun y => { y with ends := [seq] }).writeRecord c seq := by
  have hends : s.modCtx c (fun y => { y with ends := y.ends.filter (· != seq) ++ [seq] }) =
      s.modCtx c fun y => { y with ends := [seq] } :=
    State.modCtx_congr hx (by simp only [h, List.filter_nil, List.nil_append])
  rw [State.recordDue, hends]
  exact State.flushRecords_of_one ((State.ctx?_modCtx_same s c _).trans (congrArg _ hx)) rfl

/-- The state once the record of command `k` stands at the tail of its context's completion ring, and the command is forgotten. -/
def State.recordWritten (s : State) (c : CtxId) (x : Context) (k : Cmd) (seq : Word) : State :=
  ((s.hostWrite (x.cqBase.toNat + 32 * (x.cqTail.toNat % 2 ^ x.cqLog))
    (recordBytes k (k.ending.getD stOk) (phaseOf x.cqTail (2 ^ x.cqLog)) s.ht)).modCtx c fun y => { y with
      cqTail := y.cqTail + 1
      cmds := y.cmds.filter fun j => j.seq != seq
      cqIrqs := if k.irq then y.cqIrqs ++ [y.cqTail] else y.cqIrqs
      ends := y.ends.filter (· != seq)
      tally := { y.tally with jobs := y.tally.jobs + 1 } }).tallyHost c 32

section
variable (hx : s.ctx? c = some x) (hk : x.cmd? seq = some k)
include hx hk

theorem State.writeRecord_of_mayNot (h : s.mayRequest x.fn = false) : s.writeRecord c seq = s := by
  simp only [State.writeRecord, hx, hk, h, Bool.not_false, if_true]

theorem State.writeRecord_of_mayRequest (h : s.mayRequest x.fn = true) : s.writeRecord c seq =
    (if k.irq then (s.recordWritten c x k seq).irqEvent c.val else s.recordWritten c x k seq).gcReplaced := by
  simp only [State.writeRecord, hx, hk, h, Bool.not_true, Bool.false_eq_true, if_false]
  rfl

/-! ## Canaries and tenures (R143; 06_scheduling_streams.md R163) -/

theorem State.waitExpiry_of_pending (hphase : k.phase = .parked) (hend : k.ending = none) (hkill : k.killing = none)
    (htag : x.tagDone k.tag = none) :
    s.waitExpiry c seq = (s.endWith c seq stTimeout k.opNumber).raise 0x20 1 (leBytes 4 c.val) := by
  simp only [State.waitExpiry, hx, hk, hphase, hend, hkill, htag, Option.bind_some, Option.map_some, Option.isNone_none, BEq.rfl,
    Bool.and_self, if_true]
  rfl

end

theorem exec_waitLimitExpiry : exec (.waitLimitExpiry c seq) s = .next (s.waitExpiry c seq) := rfl
theorem exec_runLimitExpiry : exec .runLimitExpiry s = .next (s.holderTimeout 0x02 fun _ => true) := rfl

theorem State.holderTimeout_of_running {canary : Nat} {p : Cmd → Bool} (hholder : s.holder? = some (c, x, k)) (hp : p k = true)
    (hend : k.ending = none) (hkill : k.killing = none) :
    s.holderTimeout canary p = (s.endWith c k.seq stTimeout k.stopIdx).raise 0x20 canary (leBytes 4 c.val) := by
  simp only [State.holderTimeout, hholder, hp, hend, hkill, Option.isNone_none, Bool.and_self, if_true]
  rfl

end

/-- Settles O29: each clause is one outcome of a dispatch, of a kill, of COMMAND_END or of a Canary. -/
theorem commandsDispatchAndEnd : Obligations.CommandsDispatchAndEnd := by
  unfold Obligations.CommandsDispatchAndEnd
  simp only [exec_commandDispatch, exec_marker, exec_killOne, exec_killAll, exec_killComplete, exec_commandEnd, exec_waitLimitExpiry,
    exec_runLimitExpiry]
  refine ⟨fun s c x k hx hnext hready hstalled hmaint hcore hfield hlist hits => ?offField,
    fun s c x k r3 hx hnext hready hstalled hmaint hcore hfield hfoot hchoice => ?field,
    fun s c hits h => congrArg _ (State.dispatch_of_held h), fun s c x k hx hk => congrArg _ (State.marker_of_running hx hk),
    fun s c x hx => ⟨congrArg _ (State.killOne_of_context hx), congrArg _ (State.killAll_of_context hx)⟩,
    fun s c seq => State.requestKill_software, fun x k hnext => Context.fetched_of_nextCmd hnext,
    fun s c seq k why hk hwhy => congrArg _ (State.killComplete_of_killing hk hwhy),
    fun s c seq k st hk hst => ⟨fun h => congrArg _ (State.commandEnd_of_unfinished hk hst h),
      fun h => congrArg _ (State.commandEnd_of_finished hk hst h)⟩,
    fun s c seq x hx h => State.recordDue_of_first hx h,
    fun s c seq x k hx hk => ⟨State.writeRecord_of_mayNot hx hk, State.writeRecord_of_mayRequest hx hk⟩,
    fun s c seq x k hx hk hphase hend hkill htag => congrArg _ (State.waitExpiry_of_pending hx hk hphase hend hkill htag),
    fun s c x k hholder hend hkill => congrArg _ (State.holderTimeout_of_running hholder rfl hend hkill), fun s => rfl⟩
  case offField =>
    rw [State.dispatch_of_offField hx hnext hready hstalled hmaint hcore hlist hfield, State.startRun_of_offField hx hfield]
  case field =>
    rw [State.dispatch_of_field hx hnext hready hstalled hmaint hcore (State.listWaits_of_noFootprint hfoot) hfield]
    refine ⟨fun hpass hroom => ?passed, fun st hst => ?failed⟩
    case passed => rw [State.dispatchField_of_passed hchoice hfoot hpass hroom]
    case failed => rw [State.dispatchField_of_failed hchoice hst]

end Sys2Proof.Machine

/-! The functions that contexts belong to: no operation moves a context to another function, and few make one go
(05_commands.md R127, R129; 12_host_attachment.md R316). -/

namespace Sys2Proof.Machine

/-- The function of context `c`, where it exists. -/
def State.home (s : State) (c : CtxId) : Option FnId := (s.ctx? c).map (·.fn)

/-- From `s` to `t` no context comes or goes or changes its function, and every function keeps its configuration. -/
structure SameHomes (s t : State) : Prop where
  fns : t.fns = s.fns
  home : ∀ c, t.home c = s.home c

theorem Context.dropLists_fn {x : Context} {k : Cmd} : (x.dropLists k).fn = x.fn := by
  unfold Context.dropLists
  split
  · rfl
  · rfl

namespace SameHomes

section
variable {s t u : State}

theorem refl (s : State) : SameHomes s s := ⟨rfl, fun _ => rfl⟩

theorem trans (h : SameHomes s t) (h' : SameHomes t u) : SameHomes s u :=
  ⟨h'.fns.trans h.fns, fun c => (h'.home c).trans (h.home c)⟩

/-- An update of other parts than the functions and the contexts. -/
theorem upd (h : SameHomes s t) (hfns : u.fns = t.fns) (hctxs : u.ctxs = t.ctxs) : SameHomes s u :=
  h.trans ⟨hfns, fun c => by simp only [State.home, State.ctx?, hctxs]⟩

theorem ite {p : Prop} [Decidable p] (h : SameHomes s t) (h' : SameHomes s u) : SameHomes s (if p then t else u) := by
  split
  · exact h
  · exact h'

theorem foldl {α : Type} {f : State → α → State} {l : List α} (hf : ∀ y e, SameHomes y (f y e)) (h : SameHomes s t) :
    SameHomes s (l.foldl f t) := by
  induction l generalizing t with
  | nil => exact h
  | cons e l ih => exact ih (h.trans (hf t e))

/-- A context that exists still exists. -/
theorem exists_ctx {c : CtxId} (h : SameHomes s t) (hc : s.ctx? c ≠ none) : ∃ x, t.ctx? c = some x := by
  have hsome : (t.home c).isSome = (s.home c).isSome := by rw [h.home c]
  simp only [State.home, Option.isSome_map] at hsome
  exact Option.isSome_iff_exists.1 (hsome.trans (Option.isSome_iff_ne_none.2 hc))

end

section
variable {s t : State} {c : CtxId} {seq : Word} {k : Cmd} (h : SameHomes s t)
include h

/-! ## Updates of contexts -/

theorem modCtx {f : Context → Context} (hf : ∀ x, (f x).fn = x.fn) : SameHomes s (t.modCtx c f) := by
  refine h.trans ⟨rfl, fun d => ?_⟩
  by_cases hd : d = c
  · subst hd
    simp only [State.home, State.ctx?_modCtx_same, Option.map_map, Function.comp_def, hf]
  · simp only [State.home, State.ctx?_modCtx_other _ _ _ _ hd]

theorem modCmd {f : Cmd → Cmd} : SameHomes s (t.modCmd c seq f) := h.modCtx fun _ => rfl

theorem modSlot {n : Nat} {f : WinSlot → WinSlot} : SameHomes s (t.modSlot c n f) := h.modCtx fun _ => rfl

theorem setTag {tag : Nat} {v : TagState} : SameHomes s (t.setTag c tag v) := h.modCtx fun _ => rfl

theorem tallyHost {n : Nat} : SameHomes s (t.tallyHost c n) := .ite (h.modCtx fun _ => rfl) h

/-! ## Updates of other parts -/

theorem hostWrite {a : Nat} {bs : List Byte} : SameHomes s (t.hostWrite a bs) := h.upd rfl rfl

theorem raise {code subject : Nat} {payload : List Byte} : SameHomes s (t.raise code subject payload) := h.upd rfl rfl

theorem updSch {sch : Sch} : SameHomes s { t with sch := sch } := h.upd rfl rfl

theorem updSnp {snp : Snp} : SameHomes s { t with snp := snp } := h.upd rfl rfl

theorem releaseFrame {f : Nat} : SameHomes s (t.releaseFrame f) := h.upd rfl rfl

theorem modSnap {n : SnapId} {f : SnapSlot → SnapSlot} : SameHomes s (t.modSnap n f) := h.upd rfl rfl

theorem modGroup {g : GroupId} {f : Group → Group} : SameHomes s (t.modGroup g f) := h.upd rfl rfl

theorem irqEvent {src : Nat} : SameHomes s (t.irqEvent src) := h.upd (State.irqEvent_fns t src) (State.irqEvent_ctxs t src)

theorem gcReplaced : SameHomes s t.gcReplaced :=
  .foldl (fun y _ => (refl y).modCtx fun _ => rfl) (h.upd rfl rfl)

/-! ## The Scheduler -/

theorem refreshReady : SameHomes s t.refreshReady := by
  refine h.trans ⟨rfl, fun d => ?_⟩
  simp only [State.home, State.ctx?, State.refreshReady, vget_map, Option.map_map, Function.comp_def]

theorem giveField {r3 : Bool} : SameHomes s (t.giveField c k r3) := by
  have htaken : ∀ hold, SameHomes s (({ t with sch := { t.sch with holder := hold } } : State).modCtx c fun x => x.dropLists k) :=
    fun _ => .modCtx h.updSch fun _ => Context.dropLists_fn
  refine .modCmd (.ite ?_ (htaken _))
  split
  · exact .updSch (htaken _)
  · exact htaken _

theorem handoff : SameHomes s t.handoff := by
  unfold State.handoff
  split
  · exact .ite h.giveField h
  · exact h

theorem settle : SameHomes s t.settle := h.refreshReady.handoff

theorem requestKill {why : KillCause} : SameHomes s (t.requestKill c seq why) := h.modCmd

theorem releaseField {acct : ChargeTo} : SameHomes s (t.releaseField acct) := by
  unfold State.releaseField
  split
  case h_1 => exact h
  case h_2 =>
    have hfree : ∀ (d : CtxId) (seq : Word) (ns : Nat),
        SameHomes s (({ t with sch := { t.sch with holder := none } } : State).modCmd d seq fun k => { k with runNs := k.runNs + ns }) :=
      fun _ _ _ => .modCmd h.updSch
    cases acct with
    | nobody => exact .updSch (hfree ..)
    | ctx d =>
      have hcharged : ∀ u ns, SameHomes s u → SameHomes s (u.modCtx d fun x => x.charge ns) := fun _ _ hu => hu.modCtx fun _ => rfl
      refine .updSch ?_
      exact .ite (.modCtx (hcharged _ _ (hfree ..)) fun _ => rfl) (hcharged _ _ (hfree ..))

theorem leaveField {acct : ChargeTo} : SameHomes s (t.leaveField c seq acct) := .ite h.releaseField h

theorem releaseOwn {fs : Assoc Nat} : SameHomes s (t.releaseOwn fs) := .foldl (fun y _ => (refl y).releaseFrame) h

theorem discard : SameHomes s (t.discard c seq) := by
  unfold State.discard
  split
  · exact h
  · exact h.releaseOwn.releaseOwn.modCmd

/-! ## Snapshots -/

theorem handback {n len : Nat} {crc : Word} : SameHomes s (t.handback c n len crc) := by
  unfold State.handback
  split
  · exact h
  · refine .ite h.modSlot ?_
    split
    · exact h
    · exact .tallyHost (.modSlot (.hostWrite (.hostWrite h)))

theorem payDebt {d : SnapDebt} : SameHomes s (t.payDebt d) := by
  unfold State.payDebt
  split
  case h_1 => exact h
  case h_2 x _ =>
    have hzeros : SameHomes s (d.zeros.foldl (fun (y : State) i =>
        (y.hostWrite (x.slotAddr d.record + 512 * i) (List.replicate 512 0)).tallyHost d.ctx 512) t) :=
      .foldl (fun y _ => (refl y).hostWrite.tallyHost) h
    refine .handback ?_
    split
    · exact hzeros.handback
    · exact hzeros

theorem payDebts {fn : FnId} : SameHomes s (t.payDebts fn) :=
  .ite (.foldl (fun y _ => (refl y).payDebt) h.updSnp) h

theorem keepHeld {n : SnapId} {need : List Nat} : SameHomes s (t.keepHeld n need) :=
  .gcReplaced (.modCtx h.modSnap fun _ => rfl)

theorem snapEnd {n : SnapId} {st : Byte} : SameHomes s (t.snapEnd n st) := by
  unfold State.snapEnd
  refine .raise (.keepHeld (.updSnp (.modSnap ?_)))
  split
  · exact .payDebts h.updSnp
  · exact h.updSnp

theorem snapCancel {n : SnapId} : SameHomes s (t.snapCancel n) := .ite (h.upd rfl rfl) (.ite h.snapEnd h)

/-! ## Groups -/

theorem colFinish {g : GroupId} : SameHomes s (t.colFinish g) := by
  unfold State.colFinish
  dsimp only
  split
  · exact h
  · split
    · exact h
    · refine .ite h (.ite (.irqEvent ?_) ?_)
      all_goals exact .setTag (.tallyHost (.modGroup (.modGroup (.hostWrite h))))

theorem finishAll {g : GroupId} {st : Byte} : SameHomes s (t.finishAll g st) :=
  .foldl (fun y _ => (refl y).colFinish) h.modGroup

theorem endGroup {g : GroupId} : SameHomes s (t.endGroup g) :=
  .modGroup (.foldl (fun y _ => (refl y).releaseFrame) h.finishAll)

theorem dropGroup {g : GroupId} : SameHomes s (t.dropGroup g) := .modGroup (.foldl (fun y _ => (refl y).releaseFrame) h)

/-! ## The pages of handles -/

theorem uncharge {x : Context} {vpn : Nat} {p : DWord} : SameHomes s (t.uncharge x vpn p) := .ite (h.upd rfl rfl) h

theorem retireFrame {f : Nat} {use : FrameUse} : SameHomes s (t.retireFrame f use) := h.upd rfl rfl

theorem dropTables : SameHomes s (t.dropTables c) := by
  unfold State.dropTables
  split
  · exact h
  · exact .foldl (fun y _ => (refl y).releaseFrame.modCtx fun _ => rfl) h

theorem freeHandle {n : Nat} : SameHomes s (t.freeHandle c n) := by
  unfold State.freeHandle
  split
  · exact h
  · refine .dropTables (.foldl (fun y _ => .ite (refl y) (refl y).retireFrame) ?_)
    exact .foldl (fun y _ => (refl y).uncharge) (h.modCtx fun _ => rfl)

theorem dropFarOf {p : Nat} : SameHomes s (t.dropFarOf c p) := .ite h (h.modCtx fun _ => rfl)

theorem releaseHandle {n : Nat} : SameHomes s (t.releaseHandle c n) := by
  unfold State.releaseHandle
  split
  case h_1 => exact h
  case h_2 =>
    refine .modCtx (.foldl (fun y p => ?_) h) fun _ => rfl
    have hfar : ∀ o : Option (Nat × Nat), SameHomes y (match o with
        | some (slot, page) => y.dropFarOf c (slot * 512 + page)
        | none => y) := by
      intro o
      split
      · exact (refl y).dropFarOf
      · exact refl y
    exact .ite (refl y).dropFarOf (.ite (.upd (hfar _) rfl rfl) (.releaseFrame (hfar _)))

theorem releasePages : SameHomes s (t.releasePages c) := by
  unfold State.releasePages
  split
  case h_1 => exact h
  case h_2 x _ =>
    have hhandles : SameHomes s (x.handles.foldl (fun (s : State) h => s.releaseHandle c h.1)
        (x.handles.foldl (fun (s : State) h => s.freeHandle c h.1) t)) :=
      .foldl (fun y _ => (refl y).releaseHandle) (.foldl (fun y _ => (refl y).freeHandle) h)
    dsimp only
    split
    case h_1 => exact hhandles
    case h_2 =>
      exact .foldl (fun y _ => .ite (refl y).uncharge (.ite (refl y).releaseFrame (refl y)))
        (.foldl (fun y _ => (refl y).releaseFrame) hhandles)

end

end SameHomes

section
variable {s : State} {c : CtxId}

/-! ## Contexts that go -/

/-- Where the number of a context is taken out of the table, that context alone is gone. -/
theorem State.home_of_vset_none {t u : State} (h : t.ctxs = vset u.ctxs c none) (d : CtxId) :
    t.home d = if d = c then none else u.home d := by
  split
  case isTrue hd => simp only [hd, State.home, State.ctx?, h, vget_vset_same, Option.map_none]
  case isFalse hd => simp only [State.home, State.ctx?, h, vget_vset_other _ _ _ _ hd]

theorem State.forgetContext_fns : (s.forgetContext c).fns = s.fns :=
  (SameHomes.gcReplaced (.refl _)).fns.trans (SameHomes.releasePages (.refl s)).fns

theorem State.forgetContext_home (d : CtxId) : (s.forgetContext c).home d = if d = c then none else s.home d := by
  rw [← (SameHomes.refl s).releasePages.home d]
  exact ((SameHomes.refl _).gcReplaced.home d).trans
    (State.home_of_vset_none (u := (s.releasePages c).streamsCtxGone c) rfl d)

/-- What happens to a context before it is forgotten without records. -/
theorem State.dropContext_eq {x : Context} (hx : s.ctx? c = some x) :
    ∃ t, SameHomes s t ∧ s.dropContext c = t.forgetContext c := by
  simp only [State.dropContext, hx]
  refine ⟨_, ?_, rfl⟩
  refine .foldl (fun y _ => (SameHomes.refl y).dropGroup) (.foldl (fun y _ => (SameHomes.refl y).snapCancel) ?_)
  exact .modCtx (.foldl (fun y _ => (SameHomes.refl y).leaveField.discard) (.refl s)) fun _ => rfl

theorem State.dropContext_of_none (hx : s.ctx? c = none) : s.dropContext c = s := by
  simp only [State.dropContext, hx]

theorem State.dropContext_fns : (s.dropContext c).fns = s.fns := by
  cases hx : s.ctx? c with
  | none => rw [State.dropContext_of_none hx]
  | some x =>
    obtain ⟨t, hsame, heq⟩ := State.dropContext_eq hx
    rw [heq, State.forgetContext_fns, hsame.fns]

theorem State.dropContext_home (d : CtxId) : (s.dropContext c).home d = if d = c then none else s.home d := by
  cases hx : s.ctx? c with
  | none =>
    rw [State.dropContext_of_none hx]
    split
    case isTrue hd => simp only [hd, State.home, hx, Option.map_none]
    case isFalse => rfl
  | some x =>
    obtain ⟨t, hsame, heq⟩ := State.dropContext_eq hx
    rw [heq, State.forgetContext_home, hsame.home]

theorem State.mem_contexts {e : CtxId × Context} : e ∈ s.contexts ↔ s.ctx? e.1 = some e.2 := by
  obtain ⟨d, x⟩ := e
  simp only [State.contexts, List.mem_filterMap, List.mem_finRange, true_and, Option.map_eq_some_iff, Prod.mk.injEq]
  exact ⟨fun ⟨a, y, hy, ha, hyx⟩ => ha ▸ hyx ▸ hy, fun h => ⟨d, x, h, rfl, rfl⟩⟩

section
variable {l : List (CtxId × Context)} {p : FnId → Bool}

theorem State.foldl_dropContext_fns : (l.foldl (fun (s : State) e => s.dropContext e.1) s).fns = s.fns := by
  induction l generalizing s with
  | nil => rfl
  | cons e l ih => rw [List.foldl_cons, ih, State.dropContext_fns]

theorem State.foldl_dropContext_home (d : CtxId) :
    (l.foldl (fun (s : State) e => s.dropContext e.1) s).home d = if d ∈ l.map Prod.fst then none else s.home d := by
  induction l generalizing s with
  | nil => simp
  | cons e l ih =>
    rw [List.foldl_cons, ih, State.dropContext_home, List.map_cons]
    by_cases hd : d = e.1
    · simp only [hd, if_true, ite_self, List.mem_cons, true_or]
    · simp only [hd, if_false, List.mem_cons, false_or]

theorem State.dropContexts_fns : (s.dropContexts p).fns = s.fns := State.foldl_dropContext_fns

/-- No context is left in a function that `p` picks. -/
theorem State.dropContexts_home (d : CtxId) {fn : FnId} (h : (s.dropContexts p).home d = some fn) : p fn = false := by
  rw [State.dropContexts, State.foldl_dropContext_home] at h
  split at h
  case isTrue => cases h
  case isFalse hkept =>
    obtain ⟨x, hx, rfl⟩ := Option.map_eq_some_iff.1 h
    refine Bool.eq_false_iff.2 fun hp => hkept ?_
    exact List.mem_map.2 ⟨(d, x), List.mem_filter.2 ⟨State.mem_contexts.2 hx, hp⟩, rfl⟩

/-- The same once the Field is handed on. -/
theorem State.settle_dropContexts {e : CtxId × Context} (he : e ∈ (s.dropContexts p).settle.contexts) : p e.2.fn = false := by
  refine State.dropContexts_home (s := s) e.1 ?_
  rw [← (SameHomes.refl _).settle.home e.1, State.home, State.mem_contexts.1 he, Option.map_some]

end

end

end Sys2Proof.Machine

/-! CTX_CREATE, CTX_DESTROY and function level resets (05_commands.md R127 to R130; 12_host_attachment.md R316). -/

namespace Sys2Proof.Machine

section
variable {s : State} {c : CtxId} {x : Context}

/-! ## CTX_CREATE (R127, R128) -/

theorem exec_ctxCreate : exec .ctxCreate s = .next s.ctxCreate := rfl

/-- The function that the request names. -/
def State.createFn (s : State) : FnId := Fin.ofNat 64 (bits (fieldAt s.mbxBytes 0 4) 5 0)

section
variable (hrun : s.mbxIs 0x30 = true) (hopen : s.mbx.fenced = false) (hlive : s.rst.retired = false) (hcore : s.rst.coreHeld = false)
include hrun hopen hlive hcore

theorem State.ctxCreate_of_bad (hbad : s.createBad s.mbxBytes = true) : s.ctxCreate = s.mbxEnd stOk [8, 0, 0, 0] := by
  rw [State.ctxCreate, State.mbxRun_runs _ _ _ hrun hopen hlive (.inl hcore)]
  simp only [hbad, if_true]
  rfl

theorem State.ctxCreate_of_noRoom (hgood : s.createBad s.mbxBytes = false) (hfull : 256 ≤ s.ctxCount ∨ 32 ≤ s.ctxCountFn s.createFn) :
    s.ctxCreate = s.mbxEnd stOk [4, 0, 0, 0] := by
  have hfull' : (256 ≤ s.ctxCount || 32 ≤ s.ctxCountFn (Fin.ofNat 64 (bits (fieldAt s.mbxBytes 0 4) 5 0))) = true := by
    simpa only [Bool.or_eq_true, decide_eq_true_eq, State.createFn] using hfull
  rw [State.ctxCreate, State.mbxRun_runs _ _ _ hrun hopen hlive (.inl hcore)]
  simp only [hgood, hfull', Bool.false_eq_true, if_false, if_true]
  rfl

theorem State.ctxCreate_of_room {slot : Fin 32} (hgood : s.createBad s.mbxBytes = false) (hcount : s.ctxCount < 256)
    (hcountFn : s.ctxCountFn s.createFn < 32) (hc : s.freeCtxNumber = some c) (hslot : s.freeSlotOf s.createFn = some slot) :
    s.ctxCreate = ({ ((s.setCtx c (s.newContext s.mbxBytes s.createFn slot)).irqForCtx c s.createFn slot) with
      svc := { s.svc with drained := false } }).mbxEnd stOk (leBytes 4 (c.val * 2 ^ 8 + slot.val * 2 ^ 16)) := by
  simp only [State.createFn] at hcountFn hslot
  have hroom : (256 ≤ s.ctxCount || 32 ≤ s.ctxCountFn (Fin.ofNat 64 (bits (fieldAt s.mbxBytes 0 4) 5 0))) = false := by
    simp only [decide_eq_false (Nat.not_le.2 hcount), decide_eq_false (Nat.not_le.2 hcountFn), Bool.or_self]
  have hok : stOk.toNat = 0 := rfl
  rw [State.ctxCreate, State.mbxRun_runs _ _ _ hrun hopen hlive (.inl hcore)]
  simp only [hgood, hroom, hc, hslot, hok, Nat.zero_add, Bool.false_eq_true, if_false]
  rfl

end

/-- CTX_CREATE takes the lowest number that no context has. -/
theorem State.freeCtxNumber_lowest (h : s.freeCtxNumber = some c) : s.ctx? c = none ∧ ∀ d < c, s.ctx? d ≠ none := by
  obtain ⟨hfree, i, hi, rfl, hbelow⟩ := List.find?_eq_some_iff_getElem.1 h
  refine ⟨Option.isNone_iff_eq_none.1 hfree, fun d hd hnone => ?_⟩
  rw [List.getElem_finRange] at hd
  have htaken := hbelow d.val hd
  rw [List.getElem_finRange] at htaken
  simp only [State.ctx?] at hnone
  simp [hnone] at htaken

/-! ## CTX_DESTROY (R129, R151) -/

theorem exec_ctxDestroy : exec .ctxDestroy s = .next s.ctxDestroy := rfl

theorem State.destroyBegin_sameHomes : SameHomes s (s.destroyBegin c) :=
  .foldl (fun y _ => (SameHomes.refl y).endGroup) (.foldl (fun y _ => (SameHomes.refl y).snapCancel)
    (.settle (.foldl (fun y _ => (SameHomes.refl y).requestKill) (.modCtx (.refl s) fun _ => rfl))))

theorem ctxOf_val : ctxOf c.val = c := Fin.ext (Nat.mod_eq_of_lt c.isLt)

section
variable (hrun : s.mbxIs 0x31 = true) (hopen : s.mbx.fenced = false) (hlive : s.rst.retired = false) (hcore : s.rst.coreHeld = false)
include hrun hopen hlive hcore

theorem State.ctxDestroy_of_bad (h : 256 ≤ s.mbxArg 0 ∨ s.ctx? (ctxOf (s.mbxArg 0)) = none) :
    s.ctxDestroy = s.mbxEnd stOk [8, 0, 0, 0] := by
  have hbad : (s.argReserved 8 || (s.ctx? (ctxOf (s.mbxArg 0))).isNone) = true := by
    simpa only [State.argReserved, Bool.or_eq_true, decide_eq_true_eq, Option.isNone_iff_eq_none, Nat.reducePow] using h
  rw [State.ctxDestroy, State.mbxRun_runs _ _ _ hrun hopen hlive (.inl hcore)]
  simp only [hbad, if_true]
  rfl

section
variable (harg : s.mbxArg 0 = c.val) (hc : s.ctx? c ≠ none) (hx : (s.destroyBegin c).ctx? c = some x)
include harg hc hx

/-- The context exists: its destruction begins, and ends the request where nothing is left to wait for. -/
theorem State.ctxDestroy_of_context : s.ctxDestroy =
    if x.cmds.isEmpty && !(s.destroyBegin c).handbackWaits x then ((s.destroyBegin c).destroyEnd c x).mbxStatus stOk
    else s.destroyBegin c := by
  have hgood : (s.argReserved 8 || (s.ctx? c).isNone) = false := by
    have hlt : ¬ 2 ^ 8 ≤ c.val := Nat.not_le.2 c.isLt
    simp only [State.argReserved, harg, decide_eq_false hlt, Option.isNone_eq_false_iff.2 (Option.isSome_iff_ne_none.2 hc), Bool.or_self]
  rw [State.ctxDestroy, State.mbxRun_runs _ _ _ hrun hopen hlive (.inl hcore)]
  simp only [harg, ctxOf_val, hgood, hx, Bool.false_eq_true, if_false]

theorem State.ctxDestroy_of_nothingLeft (hcmds : x.cmds = []) (hslots : (s.destroyBegin c).handbackWaits x = false) :
    s.ctxDestroy = ((s.destroyBegin c).destroyEnd c x).mbxEnd stOk [0, 0, 0, 0] := by
  rw [State.ctxDestroy_of_context hrun hopen hlive hcore harg hc hx]
  simp only [hcmds, hslots, List.isEmpty_nil, Bool.not_false, Bool.and_self, if_true]
  rfl

theorem State.ctxDestroy_of_left (h : x.cmds ≠ [] ∨ (s.destroyBegin c).handbackWaits x = true) : s.ctxDestroy = s.destroyBegin c := by
  have hleft : (x.cmds.isEmpty && !(s.destroyBegin c).handbackWaits x) = false := by
    rcases h with h | h
    · simp only [List.isEmpty_eq_false_iff.2 h, Bool.false_and]
    · simp only [h, Bool.not_true, Bool.and_false]
  rw [State.ctxDestroy_of_context hrun hopen hlive hcore harg hc hx]
  simp only [hleft, Bool.false_eq_true, if_false]

end

end

/-! ### What readiness and the handing on of the Field can change: the contexts and the Scheduler -/

theorem State.giveField_eq {k : Cmd} {r3 : Bool} : ∃ ctxs sch, s.giveField c k r3 = { s with ctxs := ctxs, sch := sch } := by
  unfold State.giveField
  cases r3 with
  | false => exact ⟨_, _, rfl⟩
  | true =>
    simp only [if_true]
    split
    · exact ⟨_, _, rfl⟩
    · exact ⟨_, _, rfl⟩

theorem State.settle_eq : ∃ ctxs sch, s.settle = { s with ctxs := ctxs, sch := sch } := by
  unfold State.settle State.handoff
  split
  case h_1 c k r3 hchoice =>
    split
    case isTrue =>
      obtain ⟨ctxs, sch, h⟩ := State.giveField_eq (s := s.refreshReady) (c := c) (k := k) (r3 := r3)
      exact ⟨ctxs, sch, h⟩
    case isFalse => exact ⟨_, _, rfl⟩
  case h_2 => exact ⟨_, _, rfl⟩

theorem State.snapsOf_settle : s.settle.snapsOf c = s.snapsOf c := by
  obtain ⟨ctxs, sch, h⟩ := s.settle_eq
  rw [h]
  rfl

theorem State.groupsOf_settle : s.settle.groupsOf c = s.groupsOf c := by
  obtain ⟨ctxs, sch, h⟩ := s.settle_eq
  rw [h]
  rfl

/-- A context with no command, snapshot or group only stops fetching. -/
theorem State.destroyBegin_of_idle (hx : s.ctx? c = some x) (hcmds : x.cmds = []) (hsnaps : s.snapsOf c = [])
    (hgroups : s.groupsOf c = []) : s.destroyBegin c = (s.modCtx c fun x => { x with destroying := true, cmds := [] }).settle := by
  have hstop : (s.modCtx c fun x => { x with destroying := true, cmds := x.cmds.filter fun k => k.dispatched || k.finished }) =
      s.modCtx c fun x => { x with destroying := true, cmds := [] } :=
    State.modCtx_congr hx (by simp only [hcmds, List.filter_nil])
  have hsnaps' : (s.modCtx c fun x => { x with destroying := true, cmds := [] }).settle.snapsOf c = [] :=
    State.snapsOf_settle.trans hsnaps
  have hgroups' : (s.modCtx c fun x => { x with destroying := true, cmds := [] }).settle.groupsOf c = [] :=
    State.groupsOf_settle.trans hgroups
  simp only [State.destroyBegin, hstop, State.ctx?_modCtx_same, hx, Option.map_some, Option.getD_some, List.foldl_nil, hsnaps', hgroups']

theorem State.ctx?_destroyEnd : (s.destroyEnd c x).ctx? c = none := by
  have hgone : (s.destroyEnd c x).home c = none :=
    ((SameHomes.refl _).settle.home c).trans ((State.forgetContext_home c).trans (if_pos rfl))
  exact Option.map_eq_none_iff.1 hgone

/-! ## Function level resets (R130, R316) -/

section
variable {vf : FnId}

theorem exec_vfFlr : exec (.vfFlr vf) s = .next (s.vfFlr vf) := rfl
theorem exec_pf0Flr : exec .pf0Flr s = .next s.pf0Flr := rfl

theorem State.vfFlr_of_ignored (h : vf = 0 ∨ (vget s.fns vf).enabled = false) : s.vfFlr vf = s := by
  refine if_pos ?_
  rcases h with h | h <;> simp [h]

theorem State.vfFlr_of_enabled (hvf : vf ≠ 0) (hon : (vget s.fns vf).enabled = true) :
    s.vfFlr vf = (({ s with fns := vset s.fns vf { funcReset with enabled := true } } : State).dropContexts (· == vf)).settle :=
  if_neg (by simp [hvf, hon])

theorem State.dropContexts_of_none {p : FnId → Bool} (h : ∀ e ∈ s.contexts, p e.2.fn = false) : s.dropContexts p = s := by
  have hnone : (s.contexts.filter fun e => p e.2.fn) = [] := List.filter_eq_nil_iff.2 fun e he => Bool.eq_false_iff.1 (h e he)
  rw [State.dropContexts, hnone, List.foldl_nil]

theorem State.settle_dropContexts_fns {p : FnId → Bool} : (s.dropContexts p).settle.fns = s.fns :=
  (SameHomes.refl _).settle.fns.trans State.dropContexts_fns

theorem EventRing.disable_en {r : EventRing} : r.disable.en = false := by
  unfold EventRing.disable
  split
  case isTrue => rfl
  case isFalse h => exact Bool.eq_false_iff.2 h

end

end

/-- Settles O27: CTX_CREATE and CTX_DESTROY by the outcomes of their requests, the resets by what dropping contexts leaves. -/
theorem contextsCreatedAndDestroyed : Obligations.ContextsCreatedAndDestroyed := by
  unfold Obligations.ContextsCreatedAndDestroyed
  simp only [exec_ctxCreate, exec_ctxDestroy, exec_vfFlr, exec_pf0Flr]
  refine ⟨fun s hrun hopen hlive hcore => ⟨fun hbad => ?createBad, fun hgood hfull => ?createNoRoom,
      fun fn c slot hgood hfn hcount hcountFn hc hslot => ?created⟩,
    fun s c hc => State.freeCtxNumber_lowest hc,
    fun s hrun hopen hlive hcore => ⟨fun hbad => ?destroyBad, fun c harg hc => ?destroyed⟩,
    fun s c x hx hcmds hsnaps hgroups => State.destroyBegin_of_idle hx hcmds hsnaps hgroups,
    fun s c x => State.ctx?_destroyEnd, fun s vf hvf hon hnone => ?flrOfNoContext, fun s vf hvf hon => ?flr,
    fun s vf hvf => congrArg _ (State.vfFlr_of_ignored hvf), fun s => ?pf0Flr⟩
  case createBad => exact congrArg _ (State.ctxCreate_of_bad hrun hopen hlive hcore hbad)
  case createNoRoom => exact congrArg _ (State.ctxCreate_of_noRoom hrun hopen hlive hcore hgood hfull)
  case created =>
    subst hfn
    exact congrArg _ (State.ctxCreate_of_room hrun hopen hlive hcore hgood hcount hcountFn hc hslot)
  case destroyBad => exact congrArg _ (State.ctxDestroy_of_bad hrun hopen hlive hcore hbad)
  case destroyed =>
    obtain ⟨x, hx⟩ := State.destroyBegin_sameHomes.exists_ctx hc
    exact ⟨x, hx, fun hcmds hslots => congrArg _ (State.ctxDestroy_of_nothingLeft hrun hopen hlive hcore harg hc hx hcmds hslots),
      fun hleft => congrArg _ (State.ctxDestroy_of_left hrun hopen hlive hcore harg hc hx hleft)⟩
  case flrOfNoContext =>
    rw [State.vfFlr_of_enabled hvf hon, State.dropContexts_of_none]
    exact fun e he => beq_false_of_ne (hnone e he)
  case flr =>
    rw [State.vfFlr_of_enabled hvf hon]
    refine ⟨_, rfl, fun e he => ne_of_beq_false (State.settle_dropContexts he), ?_, fun fn hfn => ?_⟩
    · rw [State.settle_dropContexts_fns, vget_vset_same]
    · rw [State.settle_dropContexts_fns, vget_vset_other _ _ _ _ hfn]
  case pf0Flr =>
    refine ⟨_, rfl, rfl, fun r => ?_, State.settle_dropContexts_fns, List.eq_nil_iff_forall_not_mem.2 fun e he => ?_⟩
    · exact (congrArg EventRing.en (vget_map _ _ r)).trans EventRing.disable_en
    · exact absurd (State.settle_dropContexts (p := fun _ => true) he) (by decide)

end Sys2Proof.Machine

/-! The serving-table operations: what ADMIT, RELEASE and MODEL_SET decide by their tables, and what each changes
(06_scheduling_streams.md R165 to R172). -/

namespace Sys2Proof.Machine

section
variable {s : State} {c : CtxId} {x : Context} {k : Cmd}

theorem State.countNoRoom_noRoom : s.countNoRoom stNoRoom = { s with stb := { s.stb with noRoom := satInc s.stb.noRoom } } := rfl

theorem State.countNoRoom_of_ne {st : Byte} (h : st ≠ stNoRoom) : s.countNoRoom st = s := if_neg fun heq => h (beq_iff_eq.1 heq)

/-! ## ADMIT (R171, Table 6.5) -/

/-- An ADMIT ends BAD_DESCRIPTOR: a reserved bit, a rate with a 0, a model that is not set, or a pair (MODEL, ROW) the context holds. -/
abbrev State.admitBad (s : State) (c : CtxId) (k : Cmd) : Prop :=
  admitReserved k false = true ∨ bits (k.word 0x50) 15 0 = 0 ∨ bits (k.word 0x50) 31 16 = 0 ∨ s.model? c (bits (k.word 0x40) 15 8) = none ∨
    ∃ e ∈ s.stb.entries, e.2.ctx = c ∧ e.2.model.toNat = bits (k.word 0x40) 15 8 ∧ e.2.row.toNat = k.word 0x44 % 2 ^ 32

/-- The Stream Table, or the function's part of it, is full. -/
abbrev State.admitFull (s : State) (fn : FnId) : Prop :=
  32768 ≤ s.stb.entries.length ∨ min 32768 (vget s.stb.quota fn).toNat ≤ s.entriesOfFn fn

/-- The entry an ADMIT makes (R171). -/
def Cmd.admitted (k : Cmd) (c : CtxId) : Stream :=
  { model := BitVec.ofNat 8 (bits (k.word 0x40) 15 8), ctx := c, row := BitVec.ofNat 32 (k.word 0x44)
    t0 := BitVec.ofNat 64 (fieldAt k.desc 0x48 8), rateNum := BitVec.ofNat 16 (bits (k.word 0x50) 15 0)
    rateDen := BitVec.ofNat 16 (bits (k.word 0x50) 31 16), frame := BitVec.ofNat 32 (k.word 0x54)
    served := 0, missed := 0, late := 0, userTag := BitVec.ofNat 64 (fieldAt k.desc 0x58 8), lastHt := 0 }

theorem State.entriesOf_any_pair {model row : Nat} :
    ((s.entriesOf c).any fun e => e.2.model.toNat == model && e.2.row == BitVec.ofNat 32 row) = true ↔
      ∃ e ∈ s.stb.entries, e.2.ctx = c ∧ e.2.model.toNat = model ∧ e.2.row.toNat = row % 2 ^ 32 := by
  simp only [State.entriesOf, List.any_filter, List.any_eq_true, Bool.and_eq_true, beq_iff_eq, ← BitVec.toNat_inj, BitVec.toNat_ofNat]

theorem State.admitOutcome_eq : s.admitOutcome c x k =
    if s.admitBad c k then (stBad, none) else if s.admitFull x.fn then (stNoRoom, none) else (stOk, some (k.admitted c)) := by
  have hbad : (admitReserved k false || bits (k.word 0x50) 15 0 == 0 || bits (k.word 0x50) 31 16 == 0 ||
      (s.model? c (bits (k.word 0x40) 15 8)).isNone ||
      (s.entriesOf c).any (fun e => e.2.model.toNat == bits (k.word 0x40) 15 8 && e.2.row == BitVec.ofNat 32 (k.word 0x44))) = true ↔
      s.admitBad c k := by
    simp only [Bool.or_eq_true, State.entriesOf_any_pair, beq_iff_eq, Option.isNone_iff_eq_none, or_assoc]
  refine if_ctx_congr hbad (fun _ => rfl) fun _ => ?_
  by_cases hall : 32768 ≤ s.stb.entries.length
  · rw [if_pos hall, if_pos (Or.inl hall)]
  · rw [if_neg hall]
    exact if_congr (or_iff_right hall).symm rfl rfl

section
variable (hx : s.ctx? c = some x) (hk : x.tableOp 2 = some k)
include hx hk

theorem State.admitStream_of_refused {st : Byte} (h : s.admitOutcome c x k = (st, none)) :
    s.admitStream c = (s.countNoRoom st).endWith c k.seq st 0 := by
  simp only [State.admitStream, hx, hk, Option.bind_some, Option.map_some, h]

theorem State.admitStream_of_bad (hbad : s.admitBad c k) : s.admitStream c = s.endWith c k.seq stBad 0 := by
  rw [State.admitStream_of_refused hx hk (State.admitOutcome_eq.trans (if_pos hbad)), State.countNoRoom_of_ne (by decide)]

theorem State.admitStream_of_full (hgood : ¬ s.admitBad c k) (hfull : s.admitFull x.fn) : s.admitStream c =
    ({ s with stb := { s.stb with noRoom := satInc s.stb.noRoom } } : State).endWith c k.seq stNoRoom 0 := by
  rw [State.admitStream_of_refused hx hk (State.admitOutcome_eq.trans (by rw [if_neg hgood, if_pos hfull])), State.countNoRoom_noRoom]

theorem State.admitStream_of_room (hgood : ¬ s.admitBad c k) (hroom : ¬ s.admitFull x.fn) : s.admitStream c =
    ({ s with stb := { s.stb with entries := s.stb.entries.put (lowestFreeKey s.stb.entries 0) (k.admitted c) } } : State).endWith
      c k.seq stOk 0 := by
  simp only [State.admitStream, hx, hk, Option.bind_some, Option.map_some, State.admitOutcome_eq, if_neg hgood, if_neg hroom]
  rw [State.countNoRoom_of_ne (by decide)]

end

theorem State.admitStream_of_none (h : ∀ x, s.ctx? c = some x → x.tableOp 2 = none) : s.admitStream c = s := by
  cases hx : s.ctx? c with
  | none => simp only [State.admitStream, hx, Option.bind_none]
  | some x => simp only [State.admitStream, hx, Option.bind_some, h x hx, Option.map_none]

theorem exec_admitStream : exec (.admitStream c) s = .next (s.admitStream c) := rfl

/-! ## RELEASE (R172) -/

/-- The entry that a RELEASE names by its MODEL and ROW. -/
def Cmd.names (k : Cmd) (e : Nat × Stream) : Bool :=
  e.2.model.toNat == bits (k.word 0x40) 15 8 && e.2.row == BitVec.ofNat 32 (k.word 0x44)

section
variable (hx : s.ctx? c = some x) (hk : x.tableOp 3 = some k)
include hx hk

theorem State.releaseStream_of_unnamed (h : (s.entriesOf c).find? k.names = none) :
    s.releaseStream c = s.endWith c k.seq stBad 0 := by
  unfold Cmd.names at h
  simp only [State.releaseStream, hx, hk, Option.bind_some, h]

theorem State.releaseStream_of_named {i : Nat} {e : Stream} (h : (s.entriesOf c).find? k.names = some (i, e)) :
    s.releaseStream c = if admitReserved k true then s.endWith c k.seq stBad 0
      else ({ s with stb := { s.stb with entries := s.stb.entries.del i } } : State).endWith c k.seq stOk 0 := by
  unfold Cmd.names at h
  simp only [State.releaseStream, hx, hk, Option.bind_some, h]

theorem State.releaseStream_of_bad (h : (s.entriesOf c).find? k.names = none ∨ admitReserved k true = true) :
    s.releaseStream c = s.endWith c k.seq stBad 0 := by
  cases hfind : (s.entriesOf c).find? k.names with
  | none => exact State.releaseStream_of_unnamed hx hk hfind
  | some e => rw [State.releaseStream_of_named hx hk hfind, if_pos (h.resolve_left (by simp [hfind]))]

end

theorem State.releaseStream_of_none (h : ∀ x, s.ctx? c = some x → x.tableOp 3 = none) : s.releaseStream c = s := by
  have hnone : ((s.ctx? c).bind fun x => x.tableOp 3) = none := Option.bind_eq_none_iff.2 h
  simp only [State.releaseStream, hnone]

theorem exec_releaseStream : exec (.releaseStream c) s = .next (s.releaseStream c) := rfl

/-! ## MODEL_SET (R166, R167, Table 6.2) -/

/-- The models but the one a MODEL_SET names. -/
def State.otherModels (s : State) (c : CtxId) (k : Cmd) : List Model :=
  s.stb.models.filter fun m => !(m.ctx == c && m.number == bits (k.word 0x40) 15 8)

/-- No reserved bit of a MODEL_SET is set. -/
abbrev Cmd.modelPlain (k : Cmd) : Prop := bits (k.word 0x40) 31 19 = 0 ∧ ∀ b ∈ k.args.drop 0x24, b = 0

/-- The fields that a MODEL_SET with CLEAR leaves 0. -/
abbrev Cmd.modelZeros (k : Cmd) : Prop :=
  bits (k.word 0x40) 18 17 = 0 ∧ k.word 0x44 = 0 ∧ fieldAt k.desc 0x48 8 = 0 ∧ fieldAt k.desc 0x50 8 = 0 ∧
    fieldAt k.desc 0x58 8 = 0 ∧ k.word 0x60 = 0

/-- The fields of a MODEL_SET that sets a model stay within Table 6.2. -/
abbrev Cmd.modelFormed (k : Cmd) : Prop :=
  bits (k.word 0x40) 18 17 ≠ 3 ∧ bits (k.word 0x44) 15 0 ≠ 0 ∧ bits (k.word 0x44) 31 29 = 0 ∧
    1 ≤ bits (k.word 0x44) 28 16 ∧ bits (k.word 0x44) 28 16 ≤ 4096 ∧
    fieldAt k.desc 0x48 8 < 2 ^ 48 ∧ fieldAt k.desc 0x48 8 % 128 = 0 ∧ fieldAt k.desc 0x50 8 < 2 ^ 48 ∧ fieldAt k.desc 0x50 8 % 4 = 0 ∧
    fieldAt k.desc 0x58 8 < 2 ^ 48 ∧ fieldAt k.desc 0x58 8 % 4096 = 0 ∧ k.word 0x60 ≤ 2048

/-- A MODEL_SET with CLEAR may remove its model: the fields are 0, the model is set, and no entry names it. -/
abbrev State.modelClears (s : State) (c : CtxId) (k : Cmd) : Prop :=
  k.modelZeros ∧ (s.model? c (bits (k.word 0x40) 15 8)).isSome = true ∧ ∀ e ∈ s.entriesOf c, e.2.model.toNat ≠ bits (k.word 0x40) 15 8

/-- The model that a MODEL_SET sets (Table 6.2). -/
def Cmd.modelOf (k : Cmd) (c : CtxId) : Model :=
  { ctx := c, number := bits (k.word 0x40) 15 8, mwidth := BitVec.ofNat 2 (bits (k.word 0x40) 18 17), opcount := bits (k.word 0x44) 15 0
    batch := bits (k.word 0x44) 28 16, oplist := fieldAt k.desc 0x48 8, index := fieldAt k.desc 0x50 8
    img := fieldAt k.desc 0x58 8, imgPages := k.word 0x60 }

theorem State.modelSetOutcome_eq : s.modelSetOutcome c k =
    if ¬ k.modelPlain then (stBad, none)
    else if bit (k.word 0x40) 16 = true then if s.modelClears c k then (stOk, none) else (stBad, none)
    else if ¬ k.modelFormed then (stBad, none)
    else if s.model? c (bits (k.word 0x40) 15 8) = none ∧ 256 ≤ s.stb.models.length then (stNoRoom, none)
    else (stOk, some (k.modelOf c)) := by
  refine if_ctx_congr ?plain (fun _ => rfl) fun _ => if_ctx_congr Iff.rfl (fun _ => if_congr ?clears rfl rfl) fun _ =>
    if_ctx_congr ?formed (fun _ => rfl) fun _ => if_congr ?room rfl rfl
  case plain => simp [Cmd.modelPlain, imp_iff_not_or]
  case clears => simp [State.modelClears, Cmd.modelZeros, and_assoc]
  case formed => simp [Cmd.modelFormed, imp_iff_not_or]; omega
  case room => simp

section
variable (hx : s.ctx? c = some x) (hk : x.tableOp 4 = some k)
include hx hk

theorem State.modelSet_of_outcome {st : Byte} {m : Option Model} (h : s.modelSetOutcome c k = (st, m)) : s.modelSet c =
    ((if st == stOk then { s with stb := { s.stb with models := s.otherModels c k ++ m.toList } } else s).countNoRoom st).endWith
      c k.seq st 0 := by
  simp only [State.modelSet, hx, hk, Option.bind_some, h]
  rfl

theorem State.modelSet_of_bad (h : s.modelSetOutcome c k = (stBad, none)) : s.modelSet c = s.endWith c k.seq stBad 0 :=
  State.modelSet_of_outcome hx hk h

theorem State.modelSet_of_noRoom (h : s.modelSetOutcome c k = (stNoRoom, none)) : s.modelSet c =
    ({ s with stb := { s.stb with noRoom := satInc s.stb.noRoom } } : State).endWith c k.seq stNoRoom 0 :=
  State.modelSet_of_outcome hx hk h

theorem State.modelSet_of_ok {m : Option Model} (h : s.modelSetOutcome c k = (stOk, m)) : s.modelSet c =
    ({ s with stb := { s.stb with models := s.otherModels c k ++ m.toList } } : State).endWith c k.seq stOk 0 :=
  State.modelSet_of_outcome hx hk h

theorem State.modelSet_of_reserved (h : ¬ k.modelPlain) : s.modelSet c = s.endWith c k.seq stBad 0 :=
  State.modelSet_of_bad hx hk (State.modelSetOutcome_eq.trans (if_pos h))

section
variable (hplain : k.modelPlain) (hclear : bit (k.word 0x40) 16 = true)
include hplain hclear

theorem State.modelSet_of_clears (h : s.modelClears c k) : s.modelSet c =
    ({ s with stb := { s.stb with models := s.otherModels c k } } : State).endWith c k.seq stOk 0 := by
  have hok : s.modelSetOutcome c k = (stOk, none) := by
    rw [State.modelSetOutcome_eq, if_neg (not_not_intro hplain), if_pos hclear, if_pos h]
  rw [State.modelSet_of_ok hx hk hok, Option.toList_none, List.append_nil]

theorem State.modelSet_of_notClears (h : ¬ s.modelClears c k) : s.modelSet c = s.endWith c k.seq stBad 0 :=
  State.modelSet_of_bad hx hk (by rw [State.modelSetOutcome_eq, if_neg (not_not_intro hplain), if_pos hclear, if_neg h])

end

section
variable (hplain : k.modelPlain) (hset : ¬ bit (k.word 0x40) 16 = true)
include hplain hset

theorem State.modelSet_of_malformed (h : ¬ k.modelFormed) : s.modelSet c = s.endWith c k.seq stBad 0 :=
  State.modelSet_of_bad hx hk (by rw [State.modelSetOutcome_eq, if_neg (not_not_intro hplain), if_neg hset, if_pos h])

variable (hformed : k.modelFormed)
include hformed

theorem State.modelSet_of_full (hnew : s.model? c (bits (k.word 0x40) 15 8) = none) (hfull : 256 ≤ s.stb.models.length) : s.modelSet c =
    ({ s with stb := { s.stb with noRoom := satInc s.stb.noRoom } } : State).endWith c k.seq stNoRoom 0 :=
  State.modelSet_of_noRoom hx hk (by
    rw [State.modelSetOutcome_eq, if_neg (not_not_intro hplain), if_neg hset, if_neg (not_not_intro hformed), if_pos ⟨hnew, hfull⟩])

theorem State.modelSet_of_sets (h : s.model? c (bits (k.word 0x40) 15 8) ≠ none ∨ s.stb.models.length < 256) : s.modelSet c =
    ({ s with stb := { s.stb with models := s.otherModels c k ++ [k.modelOf c] } } : State).endWith c k.seq stOk 0 := by
  have hroom : ¬ (s.model? c (bits (k.word 0x40) 15 8) = none ∧ 256 ≤ s.stb.models.length) := fun ⟨hnew, hfull⟩ =>
    h.elim (absurd hnew) hfull.not_gt
  exact State.modelSet_of_ok hx hk (m := some (k.modelOf c)) (by
    rw [State.modelSetOutcome_eq, if_neg (not_not_intro hplain), if_neg hset, if_neg (not_not_intro hformed), if_neg hroom])

end
end

theorem State.modelSet_of_none (h : ∀ x, s.ctx? c = some x → x.tableOp 4 = none) : s.modelSet c = s := by
  have hnone : ((s.ctx? c).bind fun x => x.tableOp 4) = none := Option.bind_eq_none_iff.2 h
  simp only [State.modelSet, hnone]

theorem exec_modelSet : exec (.modelSet c) s = .next (s.modelSet c) := rfl

end

/-- Settles O30: each clause is one outcome of `State.admitOutcome`, `State.modelSetOutcome` or the search for the released entry. -/
theorem servingTablesChangeWhole : Obligations.ServingTablesChangeWhole := by
  unfold Obligations.ServingTablesChangeWhole
  simp only [exec_admitStream, exec_releaseStream, exec_modelSet]
  refine ⟨fun s c x k hx hk => ?admission, fun s c x k hx hk => ?release, fun s c x k hx hk => ?modelSet, fun s c => ?idle⟩
  case admission =>
    exact ⟨fun hbad => congrArg _ (State.admitStream_of_bad hx hk hbad),
      fun hgood hfull => congrArg _ (State.admitStream_of_full hx hk hgood hfull),
      fun hgood hroom => congrArg _ (State.admitStream_of_room hx hk hgood hroom)⟩
  case release =>
    exact ⟨fun hbad => congrArg _ (State.releaseStream_of_bad hx hk hbad),
      fun i e hnamed hgood => congrArg _ ((State.releaseStream_of_named hx hk hnamed).trans (if_neg (Bool.eq_false_iff.1 hgood)))⟩
  case modelSet =>
    refine ⟨fun hres => ?reserved, fun hplain hclear hzeros hset hunnamed => ?removed, fun hplain hclear hkept => ?keeps,
      fun hplain hset hill => ?malformed, fun hplain hset hformed hnew hfull => ?noRoom, fun hplain hset hformed hroom => ?sets⟩
    case reserved => exact congrArg _ (State.modelSet_of_reserved hx hk hres)
    case removed => exact congrArg _ (State.modelSet_of_clears hx hk hplain hclear ⟨hzeros, hset, hunnamed⟩)
    case keeps =>
      refine congrArg _ (State.modelSet_of_notClears hx hk hplain hclear fun ⟨hzeros, hset, hunnamed⟩ => ?_)
      rcases hkept with hnonzero | hnone | ⟨e, he, hnames⟩
      · exact hnonzero hzeros
      · simp [hnone] at hset
      · exact hunnamed e he hnames
    case malformed => exact congrArg _ (State.modelSet_of_malformed hx hk hplain (Bool.eq_false_iff.1 hset) hill)
    case noRoom => exact congrArg _ (State.modelSet_of_full hx hk hplain (Bool.eq_false_iff.1 hset) hformed hnew hfull)
    case sets => exact congrArg _ (State.modelSet_of_sets hx hk hplain (Bool.eq_false_iff.1 hset) hformed hroom)
  case idle =>
    exact ⟨fun h => congrArg _ (State.admitStream_of_none h), fun h => congrArg _ (State.releaseStream_of_none h),
      fun h => congrArg _ (State.modelSet_of_none h)⟩

end Sys2Proof.Machine

/-! Serving steps: when one becomes ready, what its work list holds, how its invocations run, and the kills for its deadline and its
STEP_MAX (06_scheduling_streams.md R173 to R178). -/

namespace Sys2Proof.Machine

/-! ## STEP_READY and WORK_LIST_BUILD (R173, R163; 04_seam_hoist.md R120) -/

section
variable {s : State} {c : CtxId} {x : Context} {k : Cmd}

/-- The first element that a predicate accepts is the first for any narrower predicate that accepts it. -/
theorem find?_of_narrower {α : Type} {p q : α → Bool} {l : List α} {a : α} (hqp : ∀ b, q b = true → p b = true)
    (h : l.find? p = some a) (ha : q a = true) : l.find? q = some a := by
  obtain ⟨-, before, after, rfl, hbefore⟩ := List.find?_eq_some_iff_append.1 h
  refine List.find?_eq_some_iff_append.2 ⟨ha, before, after, rfl, fun b hb => ?_⟩
  have hp : p b = false := by simpa using hbefore b hb
  simpa using mt (hqp b) (by simp [hp])

/-- A command is the next STEP of its context to be given a work list. -/
def State.awaitsList (s : State) (x : Context) (k : Cmd) : Bool :=
  k.isStep && k.phase == .fetched && k.ending.isNone && k.killing.isNone && s.stepReady x k && !(k.step.any (·.built))

theorem State.unbuiltStep_eq : s.unbuiltStep x = x.cmds.find? (s.awaitsList x) := rfl

theorem State.unbuiltStep_of_nextCmd (h : s.awaitsList x k = true) (hnext : x.nextCmd = some k) : s.unbuiltStep x = some k := by
  rw [State.unbuiltStep_eq]
  refine find?_of_narrower (fun j hj => ?_) hnext h
  simp only [State.awaitsList, Bool.and_eq_true] at hj
  simp only [hj, Bool.and_self]

theorem State.unbuiltStep_of_only (h : s.awaitsList x k = true) (honly : x.cmds = [k]) : s.unbuiltStep x = some k := by
  rw [State.unbuiltStep_eq, honly, List.find?_cons_of_pos h]

theorem State.unbuiltStep_isSome (h : s.awaitsList x k = true) (hk : k ∈ x.cmds) : (s.unbuiltStep x).isSome = true :=
  List.find?_isSome.2 ⟨k, hk, h⟩

theorem exec_stepReady : exec (.stepReady c) s = .next (s.stepBecomesReady c).settle := rfl

theorem exec_workListBuild : exec (.workListBuild c) s = .next (s.workListBuild c).settle := rfl

section
variable (hx : s.ctx? c = some x)
include hx

theorem State.stepBecomesReady_of_unbuilt (hk : s.unbuiltStep x = some k) : s.stepBecomesReady c = { s with
    sch := { s.sch with tenure := none }
    seam := { s.seam with autoMask := if s.seam.autoMask.any (fun e => e.1 == c && e.2.1 == k.seq) then s.seam.autoMask
      else s.seam.autoMask ++ [(c, k.seq, true)] } } := by
  simp only [State.stepBecomesReady, hx, Option.bind_some, hk]

theorem State.stepBecomesReady_of_none (hk : s.unbuiltStep x = none) : s.stepBecomesReady c = s := by
  simp only [State.stepBecomesReady, hx, Option.bind_some, hk]

theorem State.workListBuild_of_unbuilt (hk : s.unbuiltStep x = some k) :
    s.workListBuild c = s.modCmd c k.seq fun j => { j with step := some (s.buildList c k) } := by
  simp only [State.workListBuild, hx, Option.bind_some, hk]

theorem State.workListBuild_of_none (hk : s.unbuiltStep x = none) : s.workListBuild c = s := by
  simp only [State.workListBuild, hx, Option.bind_some, hk]

end
end

/-! ## The work list (R174) -/

section
variable {α : Type}

theorem flatten_chunk_sublist (n fuel : Nat) (l : List α) : (chunk n fuel l).flatten.Sublist l := by
  induction fuel generalizing l with
  | zero => exact List.nil_sublist l
  | succ fuel ih =>
    unfold chunk
    split
    case isTrue => exact List.nil_sublist l
    case isFalse =>
      calc (l.take n :: chunk n fuel (l.drop n)).flatten
        _ = l.take n ++ (chunk n fuel (l.drop n)).flatten := List.flatten_cons
        List.Sublist _ (l.take n ++ l.drop n) := (List.Sublist.refl _).append (ih _)
        _ = l := List.take_append_drop n l

/-- The parts of a list by the value of a key below `n` make up what has a key below `n`. -/
theorem length_flatMap_filter_range {key : α → Nat} (l : List α) (n : Nat) :
    ((List.range n).flatMap fun m => l.filter fun a => key a == m).length = l.countP fun a => decide (key a < n) := by
  induction n with
  | zero => simp
  | succ n ih =>
    rw [List.range_succ, List.flatMap_append, List.length_append, ih, List.flatMap_singleton, ← List.countP_eq_length_filter]
    clear ih
    induction l with
    | nil => rfl
    | cons a l ih =>
      simp only [List.countP_cons, ← ih, decide_eq_true_eq, beq_iff_eq]
      split_ifs <;> omega

end

section
variable {s : State} {c : CtxId} {k : Cmd}

theorem mem_insertDue {d e : Due} {l : List Due} (h : e ∈ insertDue d l) : e = d ∨ e ∈ l := by
  induction l with
  | nil => exact .inl (List.mem_singleton.1 h)
  | cons a l ih =>
    unfold insertDue at h
    split at h
    case isTrue => exact List.mem_cons.1 h
    case isFalse =>
      rcases List.mem_cons.1 h with rfl | h
      · exact .inr List.mem_cons_self
      · exact (ih h).imp_right (List.mem_cons_of_mem _)

theorem mem_sortDue {d : Due} {l : List Due} (h : d ∈ sortDue l) : d ∈ l := by
  have hfold : ∀ (l acc : List Due), d ∈ l.foldl (fun acc e => insertDue e acc) acc → d ∈ acc ∨ d ∈ l := by
    intro l
    induction l with
    | nil => exact fun _ => .inl
    | cons e l ih =>
      intro acc h
      rcases ih _ h with h | h
      · rcases mem_insertDue h with rfl | h
        · exact .inr List.mem_cons_self
        · exact .inl h
      · exact .inr (List.mem_cons_of_mem _ h)
  exact (hfold l [] h).resolve_left List.not_mem_nil

/-- Bringing the entries of a context to their frames keeps all but the frame. -/
theorem State.mem_advanced {e : Nat} {d : Due} (h : d ∈ s.advanced c e) :
    ∃ f, (d.entry, f) ∈ s.stb.entries ∧ f.ctx = c ∧ d.stream.row = f.row ∧ d.stream.model = f.model := by
  obtain ⟨p, hp, rfl⟩ := List.mem_map.1 h
  obtain ⟨hmem, hctx⟩ := List.mem_filter.1 hp
  exact ⟨p.2, hmem, beq_iff_eq.1 hctx, rfl, rfl⟩

/-- The streams that a step serves, in order of deadline (R174). -/
def State.servedBy (s : State) (c : CtxId) (k : Cmd) : List Served :=
  ((sortDue ((s.advanced c k.deadline).filter fun d => d.deadline < k.deadline + k.lenNs)).take (min k.maxStreams 4096)).map fun d =>
    { entry := d.entry, row := d.stream.row, frame := d.stream.frame, model := d.stream.model.toNat }

theorem State.length_servedBy_le : (s.servedBy c k).length ≤ k.maxStreams := by
  rw [State.servedBy, List.length_map]
  exact (List.length_take_le _ _).trans (min_le_left _ _)

theorem State.mem_servedBy {v : Served} (h : v ∈ s.servedBy c k) :
    ∃ e, (v.entry, e) ∈ s.stb.entries ∧ e.ctx = c ∧ v.row = e.row ∧ v.model = e.model.toNat := by
  obtain ⟨d, hd, rfl⟩ := List.mem_map.1 h
  obtain ⟨e, hmem, hctx, hrow, hmodel⟩ := State.mem_advanced (List.mem_filter.1 (mem_sortDue (List.mem_of_mem_take hd))).1
  exact ⟨e, hmem, hctx, hrow, congrArg BitVec.toNat hmodel⟩

/-- The streams of one model in the invocations are some of that model's. -/
theorem State.invocations_flatMap_snd {sv : List Served} : ((s.invocations c sv).flatMap (·.2)) = (List.range 256).flatMap fun m =>
    (chunk (((s.model? c m).map (·.batch)).getD 1) (sv.filter fun v => v.model == m).length (sv.filter fun v => v.model == m)).flatten := by
  simp only [State.invocations, List.flatMap_assoc, List.flatMap_map, List.flatMap_id']

theorem State.mem_invocations {sv : List Served} {v : Served} (h : v ∈ (s.invocations c sv).flatMap (·.2)) : v ∈ sv := by
  rw [State.invocations_flatMap_snd] at h
  obtain ⟨m, -, hv⟩ := List.mem_flatMap.1 h
  exact List.mem_of_mem_filter ((flatten_chunk_sublist _ _ _).mem hv)

theorem State.length_invocations_le {sv : List Served} : ((s.invocations c sv).flatMap (·.2)).length ≤ sv.length := by
  rw [State.invocations_flatMap_snd]
  calc _ ≤ ((List.range 256).flatMap fun m => sv.filter fun v => v.model == m).length := by
        simp only [List.length_flatMap]
        exact List.sum_le_sum fun m _ => (flatten_chunk_sublist _ _ _).length_le
    _ = sv.countP fun v => decide (v.model < 256) := length_flatMap_filter_range sv 256
    _ ≤ sv.length := List.countP_le_length

theorem State.buildList_served : (s.buildList c k).served = (s.invocations c (s.servedBy c k)).flatMap (·.2) := rfl

theorem State.buildList_killAt :
    (s.buildList c k).killAt = (k.htStart : Int) + k.lenNs - (s.buildList c k).estNs - 20000 := by
  simp only [State.buildList, Cmd.deadline, Nat.cast_add]

end

/-! ## DEADLINE_KILL (R178) -/

section
variable {s t : State} {c d : CtxId} {x y : Context} {k j : Cmd} {r : StepRun}

theorem Cmd.mayKill_deadline : j.mayKill (.deadline c) = j.killing.isNone := by
  cases h : j.killing <;> simp [Cmd.mayKill, h, KillCause.isDeadline]

/-- The kill asked for a deadline reaches a dispatched Field command that neither has ended nor is being killed. -/
theorem State.requestKill_deadline {seq : Word} : s.requestKill d seq (.deadline c) = s.modCmd d seq fun (j : Cmd) =>
    if j.usesField = true ∧ j.ending = none ∧ j.killing = none ∧ j.dispatched = true then { j with killing := some (.deadline c) }
    else j := by
  unfold State.requestKill
  congr 1
  funext j
  have hbars : (!j.usesField || j.ending.isSome || !j.mayKill (.deadline c)) = true ↔
      ¬ (j.usesField = true ∧ j.ending = none ∧ j.killing = none) := by
    simp [Cmd.mayKill_deadline, Option.isSome_iff_ne_none, imp_iff_not_or, or_assoc]
  by_cases hopen : j.usesField = true ∧ j.ending = none ∧ j.killing = none
  · rw [if_neg (hbars.not.2 (not_not_intro hopen))]
    exact if_congr (by simp only [hopen, true_and]) rfl rfl
  · rw [if_pos (hbars.2 hopen), if_neg fun ⟨huse, hend, hkill, _⟩ => hopen ⟨huse, hend, hkill⟩]

/-- The STEP for whose deadline a context kills: the first that has its work list and is not dispatched. -/
def Context.builtStep (x : Context) : Option Cmd :=
  x.cmds.find? fun k => k.isStep && k.phase == .fetched && k.ending.isNone && k.killing.isNone && k.step.any (·.built)

section
variable (hx : s.ctx? c = some x) (hr : k.step = some r) (hk : x.builtStep = some k) (ht : s.passToHt r.killAt.toNat = t)
include hx hr hk ht

theorem State.deadlineKill_of_noHolder (hnone : t.holder? = none) : s.deadlineKill c = t := by
  unfold Context.builtStep at hk
  simp only [State.deadlineKill, hx, Option.bind_some, hk, hr, Option.map_some, Option.getD_some, ht, hnone]

theorem State.deadlineKill_of_holder (hholder : t.holder? = some (d, y, j)) : s.deadlineKill c =
    if j.isStep = false ∧ (j.killable = true ∨ y.nokillOk = false) then t.requestKill d j.seq (.deadline c) else t := by
  unfold Context.builtStep at hk
  simp only [State.deadlineKill, hx, Option.bind_some, hk, hr, Option.map_some, Option.getD_some, ht, hholder]
  exact if_congr (by simp [Context.eligible]) rfl rfl

end

theorem exec_deadlineKill : exec (.deadlineKill c) s = .next (s.deadlineKill c) := rfl

end

/-! ## STEP_INVOCATION (R175, R176) -/

section
variable {s s1 s2 : State} {c : CtxId} {x : Context} {k : Cmd} {r : StepRun}

/-- The STEP of a context whose next invocation may begin. -/
def Context.runningStep (x : Context) : Option Cmd := x.cmds.find? fun k => k.isStep && k.canRun

theorem exec_stepInvocation : exec (.stepInvocation c) s = .next (s.stepInvocation c) := rfl

section
variable (hx : s.ctx? c = some x) (hfind : x.runningStep = some k) (hr : k.step = some r) (hcur : r.current = none)
include hx hfind hr hcur

theorem State.stepInvocation_of_mayInvoke (h : r.invs = [] ∨ s.holds c k.seq = true) : s.stepInvocation c = s.invoke c k r := by
  have hgo : (r.invs.isEmpty || s.holds c k.seq) = true := by simpa using h
  unfold Context.runningStep at hfind
  simp only [State.stepInvocation, hx, Option.bind_some, hfind, hr, hcur, Option.isNone_none, Bool.true_and, hgo, if_true]

/-- An invocation whose pages are there and whose index vector is written begins. -/
theorem State.stepInvocation_begins {m : Nat} {sv : List Served} {rest : List (Nat × List Served)} {mo : Model}
    (hinvs : r.invs = (m, sv) :: rest) (hholds : s.holds c k.seq = true) (hmodel : s.model? c m = some mo)
    (hgate : s.gate c k.seq ((mo.index, (indexVector mo.batch sv).length) :: imageReads x k s.freeCtr mo) { ue := [], ce := [] } = .go s1)
    (hwrite : s1.cmdWrite c k.seq [(mo.index, indexVector mo.batch sv)] = some s2) :
    s.stepInvocation c = (s2.loadImage c ((s2.cmd? c k.seq).getD k) mo).modCmd c k.seq fun k => { k with
      opIdx := 0, prevOp := [], passedWait := false, step := some { r with invs := rest, current := some m } } := by
  rw [State.stepInvocation_of_mayInvoke hx hfind hr hcur (.inr hholds)]
  simp only [State.invoke, hinvs, hmodel, hx, Option.map_some, Option.getD_some, hgate, hwrite]

/-- With no invocation left the report is written and the step ends. -/
theorem State.stepInvocation_reports (hinvs : r.invs = [])
    (hgate : s.gate c k.seq [(k.reportVa, (stepReport r).length)] { ue := [], ce := [] } = .go s1)
    (hwrite : s1.cmdWrite c k.seq [(k.reportVa, stepReport r)] = some s2) :
    s.stepInvocation c = s2.endWith c k.seq k.goodStatus r.opsTotal := by
  rw [State.stepInvocation_of_mayInvoke hx hfind hr hcur (.inl hinvs)]
  simp only [State.invoke, hinvs, State.stepFinish, hr, hgate, hwrite]

end

/-- A command that can access the ranges reads them at once, and then writes where its shadows are. -/
theorem State.gate_cmdWrite_of_accessible {errs : SeamErrs} {reads : List (Nat × Nat)} {ws : List (Nat × List Byte)} {seq : Word}
    (hx : s.ctx? c = some x) (hk : x.cmd? seq = some k) (hreads : Accessible s x k errs reads) (hshadows : Shadowed s x k (rangesOf ws)) :
    ∃ s1 s2, s.gate c seq reads errs = .go s1 ∧ s1.cmdWrite c seq ws = some s2 := by
  obtain ⟨s1, y, j, hgate, hy, hj, hsame⟩ := State.gate_of_accessible hx hk hreads
  obtain ⟨s2, hwrite⟩ := State.cmdWrite_of_shadowed hy hj (hsame.shadowed hshadows)
  exact ⟨s1, s2, hgate, hwrite⟩

end

/-! ## STEP_MAX_EXPIRY (R173; 13_reset_health.md R363, Table 13.14) -/

section
variable {s : State} {c : CtxId} {x y : Context} {k : Cmd}

theorem State.holder_ctx_of_holder? (h : s.holder? = some (c, y, k)) : (s.sch.holder.any fun h => h.ctx == c) = true := by
  simp only [State.holder?, Option.bind_eq_some_iff, Option.map_eq_some_iff, Prod.mk.injEq] at h
  obtain ⟨e, he, _, _, _, _, hctx, -, -⟩ := h
  simp [he, hctx]

theorem exec_stepMaxExpiry : exec (.stepMaxExpiry c) s = .next (s.stepMaxExpiry c) := rfl

theorem State.stepMaxExpiry_of_noLimit (hx : s.ctx? c = some x) (hmax : x.stepMax = 0)
    (hgood : s.rst.badParity.contains (offStepMax c) = false) : s.stepMaxExpiry c = s := by
  simp only [State.stepMaxExpiry, hx, hmax, hgood, beq_self_eq_true, Bool.not_false, Bool.and_self, if_true]

theorem State.stepMaxExpiry_of_limit (hx : s.ctx? c = some x) (hholder : s.holder? = some (c, y, k)) (hstep : k.isStep = true)
    (hend : k.ending = none) (hkill : k.killing = none)
    (hlimit : x.stepMax ≠ 0 ∨ s.rst.badParity.contains (offStepMax c) = true) :
    s.stepMaxExpiry c = (s.endWith c k.seq stTimeout k.stopIdx).raise 0x20 3 (leBytes 4 c.val) := by
  have hon : (x.stepMax == 0 && !s.rst.badParity.contains (offStepMax c)) = false := by
    rcases hlimit with h | h
    · simp only [beq_false_of_ne h, Bool.false_and]
    · simp only [h, Bool.not_true, Bool.and_false]
  simp only [State.stepMaxExpiry, hx, hon, Bool.false_eq_true, if_false, State.holder_ctx_of_holder? hholder, if_true]
  exact State.holderTimeout_of_running hholder hstep hend hkill

end

/-- Settles O31: the rows by what they do of the state's next step, its work list by what `State.servedBy` picks, an invocation by what
its accesses meet. -/
theorem servingStepsBuiltInvokedKilledFor : Obligations.ServingStepsBuiltInvokedKilledFor := by
  unfold Obligations.ServingStepsBuiltInvokedKilledFor
  simp only [exec_stepReady, exec_workListBuild, exec_deadlineKill, exec_stepInvocation, exec_stepMaxExpiry]
  refine ⟨fun s x k hstep hphase hend hkill hready hunbuilt => ?next,
    fun s c x k hx hk => ?unbuilt, fun s c k => ?workList, fun s c x hx hk => ?noneUnbuilt,
    fun s c x k r hx hr hk => ?deadline,
    fun s c x k r hx hfind hk hr hcur => ⟨fun m sv rest mo hinvs hholds hmodel => ?invocation, fun hinvs => ?report⟩,
    fun s c x y k hx hholder hstep hend hkill =>
      ⟨fun hlimit => congrArg _ (State.stepMaxExpiry_of_limit hx hholder hstep hend hkill hlimit),
        fun hmax hgood => congrArg _ (State.stepMaxExpiry_of_noLimit hx hmax hgood)⟩⟩
  case next =>
    have hawaits : s.awaitsList x k = true := by simp [State.awaitsList, hstep, hphase, hend, hkill, hready, hunbuilt]
    exact ⟨fun h => h.elim (State.unbuiltStep_of_only hawaits) (State.unbuiltStep_of_nextCmd hawaits),
      State.unbuiltStep_isSome hawaits⟩
  case unbuilt =>
    rw [State.stepBecomesReady_of_unbuilt hx hk, State.workListBuild_of_unbuilt hx hk]
    exact ⟨rfl, rfl⟩
  case noneUnbuilt =>
    rw [State.stepBecomesReady_of_none hx hk, State.workListBuild_of_none hx hk]
    exact ⟨rfl, rfl⟩
  case workList =>
    refine ⟨rfl, rfl, State.buildList_killAt, ?_, rfl, fun v hv => ?_⟩
    · exact State.length_invocations_le.trans State.length_servedBy_le
    · exact State.mem_servedBy (State.mem_invocations hv)
  case deadline =>
    refine ⟨fun d y j hholder hstep hmay => ?killed, fun d y j hholder hspared => ?spared,
      fun hnone => congrArg _ (State.deadlineKill_of_noHolder hx hr hk rfl hnone)⟩
    case killed =>
      rw [State.deadlineKill_of_holder hx hr hk rfl hholder, if_pos ⟨hstep, hmay⟩, State.requestKill_deadline]
    case spared =>
      rw [State.deadlineKill_of_holder hx hr hk rfl hholder, if_neg]
      rintro ⟨hstep, hmay⟩
      rcases hspared with h | ⟨hkillable, hok⟩
      · simp [hstep] at h
      · simp [hkillable, hok] at hmay
  case invocation =>
    have hbegins := fun s1 s2 => State.stepInvocation_begins (s1 := s1) (s2 := s2) hx hfind hr hcur hinvs hholds hmodel
    refine ⟨fun s1 s2 hgate hwrite => congrArg _ (hbegins s1 s2 hgate hwrite), fun hreads hshadows => ?_⟩
    obtain ⟨s1, s2, hgate, hwrite⟩ := State.gate_cmdWrite_of_accessible (ws := [(mo.index, indexVector mo.batch sv)]) hx hk hreads hshadows
    exact ⟨s1, s2, hgate, hwrite, congrArg _ (hbegins s1 s2 hgate hwrite)⟩
  case report =>
    have hreports := fun s1 s2 => State.stepInvocation_reports (s1 := s1) (s2 := s2) hx hfind hr hcur hinvs
    refine ⟨fun s1 s2 hgate hwrite => congrArg _ (hreports s1 s2 hgate hwrite), fun hreads hshadows => ?_⟩
    obtain ⟨s1, s2, hgate, hwrite⟩ := State.gate_cmdWrite_of_accessible (ws := [(k.reportVa, stepReport r)]) hx hk hreads hshadows
    exact ⟨s1, s2, hgate, hwrite, congrArg _ (hreports s1 s2 hgate hwrite)⟩

end Sys2Proof.Machine

/-! The kill budget, the division of energy and the reads of the Scheduler (06_scheduling_streams.md R169, R179, R184, R185, R189). -/

namespace Sys2Proof.Machine

section
variable {s : State} {c : CtxId} {x : Context}

/-! ## Instants of hall time (log entry 5) -/

theorem State.passToHt_of_reached {n : Nat} (h : n ≤ s.ht) : s.passToHt n = s :=
  if_neg (by unfold State.ht at h; omega)

theorem nextMultiple_of_multiple {n p : Nat} (hp : 0 < p) (h : n % p = 0) : nextMultiple n p = n := by
  obtain ⟨q, rfl⟩ := Nat.dvd_of_mod_eq_zero h
  have hq : (p * q + p - 1) / p = q := by
    rw [Nat.add_sub_assoc hp, Nat.mul_add_div hp, Nat.div_eq_of_lt (Nat.sub_one_lt_of_lt hp), Nat.add_zero]
  rw [nextMultiple, hq, Nat.mul_comm]

/-- At a multiple of the period no time passes to the next one. -/
theorem State.passToHt_of_multiple {p : Nat} (hp : 0 < p) (h : s.ht % p = 0) : s.passToHt (nextMultiple s.ht p) = s := by
  rw [nextMultiple_of_multiple hp h, State.passToHt_of_reached le_rfl]

/-- While time passes the contexts, the host's memory, Seam and the streams stay. -/
theorem State.passToHt_frame (s : State) (n : Nat) :
    (s.passToHt n).ctxs = s.ctxs ∧ (s.passToHt n).host = s.host ∧ (s.passToHt n).mem = s.mem ∧ (s.passToHt n).stb = s.stb := by
  unfold State.passToHt
  split_ifs <;> exact ⟨rfl, rfl, rfl, rfl⟩

/-! ## BUDGET_WINDOW_RESET (R179) -/

theorem exec_budgetWindowReset : exec .budgetWindowReset s = .next s.budgetReset.settle := rfl

theorem State.budgetReset_of_multiple (h : s.ht % (max 1 s.sch.budgetWin.toNat * 1000000) = 0) :
    s.budgetReset = s.mapCtxs fun x => { x with killUsed := 0 } := by
  rw [State.budgetReset, State.passToHt_of_multiple (by positivity) h]

theorem State.ctx?_budgetReset : s.budgetReset.ctx? c = (s.ctx? c).map fun x => { x with killUsed := 0 } := by
  rw [State.budgetReset, State.ctx?_mapCtxs, State.ctx?, (s.passToHt_frame _).1]
  rfl

theorem State.budgetReset_frame : s.budgetReset.host = s.host ∧ s.budgetReset.mem = s.mem ∧ s.budgetReset.stb = s.stb := by
  rw [State.budgetReset, State.mapCtxs_host, State.mapCtxs_mem, State.mapCtxs_stb]
  exact (s.passToHt_frame _).2

/-! ## TALLY_INTERVAL (R184) -/

theorem exec_tallyInterval {nj : Nat} : exec (.tallyInterval nj) s = .next (s.tallyInterval nj) := rfl

section
variable {nj : Nat} (hht : s.ht % 10000 = 0)
include hht

theorem State.tallyInterval_of_multiple : s.tallyInterval nj =
    (let t := if s.sch.tallyC2Eff then s.energyInterval nj
      else { s with sch := { s.sch with holder := s.sch.holder.map fun h : Holder => { h with mark := s.ht }, intervalNs := [] } }
    { t with sch := { t.sch with tallyC2Eff := t.sch.tallyC2 } }) := by
  simp only [State.tallyInterval, State.passToHt_of_multiple (by decide) hht]

variable (hholder : s.sch.holder = none)
include hholder

/-- With no share all the interval's energy goes to SCH_TALLY_UNATTRIB, while TALLY_C2 acts. -/
theorem State.tallyInterval_of_noShare (hnone : s.sch.intervalNs = []) : s.tallyInterval nj = { s with sch := { s.sch with
    tallyC2Eff := s.sch.tallyC2
    unattrib := if s.sch.tallyC2Eff then s.sch.unattrib + BitVec.ofNat 32 ((s.sch.unattribRem + nj * 10000) / 10000000000) else s.sch.unattrib
    unattribRem := if s.sch.tallyC2Eff then (s.sch.unattribRem + nj * 10000) % 10000000000 else s.sch.unattribRem } } := by
  rw [State.tallyInterval_of_multiple hht]
  cases hon : s.sch.tallyC2Eff with
  | false => simp only [hholder, hnone, Option.map_none, Bool.false_eq_true, if_false]
  | true =>
    simp only [State.energyInterval, State.unattributed, hholder, hnone, Option.map_none, List.foldl_nil, Nat.zero_add, Nat.min_zero,
      Nat.sub_zero, if_true]

/-- One context's share of `n` ns gives it `n` of the interval's 10,000 parts of energy, and SCH_TALLY_UNATTRIB the rest. -/
theorem State.tallyInterval_of_share {n : Nat} (hon : s.sch.tallyC2Eff = true) (hshare : s.sch.intervalNs = [(c.val, n)])
    (hn : n ≤ 10000) : s.tallyInterval nj =
      { (s.modCtx c fun y => { y with tally := y.tally.addEnergy (nj * n) }) with sch := { s.sch with
        tallyC2Eff := s.sch.tallyC2
        intervalNs := []
        unattrib := s.sch.unattrib + BitVec.ofNat 32 ((s.sch.unattribRem + nj * (10000 - n)) / 10000000000)
        unattribRem := (s.sch.unattribRem + nj * (10000 - n)) % 10000000000 } } := by
  rw [State.tallyInterval_of_multiple hht]
  simp only [hon, State.energyInterval, State.unattributed, hholder, hshare, Option.map_none, List.foldl_cons, List.foldl_nil,
    Nat.zero_add, min_eq_right hn, ctxOf_val, State.modCtx_sch, if_true]

end

/-! ## TALLY_PERIOD (R185) -/

theorem exec_tallyPeriod : exec .tallyPeriod s = .next s.tallyPeriodic := rfl

theorem State.tallyPeriodic_of_one (hon : s.sch.tallyPeriod ≠ 0) (hone : s.contexts = [(c, x)]) (hx : s.ctx? c = some x) :
    s.tallyPeriodic = s.raise 0x81 c.val x.tally.bytes := by
  simp only [State.tallyPeriodic, hon, if_false, hone, List.foldl_cons, List.foldl_nil, State.tallyEvent, hx]

/-! ## The reads of the Scheduler (R169, R189) -/

/-- A request that ends at once, in a mailbox that is not fenced and a module that runs. -/
structure State.Serves (s : State) (code : Nat) : Prop where
  running : s.mbxIs code = true
  unfenced : s.mbx.fenced = false
  live : s.rst.retired = false
  core : s.rst.coreHeld = false

theorem State.Serves.mbxRun {code : Nat} (h : s.Serves code) (f : State → State) : s.mbxRun code f = f s :=
  State.mbxRun_runs s code f h.running h.unfenced h.live (.inl h.core)

theorem exec_vtimeRead : exec .vtimeRead s = .next s.vtimeRead := rfl

theorem exec_tallyRead : exec .tallyRead s = .next s.tallyRead := rfl

theorem exec_stbRead : exec .stbRead s = .next s.stbRead := rfl

theorem State.argReserved_eq_true {width : Nat} (h : 2 ^ width ≤ s.mbxArg 0) : s.argReserved width = true := decide_eq_true h

theorem State.argReserved_eq_false {width : Nat} (h : s.mbxArg 0 < 2 ^ width) : s.argReserved width = false :=
  decide_eq_false h.not_ge

section
variable (hrun : s.Serves 0x40)
include hrun

theorem State.vtimeRead_of_reserved (h : 256 ≤ s.mbxArg 0) : s.vtimeRead = s.mbxEnd stBad [] := by
  rw [State.vtimeRead, hrun.mbxRun, if_pos (State.argReserved_eq_true (width := 8) h), State.mbxFail_eq]

theorem State.vtimeRead_of_context (h : s.mbxArg 0 < 256) (hx : s.ctx? (ctxOf (s.mbxArg 0)) = some x) :
    s.vtimeRead = s.mbxEnd stOk (leBytes 8 x.vt.toNat ++ leBytes 2 x.rem) := by
  simp only [State.vtimeRead, hrun.mbxRun, State.argReserved_eq_false (width := 8) h, Bool.false_eq_true, if_false, hx, State.mbxOk_eq]

theorem State.vtimeRead_of_noContext (h : s.mbxArg 0 < 256) (hx : s.ctx? (ctxOf (s.mbxArg 0)) = none) :
    s.vtimeRead = s.mbxEnd stOk (List.replicate 10 0) := by
  simp only [State.vtimeRead, hrun.mbxRun, State.argReserved_eq_false (width := 8) h, Bool.false_eq_true, if_false, hx, State.mbxOk_eq]

end

section
variable (hrun : s.Serves 0x41)
include hrun

theorem State.tallyRead_of_reserved (h : 256 ≤ s.mbxArg 0) : s.tallyRead = s.mbxEnd stBad [] := by
  rw [State.tallyRead, hrun.mbxRun, if_pos (State.argReserved_eq_true (width := 8) h), State.mbxFail_eq]

theorem State.tallyRead_of_context (h : s.mbxArg 0 < 256) (hx : s.ctx? (ctxOf (s.mbxArg 0)) = some x) :
    s.tallyRead = s.mbxEnd stOk x.tally.bytes := by
  simp only [State.tallyRead, hrun.mbxRun, State.argReserved_eq_false (width := 8) h, Bool.false_eq_true, if_false, hx, State.mbxOk_eq]

theorem State.tallyRead_of_noContext (h : s.mbxArg 0 < 256) (hx : s.ctx? (ctxOf (s.mbxArg 0)) = none) :
    s.tallyRead = s.mbxEnd stOk (List.replicate 48 0) := by
  simp only [State.tallyRead, hrun.mbxRun, State.argReserved_eq_false (width := 8) h, Bool.false_eq_true, if_false, hx, State.mbxOk_eq]

end

section
variable (hrun : s.Serves 0x42)
include hrun

theorem State.stbRead_of_reserved (h : bit (s.mbxArg 0) 15 = true ∨ 2 ^ 17 ≤ s.mbxArg 0) : s.stbRead = s.mbxEnd stBad [] := by
  have hres : (bit (s.mbxArg 0) 15 || decide (2 ^ 17 ≤ s.mbxArg 0)) = true := by simpa using h
  rw [State.stbRead, hrun.mbxRun, if_pos hres, State.mbxFail_eq]

variable (hbit : bit (s.mbxArg 0) 15 = false) (harg : s.mbxArg 0 < 2 ^ 17)
include hbit harg

theorem State.stbRead_of_argument : s.stbRead = s.mbxEnd stOk
    (((s.stb.entries.get? (s.mbxArg 0 % 32768)).map fun e => if bit (s.mbxArg 0) 16 then List.replicate 64 0 else e.bytes).getD
      (List.replicate 64 0)) := by
  have hbits : bits (s.mbxArg 0) 14 0 = s.mbxArg 0 % 32768 := by simp [bits]
  have hopen : (bit (s.mbxArg 0) 15 || decide (2 ^ 17 ≤ s.mbxArg 0)) = false := by
    rw [hbit, decide_eq_false harg.not_ge, Bool.false_or]
  simp only [State.stbRead, hrun.mbxRun, hopen, Bool.false_eq_true, if_false, hbits]
  cases s.stb.entries.get? (s.mbxArg 0 % 32768) with
  | none => rfl
  | some e => rfl

theorem State.stbRead_of_entry {e : Stream} (hlow : bit (s.mbxArg 0) 16 = false) (he : s.stb.entries.get? (s.mbxArg 0 % 32768) = some e) :
    s.stbRead = s.mbxEnd stOk e.bytes := by
  rw [State.stbRead_of_argument hrun hbit harg, he, hlow]
  rfl

theorem State.stbRead_of_zeros (h : bit (s.mbxArg 0) 16 = true ∨ s.stb.entries.get? (s.mbxArg 0 % 32768) = none) :
    s.stbRead = s.mbxEnd stOk (List.replicate 64 0) := by
  rw [State.stbRead_of_argument hrun hbit harg]
  rcases h with hhigh | hnone
  · rw [hhigh]
    cases s.stb.entries.get? (s.mbxArg 0 % 32768) with
    | none => rfl
    | some e => rfl
  · rw [hnone]
    rfl

end
end

/-- Settles O32: the budget by what a passage of time leaves, TALLY_INTERVAL by its shares, each read by its argument. -/
theorem budgetsAndTally : Obligations.BudgetsAndTally := by
  unfold Obligations.BudgetsAndTally
  simp only [exec_budgetWindowReset, exec_tallyInterval, exec_tallyPeriod, exec_vtimeRead, exec_tallyRead, exec_stbRead]
  refine ⟨fun s hht => ?windowReset, fun s => ?windowFrame,
    fun s nj hht hholder hnone => congrArg _ (State.tallyInterval_of_noShare hht hholder hnone),
    fun s nj c x n hht hholder hon hx hshare hn =>
      ⟨_, congrArg _ (State.tallyInterval_of_share hht hholder hon hshare hn), rfl, rfl, rfl⟩,
    fun s => ⟨fun hoff => congrArg _ (if_pos hoff), fun c x hon hone hx => congrArg _ (State.tallyPeriodic_of_one hon hone hx)⟩,
    fun s hrun hopen hlive hcore => ?vtime, fun s hrun hopen hlive hcore => ?tally, fun s hrun hopen hlive hcore => ?stb⟩
  case windowReset => rw [State.budgetReset_of_multiple hht]
  case windowFrame =>
    refine ⟨_, rfl, fun c x hx => ?_, fun c => ?_, State.budgetReset_frame⟩
    · rw [State.ctx?_budgetReset] at hx
      obtain ⟨y, -, rfl⟩ := Option.map_eq_some_iff.1 hx
      rfl
    · rw [State.ctx?_budgetReset, Option.isSome_map]
  case vtime =>
    have hserves : s.Serves 0x40 := ⟨hrun, hopen, hlive, hcore⟩
    exact ⟨fun h => congrArg _ (State.vtimeRead_of_reserved hserves h),
      fun x h hx => congrArg _ (State.vtimeRead_of_context hserves h hx),
      fun h hx => congrArg _ (State.vtimeRead_of_noContext hserves h hx)⟩
  case tally =>
    have hserves : s.Serves 0x41 := ⟨hrun, hopen, hlive, hcore⟩
    exact ⟨fun h => congrArg _ (State.tallyRead_of_reserved hserves h),
      fun x h hx => congrArg _ (State.tallyRead_of_context hserves h hx),
      fun h hx => congrArg _ (State.tallyRead_of_noContext hserves h hx)⟩
  case stb =>
    have hserves : s.Serves 0x42 := ⟨hrun, hopen, hlive, hcore⟩
    exact ⟨fun h => congrArg _ (State.stbRead_of_reserved hserves h),
      fun e hbit harg hlow he => congrArg _ (State.stbRead_of_entry hserves hbit harg hlow he),
      fun hbit harg h => congrArg _ (State.stbRead_of_zeros hserves hbit harg h)⟩

end Sys2Proof.Machine

/-! CHECK: whose step the t that a decision latches is counted by (07_training.md R194). -/

namespace Sys2Proof.Machine

/-! ## The decision on a norm (Table 7.3) -/

theorem checkNorm_of_noLimit {sum limit : FNum} {lse : Int} {mode : Bool} (hsum : sum.isFinite = true) (hlimit : posFinite limit = false) :
    checkNorm sum lse limit mode = .decided (fmul (fsqrt sum) (FNum.pow2 (-lse))) .apply one := by
  simp only [checkNorm, hsum, hlimit, Bool.not_true, Bool.false_and, Bool.false_eq_true, if_false]

/-! ## The t of the update -/

/-- t of an update by a command of step `step`: the unit's applied steps, and the step itself unless it is done. -/
def TrainUnit.updateT (u : TrainUnit) (step : Word) : Word := if u.stepDone < step then u.applied + 1 else u.applied

section
variable {s : State} {c : CtxId} {j : Cmd}

theorem State.tLatch_modCmd {t : State} {seq : Word} {f : Cmd → Cmd} (hctxs : t.ctxs = s.ctxs) (hf : ∀ i, (f i).seq = i.seq)
    (hj : s.cmd? c seq = some j) : ((t.modCmd c seq f).cmd? c seq).map (·.tLatch) = some (f j).tLatch := by
  have hsame : t.cmd? c seq = s.cmd? c seq := by simp only [State.cmd?, State.ctx?, hctxs]
  rw [State.cmd?_modCmd hf (hsame.trans hj), Option.map_some]

/-- A decided CHECK counts t by the step of the command that it is given, and latches it in the context's command of that number. -/
theorem State.tLatch_runCheck {k : Cmd} {o : FOp} {rd : Nat → Byte} {g f : FNum} {d : NormDecision}
    (h : checkNorm (elemAt rd 0 o.addrA 0) (lseOf (vget s.opt.units (unitOf o.tu)).openLse)
      (ofBits (vget s.opt.units (unitOf o.tu)).limit.toNat) (vget s.opt.units (unitOf o.tu)).normMode = .decided g d f)
    (hj : s.cmd? c k.seq = some j) :
    ((s.runCheck c k o rd).cmd? c k.seq).map (·.tLatch) = some ((vget s.opt.units (unitOf o.tu)).updateT k.stepNo) := by
  simp only [State.runCheck, h]
  exact State.tLatch_modCmd rfl (fun _ => rfl) hj

end

/-! ## A CHECK given another command than the context's -/

namespace StrayCheck

/-- A command of step 1, with number 0. -/
def given : Cmd := { cmdReset with desc := leBytes 4 0 ++ leBytes 4 1 }

/-- A module whose context 0 holds another command with number 0, of step 0. -/
def state : State := State.reset.setCtx 0 { contextReset with cmds := [cmdReset] }

theorem cmd?_state : state.cmd? 0 given.seq = some cmdReset := by
  rw [state, State.cmd?, State.ctx?_setCtx_same]
  rfl

theorem unit_state (u : UnitId) : vget state.opt.units u = trainUnitReset := vget_replicate trainUnitReset u

/-- The sum of squares in a memory of zeros is finite, and no limit is set. -/
theorem check_decided : ∃ g f d, checkNorm (elemAt (fun _ => 0) 0 (fop []).addrA 0)
    (lseOf (vget state.opt.units (unitOf (fop []).tu)).openLse) (ofBits (vget state.opt.units (unitOf (fop []).tu)).limit.toNat)
    (vget state.opt.units (unitOf (fop []).tu)).normMode = .decided g d f := by
  rw [unit_state]
  exact ⟨_, _, _, checkNorm_of_noLimit (by decide +kernel) (by decide +kernel)⟩

theorem updateT_given_ne_held : trainUnitReset.updateT given.stepNo ≠ trainUnitReset.updateT cmdReset.stepNo := by decide +kernel

end StrayCheck

/-- Refutes O21: its first clause counts t by the step of the command that the context holds, CHECK by the step of the command that
it is given, and nothing says they are the same. `StrayCheck.given`, of step 1, has the number of the context's command of step 0. -/
theorem not_normChecksDecide : ¬ Obligations.NormChecksDecide := by
  unfold Obligations.NormChecksDecide
  rintro ⟨hdecided, -⟩
  obtain ⟨g, f, d, hcheck⟩ := StrayCheck.check_decided
  have hmodel := State.tLatch_runCheck hcheck StrayCheck.cmd?_state
  rw [hdecided StrayCheck.state 0 StrayCheck.given (fop []) (fun _ => 0) g f d hcheck] at hmodel
  have hsame := hmodel.symm.trans (State.tLatch_modCmd rfl (fun _ => rfl) StrayCheck.cmd?_state)
  rw [StrayCheck.unit_state] at hsame
  exact StrayCheck.updateT_given_ne_held (Option.some.inj hsame)

end Sys2Proof.Machine

/-! Opening a step of a unit, tracked tensors, their histories and the noise averages (07_training.md R197 to R202, R217). -/

namespace Sys2Proof.Machine

section
variable {s : State} {u : UnitId}

/-! ## OPT_OPEN.START (R201) -/

theorem exec_openStep : exec (.openStep u) s = .next (s.openUnit u) := rfl

/-- A refused open: OPEN_ERR, and which unit was to be opened. -/
def State.openRefused (s : State) (u : UnitId) : State :=
  { s with opt := { s.opt with openTu := BitVec.ofNat 6 u.val, openNow := BitVec.ofNat 6 u.val, openErr := true } }

/-- An open that begins: the unit's step and loss scale latched, its exponents fixed, then the patch list carried out. -/
def State.openBegun (s : State) (u : UnitId) (x : Context) : State :=
  (s.patchList x).foldl
    (fun (t : State) b => t.patchWord (ctxOf (vget s.opt.units u).ctx.toNat) (lseOf (vget s.opt.units u).lse) (patchOf b))
    ({ s with opt := { s.opt with
      openTu := BitVec.ofNat 6 u.val, openNow := BitVec.ofNat 6 u.val, openErr := false, openBusy := true
      units := vset s.opt.units u { vget s.opt.units u with
        openStep := s.opt.openStep, openLse := (vget s.opt.units u).lse } } }.fixExponents u s.opt.openStep)

theorem State.openUnit_of_busy (h : s.opt.openBusy = true) : s.openUnit u = s := if_pos h

section
variable (hidle : s.opt.openBusy = false)
include hidle

theorem State.openUnit_of_noContext (hx : s.ctx? (ctxOf (vget s.opt.units u).ctx.toNat) = none) : s.openUnit u = s.openRefused u := by
  rw [State.openUnit, if_neg (Bool.eq_false_iff.1 hidle)]
  simp only [State.ctx?] at hx ⊢
  rw [hx]
  rfl

/-- With its unit's context there, an open is refused for its unit, its list or an entry, else the step opens. -/
theorem State.openUnit_of_context {x : Context} (hx : s.ctx? (ctxOf (vget s.opt.units u).ctx.toNat) = some x) :
    s.openUnit u =
      if !(vget s.opt.units u).valid || 4096 < s.opt.pcount.toNat || s.opt.pvaLo.toNat % 16 != 0 || (s.patchList x).any (s.patchBad u)
      then s.openRefused u
      else s.openBegun u x := by
  rw [State.openUnit, if_neg (Bool.eq_false_iff.1 hidle)]
  simp only [State.ctx?] at hx ⊢
  rw [hx]
  rfl

theorem State.openUnit_of_refused
    (h : (vget s.opt.units u).valid = false ∨ s.ctx? (ctxOf (vget s.opt.units u).ctx.toNat) = none ∨ 4096 < s.opt.pcount.toNat ∨
      s.opt.pvaLo.toNat % 16 ≠ 0 ∨
      (∃ x, s.ctx? (ctxOf (vget s.opt.units u).ctx.toNat) = some x ∧ ∃ b ∈ s.patchList x, s.patchBad u b = true)) :
    s.openUnit u = s.openRefused u := by
  cases hx : s.ctx? (ctxOf (vget s.opt.units u).ctx.toNat) with
  | none => exact State.openUnit_of_noContext hidle hx
  | some x =>
    rw [State.openUnit_of_context hidle hx, if_pos]
    simpa only [hx, reduceCtorEq, false_or, Option.some.injEq, exists_eq_left', Bool.or_eq_true, Bool.not_eq_true', decide_eq_true_eq,
      bne_iff_ne, List.any_eq_true, or_assoc] using h

theorem State.openUnit_of_accepted {x : Context} (hx : s.ctx? (ctxOf (vget s.opt.units u).ctx.toNat) = some x)
    (hvalid : (vget s.opt.units u).valid = true) (hcount : s.opt.pcount.toNat ≤ 4096) (halign : s.opt.pvaLo.toNat % 16 = 0)
    (hgood : ∀ b ∈ s.patchList x, s.patchBad u b = false) : s.openUnit u = s.openBegun u x := by
  have hlist : (s.patchList x).any (s.patchBad u) = false := List.any_eq_false.2 fun b hb => by simp [hgood b hb]
  rw [State.openUnit_of_context hidle hx, hvalid, decide_eq_false hcount.not_gt, halign, hlist]
  rfl

end

/-! ## The exponents of a step (R200) -/

/-- E_CUR computed from the H most recent entries (03_formats.md R84). -/
def Tracked.withExponent (t : Tracked) : Tracked :=
  { t with eCur := BitVec.ofInt 8 (encodeExponent (if t.e5m2 then 57344 else 448) t.margin (t.hist.take t.h)) }

section
variable {i : Nat} {t : Tracked} (hone : s.opt.tracked = [(i, t)])
include hone

theorem State.get?_tracked_of_one : s.opt.tracked.get? i = some t := by
  rw [hone, Assoc.get?, if_pos rfl]

theorem State.recordAmax_tracked_of_one (hpend : t.pendValid = true) : (s.recordAmax i).opt.tracked = [(i, t.record)] := by
  simp only [State.recordAmax, State.get?_tracked_of_one hone, hpend, Bool.not_true, Bool.false_eq_true, if_false]
  cases t.pendNonfinite <;> simp [hone, Assoc.modify]

/-- A pending maximum of an earlier step is recorded before the exponent is computed. -/
theorem State.fixExponents_tracked_of_one {step : Word} (hu : t.unit = u) : (s.fixExponents u step).opt.tracked =
    [(i, (if t.pendValid && t.pstep < step then t.record else t).withExponent)] := by
  have hmine : s.tensorsOf u = [i] := by simp [State.tensorsOf, hone, hu]
  simp only [State.fixExponents, hmine, List.foldl_cons, List.foldl_nil, State.get?_tracked_of_one hone, Option.any_some]
  split
  case isTrue hdue =>
    simp only [Bool.and_eq_true] at hdue
    rw [State.recordAmax_tracked_of_one hone hdue.1]
    simp [Assoc.modify, Tracked.withExponent]
  case isFalse => simp [hone, Assoc.modify, Tracked.withExponent]

end

/-! ## OPT_TU_LS (R197) -/

theorem TrainUnit.write_lse_of_outside {t : TrainUnit} {v : Word}
    (h : (wfield v 0 : BitVec 6).toInt < -24 ∨ 24 < (wfield v 0 : BitVec 6).toInt) : t.write 0x08 v = t :=
  if_pos (by simpa only [Bool.or_eq_true, decide_eq_true_eq] using h)

/-! ## OPEN_COMPLETE (R202) -/

theorem exec_openComplete : exec .openComplete s = .next s.openComplete := rfl

theorem State.openComplete_of_waiting (h : ∃ p ∈ s.opt.owed, s.patchWaits p.1 p.2.1 = true) : s.openComplete = s :=
  if_pos (List.any_eq_true.2 h)

theorem State.openComplete_of_noneWaiting (h : ∀ p ∈ s.opt.owed, s.patchWaits p.1 p.2.1 = false) :
    s.openComplete = (let t := s.opt.owed.foldl (fun (t : State) p => t.patchPut p.1 p.2.1 p.2.2) s
      { t with opt := { t.opt with owed := [], openBusy := false } }) :=
  if_neg (by simpa using h)

theorem State.openComplete_of_noneOwed (h : s.opt.owed = []) : s.openComplete = { s with opt := { s.opt with openBusy := false } } := by
  rw [State.openComplete_of_noneWaiting (by simp [h]), h, List.foldl_nil]
  simp only [← h]

/-! ## OPT_TRACK (R198) -/

theorem exec_optTrack : exec .optTrack s = .next s.optTrack := rfl

/-- The tensor that the request's words describe. -/
def State.trackAsked (s : State) : Tracked :=
  { unit := unitOf (bits (s.mbxArg 0) 5 0), tensorId := BitVec.ofNat 32 (s.mbxArg 1), e5m2 := bit (s.mbxArg 0) 6
    h := bits (s.mbxArg 0) 14 8, margin := bits (s.mbxArg 0) 19 16, hist := [], eCur := 0, pendValid := false
    pendNonfinite := false, pstep := 0, pend := 0, lastStep := 0 }

/-- What OPT_TRACK does not accept: reserved bits, an H outside 1 to 64, a unit not VALID, a TENSOR_ID the unit has already. -/
def State.TrackBad (s : State) : Prop :=
  bit (s.mbxArg 0) 7 = true ∨ bit (s.mbxArg 0) 15 = true ∨ bits (s.mbxArg 0) 31 20 ≠ 0 ∨ s.trackAsked.h = 0 ∨ 64 < s.trackAsked.h ∨
    (vget s.opt.units s.trackAsked.unit).valid = false ∨
    ∃ e ∈ s.opt.tracked, e.2.unit = s.trackAsked.unit ∧ e.2.tensorId = s.trackAsked.tensorId

section
variable (hrun : s.Serves 0x50)
include hrun

theorem State.optTrack_of_serves [Decidable s.TrackBad] : s.optTrack =
    if s.TrackBad then s.mbxEnd stOk [8, 0, 0, 0]
    else if 4096 ≤ lowestFreeKey s.opt.tracked 0 then s.mbxEnd stOk [4, 0, 0, 0]
    else { s with opt := { s.opt with tracked := s.opt.tracked.put (lowestFreeKey s.opt.tracked 0) s.trackAsked } }.mbxEnd stOk
      (leBytes 4 (lowestFreeKey s.opt.tracked 0 * 256)) := by
  rw [State.optTrack, hrun.mbxRun]
  refine ite_congr (propext ?_) (fun _ => rfl) fun _ => ite_congr rfl (fun _ => rfl) fun _ => ?_
  · simp [State.TrackBad, State.trackAsked, or_assoc]
  · rw [State.mbxOk_eq, show stOk.toNat = 0 from rfl, Nat.zero_add]
    rfl

end

/-! ## Requests on a tracked tensor (R217) -/

theorem exec_optUntrack : exec .optUntrack s = .next s.optUntrack := rfl
theorem exec_optHistRead : exec .optHistRead s = .next s.histRead := rfl
theorem exec_optHistWrite : exec .optHistWrite s = .next s.histWrite := rfl

theorem State.ttArg_of_inRange (h : s.mbxArg 0 < 4096) : s.ttArg = s.opt.tracked.get? (s.mbxArg 0) := by
  rw [State.ttArg, State.argReserved_eq_false (width := 12) h, if_neg Bool.false_ne_true]

theorem State.ttArg_of_none (h : 4096 ≤ s.mbxArg 0 ∨ s.opt.tracked.get? (s.mbxArg 0) = none) : s.ttArg = none := by
  rw [State.ttArg]
  split
  case isTrue => rfl
  case isFalse hin => exact h.resolve_left fun hout => hin (State.argReserved_eq_true (width := 12) hout)

section
variable (hrun : s.Serves 0x51)
include hrun

theorem State.optUntrack_of_none (h : s.ttArg = none) : s.optUntrack = s.mbxEnd stOk [8, 0, 0, 0] := by
  rw [State.optUntrack, hrun.mbxRun, h]
  rfl

theorem State.optUntrack_of_some {t : Tracked} (h : s.ttArg = some t) :
    s.optUntrack = { s with opt := { s.opt with tracked := s.opt.tracked.del (s.mbxArg 0) } }.mbxEnd stOk [0, 0, 0, 0] := by
  rw [State.optUntrack, hrun.mbxRun, h]
  rfl

end

section
variable (hrun : s.Serves 0x52) (harg : s.mbxArg 0 < 4096)
include hrun harg

theorem State.histRead_of_inRange :
    s.histRead = s.mbxEnd stOk ((s.opt.tracked.get? (s.mbxArg 0)).elim (List.replicate 272 0) Tracked.bytes) := by
  rw [State.histRead, hrun.mbxRun, State.argReserved_eq_false (width := 12) harg, State.ttArg_of_inRange harg, if_neg Bool.false_ne_true]
  cases s.opt.tracked.get? (s.mbxArg 0) <;> rfl

end

/-- The first word of the record that OPT_HIST_WRITE is given (Table 7.11). -/
def State.histWord (s : State) : Nat := fieldAt (s.mbxBytes.drop 4) 0 4

/-- A tensor with the fields of that record. -/
def State.histGiven (s : State) (t : Tracked) : Tracked :=
  { t with
    hist := (List.range (bits s.histWord 6 0)).map fun i => BitVec.ofNat 32 (fieldAt (s.mbxBytes.drop 4) (0x10 + 4 * i) 4)
    eCur := BitVec.ofNat 8 (bits s.histWord 15 8), pendValid := bit s.histWord 16, pendNonfinite := bit s.histWord 17
    pstep := BitVec.ofNat 32 (fieldAt (s.mbxBytes.drop 4) 4 4), pend := BitVec.ofNat 32 (fieldAt (s.mbxBytes.drop 4) 8 4)
    lastStep := BitVec.ofNat 32 (fieldAt (s.mbxBytes.drop 4) 12 4) }

section
variable (hrun : s.Serves 0x53)
include hrun

theorem State.histWrite_of_none (h : s.ttArg = none) : s.histWrite = s.mbxEnd stOk [8, 0, 0, 0] := by
  rw [State.histWrite, hrun.mbxRun, h]
  rfl

theorem State.histWrite_of_some {t : Tracked} (h : s.ttArg = some t) : s.histWrite =
    if bit s.histWord 7 = true ∨ 64 < bits s.histWord 6 0 ∨ bits s.histWord 31 18 ≠ 0 then s.mbxEnd stOk [8, 0, 0, 0]
    else { s with opt := { s.opt with tracked := s.opt.tracked.put (s.mbxArg 0) (s.histGiven t) } }.mbxEnd stOk [0, 0, 0, 0] := by
  rw [State.histWrite, hrun.mbxRun, h]
  exact ite_congr (by simp [State.histWord, or_assoc]) (fun _ => rfl) fun _ => rfl

theorem State.histWrite_of_bad (h : 4096 ≤ s.mbxArg 0 ∨ s.opt.tracked.get? (s.mbxArg 0) = none ∨
      bit s.histWord 7 = true ∨ 64 < bits s.histWord 6 0 ∨ bits s.histWord 31 18 ≠ 0) : s.histWrite = s.mbxEnd stOk [8, 0, 0, 0] := by
  cases harg : s.ttArg with
  | none => exact State.histWrite_of_none hrun harg
  | some t =>
    have hthere : ¬ (4096 ≤ s.mbxArg 0 ∨ s.opt.tracked.get? (s.mbxArg 0) = none) := fun hnone => by
      simp [State.ttArg_of_none hnone] at harg
    rw [State.histWrite_of_some hrun harg, if_pos ((or_assoc.2 h).resolve_left hthere)]

theorem State.histWrite_of_good {t : Tracked} (harg : s.mbxArg 0 < 4096) (ht : s.opt.tracked.get? (s.mbxArg 0) = some t)
    (hbit : bit s.histWord 7 = false) (hlen : bits s.histWord 6 0 ≤ 64) (hres : bits s.histWord 31 18 = 0) : s.histWrite =
      { s with opt := { s.opt with tracked := s.opt.tracked.put (s.mbxArg 0) (s.histGiven t) } }.mbxEnd stOk [0, 0, 0, 0] := by
  rw [State.histWrite_of_some hrun ((State.ttArg_of_inRange harg).trans ht), if_neg (by simp [hbit, hlen, hres])]

end

/-! ## The noise averages (R217) -/

theorem exec_optNoiseRead : exec .optNoiseRead s = .next s.noiseRead := rfl
theorem exec_optNoiseWrite : exec .optNoiseWrite s = .next s.noiseWrite := rfl

theorem unitOf_val : unitOf u.val = u := Fin.ext (Nat.mod_eq_of_lt u.isLt)

theorem State.argReserved_of_unit (h : s.mbxArg 0 = u.val) : s.argReserved 6 = false :=
  State.argReserved_eq_false (width := 6) (h ▸ u.isLt)

section
variable (hrun : s.Serves 0x54)
include hrun

theorem State.noiseRead_of_unit (h : s.mbxArg 0 = u.val) : s.noiseRead = s.mbxEnd stOk
    (leBytes 4 (vget s.opt.units u).g2e.toNat ++ leBytes 4 (vget s.opt.units u).se.toNat ++ leBytes 4 (vget s.opt.units u).ncount.toNat) := by
  simp only [State.noiseRead, hrun.mbxRun, State.argReserved_of_unit h, Bool.false_eq_true, if_false, h, unitOf_val, State.mbxOk_eq]

theorem State.noiseRead_of_reserved (h : 64 ≤ s.mbxArg 0) : s.noiseRead = s.mbxEnd stBad [] := by
  rw [State.noiseRead, hrun.mbxRun, if_pos (State.argReserved_eq_true (width := 6) h), State.mbxFail_eq]

end

section
variable (hrun : s.Serves 0x55)
include hrun

theorem State.noiseWrite_of_unit (h : s.mbxArg 0 = u.val) : s.noiseWrite = { s with opt := { s.opt with
    units := vmod s.opt.units u fun (t : TrainUnit) => { t with
      g2e := BitVec.ofNat 32 (s.mbxArg 1), se := BitVec.ofNat 32 (s.mbxArg 2), ncount := BitVec.ofNat 32 (s.mbxArg 3) } } }.mbxEnd
        stOk [0, 0, 0, 0] := by
  simp only [State.noiseWrite, hrun.mbxRun, State.argReserved_of_unit h, Bool.false_eq_true, if_false, h, unitOf_val, State.mbxStatus_eq]
  rfl

theorem State.noiseWrite_of_reserved (h : 64 ≤ s.mbxArg 0) : s.noiseWrite = s.mbxEnd stOk [8, 0, 0, 0] := by
  rw [State.noiseWrite, hrun.mbxRun, if_pos (State.argReserved_eq_true (width := 6) h), State.mbxStatus_eq]
  rfl

end
end

/-- Settles O33: each clause is one outcome of an open, of OPEN_COMPLETE, of a write of OPT_TU_LS or of a request. -/
theorem stepsOpenedAndTensorsTracked : Obligations.StepsOpenedAndTensorsTracked := by
  unfold Obligations.StepsOpenedAndTensorsTracked
  simp only [exec_openStep, exec_openComplete, exec_optTrack, exec_optUntrack, exec_optHistRead, exec_optHistWrite, exec_optNoiseRead,
    exec_optNoiseWrite]
  refine ⟨fun s u hbusy => congrArg _ (State.openUnit_of_busy hbusy), fun s u hidle h => congrArg _ (State.openUnit_of_refused hidle h),
    fun s u x hidle hvalid hx hcount halign hgood => congrArg _ (State.openUnit_of_accepted hidle hx hvalid hcount halign hgood),
    fun s u step i t hone hu => ?exponents, fun t v h => TrainUnit.write_lse_of_outside h,
    fun s => ⟨fun h => congrArg _ (State.openComplete_of_noneOwed h), fun h => congrArg _ (State.openComplete_of_waiting h),
      fun h => congrArg _ (State.openComplete_of_noneWaiting h)⟩,
    fun s hrun hopen hlive hcore => ?track, fun s hrun hopen hlive hcore => ?untrack, fun s hrun hopen hlive hcore harg => ?histRead,
    fun s hrun hopen hlive hcore => ?histWrite, fun s hrun hopen hlive hcore => ?noiseRead, fun s hrun hopen hlive hcore => ?noiseWrite⟩
  case exponents =>
    refine ⟨_, _, rfl, State.fixExponents_tracked_of_one hone hu, ?_⟩
    by_cases hdue : (t.pendValid && t.pstep < step) = true
    · rw [if_pos hdue]
      simp only [Bool.and_eq_true, decide_eq_true_eq] at hdue
      exact ⟨rfl, fun h => absurd hdue (by simpa [imp_iff_not_or] using h), fun _ _ => rfl⟩
    · rw [if_neg hdue]
      exact ⟨rfl, fun _ => rfl, fun hpend hstep => absurd (by simp [hpend, hstep]) hdue⟩
  case track =>
    classical
    have hserves : s.Serves 0x50 := ⟨hrun, hopen, hlive, hcore⟩
    rw [State.optTrack_of_serves hserves]
    exact ⟨fun hbad => congrArg _ (if_pos hbad), fun hgood hfull => congrArg _ ((if_neg hgood).trans (if_pos hfull)),
      fun hgood hroom => congrArg _ ((if_neg hgood).trans (if_neg hroom.not_ge))⟩
  case untrack =>
    have hserves : s.Serves 0x51 := ⟨hrun, hopen, hlive, hcore⟩
    refine ⟨fun harg hthere => ?_, fun h => congrArg _ (State.optUntrack_of_none hserves (State.ttArg_of_none h))⟩
    obtain ⟨t, ht⟩ := Option.ne_none_iff_exists'.1 hthere
    exact congrArg _ (State.optUntrack_of_some hserves ((State.ttArg_of_inRange harg).trans ht))
  case histRead =>
    rw [State.histRead_of_inRange ⟨hrun, hopen, hlive, hcore⟩ harg]
    exact ⟨fun t ht => by rw [ht]; rfl, fun hnone => by rw [hnone]; rfl⟩
  case histWrite =>
    have hserves : s.Serves 0x53 := ⟨hrun, hopen, hlive, hcore⟩
    exact ⟨fun hbad => congrArg _ (State.histWrite_of_bad hserves hbad),
      fun t harg ht hbit hlen hres => congrArg _ (State.histWrite_of_good hserves harg ht hbit hlen hres)⟩
  case noiseRead =>
    have hserves : s.Serves 0x54 := ⟨hrun, hopen, hlive, hcore⟩
    exact ⟨fun u h => congrArg _ (State.noiseRead_of_unit hserves h), fun h => congrArg _ (State.noiseRead_of_reserved hserves h)⟩
  case noiseWrite =>
    have hserves : s.Serves 0x55 := ⟨hrun, hopen, hlive, hcore⟩
    exact ⟨fun u h => congrArg _ (State.noiseWrite_of_unit hserves h), fun h => congrArg _ (State.noiseWrite_of_reserved hserves h)⟩

end Sys2Proof.Machine

/-! The Time Keeper: idle time, the rack time code, parity, holdover and the slot comparators (08_hall_time.md R220 to R224, R226,
R232; log entry 1). -/

namespace Sys2Proof.Machine

section
variable {s : State}

/-! ## An idle step (R222, R386; log entry 1) -/

theorem step_of_empty (h : s.pending = []) : step s = .next s.idle := by
  rw [step, h]

/-- While time passes only the clocks move. -/
theorem State.pass_frame (s : State) (n : Nat) : s.pass n = { s with now := s.now + n, tkp := (s.pass n).tkp } := by
  unfold State.pass
  split <;> rfl

theorem State.pass_tkp_of_unlocked {n : Nat} (h : s.tkp.state = 0) : (s.pass n).tkp = s.tkp := by
  rw [State.pass, if_pos h]

/-- With nothing to give back the counter gains 16 sixteenths for a nanosecond. -/
theorem State.pass_tkp_of_running {n : Nat} (h : s.tkp.state ≠ 0) (howed : s.tkp.owed = 0) :
    (s.pass n).tkp = { s.tkp with ht := (s.tkp.ht + 16 * n) % 2 ^ 68, owed := 0 } := by
  rw [State.pass, if_neg h]
  simp only [howed, htWrap, Nat.sub_zero, Nat.zero_sub]

theorem State.bulkIn_of_noStream (h : s.svc.bulk = []) : s.bulkIn = s := by
  rw [State.bulkIn, h]

theorem State.bulkIn_of_last {p : List Byte} (h : s.svc.bulk = [p]) : s.bulkIn = { s with
    svc := { s.svc with stream := none, bulk := [], packet := p }
    cal := { s.cal with state := if s.cal.state = 1 then 0 else s.cal.state } } := by
  simp only [State.bulkIn, h, State.endStream, beq_iff_eq]

theorem State.bulkIn_of_more {p q : List Byte} {rest : List (List Byte)} (h : s.svc.bulk = p :: q :: rest) :
    s.bulkIn = { s with svc := { s.svc with bulk := q :: rest, packet := p } } := by
  rw [State.bulkIn, h]

theorem State.bulkIn_clocks : s.bulkIn.now = s.now ∧ s.bulkIn.tkp = s.tkp := by
  unfold State.bulkIn
  split <;> exact ⟨rfl, rfl⟩

theorem State.idle_tkp : s.idle.tkp = (s.pass 1).tkp := State.bulkIn_clocks.2

end

/-- Settles O2: an idle step is one nanosecond for the clocks and then what the stream does. -/
theorem emptyQueueLetsTimePass : Obligations.EmptyQueueLetsTimePass := by
  unfold Obligations.EmptyQueueLetsTimePass
  intro s hempty
  have hbulk : (s.pass 1).svc.bulk = s.svc.bulk := by rw [State.pass_svc]
  refine ⟨s.idle, step_of_empty hempty, ?_⟩
  rw [State.idle_tkp]
  refine ⟨?_, State.pass_tkp_of_unlocked, State.pass_tkp_of_running, fun hnone => ?_, fun p q rest hmore => ?_, fun p hlast => ?_⟩
  · rw [State.idle, State.bulkIn_clocks.1, State.pass_frame]
  · rw [State.idle, State.bulkIn_of_noStream (hbulk.trans hnone), ← State.pass_frame]
  · rw [State.idle, State.bulkIn_of_more (hbulk.trans hmore), State.pass_svc, State.pass_frame]
  · rw [State.idle, State.bulkIn_of_last (hbulk.trans hlast), State.pass_svc, State.pass_cal, State.pass_frame]

section
variable {s : State} {f : BitVec 72} {since : Nat}

/-! ## Entries to ACQUIRE that wait for the parent link (R223, R224) -/

theorem State.tkpSettle_of_master (h : s.tkp.roleEff = true) : s.tkpSettle = s := by
  simp [State.tkpSettle, h]

theorem State.tkpSettle_of_untrained (h : s.parentTrained = false) : s.tkpSettle = s := by
  simp [State.tkpSettle, h]

/-- No entry is due: the Time Keeper is past RACK and owes no return. -/
theorem State.tkpSettle_of_pastRack (hpast : s.tkp.state = tkLocked ∨ s.tkp.state = tkHoldover ∨ s.tkp.state = tkAcquire)
    (howed : s.tkp.toAcquire = false) : s.tkpSettle = s := by
  have hstart : s.tkp.state ≠ tkUnlocked ∧ s.tkp.state ≠ tkRack := by
    rcases hpast with h | h | h <;> rw [h] <;> decide
  simp [State.tkpSettle, hstart, howed]

theorem State.tkpSettle_of_due (hrole : s.tkp.roleEff = false) (htrained : s.parentTrained = true)
    (hdue : s.tkp.state = tkRack ∨ s.tkp.toAcquire = true ∨ s.tkp.state = tkUnlocked ∧ s.tkp.rckLoss = false) :
    s.tkpSettle = s.acquireTime := by
  rw [State.tkpSettle, if_pos]
  simpa [hrole, htrained, or_assoc] using hdue

/-! ## The rack time code (R220, R223, R224) -/

/-- The counter a frame gives: SECONDS × 10^9 ns at the mark, `since` sixteenths ago, less the cable's delay. -/
def State.codeTime (s : State) (f : BitVec 72) (since : Nat) : Nat :=
  ((f.extractLsb' 0 48).toNat * 1000000000 * 16 + since + 2 ^ 68 - s.tkp.rckDelay.toNat) % 2 ^ 68

theorem State.codeTime_eq : s.codeTime f since =
    ((f.extractLsb' 0 48).toNat * 1000000000 * 16 + since + 2 ^ 68 - s.tkp.rckDelay.toNat) % 2 ^ 68 := rfl

theorem exec_timeCodeFrame : exec (.timeCodeFrame f since) s = .next (s.timeCode f since) := rfl

theorem State.timeCode_of_unread (h : s.tkp.state ≠ 0 ∨ s.sec.islandOnly = true) : s.timeCode f since = s := by
  rw [State.timeCode, if_pos]
  simpa [tkUnlocked] using h

section
variable (hstate : s.tkp.state = 0) (hisland : s.sec.islandOnly = false)
include hstate hisland

theorem State.timeCode_of_bad (h : frameAccepted f = false) : s.timeCode f since = { s with tkp := { s.tkp with
    badFrames := s.tkp.badFrames + 1, codeBad := s.tkp.codeBad || decide (2 ≤ s.tkp.badFrames) } } := by
  simp [State.timeCode, hstate, hisland, h, tkUnlocked]

variable (hgood : frameAccepted f = true)
include hgood

theorem State.timeCode_of_rckLoss (h : s.tkp.rckLoss = true) :
    s.timeCode f since = { s with tkp := { s.tkp with badFrames := 0, codeBad := false } } := by
  simp [State.timeCode, hstate, hisland, hgood, h, tkUnlocked]

theorem State.timeCode_of_accepted (h : s.tkp.rckLoss = false) : s.timeCode f since = { s with tkp := { s.tkp with
    badFrames := 0, codeBad := false, ht := s.codeTime f since, owed := 0
    state := if s.tkp.roleEff then tkLocked else tkRack } }.tkpSettle := by
  simp [State.timeCode, hstate, hisland, hgood, h, tkUnlocked, State.codeTime]

theorem State.timeCode_of_master (h : s.tkp.rckLoss = false) (hrole : s.tkp.roleEff = true) : s.timeCode f since =
    { s with tkp := { s.tkp with badFrames := 0, codeBad := false, ht := s.codeTime f since, owed := 0, state := tkLocked } } := by
  rw [State.timeCode_of_accepted hstate hisland hgood h, if_pos hrole]
  exact State.tkpSettle_of_master hrole

theorem State.timeCode_of_follower_untrained (h : s.tkp.rckLoss = false) (hrole : s.tkp.roleEff = false)
    (htrained : s.parentTrained = false) : s.timeCode f since =
    { s with tkp := { s.tkp with badFrames := 0, codeBad := false, ht := s.codeTime f since, owed := 0, state := tkRack } } := by
  rw [State.timeCode_of_accepted hstate hisland hgood h, hrole]
  exact State.tkpSettle_of_untrained htrained

theorem State.timeCode_of_follower_trained (h : s.tkp.rckLoss = false) (hrole : s.tkp.roleEff = false)
    (htrained : s.parentTrained = true) : s.timeCode f since = { s with tkp := { s.tkp with
      badFrames := 0, codeBad := false, ht := s.codeTime f since, owed := 0, state := tkAcquire, goodRow := 0, toAcquire := false
      holdoverOver := false, relocks := satInc s.tkp.relocks } } := by
  rw [State.timeCode_of_accepted hstate hisland hgood h, hrole]
  exact State.tkpSettle_of_due hrole htrained (.inl rfl)

end

/-! ## Reference, parity, holdover and comparators (R221, R223, R226, R232) -/

theorem exec_rckLossClear : exec .rckLossClear s = .next { s with tkp := { s.tkp with rckLoss := false } }.tkpSettle := rfl
theorem exec_counterParityError : exec .counterParityError s = .next s.counterParity := rfl
theorem exec_slotCmpFault : exec .slotCmpFault s = .next s.cmpFault := rfl
theorem exec_cmpClear : exec .cmpClear s = .next s.cmpClear := rfl

theorem State.counterParity_of_unlocked (h : s.tkp.state = 0) : s.counterParity = s := if_pos (beq_iff_eq.2 h)

theorem State.counterParity_of_master (h : s.tkp.state ≠ 0) (hrole : s.tkp.roleEff = true) :
    s.counterParity = { s with tkp := { s.tkp with state := tkLocked } } :=
  (if_neg (mt beq_iff_eq.1 h)).trans (if_pos hrole)

theorem State.counterParity_of_follower (h : s.tkp.state ≠ 0) (hrole : s.tkp.roleEff = false) : s.counterParity = s.acquireTime :=
  (if_neg (mt beq_iff_eq.1 h)).trans (if_neg (by simp [hrole]))

theorem exec_holdoverExpiry_of_holdover (h : s.tkp.state = tkHoldover) :
    exec .holdoverExpiry s = .next { s with tkp := { s.tkp with holdoverOver := true } } :=
  congrArg _ (if_pos (beq_iff_eq.2 h))

theorem exec_holdoverExpiry_of_other (h : s.tkp.state ≠ tkHoldover) : exec .holdoverExpiry s = .next s :=
  congrArg _ (if_neg (mt beq_iff_eq.1 h))

/-- HOLDOVER beyond its limit is no time to keep scheduled traffic. -/
theorem State.schedAllowed_of_holdoverOver (h : s.tkp.state = tkHoldover) (hover : s.tkp.holdoverOver = true) : s.schedAllowed = false := by
  simp [State.schedAllowed, State.timeGood, h, hover, tkHoldover, tkLocked]

theorem State.schedAllowed_of_cmpFault (h : s.tkp.cmpFault = true) : s.schedAllowed = false := by
  simp [State.schedAllowed, h]

end

/-- Settles O34: each clause is one outcome of a frame, of the reference, of a parity error, of HOLDOVER or of the comparators. -/
theorem timeCodeSetsHallTime : Obligations.TimeCodeSetsHallTime := by
  unfold Obligations.TimeCodeSetsHallTime
  simp only [exec_timeCodeFrame, exec_rckLossClear, exec_counterParityError, exec_slotCmpFault, exec_cmpClear,
    ← State.codeTime_eq]
  refine ⟨fun s f since h => congrArg _ (State.timeCode_of_unread h), fun s f since hstate hisland => ⟨?bad, ?lost, ?accepted⟩,
    fun s => rfl, fun s h => ?clears, fun s hrole htrained hstate => ?clearsToAcquire, fun s => ⟨?stopped, ?master, ?follower⟩,
    fun s => ⟨fun h => ?expired, exec_holdoverExpiry_of_other⟩, fun s => ⟨_, rfl, ?comparators, rfl⟩,
    fun s => ⟨fun h => congrArg _ (if_pos h), fun h => congrArg _ (if_neg (by simp [h]))⟩⟩
  case bad => exact fun h => congrArg _ (State.timeCode_of_bad hstate hisland h)
  case lost => exact fun hgood h => congrArg _ (State.timeCode_of_rckLoss hstate hisland hgood h)
  case accepted =>
    exact fun hgood h => ⟨fun hrole => congrArg _ (State.timeCode_of_master hstate hisland hgood h hrole),
      fun hrole htrained => congrArg _ (State.timeCode_of_follower_untrained hstate hisland hgood h hrole htrained),
      fun hrole htrained => congrArg _ (State.timeCode_of_follower_trained hstate hisland hgood h hrole htrained)⟩
  case clears =>
    rcases h with hrole | huntrained
    · exact congrArg _ (State.tkpSettle_of_master hrole)
    · exact congrArg _ (State.tkpSettle_of_untrained huntrained)
  case clearsToAcquire => exact congrArg _ (State.tkpSettle_of_due hrole htrained (.inr (.inr ⟨hstate, rfl⟩)))
  case stopped => exact fun h => congrArg _ (State.counterParity_of_unlocked h)
  case master => exact fun h hrole => congrArg _ (State.counterParity_of_master h hrole)
  case follower => exact fun h hrole => congrArg _ (State.counterParity_of_follower h hrole)
  case expired => exact ⟨_, exec_holdoverExpiry_of_holdover h, rfl, State.schedAllowed_of_holdoverOver h rfl⟩
  case comparators => exact State.schedAllowed_of_cmpFault rfl

end Sys2Proof.Machine

/-! Time exchanges and steering (08_hall_time.md R223, R225, R226, R230). -/

namespace Sys2Proof.Machine

section
variable {s : State} {l : LinkId} {t1 t2 t3 t4 : Int} {asA ok lk par : Bool} {th2 th : Int}

/-! ## What an exchange records (R225) -/

theorem exec_timeExchange : exec (.timeExchange l t1 t2 t3 t4 asA ok lk par) s = .next (s.timeExchange l t1 t2 t3 t4 asA ok lk par) := rfl

theorem State.theta2_asA : s.theta2 l t1 t2 t3 t4 true =
    (t2 - (t1 + s.cal.loaded.trim l.val (s.timeLane l) false)) - ((t4 + s.cal.loaded.trim l.val (s.timeLane l) true) - t3) := rfl

theorem State.theta2_asB : s.theta2 l t1 t2 t3 t4 false =
    (t4 - (t3 + s.cal.loaded.trim l.val (s.timeLane l) false)) - ((t2 + s.cal.loaded.trim l.val (s.timeLane l) true) - t1) := by
  simp only [State.theta2, thetaTwice, State.trimmed, Bool.false_eq_true, if_false, neg_sub]

theorem gapFrom_of_inGap {n : Nat} (h : 9984 ≤ n % 10000) : gapFrom n = n := if_pos h

/-- θ from its double; an odd one is halved either way. -/
def State.halved (s : State) (th2 : Int) : Int :=
  th2 / 2 + (if th2 % 2 != 0 && Config.freeChoice s.freeCtr 0 then 1 else 0)

/-- An exchange noted for its link. -/
def State.noted (s : State) (l : LinkId) (th2 th : Int) (ok : Bool) : State :=
  { s with tkp := { s.tkp with links := vmod s.tkp.links l fun (k : LinkTime) => { k with
      theta2 := th2, theta := max (-32767) (min 32767 th), sinceValid := some 0, partnerOk := ok, ownOk := s.timeGood } } }

/-- What an exchange leaves before anything steers: its note, and a free value used up where 2θ is odd. -/
def State.recorded (s : State) (l : LinkId) (th2 : Int) (ok : Bool) : State :=
  (if th2 % 2 = 0 then s else s.bumpFree).noted l th2 (s.halved th2) ok

theorem State.halved_eq : s.halved th2 = th2 / 2 + (if th2 % 2 ≠ 0 ∧ Config.freeChoice s.freeCtr 0 = true then 1 else 0) := by
  simp only [State.halved, Bool.and_eq_true, bne_iff_ne]

theorem State.recorded_eq : s.recorded l th2 ok =
    { s.noted l th2 (s.halved th2) ok with freeCtr := if th2 % 2 = 0 then s.freeCtr else s.freeCtr + 1 } := by
  unfold State.recorded
  split <;> rfl

@[simp] theorem State.recorded_state : (s.recorded l th2 ok).tkp.state = s.tkp.state := by rw [State.recorded_eq]; rfl
@[simp] theorem State.recorded_roleEff : (s.recorded l th2 ok).tkp.roleEff = s.tkp.roleEff := by rw [State.recorded_eq]; rfl
@[simp] theorem State.recorded_guardEff : (s.recorded l th2 ok).tkp.guardEff = s.tkp.guardEff := by rw [State.recorded_eq]; rfl
@[simp] theorem State.recorded_parentLink : (s.recorded l th2 ok).parentLink = s.parentLink := by rw [State.recorded_eq]; rfl

/-- The exchange is one on the link a follower steers by. -/
def State.SteersBy (s : State) (l : LinkId) : Prop := s.tkp.roleEff = false ∧ l = s.parentLink

theorem State.steersBy_iff : s.SteersBy l ↔ (!s.tkp.roleEff && l == s.parentLink) = true := by
  simp only [State.SteersBy, Bool.and_eq_true, Bool.not_eq_true', beq_iff_eq]

theorem State.timeExchange_of_noTime (h : s.tkp.state = 0 ∨ carriesTime (s.link l).state = false) :
    s.timeExchange l t1 t2 t3 t4 asA ok lk par = s := by
  rw [State.timeExchange, if_pos]
  simpa [tkUnlocked] using h

section
variable (hstate : s.tkp.state ≠ 0) (hlink : carriesTime (s.link l).state = true) (hgap : 9984 ≤ s.ht % 10000)
include hstate hlink hgap

/-- In the gap of a frame an exchange is recorded at once. -/
theorem State.timeExchange_inGap : s.timeExchange l t1 t2 t3 t4 asA ok lk par =
    (let th2 := s.theta2 l t1 t2 t3 t4 asA
     let u := s.recorded l th2 ok
     let mine := !u.tkp.roleEff && l == u.parentLink
     let u := if u.tkp.state == tkLocked && lk && !mine && !par && !within th2 u.tkp.guardEff then
         u.raise 0x43 l.val (leBytes 4 (BitVec.ofInt 32 (s.halved th2)).toNat)
       else u
     (if mine then u.steer th2 (s.halved th2) else u).tkpSettle) := by
  rw [State.timeExchange, if_neg (by simpa [tkUnlocked] using ⟨hstate, hlink⟩), gapFrom_of_inGap hgap, State.passToHt_of_reached le_rfl]
  rfl

/-- On its parent link a follower steers. -/
theorem State.timeExchange_of_parentLink (hmine : s.SteersBy l) : s.timeExchange l t1 t2 t3 t4 asA ok lk par =
    ((s.recorded l (s.theta2 l t1 t2 t3 t4 asA) ok).steer (s.theta2 l t1 t2 t3 t4 asA) (s.halved (s.theta2 l t1 t2 t3 t4 asA))).tkpSettle := by
  rw [State.timeExchange_inGap hstate hlink hgap]
  simp only [State.recorded_roleEff, State.recorded_parentLink, State.steersBy_iff.1 hmine, Bool.not_true, Bool.and_false, Bool.false_and,
    Bool.false_eq_true, if_false, if_true]

/-- On any other link two LOCKED partners beyond the guard time raise TIME_FAULT. -/
theorem State.timeExchange_of_otherLink (hother : ¬ s.SteersBy l) : s.timeExchange l t1 t2 t3 t4 asA ok lk par =
    (if s.tkp.state = tkLocked ∧ lk = true ∧ par = false ∧ 32 * s.tkp.guardEff < (s.theta2 l t1 t2 t3 t4 asA).natAbs then
      (s.recorded l (s.theta2 l t1 t2 t3 t4 asA) ok).raise 0x43 l.val
        (leBytes 4 (BitVec.ofInt 32 (s.halved (s.theta2 l t1 t2 t3 t4 asA))).toNat)
    else s.recorded l (s.theta2 l t1 t2 t3 t4 asA) ok).tkpSettle := by
  rw [State.timeExchange_inGap hstate hlink hgap]
  simp only [State.recorded_roleEff, State.recorded_parentLink, State.recorded_state, State.recorded_guardEff,
    Bool.eq_false_iff.2 (mt State.steersBy_iff.2 hother), within, Bool.not_false, Bool.and_true, Bool.and_eq_true, Bool.not_eq_true',
    beq_iff_eq, decide_eq_false_iff_not, not_le, and_assoc, Bool.false_eq_true, if_false]

end

/-! ## Steering (R226, R231) -/

theorem State.steer_of_rack (h : s.tkp.state = tkRack) : s.steer th2 th = s := by
  simp [State.steer, h, tkRack, tkAcquire, tkLocked, tkHoldover]

theorem State.steer_of_locked_near (h : s.tkp.state = tkLocked) (hnear : th2.natAbs ≤ 32 * s.tkp.guardEff) :
    s.steer th2 th = s.slew (slewBy th 4) := by
  simp [State.steer, h, within, hnear, tkAcquire, tkLocked]

theorem State.steer_of_locked_far (h : s.tkp.state = tkLocked) (hfar : 32 * s.tkp.guardEff < th2.natAbs) :
    s.steer th2 th = s.acquireTime := by
  simp [State.steer, h, within, hfar.not_ge, tkAcquire, tkLocked]

theorem State.steer_of_holdover_kept (h : s.tkp.state = tkHoldover) (hnear : th2.natAbs ≤ 32 * s.tkp.guardEff)
    (hin : s.tkp.holdoverOver = false) : s.steer th2 th = s := by
  simp [State.steer, h, within, hnear, hin, tkAcquire, tkLocked, tkHoldover]

theorem State.steer_of_holdover_lost (h : s.tkp.state = tkHoldover)
    (hlost : 32 * s.tkp.guardEff < th2.natAbs ∨ s.tkp.holdoverOver = true) : s.steer th2 th = s.acquireTime := by
  have hnot : (within th2 s.tkp.guardEff && !s.tkp.holdoverOver) = false := by
    rcases hlost with hfar | hover
    · simp [within, hfar.not_ge]
    · simp [hover]
  simp [State.steer, h, hnot, tkAcquire, tkLocked, tkHoldover]

theorem State.slew_setRow {d : Int} {n : Nat} {st : BitVec 3} :
    ({ s with tkp := { s.tkp with goodRow := n, state := st } }).slew d =
      { s.slew d with tkp := { (s.slew d).tkp with goodRow := n, state := st } } := by
  unfold State.slew
  split <;> rfl

theorem State.steer_of_acquire_near (h : s.tkp.state = tkAcquire) (hnear : th2.natAbs ≤ 2048) : s.steer th2 th =
    (let n := if th2.natAbs ≤ 64 then s.tkp.goodRow + 1 else 0
     { s.slew (slewBy th 80) with tkp := { (s.slew (slewBy th 80)).tkp with
       goodRow := n, state := if 4 ≤ n then tkLocked else tkAcquire } }) := by
  simp only [State.steer, h, within, hnear, ← State.slew_setRow, beq_self_eq_true, if_true, Nat.reduceMul, decide_true, decide_eq_true_eq]

theorem State.steer_of_acquire_far (h : s.tkp.state = tkAcquire) (hfar : 2048 < th2.natAbs) :
    s.steer th2 th = { s with tkp := { s.tkp with goodRow := 0, stepBy := some (-th) } } := by
  have hrow : ¬ th2.natAbs ≤ 64 := by omega
  simp [State.steer, h, within, hfar.not_ge, hrow]

@[simp] theorem State.slew_state {d : Int} : (s.slew d).tkp.state = s.tkp.state := by
  unfold State.slew
  split <;> rfl

@[simp] theorem State.slew_toAcquire {d : Int} : (s.slew d).tkp.toAcquire = s.tkp.toAcquire := by
  unfold State.slew
  split <;> rfl

/-- A Time Keeper past RACK that owes no return is left where steering took it. -/
theorem State.tkpSettle_of_steered {v : State} (hsteer : s.steer th2 th = v)
    (hpast : v.tkp.state = tkLocked ∨ v.tkp.state = tkHoldover ∨ v.tkp.state = tkAcquire) (howed : v.tkp.toAcquire = false) :
    (s.steer th2 th).tkpSettle = v := by
  rw [hsteer, State.tkpSettle_of_pastRack hpast howed]

theorem State.tkpSettle_of_reacquired (hsteer : s.steer th2 th = s.acquireTime) : (s.steer th2 th).tkpSettle = s.acquireTime :=
  State.tkpSettle_of_steered hsteer (.inr (.inr rfl)) rfl

end

/-- Settles O35: in the gap an exchange is recorded, and each clause is one outcome of what follows. -/
theorem followersSteerToTheirParent : Obligations.FollowersSteerToTheirParent := by
  unfold Obligations.FollowersSteerToTheirParent
  refine ⟨fun s l t1 t2 t3 t4 asA ok lk par h => exec_timeExchange.trans (congrArg _ (State.timeExchange_of_noTime h)),
    fun s l t1 t2 t3 t4 => ⟨State.theta2_asA, State.theta2_asB⟩, ?_⟩
  intro s l t1 t2 t3 t4 asA ok lk par hstate hlink hgap howed th2 th guard u reacquire slewed
  have hth : s.halved th2 = th := State.halved_eq
  have hu : s.recorded l th2 ok = u := by rw [State.recorded_eq, hth]; rfl
  refine ⟨fun hother => ?other, fun hrole hparent => ?parent⟩
  case other =>
    have hexchange := State.timeExchange_of_otherLink (t1 := t1) (t2 := t2) (t3 := t3) (t4 := t4) (asA := asA) (ok := ok) (lk := lk)
      (par := par) hstate hlink hgap hother
    rw [hth, hu] at hexchange
    refine ⟨fun hlocked hlk hpar hfar => ?_, fun hlocked hquiet => ?_, fun hnot => ?_⟩ <;> rw [exec_timeExchange, hexchange]
    · rw [if_pos ⟨hlocked, hlk, hpar, hfar⟩]
      exact congrArg _ (State.tkpSettle_of_pastRack (.inl hlocked) howed)
    · rw [if_neg fun ⟨_, hlk, hpar, hfar⟩ => hquiet.elim (by simp [hlk]) (·.elim (by simp [hpar]) hfar.not_ge)]
      exact congrArg _ (State.tkpSettle_of_pastRack (.inl hlocked) howed)
    · rw [if_neg fun ⟨hlocked, _⟩ => hnot hlocked]
  case parent =>
    have hexchange := State.timeExchange_of_parentLink (t1 := t1) (t2 := t2) (t3 := t3) (t4 := t4) (asA := asA) (ok := ok) (lk := lk)
      (par := par) hstate hlink hgap ⟨hrole, hparent⟩
    rw [hth, hu] at hexchange
    have htrained : s.parentTrained = true := (congrArg (fun m => carriesTime (s.link m).state) hparent).symm.trans hlink
    have hdone {v : State} (h : (u.steer th2 th).tkpSettle = v) : exec (.timeExchange l t1 t2 t3 t4 asA ok lk par) s = .next v :=
      exec_timeExchange.trans (congrArg _ (hexchange.trans h))
    refine ⟨fun hlocked hnear => ?_, fun hlocked hfar => ?_, fun hrack => ?_, fun hhold hnear hin => ?_, fun hhold hlost => ?_,
      fun hacq hnear => ?_, fun hacq hfar => ?_⟩ <;> apply hdone
    · exact State.tkpSettle_of_steered (State.steer_of_locked_near hlocked hnear) (.inl (State.slew_state.trans hlocked))
        (State.slew_toAcquire.trans howed)
    · exact State.tkpSettle_of_reacquired (State.steer_of_locked_far hlocked hfar)
    · rw [State.steer_of_rack (s := u) hrack]
      exact State.tkpSettle_of_due hrole htrained (.inl hrack)
    · exact State.tkpSettle_of_steered (State.steer_of_holdover_kept hhold hnear hin) (.inr (.inl hhold)) howed
    · exact State.tkpSettle_of_reacquired (State.steer_of_holdover_lost hhold hlost)
    · exact State.tkpSettle_of_steered (State.steer_of_acquire_near hacq hnear) ((ite_eq_or_eq ..).imp_right .inr)
        (State.slew_toAcquire.trans howed)
    · exact State.tkpSettle_of_steered (State.steer_of_acquire_far hacq hfar) (.inr (.inr hacq)) howed

end Sys2Proof.Machine

/-! Frame boundaries and slot starts, and the reads of hall time and lateness (08_hall_time.md R222, R228, R229, R237; 01_module.md R24;
09_links.md R253, R254). -/

namespace Sys2Proof.Machine

/-! ## Folds that leave a view of the state alone -/

theorem foldl_view {α β γ : Type} (view : α → γ) {f : α → β → α} (h : ∀ a b, view (f a b) = view a) (l : List β) (a : α) :
    view (l.foldl f a) = view a := by
  rw [← List.foldl_hom view (g₂ := fun v _ => v) (fun a b => (h a b).symm), List.foldl_fixed]

theorem view_ite {α γ : Type} (view : α → γ) {p : Prop} [Decidable p] {a b : α} {v : γ} (ha : view a = v) (hb : view b = v) :
    view (if p then a else b) = v := by
  split
  · exact ha
  · exact hb

section
variable {s : State}

/-! ## The instants of frames and slots (R228; log entry 5) -/

theorem frameFrom_spec (n : Nat) : frameFrom n % 10000 = 0 ∧ n ≤ frameFrom n ∧ frameFrom n < n + 10000 := by
  unfold frameFrom
  omega

theorem nextFrame_spec (last : Option Nat) (n : Nat) : nextFrame last n % 10000 = 0 ∧ n ≤ nextFrame last n ∧ nextFrame last n < n + 20000 := by
  have h := frameFrom_spec n
  unfold nextFrame
  split <;> omega

theorem slotFrom_spec (n : Nat) : slotFrom n % 10000 % 64 = 0 ∧ slotFrom n % 10000 / 64 ≤ 155 ∧ n ≤ slotFrom n ∧ slotFrom n < n + 80 := by
  unfold slotFrom
  dsimp only
  split
  · next h =>
    have hslot : n % 10000 ≤ 64 * ((n % 10000 + 63) / 64) ∧ 64 * ((n % 10000 + 63) / 64) < n % 10000 + 64 := by omega
    generalize (n % 10000 + 63) / 64 = i at h hslot ⊢
    have hpast : (n / 10000 * 10000 + 64 * i) % 10000 = 64 * i := by omega
    rw [hpast]
    omega
  · omega

theorem nextSlot_spec (last : Option Nat) (n : Nat) : nextSlot last n % 10000 % 64 = 0 ∧ nextSlot last n % 10000 / 64 ≤ 155 ∧
    n ≤ nextSlot last n ∧ nextSlot last n < n + 20000 := by
  have h := slotFrom_spec n
  have h' := slotFrom_spec (slotFrom n + 1)
  unfold nextSlot
  split <;> omega

/-- A running clock stands at an instant that lay ahead and fits it. -/
theorem State.ht_passToHt {n : Nat} (hrun : s.tkp.state ≠ 0) (hahead : s.ht ≤ n) (hfits : n < 2 ^ 64) : (s.passToHt n).ht = n := by
  unfold State.ht at hahead
  by_cases hlt : s.tkp.ht < 16 * n
  · simp only [State.passToHt, if_pos hlt, if_neg hrun, State.ht, htWrap]
    omega
  · rw [State.passToHt, if_neg hlt, State.ht]
    omega

/-- While time passes to an instant only the clocks move. -/
theorem State.passToHt_clocks (n : Nat) : s.passToHt n = { s with now := (s.passToHt n).now, tkp := (s.passToHt n).tkp } := by
  unfold State.passToHt
  split_ifs <;> rfl

end

/-! ## What the traffic of a frame boundary leaves alone -/

/-- The state less what links, streams and fences may change at a frame boundary. Of the links the slice enables in effect stay in the
view, and of the Time Keeper the hall time, the frame, the step due, the guard time and the role in effect. -/
def State.besideFrame (s : State) : State :=
  { s with
    now := 0, evr := State.reset.evr, rst := State.reset.rst, col := State.reset.col
    lnk := { State.reset.lnk with sliceEff := s.lnk.sliceEff }
    tkp := { State.reset.tkp with
      ht := s.tkp.ht, frameAt := s.tkp.frameAt, stepBy := s.tkp.stepBy, guardEff := s.tkp.guardEff, roleEff := s.tkp.roleEff } }

section
variable {s : State} {l : LinkId} {g : GroupId} {t : Topo}

@[simp] theorem State.modLink_besideFrame {f : Link → Link} : (s.modLink l f).besideFrame = s.besideFrame := rfl
@[simp] theorem State.modGroup_besideFrame {f : Group → Group} : (s.modGroup g f).besideFrame = s.besideFrame := rfl

theorem State.col_besideFrame {c : Col} : { s with col := c }.besideFrame = s.besideFrame := rfl
theorem State.beSeq_besideFrame {n : Word} : { s with lnk := { s.lnk with beSeq := n } }.besideFrame = s.besideFrame := rfl

@[simp] theorem State.tkpSettle_besideFrame : s.tkpSettle.besideFrame = s.besideFrame := by
  unfold State.tkpSettle
  split <;> rfl

@[simp] theorem State.queueOwn_besideFrame {kind : Nat} {p : List Byte} : (s.queueOwn l kind p).besideFrame = s.besideFrame := by
  unfold State.queueOwn
  split <;> rfl

@[simp] theorem State.sendDiscovery_besideFrame : (s.sendDiscovery l).besideFrame = s.besideFrame := by
  unfold State.sendDiscovery
  split
  · rw [State.modLink_besideFrame, State.queueOwn_besideFrame]
  · rfl

@[simp] theorem State.queueBeSince_besideFrame {since : Nat} {f : Flit} : (s.queueBeSince since f).besideFrame = s.besideFrame := by
  unfold State.queueBeSince
  split
  · rfl
  · split <;> rfl

@[simp] theorem State.queueStale_besideFrame {f : Flit} : (s.queueStale f).besideFrame = s.besideFrame := by
  unfold State.queueStale
  split <;> rfl

@[simp] theorem State.rerouteWaiting_besideFrame : s.rerouteWaiting.besideFrame = s.besideFrame :=
  (foldl_view State.besideFrame (fun s f => by split <;> simp) _ _).trans rfl

@[simp] theorem State.rerouteLink_besideFrame : (s.rerouteLink l).besideFrame = s.besideFrame :=
  State.rerouteWaiting_besideFrame.trans rfl

@[simp] theorem State.setLink_besideFrame {new : BitVec 4} : (s.setLink l new).besideFrame = s.besideFrame := by
  unfold State.setLink
  refine view_ite State.besideFrame rfl (State.tkpSettle_besideFrame.trans (State.sendDiscovery_besideFrame.trans ?_))
  refine view_ite State.besideFrame (State.rerouteLink_besideFrame.trans ?_)
    (view_ite State.besideFrame (State.rerouteWaiting_besideFrame.trans ?_) ?_) <;> exact view_ite State.besideFrame rfl rfl

@[simp] theorem State.evaluate_besideFrame : (s.evaluate l).besideFrame = s.besideFrame := by
  unfold State.evaluate
  refine view_ite State.besideFrame rfl ?_
  split
  · rfl
  · exact view_ite State.besideFrame State.setLink_besideFrame State.setLink_besideFrame

@[simp] theorem State.announce_besideFrame : s.announce.besideFrame = s.besideFrame :=
  foldl_view State.besideFrame (fun s l => by split <;> simp) _ s

@[simp] theorem State.evaluateAll_besideFrame : s.evaluateAll.besideFrame = s.besideFrame :=
  foldl_view State.besideFrame (fun _ _ => State.evaluate_besideFrame) _ s

@[simp] theorem State.applyFences_besideFrame : s.applyFences.besideFrame = s.besideFrame :=
  foldl_view State.besideFrame (fun s l => by split <;> rfl) _ _

@[simp] theorem State.loopBegin_besideFrame : s.loopBegin.besideFrame = s.besideFrame :=
  foldl_view State.besideFrame (fun s l => by split <;> simp) _ s

@[simp] theorem State.verifyLinks_besideFrame {before : State} : (s.verifyLinks before).besideFrame = s.besideFrame := by
  simp only [State.verifyLinks, State.besideFrame]

@[simp] theorem State.parentCheck_besideFrame : s.parentCheck.besideFrame = s.besideFrame := by
  unfold State.parentCheck State.enterHoldover
  dsimp only
  split_ifs <;> rfl

@[simp] theorem State.cmpFrame_besideFrame : s.cmpFrame.besideFrame = s.besideFrame := by
  unfold State.cmpFrame
  split_ifs <;> rfl

@[simp] theorem State.choosePlans_besideFrame : s.choosePlans.besideFrame = s.besideFrame := rfl

theorem State.streamSend_frame {d : Nat} {o : Option Flit} {u : State} (h : s.streamSend g d = (o, u)) :
    u = { s with col := u.col } := by
  obtain ⟨-, rfl⟩ := Prod.mk.inj h
  split <;> rfl

theorem State.sendByBe_besideFrame {d : Nat} {f : Flit} : (s.sendByBe t g d f).besideFrame = s.besideFrame := by
  simp only [State.sendByBe, State.queueBe, State.col_besideFrame, State.beSeq_besideFrame, State.modGroup_besideFrame,
    State.queueBeSince_besideFrame]

theorem State.drainByBe_besideFrame {d n : Nat} : (State.drainByBe t g d n s).besideFrame = s.besideFrame := by
  induction n generalizing s with
  | zero => rfl
  | succ n ih =>
    unfold State.drainByBe
    split
    · next hsend =>
      rw [ih, State.sendByBe_besideFrame, State.streamSend_frame hsend]
      rfl
    · next hsend =>
      rw [State.streamSend_frame hsend]
      rfl

@[simp] theorem State.streamsByBe_besideFrame : s.streamsByBe.besideFrame = s.besideFrame := by
  unfold State.streamsByBe
  split
  · rfl
  · exact foldl_view State.besideFrame (fun _ _ => view_ite State.besideFrame rfl
      (foldl_view State.besideFrame (fun _ _ => view_ite State.besideFrame rfl State.drainByBe_besideFrame) _ _)) _ _

theorem State.sendAck_besideFrame {d : Nat} : (s.sendAck t g d).besideFrame = s.besideFrame := by
  unfold State.sendAck
  dsimp only
  split
  · exact State.queueOwn_besideFrame
  · rfl

@[simp] theorem State.sendAcks_besideFrame : s.sendAcks.besideFrame = s.besideFrame := by
  unfold State.sendAcks
  split
  · rfl
  · exact foldl_view State.besideFrame (fun _ _ => view_ite State.besideFrame
      (foldl_view State.besideFrame (fun _ _ => State.sendAck_besideFrame) _ _) rfl) _ _

/-! ## FRAME_BOUNDARY (R223, R228, R229) -/

theorem exec_frameBoundary : exec .frameBoundary s = .next s.frameBoundary := rfl

/-- The settings that wait for a boundary are in effect. -/
def State.settingsApplied (s : State) : State :=
  { s with
    profile := { s.profile with fabricEff := s.profile.fabric }
    lnk := { s.lnk with sliceEff := s.lnk.sliceEn }
    tkp := { s.tkp with guardEff := guardOf s.tkp.guard } }

/-- A boundary up to the step of the counter: the clock, ROLE and the settings, then what links and streams do. -/
def State.frameBegun (s : State) : State :=
  let s := s.toFrame.applyRole
  (s.applySettings.applyFences.loopBegin.verifyLinks s).parentCheck.cmpFrame.choosePlans.streamsByBe.sendAcks

theorem State.frameBoundary_eq : s.frameBoundary = s.frameBegun.timeStep.tkpSettle := rfl

theorem State.applySettings_besideFrame : s.applySettings.besideFrame = s.settingsApplied.besideFrame := by
  unfold State.applySettings
  rw [State.evaluateAll_besideFrame, State.announce_besideFrame]
  rfl

theorem State.frameBegun_besideFrame : s.frameBegun.besideFrame = s.toFrame.applyRole.settingsApplied.besideFrame := by
  simp only [State.frameBegun, State.sendAcks_besideFrame, State.streamsByBe_besideFrame, State.choosePlans_besideFrame,
    State.cmpFrame_besideFrame, State.parentCheck_besideFrame, State.verifyLinks_besideFrame, State.loopBegin_besideFrame,
    State.applyFences_besideFrame, State.applySettings_besideFrame]

theorem State.toFrame_of_running (h : s.tkp.state ≠ 0) : s.toFrame =
    { s.passToHt (nextFrame s.tkp.frameAt s.ht) with
      tkp := { (s.passToHt (nextFrame s.tkp.frameAt s.ht)).tkp with frameAt := some (nextFrame s.tkp.frameAt s.ht) } } :=
  if_neg (mt beq_iff_eq.1 h)

theorem State.toFrame_clocks : s.toFrame = { s with
    now := s.toFrame.now
    tkp := { s.tkp with ht := s.toFrame.tkp.ht, owed := s.toFrame.tkp.owed, frameAt := s.toFrame.tkp.frameAt } } := by
  unfold State.toFrame State.passToHt
  dsimp only
  split_ifs <;> rfl

/-- A change of ROLE touches the states of the Time Keeper, and neither its counter nor the guard time. -/
theorem State.applyRole_frame : s.applyRole = { s with tkp := { s.tkp with
    roleEff := s.tkp.role, state := s.applyRole.tkp.state, stepBy := s.applyRole.tkp.stepBy, owed := s.applyRole.tkp.owed
    toAcquire := s.applyRole.tkp.toAcquire, holdoverOver := s.applyRole.tkp.holdoverOver, goodRow := s.applyRole.tkp.goodRow } } := by
  unfold State.applyRole
  dsimp only
  split_ifs with hsame hmaster hstart
  · exact congrArg (fun r => { s with tkp := { s.tkp with roleEff := r } }) (beq_iff_eq.1 hsame).symm
  · rw [hmaster]
  · rw [hmaster]
  · rw [Bool.eq_false_iff.2 hmaster]

theorem State.stepBy_applyRole (h : s.tkp.stepBy = none) : s.applyRole.tkp.stepBy = none := by
  unfold State.applyRole
  dsimp only
  split_ifs
  exacts [h, rfl, rfl, h]

/-- The step of the counter moves the hall time, and nothing else that stands beside the frame. -/
theorem State.timeStep_besideFrame : ∃ ht, (s.tkp.stepBy = none → ht = s.tkp.ht) ∧
    s.timeStep.besideFrame = { s.besideFrame with tkp := { s.besideFrame.tkp with ht := ht, stepBy := none } } := by
  unfold State.timeStep
  split
  · next h => exact ⟨s.tkp.ht, fun _ => rfl, by simp only [State.besideFrame, h]⟩
  · next h => exact ⟨_, fun hnone => by simp [hnone] at h, rfl⟩

theorem State.clock_of_besideFrame {u v : State} (h : u.besideFrame = v.besideFrame) :
    u.tkp.ht = v.tkp.ht ∧ u.tkp.stepBy = v.tkp.stepBy :=
  ⟨(congrArg (fun w : State => w.tkp.ht) h :), (congrArg (fun w : State => w.tkp.stepBy) h :)⟩

/-- What stands beside the frame once a boundary has passed at the counter `ht`. -/
def State.passedFrame (s : State) (ht : Nat) : State :=
  { s.besideFrame with
    profile := { s.profile with fabricEff := s.profile.fabric }
    lnk := { s.besideFrame.lnk with sliceEff := s.lnk.sliceEn }
    tkp := { s.besideFrame.tkp with
      ht := ht, stepBy := none, frameAt := s.toFrame.tkp.frameAt, guardEff := guardOf s.tkp.guard, roleEff := s.tkp.role } }

theorem State.clock_of_passedFrame {u : State} {ht : Nat} (h : u.besideFrame = s.passedFrame ht) :
    u.ht = ht / 16 ∧ u.tkp.frameAt = s.toFrame.tkp.frameAt :=
  ⟨(congrArg State.ht h :), (congrArg (fun w : State => w.tkp.frameAt) h :)⟩

theorem State.frameBoundary_besideFrame : ∃ ht, (s.tkp.stepBy = none → ht = s.toFrame.tkp.ht) ∧
    s.frameBoundary.besideFrame = s.passedFrame ht := by
  obtain ⟨ht, hht, hstep⟩ := State.timeStep_besideFrame (s := s.frameBegun)
  have hbegun := State.frameBegun_besideFrame (s := s)
  refine ⟨ht, fun hnone => ?_, ?_⟩
  · obtain ⟨hclock, hstepBy⟩ := State.clock_of_besideFrame hbegun
    have hframe : s.toFrame.tkp.stepBy = s.tkp.stepBy := (congrArg (fun u : State => u.tkp.stepBy) State.toFrame_clocks :)
    rw [hht (hstepBy.trans (State.stepBy_applyRole (hframe.trans hnone))), hclock]
    exact (congrArg (fun u : State => u.tkp.ht) State.applyRole_frame :)
  · rw [State.frameBoundary_eq, State.tkpSettle_besideFrame, hstep, hbegun, State.applyRole_frame, State.toFrame_clocks]
    rfl

/-- Where hall time runs the clock stands at the boundary, which begins a frame. -/
theorem State.toFrame_ht (hrun : s.tkp.state ≠ 0) (hfits : s.ht + 20000 < 2 ^ 64) :
    s.toFrame.ht = nextFrame s.tkp.frameAt s.ht ∧ s.toFrame.tkp.frameAt = some (nextFrame s.tkp.frameAt s.ht) := by
  obtain ⟨-, hahead, hnear⟩ := nextFrame_spec s.tkp.frameAt s.ht
  rw [State.toFrame_of_running hrun]
  exact ⟨State.ht_passToHt hrun hahead (by omega), rfl⟩

theorem State.frameBoundary_ht (hrun : s.tkp.state ≠ 0) (hstep : s.tkp.stepBy = none) (hfits : s.ht + 20000 < 2 ^ 64) :
    s.frameBoundary.ht % 10000 = 0 ∧ s.ht ≤ s.frameBoundary.ht ∧ s.frameBoundary.ht ≤ s.ht + 20000 ∧
      s.frameBoundary.tkp.frameAt = some s.frameBoundary.ht := by
  obtain ⟨ht, hclock, hview⟩ := State.frameBoundary_besideFrame (s := s)
  obtain ⟨hat, hmark⟩ := State.toFrame_ht hrun hfits
  obtain ⟨hframe, hahead, hnear⟩ := nextFrame_spec s.tkp.frameAt s.ht
  obtain ⟨hht, hframeAt⟩ := State.clock_of_passedFrame hview
  rw [hclock hstep, ← State.ht, hat] at hht
  rw [hframeAt, hmark, hht]
  exact ⟨hframe, hahead, hnear.le, rfl⟩

/-! ## What a slot leaves alone -/

/-- The state without its links and its groups. -/
def State.besideLinks (s : State) : State := { s with lnk := State.reset.lnk, col := State.reset.col }

theorem exec_slotStart : exec .slotStart s = .next s.slotStart := rfl

theorem State.modLink_besideLinks {f : Link → Link} : (s.modLink l f).besideLinks = s.besideLinks := rfl

theorem State.streamSend_besideLinks {d : Nat} {o : Option Flit} {u : State} (h : s.streamSend g d = (o, u)) :
    u.besideLinks = s.besideLinks := by
  rw [State.streamSend_frame h]
  rfl

theorem State.foldl_modGroup_besideLinks {f : Group → Group} {gs : List GroupId} :
    (gs.foldl (fun s g => s.modGroup g f) s).besideLinks = s.besideLinks :=
  foldl_view State.besideLinks (by intros; rfl) gs s

theorem State.fillSlot_besideLinks {d n : Nat} {gs : List GroupId} : (State.fillSlot l d gs n s).besideLinks = s.besideLinks := by
  induction n generalizing s with
  | zero => rfl
  | succ n ih =>
    unfold State.fillSlot
    dsimp only
    split
    · rfl
    · split <;> next hsend => exact ih.trans ((State.streamSend_besideLinks hsend).trans State.foldl_modGroup_besideLinks)

theorem State.linkSlot_besideLinks {i : Nat} : (s.linkSlot i l).besideLinks = s.besideLinks := by
  unfold State.linkSlot
  refine view_ite State.besideLinks rfl ?_
  dsimp only
  rw [State.modLink_besideLinks]
  refine view_ite State.besideLinks ?_ ?_
  · rw [State.modLink_besideLinks, State.modLink_besideLinks]
  · rw [State.runSlot, State.fillSlot_besideLinks, State.modLink_besideLinks]

/-- The instant of a slot start from the present on that has not passed as one yet. -/
def State.slotInstant (s : State) : Nat := nextSlot s.tkp.slotAt s.ht

/-- The clock stands at the slot start. -/
def State.toSlot (s : State) : State :=
  { s.passToHt s.slotInstant with tkp := { (s.passToHt s.slotInstant).tkp with slotAt := some s.slotInstant } }

theorem State.slotStart_of_unlocked (h : s.tkp.state = 0) : s.slotStart = s := if_pos (beq_iff_eq.2 h)

theorem State.slotStart_of_running (h : s.tkp.state ≠ 0) : s.slotStart =
    (List.finRange 24).foldl (fun s' l => s'.linkSlot (s.slotInstant % 10000 / 64) l) s.toSlot :=
  if_neg (mt beq_iff_eq.1 h)

theorem State.slotStart_besideLinks (h : s.tkp.state ≠ 0) : s.slotStart.besideLinks = s.toSlot.besideLinks := by
  rw [State.slotStart_of_running h]
  exact foldl_view State.besideLinks (fun _ _ => State.linkSlot_besideLinks) _ _

theorem State.toSlot_clocks : s.toSlot = { s with now := s.toSlot.now, tkp := s.toSlot.tkp } := by
  rw [State.toSlot, State.passToHt_clocks]

theorem State.toSlot_ht (hrun : s.tkp.state ≠ 0) (hfits : s.ht + 20000 < 2 ^ 64) : s.toSlot.ht = s.slotInstant := by
  obtain ⟨-, -, hahead, hnear⟩ := nextSlot_spec s.tkp.slotAt s.ht
  exact State.ht_passToHt hrun hahead (lt_of_lt_of_le hnear hfits.le)

end

/-! ## What a link sends in a slot outside runs (R253, R254; 09_links.md R241; log entry 58) -/

/-- From `k` to `k'` a link has sent: at most `n` codewords, from the front of its control flits and of its queues. -/
structure Link.Sent (k : Link) (n : Nat) (k' : Link) : Prop where
  frame : k' = { k with
    control := k'.control, queues := k'.queues, deficits := k'.deficits, turn := k'.turn, cwNext := k'.cwNext, codewords := k'.codewords }
  codewords : k'.cwNext ≤ k.cwNext + n
  control : ∃ m, k'.control = k.control.drop m
  queues : ∀ q, ∃ m, vget k'.queues q = (vget k.queues q).drop m

section
variable {k k' k'' : Link} {n m : Nat} {w : Fin 4 → Nat}

theorem Link.Sent.refl (k : Link) (n : Nat) : k.Sent n k := ⟨rfl, Nat.le_add_right .., ⟨0, rfl⟩, fun _ => ⟨0, rfl⟩⟩

theorem Link.Sent.trans (h : k.Sent n k') (h' : k'.Sent m k'') : k.Sent (n + m) k'' where
  frame := by
    rw [h'.frame, h.frame]
  codewords := by
    have := h.codewords
    have := h'.codewords
    omega
  control := by
    obtain ⟨a, ha⟩ := h.control
    obtain ⟨b, hb⟩ := h'.control
    exact ⟨a + b, by rw [hb, ha, List.drop_drop]⟩
  queues q := by
    obtain ⟨a, ha⟩ := h.queues q
    obtain ⟨b, hb⟩ := h'.queues q
    exact ⟨a + b, by rw [hb, ha, List.drop_drop]⟩

theorem Link.sent_emit (f : Flit) : k.Sent 1 (k.emit f) := ⟨rfl, le_rfl, ⟨0, rfl⟩, fun _ => ⟨0, rfl⟩⟩

theorem Link.sent_foldl_emit (fs : List Flit) : k.Sent fs.length (fs.foldl Link.emit k) := by
  induction fs generalizing k with
  | nil => exact Link.Sent.refl k 0
  | cons f fs ih =>
    rw [List.length_cons, Nat.add_comm]
    exact (Link.sent_emit f).trans ih

theorem Link.sent_visit : k.Sent 0 (k.visit w) := ⟨rfl, le_rfl, ⟨0, rfl⟩, fun _ => ⟨0, rfl⟩⟩

/-- The front of a queue leaves. -/
theorem Link.sent_front {q : Fin 4} {f : Nat × Flit} {rest : List (Nat × Flit)} {d : Vector Nat 4} (h : vget k.queues q = f :: rest) :
    k.Sent 1 { k.emit f.2 with queues := vset k.queues q rest, deficits := d } := by
  refine ⟨rfl, le_rfl, ⟨0, rfl⟩, fun p => ?_⟩
  by_cases hp : p = q
  · exact ⟨1, by rw [hp, vget_vset_same, h]; rfl⟩
  · exact ⟨0, vget_vset_other _ _ _ _ hp⟩

theorem Link.sent_drain {fuel : Nat} : k.Sent n (Link.drain w fuel n k) := by
  induction fuel generalizing n k with
  | zero => exact Link.Sent.refl k n
  | succ fuel ih =>
    cases n with
    | zero => exact Link.Sent.refl k 0
    | succ n =>
      have hvisit : k.Sent (n + 1) (Link.drain w fuel (n + 1) (k.visit w)) := by
        have h := (Link.sent_visit (k := k) (w := w)).trans (ih (n := n + 1))
        rwa [Nat.zero_add] at h
      unfold Link.drain
      dsimp only
      split
      · next f rest hq =>
        split
        · rw [Nat.add_comm]
          exact (Link.sent_front hq).trans ih
        · exact hvisit
      · exact hvisit

theorem Link.Sent.mono (h : k.Sent n k') (hle : n ≤ m) : k.Sent m k' :=
  ⟨h.frame, h.codewords.trans (Nat.add_le_add_left hle _), h.control, h.queues⟩

theorem Link.sent_openSlot {be : Bool} : k.Sent n (Link.openSlot w be n k) := by
  have hcontrol : k.Sent (min n k.control.length)
      ((k.control.take (min n k.control.length)).foldl Link.emit { k with control := k.control.drop (min n k.control.length) }) := by
    have hdrop : k.Sent 0 { k with control := k.control.drop (min n k.control.length) } := ⟨rfl, le_rfl, ⟨_, rfl⟩, fun _ => ⟨0, rfl⟩⟩
    have h := hdrop.trans (Link.sent_foldl_emit (k.control.take (min n k.control.length)))
    rwa [List.length_take, min_eq_left (min_le_right ..), Nat.zero_add] at h
  unfold Link.openSlot
  dsimp only
  split
  · exact (hcontrol.trans Link.sent_drain).mono (by omega)
  · exact hcontrol.mono (min_le_left ..)

/-- A slot of a link outside runs: codewords asked for again, then what the arbiter sends, IDLE for the rest. -/
def Link.freeSlot (w : Fin 4 → Nat) (be : Bool) (k : Link) : Link :=
  (Link.openSlot w be (k.slotCodewords - min k.slotCodewords k.replayLeft)
    { k with replayLeft := k.replayLeft - min k.slotCodewords k.replayLeft }).fillTo
      (k.cwNext + k.slotCodewords - min k.slotCodewords k.replayLeft)

/-- What a slot without runs may make of a link: it has sent from the front of its control flits and its queues, and has counted the
slot's codewords. -/
def Link.SlotPassed (k k' : Link) : Prop :=
  ∃ n, k'.control = k.control.drop n ∧
    k' = { k with
      control := k'.control, queues := k'.queues, deficits := k'.deficits, turn := k'.turn
      cwNext := k'.cwNext, codewords := k'.codewords, replayLeft := k'.replayLeft } ∧
    (carriesFlits k.state = false → k' = k) ∧
    (carriesFlits k.state = true →
      k'.replayLeft = k.replayLeft - min k.slotCodewords k.replayLeft ∧
      k'.cwNext = k.cwNext + (k.slotCodewords - min k.slotCodewords k.replayLeft)) ∧
    ∀ q, ∃ m, vget k'.queues q = (vget k.queues q).drop m

theorem Link.slotPassed_self (h : carriesFlits k.state = false) : k.SlotPassed k :=
  ⟨0, rfl, rfl, fun _ => rfl, fun hc => by simp [hc] at h, fun _ => ⟨0, rfl⟩⟩

theorem Link.slotPassed_freeSlot {be : Bool} (h : carriesFlits k.state = true) : k.SlotPassed (k.freeSlot w be) := by
  have hsent := Link.sent_openSlot (w := w) (be := be) (n := k.slotCodewords - min k.slotCodewords k.replayLeft)
    (k := { k with replayLeft := k.replayLeft - min k.slotCodewords k.replayLeft })
  unfold Link.freeSlot
  generalize Link.openSlot _ _ _ _ = u at hsent
  obtain ⟨hframe, hcodewords, ⟨n, hcontrol⟩, hqueues⟩ := hsent
  refine ⟨n, hcontrol, ?_, fun hc => by simp [hc] at h, fun _ => ⟨?_, ?_⟩, hqueues⟩
  · rw [Link.fillTo, hframe]
  · rw [Link.fillTo, hframe]
  · have hfull : u.cwNext ≤ k.cwNext + k.slotCodewords - min k.slotCodewords k.replayLeft := by
      dsimp only at hcodewords
      omega
    rw [Link.fillTo]
    dsimp only
    rw [max_eq_left hfull]
    omega

end

section
variable {s : State} {l : LinkId} {i : Nat}

/-- No group is active, so no run covers a slot. -/
theorem State.runsAt_of_noneActive (h : ∀ g, (s.group g).state ≠ 1) : s.runsAt l i = [] := by
  refine List.flatMap_eq_nil_iff.2 fun g _ => if_pos ?_
  rw [bne_iff_ne.2 (h g), Bool.true_or]

theorem State.modLink_congr {f g : Link → Link} (h : f (s.link l) = g (s.link l)) : s.modLink l f = s.modLink l g :=
  congrArg (fun k => { s with lnk := { s.lnk with links := vset s.lnk.links l k } }) h

theorem State.modLink_self : s.modLink l (fun _ => s.link l) = s :=
  congrArg (fun v => { s with lnk := { s.lnk with links := v } }) (Vector.set_getElem_self ..)

theorem State.modLink_modLink {f g : Link → Link} : (s.modLink l f).modLink l g = s.modLink l fun k => g (f k) := by
  have hlinks : vmod (vmod s.lnk.links l f) l g = vmod s.lnk.links l fun k => g (f k) := by
    rw [vmod, vget_vmod_same]
    exact Vector.set_set ..
  exact congrArg (fun v => { s with lnk := { s.lnk with links := v } }) hlinks

theorem State.linkSlot_of_noneActive (h : ∀ g, (s.group g).state ≠ 1) (hcarries : carriesFlits (s.link l).state = true) :
    s.linkSlot i l = s.modLink l (Link.freeSlot s.arbWeight (usableState (s.link l).state && s.slotForBe l i)) := by
  have hruns : ∀ f, (s.modLink l f).runsAt l i = [] := fun f => State.runsAt_of_noneActive h
  unfold State.linkSlot
  rw [if_neg (by simp [hcarries])]
  dsimp only
  rw [hruns, List.isEmpty_nil, if_pos rfl, State.modLink_modLink, State.modLink_modLink]
  exact State.modLink_congr rfl

/-- Without active groups a slot changes its link alone. -/
theorem State.linkSlot_passes (h : ∀ g, (s.group g).state ≠ 1) :
    ∃ k, s.linkSlot i l = s.modLink l (fun _ => k) ∧ (s.link l).SlotPassed k := by
  cases hcarries : carriesFlits (s.link l).state with
  | true =>
    rw [State.linkSlot_of_noneActive h hcarries]
    exact ⟨_, State.modLink_congr rfl, Link.slotPassed_freeSlot hcarries⟩
  | false =>
    refine ⟨s.link l, ?_, Link.slotPassed_self hcarries⟩
    rw [State.linkSlot, if_pos (by simp [hcarries]), State.modLink_self]

/-- Without active groups a slot start changes the links alone, each once. -/
theorem State.foldl_linkSlot_passes {ls : List LinkId} (h : ∀ g, (s.group g).state ≠ 1) (hnodup : ls.Nodup) :
    ∃ v : Vector Link 24, ls.foldl (fun u l => u.linkSlot i l) s = { s with lnk := { s.lnk with links := v } } ∧
      ∀ m, (m ∈ ls → (s.link m).SlotPassed (vget v m)) ∧ (m ∉ ls → vget v m = s.link m) := by
  induction ls generalizing s with
  | nil => exact ⟨s.lnk.links, rfl, fun m => ⟨fun hm => by simp at hm, fun _ => rfl⟩⟩
  | cons l ls ih =>
    obtain ⟨hfirst, hrest⟩ := List.nodup_cons.1 hnodup
    obtain ⟨k, hslot, hpassed⟩ := State.linkSlot_passes (s := s) (l := l) (i := i) h
    obtain ⟨v, hfold, hlinks⟩ := ih (s := s.modLink l fun _ => k) h hrest
    refine ⟨v, by rw [List.foldl_cons, hslot, hfold]; rfl, fun m => ?_⟩
    by_cases hm : m = l
    · subst hm
      have hown := (hlinks m).2 hfirst
      rw [State.link_modLink_same] at hown
      exact ⟨fun _ => hown ▸ hpassed, fun hnot => absurd (List.mem_cons_self ..) hnot⟩
    · have hother := hlinks m
      rw [State.link_modLink_other _ _ _ _ hm] at hother
      simpa [hm] using hother

theorem State.slotStart_of_noneActive (hrun : s.tkp.state ≠ 0) (h : ∀ g, (s.group g).state ≠ 1) : ∃ v : Vector Link 24,
    s.slotStart = { s with now := s.toSlot.now, tkp := s.toSlot.tkp, lnk := { s.lnk with links := v } } ∧
      ∀ l, (s.link l).SlotPassed (vget v l) := by
  have hquiet : ∀ g, (s.toSlot.group g).state ≠ 1 := by
    rw [State.toSlot_clocks]
    exact h
  obtain ⟨v, hfold, hlinks⟩ := State.foldl_linkSlot_passes (i := s.slotInstant % 10000 / 64) hquiet (List.nodup_finRange 24)
  rw [State.slotStart_of_running hrun, hfold]
  rw [State.toSlot_clocks] at hlinks ⊢
  exact ⟨v, rfl, fun l => (hlinks l).1 (List.mem_finRange l)⟩

/-! ## HT_READ and LATE_READ (R237) -/

theorem exec_htRead : exec .htRead s = .next s.htRead := rfl
theorem exec_lateRead : exec .lateRead s = .next s.lateRead := rfl

/-- The bins and the straggler window restart. -/
def State.lateCleared (s : State) : State := { s with tkp := { s.tkp with bins := Vector.replicate 16 0, recent := [] } }

section
variable (hfenced : s.mbx.fenced = false) (hlive : s.rst.retired = false)
include hfenced hlive

theorem State.htRead_of_running (h : s.mbxIs 0x60 = true) :
    s.htRead = s.mbxEnd stOk (leBytes 16 (packedHt s.mbx.htGo s.mbx.stGo)) :=
  State.mbxRun_runs s 0x60 _ h hfenced hlive (.inr rfl)

variable (h : s.mbxIs 0x61 = true)
include h

theorem State.lateRead_of_running : s.lateRead =
    if 2 ≤ s.mbxArg 0 then s.mbxEnd stBad []
    else (if s.mbxArg 0 = 1 then s.lateCleared.updateStraggler else s).mbxEnd stOk (s.tkp.bins.toList.flatMap fun w => leBytes 4 w.toNat) :=
  State.mbxRun_runs s 0x61 _ h hfenced hlive (.inr rfl)

end

theorem State.updateStraggler_of_clear (h : s.tkp.straggler = false) : s.lateCleared.updateStraggler = s.lateCleared := by
  simp [State.updateStraggler, State.lateCleared, h, Tkp.lateCount]

/-- With no launch left in the window STRAGGLER falls, with its event. -/
theorem State.updateStraggler_of_set (h : s.tkp.straggler = true) : s.lateCleared.updateStraggler =
    { s.lateCleared with tkp := { s.lateCleared.tkp with straggler := false } }.raise 0x45 0 [0, 0, 0, 0] := by
  simp [State.updateStraggler, State.lateCleared, h, Tkp.lateCount, b2n, leBytes]

end

/-- Settles O36: the boundary by what it leaves beside the frame, a slot start by what it leaves beside the links and by the links one
after the other, the reads by their outcomes. -/
theorem framesAndSlotsPass : Obligations.FramesAndSlotsPass := by
  unfold Obligations.FramesAndSlotsPass
  refine ⟨fun s => ⟨_, exec_frameBoundary, ?boundary⟩, fun s h => ?stopped, fun s hrun => ⟨_, exec_slotStart, ?slot⟩,
    fun s hrun hquiet => ⟨_, exec_slotStart, ?links⟩, fun s h hfenced hlive => ?htRead, fun s h hfenced hlive => ?lateRead⟩
  case boundary =>
    obtain ⟨ht, -, hview⟩ := State.frameBoundary_besideFrame (s := s)
    have hclock := State.frameBoundary_ht (s := s)
    generalize s.frameBoundary = t at hview hclock ⊢
    have field {α : Type} (part : State → α) : part t.besideFrame = part (s.passedFrame ht) := congrArg part hview
    exact ⟨field State.profile, field (·.lnk.sliceEff), field (·.tkp.guardEff), field (·.tkp.roleEff),
      fun hrun hstep _ hfits => hclock hrun hstep hfits, field State.mem, field State.host, field State.ctxs, field State.stb,
      field State.frames, field State.fld, field State.opt, field State.sch, field State.mbx, field State.sec, field State.hlt,
      field State.pwr⟩
  case stopped => exact exec_slotStart.trans (congrArg _ (State.slotStart_of_unlocked h))
  case slot =>
    have hview := State.slotStart_besideLinks hrun
    have hclock := State.toSlot_ht hrun
    obtain ⟨hslot, hlast, hahead, -⟩ := nextSlot_spec s.tkp.slotAt s.ht
    generalize s.slotStart = t at hview ⊢
    have field {α : Type} (part : State → α) : part t.besideLinks = part s.toSlot.besideLinks := congrArg part hview
    rw [State.toSlot_clocks] at field
    refine ⟨fun hfits => ?_, field State.mem, field State.host, field State.ctxs, field State.evr, field State.frames, field State.fld⟩
    have hht : t.ht = s.slotInstant := (field State.ht).trans (hclock hfits)
    rw [hht]
    exact ⟨field (·.tkp.slotAt), hahead, hslot, hlast⟩
  case links =>
    obtain ⟨v, hslot, hlinks⟩ := State.slotStart_of_noneActive hrun hquiet
    rw [hslot]
    exact ⟨rfl, hlinks⟩
  case htRead => exact exec_htRead.trans (congrArg _ (State.htRead_of_running hfenced hlive h))
  case lateRead =>
    rw [exec_lateRead, State.lateRead_of_running hfenced hlive h]
    refine ⟨fun harg => ?_, fun harg hclear => ?_, fun harg hset => ?_, fun harg => ?_⟩
    · rw [harg]; rfl
    · rw [harg, if_neg (by decide), if_pos rfl, State.updateStraggler_of_clear hclear]
      rfl
    · rw [harg, if_neg (by decide), if_pos rfl, State.updateStraggler_of_set hset]
      rfl
    · rw [if_pos harg]

end Sys2Proof.Machine

/-! A change of a link's state: what it leaves alone beyond the flits that links hold (09_links.md R243, R245). -/

namespace Sys2Proof.Machine

/-! ## Links and states less the flits they hold -/

/-- A link less the flits it holds and those it has sent. -/
def Link.beyondFlits (k : Link) : Link :=
  { k with control := [], queues := Vector.replicate 4 [], sent := [], cwNext := 0, codewords := [], replayLeft := 0, awaited := none }

/-- The state less the flits of the links; of the Time Keeper the hall time stays in the view. -/
def State.beyondFlits (s : State) : State :=
  { s with
    lnk := { s.lnk with links := s.lnk.links.map Link.beyondFlits, waiting := [], beSeq := 0 }
    tkp := { State.reset.tkp with ht := s.tkp.ht } }

section
variable {s : State} {l m : LinkId} {new : BitVec 4} {f g : Link → Link}

theorem State.link_beyondFlits : s.beyondFlits.link m = (s.link m).beyondFlits := vget_map ..

theorem State.modLink_beyondFlits (h : ∀ k, (f k).beyondFlits = g k.beyondFlits) :
    (s.modLink l f).beyondFlits = s.beyondFlits.modLink l g := by
  have hlinks : (vmod s.lnk.links l f).map Link.beyondFlits = vmod (s.lnk.links.map Link.beyondFlits) l g := by
    refine vget_ext _ _ fun m => ?_
    by_cases hm : m = l
    · subst hm
      rw [vget_map, vget_vmod_same, vget_vmod_same, vget_map, h]
    · rw [vget_map, vget_vmod_other _ _ _ _ hm, vget_vmod_other _ _ _ _ hm, vget_map]
  exact congrArg (fun v => { s.beyondFlits with lnk := { s.beyondFlits.lnk with links := v } }) hlinks

/-- What a link does with its flits is beside the view. -/
theorem State.modLink_flits (h : ∀ k, (f k).beyondFlits = k.beyondFlits) : (s.modLink l f).beyondFlits = s.beyondFlits :=
  (State.modLink_beyondFlits (g := id) h).trans State.modLink_self

theorem State.beSeq_beyondFlits {n : Word} : { s with lnk := { s.lnk with beSeq := n } }.beyondFlits = s.beyondFlits := rfl
theorem State.waiting_beyondFlits {w : List (Nat × Flit)} : { s with lnk := { s.lnk with waiting := w } }.beyondFlits = s.beyondFlits := rfl

/-! ## The parts of a change of state -/

@[simp] theorem State.tkpSettle_beyondFlits : s.tkpSettle.beyondFlits = s.beyondFlits := by
  unfold State.tkpSettle
  split <;> rfl

@[simp] theorem State.queueOwn_beyondFlits {kind : Nat} {p : List Byte} : (s.queueOwn l kind p).beyondFlits = s.beyondFlits := by
  unfold State.queueOwn
  split
  · exact State.beSeq_beyondFlits.trans (State.modLink_flits (by intro; rfl))
  · rfl

@[simp] theorem State.sendDiscovery_beyondFlits : (s.sendDiscovery l).beyondFlits = s.beyondFlits := by
  unfold State.sendDiscovery
  split
  · exact (State.modLink_flits (by intro; rfl)).trans State.queueOwn_beyondFlits
  · rfl

@[simp] theorem State.queueBeSince_beyondFlits {since : Nat} {f : Flit} : (s.queueBeSince since f).beyondFlits = s.beyondFlits := by
  unfold State.queueBeSince
  split
  · rfl
  · split
    · exact State.modLink_flits (by intro; rfl)
    · rfl

@[simp] theorem State.queueStale_beyondFlits {f : Flit} : (s.queueStale f).beyondFlits = s.beyondFlits := by
  unfold State.queueStale
  split
  · exact State.modLink_flits (by intro; rfl)
  · rfl

@[simp] theorem State.rerouteWaiting_beyondFlits : s.rerouteWaiting.beyondFlits = s.beyondFlits :=
  (foldl_view State.beyondFlits (fun s f => by split <;> simp) _ _).trans rfl

@[simp] theorem State.rerouteLink_beyondFlits : (s.rerouteLink l).beyondFlits = s.beyondFlits :=
  State.rerouteWaiting_beyondFlits.trans (State.waiting_beyondFlits.trans (State.modLink_flits (by intro; rfl)))

/-! ## The change -/

/-- A link as it enters a state. -/
def Link.into (k : Link) (new : BitVec 4) : Link := { (if carriesFlits new then k else k.quiet) with state := new }

theorem Link.into_beyondFlits (k : Link) : (k.into new).beyondFlits = { k.beyondFlits with state := new } := by
  unfold Link.into
  split <;> rfl

theorem State.setLink_of_same (h : (s.link l).state = new) : s.setLink l new = s := if_pos (beq_iff_eq.2 h)

theorem State.setLink_beyondFlits (h : (s.link l).state ≠ new) : (s.setLink l new).beyondFlits =
    (s.raise 0x40 l.val (leBytes 4 ((s.link l).state.toNat + new.toNat * 16 + (s.link l).lanesLive.toNat * 65536))).beyondFlits.modLink l
      fun k => { k with state := new } := by
  unfold State.setLink
  dsimp only
  rw [if_neg (mt beq_iff_eq.1 h), State.tkpSettle_beyondFlits, State.sendDiscovery_beyondFlits]
  have hmoved := State.modLink_beyondFlits (l := l) (f := (·.into new)) (g := fun k => { k with state := new })
    (s := s.raise 0x40 l.val (leBytes 4 ((s.link l).state.toNat + new.toNat * 16 + (s.link l).lanesLive.toNat * 65536)))
    fun k => k.into_beyondFlits
  refine view_ite State.beyondFlits (State.rerouteLink_beyondFlits.trans ?_)
    (view_ite State.beyondFlits (State.rerouteWaiting_beyondFlits.trans ?_) ?_) <;> exact view_ite State.beyondFlits hmoved hmoved

theorem State.setLink_frame : s.setLink l new =
    { s with lnk := (s.setLink l new).lnk, tkp := (s.setLink l new).tkp, evr := (s.setLink l new).evr } := by
  by_cases h : (s.link l).state = new
  · rw [State.setLink_of_same h]
  · have hview := State.setLink_beyondFlits h
    generalize s.setLink l new = t at hview ⊢
    exact (congrArg (fun v : State => { v with lnk := t.lnk, tkp := t.tkp, evr := t.evr }) hview :)

theorem State.setLink_evr (h : (s.link l).state ≠ new) : (s.setLink l new).evr =
    (s.raise 0x40 l.val (leBytes 4 ((s.link l).state.toNat + new.toNat * 16 + (s.link l).lanesLive.toNat * 65536))).evr :=
  (congrArg State.evr (State.setLink_beyondFlits h) :)

theorem State.setLink_ht : (s.setLink l new).ht = s.ht := by
  by_cases h : (s.link l).state = new
  · rw [State.setLink_of_same h]
  · exact (congrArg State.ht (State.setLink_beyondFlits h) :)

theorem State.link_setLink_same : ((s.setLink l new).link l).beyondFlits = { (s.link l).beyondFlits with state := new } := by
  by_cases h : (s.link l).state = new
  · rw [State.setLink_of_same h, ← h]
    rfl
  · rw [← State.link_beyondFlits, State.setLink_beyondFlits h, State.link_modLink_same, State.link_beyondFlits]
    rfl

theorem State.link_setLink_other (hm : m ≠ l) : ((s.setLink l new).link m).beyondFlits = (s.link m).beyondFlits := by
  by_cases h : (s.link l).state = new
  · rw [State.setLink_of_same h]
  · rw [← State.link_beyondFlits, State.setLink_beyondFlits h, State.link_modLink_other _ _ _ _ hm, State.link_beyondFlits]
    rfl

@[simp] theorem State.state_setLink_same : ((s.setLink l new).link l).state = new :=
  (congrArg Link.state State.link_setLink_same :)

theorem State.state_setLink_other (hm : m ≠ l) : ((s.setLink l new).link m).state = (s.link m).state :=
  (congrArg Link.state (State.link_setLink_other hm) :)

end

end Sys2Proof.Machine

/-! Links train, are found and evaluated, and are latched into a topology (09_links.md R243 to R248, R260; 13_reset_health.md R358, R365). -/

namespace Sys2Proof.Machine

section
variable {s : State} {l : LinkId}

/-! ## The commands -/

theorem exec_lightDetected : exec (.lightDetected l) s = .next (s.lightDetected l) := rfl
theorem exec_autoRetrain : exec (.autoRetrain l) s = .next (s.autoRetrain l) := rfl
theorem exec_retrain : exec (.retrain l) s = .next (s.retrainWrite l) := rfl
theorem exec_trainingComplete {lanes : BitVec 16} {light : Bool} :
    exec (.trainingComplete l lanes light) s = .next (s.trainingComplete l lanes light) := rfl
theorem exec_discoverFlitReceive {p : List Byte} : exec (.discoverFlitReceive l p) s = .next (s.discoverReceive l p) := rfl
theorem exec_discoverPeriod : exec (.discoverPeriod l) s = .next (s.sendDiscovery l) := rfl
theorem exec_topoLatch : exec .topoLatch s = .next s.topoLatch := rfl
theorem exec_linkPartnerRead : exec .linkPartnerRead s = .next s.partnerRead := rfl

/-! ## Training starts (R244) -/

theorem State.lightDetected_of_dark (hdark : (s.link l).state = lsDown ∨ (s.link l).state = lsFailed) (hmain : s.pwr.mainOn = true) :
    s.lightDetected l = (s.modLink l fun k => { k with light := true, retries := 0 }).train l false := by
  unfold State.lightDetected
  dsimp only
  rw [State.link_modLink_same, if_pos (by simpa [hmain] using hdark), State.modLink_modLink]

theorem State.lightDetected_of_lit (hdown : (s.link l).state ≠ lsDown) (hfailed : (s.link l).state ≠ lsFailed) :
    s.lightDetected l = s.modLink l fun k => { k with light := true } := by
  unfold State.lightDetected
  dsimp only
  rw [State.link_modLink_same, if_neg (by simp [hdown, hfailed])]

theorem State.autoRetrain_of_failed (hfailed : (s.link l).state = lsFailed) (hfew : (s.link l).retries < 2) :
    s.autoRetrain l = (s.modLink l fun k => { k with retries := k.retries + 1 }).train l true :=
  if_pos (by simp [hfailed, hfew])

theorem State.autoRetrain_of_other (h : (s.link l).state ≠ lsFailed ∨ 2 ≤ (s.link l).retries) : s.autoRetrain l = s :=
  if_neg (by simpa [imp_iff_not_or, -not_lt] using h.imp_right Nat.not_lt_of_ge)

/-- Writes to a link's control are ignored in a loop test, before one, and behind a fence. -/
theorem State.linkDeaf_eq_true : s.linkDeaf l = true ↔ (s.link l).state = lsLoop ∨ (s.link l).loopPend = true ∨ s.linkOut l = true := by
  simp [State.linkDeaf, or_assoc]

theorem State.linkDeaf_eq_false : s.linkDeaf l = false ↔
    (s.link l).state ≠ lsLoop ∧ (s.link l).loopPend = false ∧ s.linkOut l = false := by
  rw [← Bool.not_eq_true, State.linkDeaf_eq_true]
  simp

theorem State.retrainWrite_of_hearing (h : s.linkDeaf l = false) :
    s.retrainWrite l = (s.modLink l fun k => { k with retries := 0 }).train l true := if_neg (Bool.eq_false_iff.1 h)

theorem State.retrainWrite_of_deaf (h : s.linkDeaf l = true) : s.retrainWrite l = s := if_pos h

/-! ## Training ends (R244, R255) -/

theorem lanesOff_eq_nil {lanes : BitVec 16} : lanesOff lanes = [] ↔ lanes = 0xFFFF := by
  have hall : (0xFFFF : BitVec 16) = BitVec.allOnes 16 := rfl
  rw [hall, lanesOff, List.filter_eq_nil_iff]
  constructor
  · intro h
    refine BitVec.eq_of_getLsbD_eq fun i hi => ?_
    rw [BitVec.getLsbD_allOnes, decide_eq_true hi]
    simpa only [Bool.not_eq_true', Bool.not_eq_false] using h i (List.mem_range.2 hi)
  · rintro rfl i hi
    rw [BitVec.getLsbD_allOnes, decide_eq_true (List.mem_range.1 hi)]
    decide

/-- A training drops the lane it missed. -/
theorem Link.trained_laneDropped {k : Link} {lanes : BitVec 16} : (k.trained lanes).laneDropped = false ↔ lanes = 0xFFFF := by
  rw [← lanesOff_eq_nil]
  unfold Link.trained
  split <;> next h => simp [h]

theorem Link.trained_lanesLive {k : Link} {lanes : BitVec 16} : (k.trained lanes).lanesLive = lanes := by
  unfold Link.trained
  split <;> rfl

theorem State.lnk_passToHt {n : Nat} : (s.passToHt n).lnk = s.lnk := (congrArg State.lnk (State.passToHt_clocks n) :)

section
variable {lanes : BitVec 16} {light : Bool}

theorem State.trainingComplete_of_untrained (ht : (s.link l).state ≠ lsTraining) (hw : (s.link l).state ≠ lsWaking) :
    s.trainingComplete l lanes light = s := if_pos (by simp [ht, hw])

variable (hstate : (s.link l).state = lsTraining ∨ (s.link l).state = lsWaking)
include hstate

theorem State.trainingComplete_of_trained : s.trainingComplete l lanes light =
    if light = false then s.failLink l false
    else if 2 ≤ (lanesOff lanes).length then s.failLink l true
    else if s.rst.retired then (s.modLink l fun k => { k.trained lanes with light := true }).setLink l lsRetired
    else if (s.link l).state = lsWaking then
      ((s.modLink l fun k => { k.trained lanes with light := true }).passToHt (frameFrom s.ht)).setLink l
        (if ((s.link l).trained lanes).laneDropped then lsDegraded else lsUp)
    else ((s.modLink l fun k => { k.trained lanes with light := true }).setLink l lsDiscover).evaluate l := by
  have htrained : ¬ ((s.link l).state != lsTraining && (s.link l).state != lsWaking) = true := by
    rcases hstate with h | h <;> simp [h]
  unfold State.trainingComplete
  dsimp only
  rw [if_neg htrained, State.link_modLink_same]
  simp only [Bool.not_eq_true', beq_iff_eq]
  rfl

theorem State.trainingComplete_of_dark : s.trainingComplete l lanes false = s.failLink l false :=
  (State.trainingComplete_of_trained hstate).trans (if_pos rfl)

theorem State.trainingComplete_of_lanes (h : 2 ≤ (lanesOff lanes).length) : s.trainingComplete l lanes true = s.failLink l true := by
  rw [State.trainingComplete_of_trained hstate, if_neg (by decide), if_pos h]

variable (hlanes : (lanesOff lanes).length < 2)
include hlanes

theorem State.trainingComplete_of_retired (h : s.rst.retired = true) : s.trainingComplete l lanes true =
    (s.modLink l fun k => { k.trained lanes with light := true }).setLink l lsRetired := by
  rw [State.trainingComplete_of_trained hstate, if_neg (by decide), if_neg hlanes.not_ge, if_pos h]

end

theorem State.trainingComplete_of_training {lanes : BitVec 16} (hstate : (s.link l).state = lsTraining)
    (hlanes : (lanesOff lanes).length < 2) (h : s.rst.retired = false) : s.trainingComplete l lanes true =
      ((s.modLink l fun k => { k.trained lanes with light := true }).setLink l lsDiscover).evaluate l := by
  rw [State.trainingComplete_of_trained (.inl hstate), if_neg (by decide), if_neg hlanes.not_ge, if_neg (Bool.eq_false_iff.1 h),
    if_neg (by rw [hstate]; decide)]

theorem State.trainingComplete_of_waking {lanes : BitVec 16} (hstate : (s.link l).state = lsWaking)
    (hlanes : (lanesOff lanes).length < 2) (h : s.rst.retired = false) :
    ((s.trainingComplete l lanes true).link l).state = (if lanes = 0xFFFF then lsUp else lsDegraded) ∧
      ((s.trainingComplete l lanes true).link l).lanesLive = lanes := by
  rw [State.trainingComplete_of_trained (.inr hstate), if_neg (by decide), if_neg hlanes.not_ge, if_neg (Bool.eq_false_iff.1 h),
    if_pos hstate]
  constructor
  · rw [State.state_setLink_same]
    by_cases hall : lanes = 0xFFFF
    · rw [if_neg (Bool.eq_false_iff.1 (Link.trained_laneDropped.2 hall)), if_pos hall]
    · rw [if_pos ((Bool.not_eq_false _).mp (mt Link.trained_laneDropped.1 hall)), if_neg hall]
  · refine (congrArg Link.lanesLive State.link_setLink_same :).trans ?_
    have hlink : ((s.modLink l fun k => { k.trained lanes with light := true }).passToHt (frameFrom s.ht)).link l =
        { (s.link l).trained lanes with light := true } := by
      rw [State.link, State.lnk_passToHt]
      exact State.link_modLink_same ..
    rw [hlink]
    exact Link.trained_lanesLive

/-! ## Discovery and evaluation (R245, R247) -/

theorem State.sendDiscovery_of_silent (h : discovers (s.link l).state = false) : s.sendDiscovery l = s := if_neg (Bool.eq_false_iff.1 h)

theorem State.sendDiscovery_of_discovering (h : discovers (s.link l).state = true) : s.sendDiscovery l = { s with lnk := { s.lnk with
    beSeq := s.lnk.beSeq + 1
    links := vmod s.lnk.links l fun k => { k with
      control := k.control ++ [s.linkFlit l fkDiscover (s.discovery l)], sent := s.discovery l } } } := by
  rw [State.sendDiscovery, if_pos h, State.queueOwn, if_pos h]
  have hlinks := State.modLink_modLink (s := s) (l := l)
    (f := fun k => { k with control := k.control ++ [s.linkFlit l fkDiscover (s.discovery l)] })
    (g := fun k => { k with sent := s.discovery l })
  exact congrArg (fun u : State => { u with lnk := { u.lnk with beSeq := s.lnk.beSeq + 1 } }) hlinks

theorem State.discoverReceive_of_deaf {p : List Byte} (h : evaluates (s.link l).state = false ∨ (s.link l).awaited ≠ none) :
    s.discoverReceive l p = s := by
  refine if_pos ?_
  simpa [Link.discards, Option.isSome_iff_ne_none] using h

theorem State.discoverReceive_of_hearing {p : List Byte} (h : evaluates (s.link l).state = true) (hready : (s.link l).awaited = none) :
    s.discoverReceive l p =
      let u := s.modLink l fun k => { k with
        seen := true, payload := slice p 0 32
        plink := BitVec.ofNat 5 (bits (fieldAt (slice p 0 32) 0x0C 4) 4 0), pdir := BitVec.ofNat 3 (bits (fieldAt (slice p 0 32) 0x0C 4) 7 5)
        px := BitVec.ofNat 5 (bits (fieldAt (slice p 0 32) 0x0C 4) 12 8), py := BitVec.ofNat 4 (bits (fieldAt (slice p 0 32) 0x0C 4) 19 16)
        pz := BitVec.ofNat 4 (bits (fieldAt (slice p 0 32) 0x0C 4) 27 24), partnerGen := BitVec.ofNat 32 (fieldAt (slice p 0 32) 8 4) }
      State.evaluate { u with lnk := { u.lnk with heard := l.val :: u.lnk.heard.filter (· != l.val) } } l :=
  if_neg (by simp [h, hready, Link.discards])

/-- A link as a verdict leaves it. -/
def State.judged (s : State) (l : LinkId) (st : BitVec 4) (why : Nat) (odd : Bool) : State :=
  (s.modLink l fun k => { k with reason := why, beOnly := odd }).setLink l st

theorem State.link_judged {st : BitVec 4} {why : Nat} {odd : Bool} : ((s.judged l st why odd).link l).beyondFlits =
    { (s.link l).beyondFlits with state := st, reason := why, beOnly := odd } := by
  rw [State.judged, State.link_setLink_same, State.link_modLink_same]
  rfl

theorem State.judged_frame {st : BitVec 4} {why : Nat} {odd : Bool} : s.judged l st why odd =
    { s with lnk := (s.judged l st why odd).lnk, tkp := (s.judged l st why odd).tkp, evr := (s.judged l st why odd).evr } :=
  State.setLink_frame

/-- A verdict is followed, and may raise an event. -/
theorem State.evaluate_of_verdict {st : BitVec 4} {why : Nat} {odd : Bool} (hstate : evaluates (s.link l).state = true)
    (hlive : s.rst.retired = false) (hverdict : s.verdict l = some (st, why, odd)) :
    ∃ e, s.evaluate l = { s.judged l st why odd with evr := e } := by
  unfold State.evaluate
  dsimp only
  rw [if_neg (by simp [hstate, hlive]), hverdict]
  dsimp only
  split
  · exact ⟨_, rfl⟩
  · exact ⟨_, rfl⟩

theorem State.evaluate_of_none (h : s.verdict l = none) : s.evaluate l = s := by
  unfold State.evaluate
  dsimp only
  rw [h, ite_self]

theorem State.evaluate_of_unread (h : evaluates (s.link l).state = false ∨ s.rst.retired = true) : s.evaluate l = s :=
  if_pos (by simpa using h)

theorem State.evaluate_frame : s.evaluate l =
    { s with lnk := (s.evaluate l).lnk, tkp := (s.evaluate l).tkp, evr := (s.evaluate l).evr } := by
  by_cases hread : evaluates (s.link l).state = true ∧ s.rst.retired = false
  · cases hverdict : s.verdict l with
    | none => rw [State.evaluate_of_none hverdict]
    | some v =>
      obtain ⟨e, he⟩ := State.evaluate_of_verdict hread.1 hread.2 hverdict
      rw [he, State.judged_frame]
  · rw [State.evaluate_of_unread (by simpa [imp_iff_not_or] using hread)]

/-! ## The latch (R246, R248) -/

theorem State.anyActive_iff : s.col.groups.toList.any (·.state == 1) = true ↔ ∃ g, (s.group g).state = 1 := by
  simp only [List.any_eq_true, Vector.mem_toList_iff, Vector.mem_iff_getElem, beq_iff_eq]
  constructor
  · rintro ⟨_, ⟨i, hi, rfl⟩, h⟩
    exact ⟨⟨i, hi⟩, h⟩
  · rintro ⟨g, h⟩
    exact ⟨_, ⟨g.val, g.isLt, rfl⟩, h⟩

theorem State.topoLatch_of_bad (h : topoBad s.topoRegs = true ∨ ∃ g, (s.group g).state = 1) :
    s.topoLatch = { s with lnk := { s.lnk with latchErr := true } } := by
  refine if_pos ?_
  rwa [Bool.or_eq_true, State.anyActive_iff]

theorem State.topoLatch_of_good (hgood : topoBad s.topoRegs = false) (hquiet : ∀ g, (s.group g).state ≠ 1) :
    s.topoLatch = { s with lnk := { s.lnk with
      topo := some s.topoRegs, latchErr := false, gen := s.lnk.gen + 1 } }.announce.evaluateAll := by
  refine if_neg ?_
  rw [hgood, Bool.false_or, State.anyActive_iff]
  exact fun ⟨g, hg⟩ => hquiet g hg

/-! ## LNK_PARTNER_READ (R260; 13_reset_health.md R358) -/

theorem linkOf_val (l : LinkId) : linkOf l.val = l := Fin.ofNat_val_eq_self l

section
variable (hreq : s.mbxIs 0x70 = true) (hfenced : s.mbx.fenced = false) (hlive : s.rst.retired = false)
include hreq hfenced hlive

theorem State.partnerRead_of_reserved (harg : 24 ≤ s.mbxArg 0) : s.partnerRead = s.mbxEnd stBad [] :=
  (State.mbxRun_runs s 0x70 _ hreq hfenced hlive (.inr rfl)).trans (if_pos harg)

theorem State.partnerRead_of_link (harg : s.mbxArg 0 = l.val) : s.partnerRead =
    if (s.link l).state = lsLoop then s.mbxEnd stBusyTest []
    else if s.linkOut l = true then s.mbxEnd stFenced []
    else s.mbxEnd stOk (slice (s.link l).payload 0 32) := by
  refine (State.mbxRun_runs s 0x70 _ hreq hfenced hlive (.inr rfl)).trans ?_
  dsimp only
  rw [harg, linkOf_val, if_neg l.isLt.not_ge]
  simp only [beq_iff_eq, State.mbxFail_eq, State.mbxOk_eq]

end

end

/-- Settles O37: the change of state by what it leaves beyond the flits, every other clause by one outcome of its command. -/
theorem linksTrainAndDiscover : Obligations.LinksTrainAndDiscover := by
  unfold Obligations.LinksTrainAndDiscover
  simp only [exec_lightDetected, exec_autoRetrain, exec_retrain, exec_trainingComplete, exec_discoverFlitReceive,
    exec_discoverPeriod, exec_topoLatch, exec_linkPartnerRead]
  refine ⟨fun s l new => ⟨State.setLink_frame, State.state_setLink_same, fun m hm => State.state_setLink_other hm, State.setLink_evr,
      State.setLink_of_same⟩, fun s l counted => ?train, fun s l => ⟨?dark, ?lit, ?failed, ?notFailed, ?hearing, ?deaf⟩,
    fun s l lanes => ⟨?noLight, ?fewLanes, ?discover, ?retired, ?untrained, ?waking⟩, fun s l p hstate hready => ?heard,
    fun s l p h => ?unheard, fun s l => ⟨?period, ?silent⟩, fun s l => ⟨State.evaluate_frame, ?verdict, State.evaluate_of_none⟩,
    fun s => ⟨?latchBad, ?latchGood⟩, fun s hreq hfenced hlive => ⟨?reserved, ?testing, ?fenced, ?read⟩⟩
  case train => cases counted <;> rfl
  case dark => exact fun hdark hmain => congrArg _ (State.lightDetected_of_dark hdark hmain)
  case lit => exact fun hdown hfailed => congrArg _ (State.lightDetected_of_lit hdown hfailed)
  case failed => exact fun hfailed hfew => congrArg _ (State.autoRetrain_of_failed hfailed hfew)
  case notFailed => exact fun h => congrArg _ (State.autoRetrain_of_other h)
  case hearing =>
    exact fun hloop hpend hout => congrArg _ (State.retrainWrite_of_hearing (State.linkDeaf_eq_false.2 ⟨hloop, hpend, hout⟩))
  case deaf => exact fun h => congrArg _ (State.retrainWrite_of_deaf (State.linkDeaf_eq_true.2 h))
  case noLight => exact fun h => congrArg _ (State.trainingComplete_of_dark h)
  case fewLanes => exact fun h hlanes => congrArg _ (State.trainingComplete_of_lanes h hlanes)
  case discover => exact fun h hlanes hlive => congrArg _ (State.trainingComplete_of_training h hlanes hlive)
  case retired => exact fun h hlanes hretired => congrArg _ (State.trainingComplete_of_retired h hlanes hretired)
  case untrained => exact fun ht hw light => congrArg _ (State.trainingComplete_of_untrained ht hw)
  case waking => exact fun h hlanes hlive => ⟨_, rfl, State.trainingComplete_of_waking h hlanes hlive⟩
  case heard => exact congrArg _ (State.discoverReceive_of_hearing hstate hready)
  case unheard => exact congrArg _ (State.discoverReceive_of_deaf h)
  case period => exact fun h => congrArg _ (State.sendDiscovery_of_discovering h)
  case silent => exact fun h => congrArg _ (State.sendDiscovery_of_silent h)
  case verdict =>
    intro st why odd hstate hlive hverdict
    obtain ⟨e, he⟩ := State.evaluate_of_verdict hstate hlive hverdict
    have hjudged := State.link_judged (s := s) (l := l) (st := st) (why := why) (odd := odd)
    rw [he]
    exact ⟨(congrArg Link.state hjudged :), (congrArg Link.reason hjudged :), (congrArg Link.beOnly hjudged :)⟩
  case latchBad => exact fun h => congrArg _ (State.topoLatch_of_bad h)
  case latchGood => exact fun hgood hquiet => congrArg _ (State.topoLatch_of_good hgood hquiet)
  case reserved => exact fun harg => congrArg _ (State.partnerRead_of_reserved hreq hfenced hlive harg)
  case testing =>
    intro l harg hloop
    rw [State.partnerRead_of_link hreq hfenced hlive harg, if_pos hloop]
  case fenced =>
    intro l harg hloop hout
    rw [State.partnerRead_of_link hreq hfenced hlive harg, if_neg hloop, if_pos hout]
  case read =>
    intro l harg hloop hout
    rw [State.partnerRead_of_link hreq hfenced hlive harg, if_neg hloop, if_neg (Bool.eq_false_iff.1 hout)]

end Sys2Proof.Machine

/-! Codewords in error and their replay, lanes that are dropped and links that fail (09_links.md R241, R244, R250, R251, R257). -/

namespace Sys2Proof.Machine

/-! ## Bits set one after the other -/

theorem getLsbD_setBit {w : Nat} (v : BitVec w) (i j : Nat) :
    (setBit v i true).getLsbD j = (v.getLsbD j || (decide (j < w) && decide (i = j))) := by
  rw [setBit, if_pos rfl, BitVec.getLsbD_or, BitVec.getLsbD_ofNat, Nat.testBit_two_pow]

/-- The bits of a list's numbers that meet a condition. -/
theorem getLsbD_foldl_setBit {w : Nat} {α : Type} (p : α → Prop) [DecidablePred p] (n : α → Nat) (xs : List α) (v : BitVec w) (j : Nat) :
    (xs.foldl (fun v x => if p x then setBit v (n x) true else v) v).getLsbD j =
      (v.getLsbD j || (decide (j < w) && xs.any fun x => decide (n x = j) && decide (p x))) := by
  induction xs generalizing v with
  | nil => simp
  | cons x xs ih =>
    rw [List.foldl_cons, ih, List.any_cons]
    by_cases hx : p x
    · rw [if_pos hx, getLsbD_setBit, decide_eq_true hx, Bool.and_true, Bool.and_or_distrib_left, Bool.or_assoc]
    · rw [if_neg hx, decide_eq_false hx, Bool.and_false, Bool.false_or]

section
variable {s : State} {l m : LinkId}

/-! ## The commands -/

theorem exec_codewordReceive {n : BitVec 12} {ls : List (Fin 16)} {sched : Bool} :
    exec (.codewordReceive l n ls sched) s = .next (s.codeword l n ls sched) := rfl
theorem exec_replayRequest {n : Nat} : exec (.replayRequest l n) s = .next (s.replay l n) := rfl
theorem exec_laneLossOfLock {lanes : BitVec 16} {light : Bool} :
    exec (.laneLossOfLock l lanes light) s = .next (s.lossOfLock l lanes light) := rfl
theorem exec_laneErrorInterval : exec (.laneErrorInterval l) s = .next (s.laneInterval l) := rfl
theorem exec_laneMap {lane : BitVec 4} : exec (.laneMap l lane) s = .next (s.laneMap l lane) := rfl
theorem exec_restripe : exec (.restripe l) s = .next (s.restripe l) := rfl

/-! ## Codewords (R240, R241) -/

section
variable {lseq : BitVec 12} {ls : List (Fin 16)} {sched : Bool}

theorem State.codeword_of_deaf (h : evaluates (s.link l).state = false) : s.codeword l lseq ls sched = s := if_pos (by simp [h])

variable (hstate : evaluates (s.link l).state = true)
include hstate

theorem State.codeword_of_corrected (hfew : ls.length ≤ 15) : s.codeword l lseq ls sched = s.modLink l fun k => { k with
    fecCorr := if ls = [] then k.fecCorr else k.fecCorr + 1
    laneNow := ls.foldl (fun v i => vmod v i (· + 1)) k.laneNow
    awaited := if k.awaited = some lseq then none else k.awaited } := by
  unfold State.codeword
  dsimp only
  rw [if_neg (by simp [hstate]), if_neg hfew.not_gt]
  refine congrArg (s.modLink l) (funext fun k => ?_)
  cases ls <;> simp [Link.corrected]

/-- The link and its health count a codeword that cannot be corrected. -/
def State.uncorrected (s : State) (l : LinkId) : State :=
  { (s.modLink l fun k => { k with fecUncorr := satInc k.fecUncorr }) with
    hlt := { s.hlt with deltas := { s.hlt.deltas with fecu := vmod s.hlt.deltas.fecu l (· + 1) } } }

variable (hmany : 15 < ls.length)
include hmany

theorem State.codeword_of_lost (h : sched = true ∨ ((s.link l).awaited ≠ none ∧ (s.link l).awaited ≠ some lseq)) :
    s.codeword l lseq ls sched = s.uncorrected l := by
  unfold State.codeword
  dsimp only
  rw [if_neg (by simp [hstate]), if_pos hmany, if_pos]
  · rfl
  · simpa [Link.discards, Option.isSome_iff_ne_none] using h

theorem State.codeword_of_replayed (hsched : sched = false) (h : (s.link l).awaited = none ∨ (s.link l).awaited = some lseq) :
    s.codeword l lseq ls sched =
      ((s.uncorrected l).modLink l fun k => { k with awaited := some lseq }).sendControl l .replay lseq.toNat := by
  unfold State.codeword
  dsimp only
  rw [if_neg (by simp [hstate]), if_pos hmany, if_neg]
  · rfl
  · rcases h with h | h <;> simp [hsched, h, Link.discards]

end

section
variable {n : Nat}

theorem State.replay_of_silent (h : carriesFlits (s.link l).state = false) : s.replay l n = s := if_pos (by simp [h])

/-- The replay buffer holds the last 4,096 codewords. -/
theorem State.codewordAt_isSome : (s.codewordAt l n).isSome = true ↔ n < (s.link l).cwNext ∧ (s.link l).cwNext ≤ n + 4096 := by
  unfold State.codewordAt
  dsimp only
  split <;> next h => simpa using h

theorem State.replay_of_held (hstate : carriesFlits (s.link l).state = true) (hsent : n < (s.link l).cwNext)
    (hheld : (s.link l).cwNext ≤ n + 4096) : s.replay l n =
      { (s.modLink l fun k => { k with retry := satInc k.retry, replayLeft := k.cwNext - n }) with
        hlt := { s.hlt with deltas := { s.hlt.deltas with retry := vmod s.hlt.deltas.retry l (· + 1) } } } := by
  unfold State.replay
  dsimp only
  rw [if_neg (by simp [hstate]), if_pos (State.codewordAt_isSome.2 ⟨hsent, hheld⟩)]
  rfl

theorem State.replay_of_gone (hstate : carriesFlits (s.link l).state = true)
    (h : (s.link l).cwNext ≤ n ∨ n + 4096 < (s.link l).cwNext) : s.replay l n = s.train l true := by
  unfold State.replay
  dsimp only
  rw [if_neg (by simp [hstate]), if_neg (by rw [State.codewordAt_isSome]; omega)]

end

/-! ## A link fails (R251) -/

/-- What a failure makes of a link, but for its state. -/
def Link.failed (k : Link) (light : Bool) : Link :=
  { k.loseTest with
    lanesLive := 0, laneDropped := false, droppedLane := 0, dropping := none, ackHt := none, seen := false
    sleepAsked := false, light := light }

section
variable {light : Bool}

theorem State.failLink_eq : s.failLink l light = (s.modLink l (·.failed light)).setLink l (if light then lsFailed else lsDown) := rfl

theorem State.failLink_frame : s.failLink l light =
    { s with lnk := (s.failLink l light).lnk, tkp := (s.failLink l light).tkp, evr := (s.failLink l light).evr } :=
  State.setLink_frame

theorem State.link_failLink_same : ((s.failLink l light).link l).beyondFlits =
    { ((s.link l).failed light).beyondFlits with state := if light then lsFailed else lsDown } := by
  rw [State.failLink_eq, State.link_setLink_same, State.link_modLink_same]

theorem State.link_failLink_other (hm : m ≠ l) : ((s.failLink l light).link m).beyondFlits = (s.link m).beyondFlits := by
  rw [State.failLink_eq, State.link_setLink_other hm, State.link_modLink_other _ _ _ _ hm]

theorem State.state_failLink_other (hm : m ≠ l) : ((s.failLink l light).link m).state = (s.link m).state :=
  (congrArg Link.state (State.link_failLink_other hm) :)

end

/-! ## Lanes that fail (R250, R251) -/

/-- The lanes in use, and not being dropped already, among those that fail. -/
def State.lanesLost (s : State) (l : LinkId) (lanes : BitVec 16) : List Nat :=
  (List.range 16).filter fun i =>
    (s.link l).lanesLive.getLsbD i && lanes.getLsbD i && (s.link l).dropping != some (BitVec.ofNat 4 i)

section
variable {lanes : BitVec 16} {light : Bool} {i : Nat}

theorem State.loseLanes_of_none (h : s.lanesLost l lanes = []) : s.loseLanes l lanes light = s := by
  unfold State.lanesLost at h
  unfold State.loseLanes
  dsimp only
  rw [h]

theorem State.loseLanes_of_failing (hlost : s.lanesLost l lanes ≠ [])
    (h : light = false ∨ 2 ≤ (s.lanesLost l lanes).length ∨ (s.link l).laneDropped = true ∨ (s.link l).dropping ≠ none) :
    s.loseLanes l lanes light = s.failLink l light := by
  obtain ⟨i, rest, hcons⟩ := List.exists_cons_of_ne_nil hlost
  have hmore : 2 ≤ (i :: rest).length → rest ≠ [] := by
    rintro hlen rfl
    exact absurd hlen (Nat.lt_irrefl 1)
  rw [hcons] at h
  unfold State.lanesLost at hcons
  unfold State.loseLanes
  dsimp only
  rw [hcons]
  refine if_pos ?_
  have h' := h.imp_right (Or.imp_left hmore)
  simpa [or_assoc, Option.isSome_iff_ne_none] using h'

theorem State.loseLanes_of_one (hlost : s.lanesLost l lanes = [i]) (hdropped : (s.link l).laneDropped = false)
    (hdropping : (s.link l).dropping = none) : s.loseLanes l lanes true =
      (s.modLink l fun k => { k with dropping := some (BitVec.ofNat 4 i), ackHt := none }).sendControl l .laneMap i := by
  unfold State.lanesLost at hlost
  unfold State.loseLanes
  dsimp only
  rw [hlost]
  exact if_neg (by simp [hdropped, hdropping])

theorem State.lossOfLock_of_carrying (h : carriesFlits (s.link l).state = true) :
    s.lossOfLock l lanes light = s.loseLanes l lanes light := if_pos h

theorem State.lossOfLock_of_disabled (hstate : (s.link l).state = lsDisabled)
    (h : light = false ∨ lanes.getLsbD (s.timeLane l) = true) : s.lossOfLock l lanes light = s.failLink l light := by
  unfold State.lossOfLock
  dsimp only
  rw [if_neg (by rw [hstate]; decide), if_pos (by simpa [hstate] using h)]

theorem State.lossOfLock_of_other (hcarries : carriesFlits (s.link l).state = false)
    (h : (s.link l).state ≠ lsDisabled ∨ (light = true ∧ lanes.getLsbD (s.timeLane l) = false)) : s.lossOfLock l lanes light = s := by
  unfold State.lossOfLock
  dsimp only
  rw [if_neg (Bool.eq_false_iff.1 hcarries), if_neg (by simpa [imp_iff_not_or] using h)]

end

/-! ## LANE_ERROR_INTERVAL (R250, R257) -/

/-- The errors a lane may have in a millisecond. -/
def State.laneLimit (s : State) : Nat := max 1 s.lnk.dropThr.toNat

/-- The lanes with more errors in the present interval. -/
def State.badLanes (s : State) (l : LinkId) : BitVec 16 :=
  (List.finRange 16).foldl (fun v i => if s.laneLimit < vget (s.link l).laneNow i then setBit v i.val true else v) 0

/-- The interval is shown and a new one begins. -/
def State.intervalShown (s : State) (l : LinkId) : State :=
  s.modLink l fun k => { k with laneErr := Vector.ofFn fun i => satNat 32 (vget k.laneNow i), laneNow := Vector.replicate 16 0 }

theorem State.laneInterval_eq : s.laneInterval l =
    if carriesFlits (s.link l).state then (s.intervalShown l).loseLanes l (s.badLanes l) (s.link l).light else s.intervalShown l := rfl

theorem State.getLsbD_badLanes (i : Fin 16) : (s.badLanes l).getLsbD i.val = decide (s.laneLimit < vget (s.link l).laneNow i) := by
  rw [State.badLanes, getLsbD_foldl_setBit (fun i => s.laneLimit < vget (s.link l).laneNow i) Fin.val]
  have hany : ((List.finRange 16).any fun j => decide (j.val = i.val) && decide (s.laneLimit < vget (s.link l).laneNow j)) =
      decide (s.laneLimit < vget (s.link l).laneNow i) := by
    rw [Bool.eq_iff_iff]
    simp [← Fin.ext_iff]
  rw [hany, decide_eq_true i.isLt]
  simp

theorem State.lanesLost_badLanes {i : Nat} (hi : i ∈ (s.intervalShown l).lanesLost l (s.badLanes l)) :
    ∃ h : i < 16, s.laneLimit < vget (s.link l).laneNow ⟨i, h⟩ := by
  obtain ⟨hrange, hpred⟩ := List.mem_filter.1 hi
  have hlt := List.mem_range.1 hrange
  simp only [Bool.and_eq_true] at hpred
  obtain ⟨⟨-, hbad⟩, -⟩ := hpred
  rw [State.getLsbD_badLanes ⟨i, hlt⟩] at hbad
  exact ⟨hlt, of_decide_eq_true hbad⟩

theorem State.laneInterval_of_quiet
    (h : (∀ i, vget (s.link l).laneNow i ≤ s.laneLimit) ∨ carriesFlits (s.link l).state = false) :
    s.laneInterval l = s.intervalShown l := by
  rw [State.laneInterval_eq]
  rcases h with h | h
  · rw [State.loseLanes_of_none, ite_self]
    refine List.eq_nil_iff_forall_not_mem.2 fun i hi => ?_
    obtain ⟨hlt, hbad⟩ := State.lanesLost_badLanes hi
    exact absurd hbad (h _).not_gt
  · exact if_neg (Bool.eq_false_iff.1 h)

theorem State.laneInterval_of_one {i : Fin 16} (hstate : carriesFlits (s.link l).state = true)
    (hbad : s.laneLimit < vget (s.link l).laneNow i) (honly : ∀ j, j ≠ i → vget (s.link l).laneNow j ≤ s.laneLimit)
    (hlive : (s.link l).lanesLive.getLsbD i.val = true) (hdropped : (s.link l).laneDropped = false)
    (hdropping : (s.link l).dropping = none) (hlight : (s.link l).light = true) : s.laneInterval l =
      ((s.intervalShown l).modLink l fun k => { k with dropping := some (BitVec.ofNat 4 i.val), ackHt := none }).sendControl l .laneMap
        i.val := by
  have hlink : (s.intervalShown l).link l = { s.link l with
      laneErr := Vector.ofFn fun i => satNat 32 (vget (s.link l).laneNow i), laneNow := Vector.replicate 16 0 } :=
    State.link_modLink_same ..
  have hlost : (s.intervalShown l).lanesLost l (s.badLanes l) = [i.val] := by
    have hmem : i.val ∈ (s.intervalShown l).lanesLost l (s.badLanes l) := by
      refine List.mem_filter.2 ⟨List.mem_range.2 i.isLt, ?_⟩
      rw [hlink, State.getLsbD_badLanes]
      simp [hlive, hbad, hdropping]
    have hall : ∀ j ∈ (s.intervalShown l).lanesLost l (s.badLanes l), j = i.val := by
      intro j hj
      obtain ⟨hlt, hover⟩ := State.lanesLost_badLanes hj
      by_contra hne
      exact absurd hover (honly ⟨j, hlt⟩ fun h => hne (congrArg Fin.val h)).not_gt
    have hnodup : ((s.intervalShown l).lanesLost l (s.badLanes l)).Nodup := List.nodup_range.filter _
    exact List.perm_singleton.1 ((List.perm_ext_iff_of_nodup hnodup (List.nodup_singleton _)).2 fun j =>
      ⟨fun hj => List.mem_singleton.2 (hall j hj), fun hj => List.mem_singleton.1 hj ▸ hmem⟩)
  rw [State.laneInterval_eq, if_pos hstate, hlight]
  exact State.loseLanes_of_one hlost ((congrArg Link.laneDropped hlink).trans hdropped)
    ((congrArg Link.dropping hlink).trans hdropping)

/-! ## The lane-map exchange (R250) -/

section
variable {lane : BitVec 4}

theorem State.laneMap_of_deaf (h : carriesFlits (s.link l).state = false ∨ (s.link l).awaited ≠ none) : s.laneMap l lane = s := by
  refine if_pos ?_
  simpa [Link.discards, Option.isSome_iff_ne_none] using h

section
variable (hstate : carriesFlits (s.link l).state = true) (hready : (s.link l).awaited = none)
include hstate hready

theorem State.laneMap_of_first (hdropped : (s.link l).laneDropped = false ∨ (s.link l).droppedLane = lane)
    (hdropping : (s.link l).dropping = none ∨ (s.link l).dropping = some lane) : s.laneMap l lane =
      (s.modLink l fun k => { k with dropping := some lane, ackHt := some s.ht }).sendControl l .laneMapAck lane.toNat := by
  have hsame : ¬ ((s.link l).laneDropped && (s.link l).droppedLane != lane ||
      (s.link l).dropping.isSome && (s.link l).dropping != some lane) = true := by
    rcases hdropped with h | h <;> rcases hdropping with h' | h' <;> simp [h, h']
  unfold State.laneMap
  dsimp only
  rw [if_neg (by simp [hstate, hready, Link.discards]), if_neg hsame]

theorem State.laneMap_of_second (hdropped : (s.link l).laneDropped = true) (hother : (s.link l).droppedLane ≠ lane) :
    s.laneMap l lane = s.failLink l (s.link l).light := by
  unfold State.laneMap
  dsimp only
  rw [if_neg (by simp [hstate, hready, Link.discards]), if_pos (by simp [hdropped, hother])]

end

theorem exec_laneMapAck_of_unacknowledged (hdropping : (s.link l).dropping = some lane) (hack : (s.link l).ackHt = none)
    (hready : (s.link l).awaited = none) : exec (.laneMapAck l) s = .next (s.modLink l fun k => { k with ackHt := some s.ht }) :=
  congrArg _ (if_pos (by simp [hdropping, hack, hready, Link.discards]))

theorem exec_laneMapAck_of_ignored (h : (s.link l).ackHt ≠ none ∨ (s.link l).awaited ≠ none) : exec (.laneMapAck l) s = .next s := by
  refine congrArg _ (if_neg ?_)
  rcases h with h | h <;> obtain ⟨v, hv⟩ := Option.ne_none_iff_exists'.1 h <;> simp [hv, Link.discards]

theorem exec_laneMapTimeout_of_unacknowledged (hdropping : (s.link l).dropping = some lane) (hack : (s.link l).ackHt = none) :
    exec (.laneMapTimeout l) s = .next (s.failLink l (s.link l).light) := congrArg _ (if_pos (by simp [hdropping, hack]))

theorem exec_laneMapTimeout_of_acknowledged {a : Nat} (hack : (s.link l).ackHt = some a) : exec (.laneMapTimeout l) s = .next s :=
  congrArg _ (if_neg (by simp [hack]))

/-! ## RESTRIPE (R250) -/

theorem State.restripe_of_unacknowledged (hack : (s.link l).ackHt = none) : s.restripe l = s := by
  unfold State.restripe
  dsimp only
  rw [hack]
  split
  · contradiction
  · rfl

/-- A link without one of its lanes. -/
def Link.restriped (k : Link) (lane : BitVec 4) : Link :=
  { k with
    laneDropped := true, droppedLane := lane, dropping := none, ackHt := none, drops := k.drops + 1
    lanesLive := setBit k.lanesLive lane.toNat false }

/-- Hall time has come to `n`, and the lane is taken away. -/
def State.restriped (s : State) (l : LinkId) (lane : BitVec 4) (n : Nat) : State :=
  let u := s.passToHt n
  { u.modLink l (·.restriped lane) with
    hlt := { u.hlt with deltas := { u.hlt.deltas with drop := vmod u.hlt.deltas.drop l (· + 1) } } }

theorem State.link_restriped {n : Nat} : (s.restriped l lane n).link l = (s.link l).restriped lane := by
  have hlink : (s.passToHt n).link l = s.link l := by
    rw [State.link, State.lnk_passToHt]
    rfl
  exact (State.link_modLink_same ..).trans (congrArg (·.restriped lane) hlink)

theorem State.restriped_beside {n : Nat} : (s.restriped l lane n).tkp = (s.passToHt n).tkp ∧
    (s.restriped l lane n).mem = s.mem ∧ (s.restriped l lane n).host = s.host ∧ (s.restriped l lane n).ctxs = s.ctxs := by
  obtain ⟨hctxs, hhost, hmem, -⟩ := State.passToHt_frame s n
  exact ⟨rfl, hmem, hhost, hctxs⟩

/-- Where hall time runs it has come to an instant that time passed to. -/
theorem State.le_ht_passToHt {n : Nat} (hrun : s.tkp.state ≠ 0) (hfits : n < 2 ^ 64) : n ≤ (s.passToHt n).ht := by
  rcases Nat.le_total n s.ht with h | h
  · rwa [State.passToHt_of_reached h]
  · exact (State.ht_passToHt hrun h hfits).ge

section
variable {a n : Nat} (hdropping : (s.link l).dropping = some lane) (hack : (s.link l).ackHt = some a)
include hdropping hack

theorem State.restripe_of_acknowledged (hn : frameFrom (a + 2000) = n) : s.restripe l =
    if (s.link l).state = lsUp then (s.restriped l lane n).setLink l lsDegraded else s.restriped l lane n := by
  unfold State.restripe
  dsimp only
  rw [hdropping, hack]
  dsimp only
  rw [hn]
  simp only [beq_iff_eq]
  rfl

theorem State.link_restripe : ((s.restripe l).link l).beyondFlits =
    { ((s.link l).restriped lane).beyondFlits with state := if (s.link l).state = lsUp then lsDegraded else (s.link l).state } := by
  rw [State.restripe_of_acknowledged hdropping hack rfl]
  split
  · rw [State.link_setLink_same, State.link_restriped]
  · rw [State.link_restriped]
    rfl

theorem State.restripe_beside (hn : frameFrom (a + 2000) = n) : (s.restripe l).ht = (s.passToHt n).ht ∧
    (s.restripe l).mem = s.mem ∧ (s.restripe l).host = s.host ∧ (s.restripe l).ctxs = s.ctxs := by
  obtain ⟨htkp, hbeside⟩ := State.restriped_beside (s := s) (l := l) (lane := lane) (n := n)
  have hht : (s.restriped l lane n).ht = (s.passToHt n).ht := congrArg (fun t : Tkp => t.ht / 16) htkp
  rw [State.restripe_of_acknowledged hdropping hack hn]
  split
  · refine ⟨State.setLink_ht.trans hht, ?_⟩
    rw [State.setLink_frame]
    exact hbeside
  · exact ⟨hht, hbeside⟩

end
end

/-! ## FIBRE_UNPLUG (R257) -/

theorem Link.failed_of_dark {k : Link} : { k with light := false }.failed false = k.failed false := by
  unfold Link.failed Link.loseTest
  split <;> rfl

theorem State.lightLost_of_usable (h : usableState (s.link l).state = true) : s.lightLost l = s.failLink l false := by
  have hstate : (s.link l).state = lsUp ∨ (s.link l).state = lsDegraded := by simpa [usableState] using h
  have hfail : (s.modLink l fun k => { k with light := false }).failLink l false = s.failLink l false := by
    rw [State.failLink_eq, State.failLink_eq, State.modLink_modLink]
    exact congrArg (fun f : Link → Link => (s.modLink l f).setLink l lsDown) (funext fun k => Link.failed_of_dark)
  unfold State.lightLost
  dsimp only
  rw [State.link_modLink_same]
  rcases hstate with h | h <;> rw [h] <;> exact hfail

/-- Links that lose their light one after the other are DOWN, and the others stay as they are. -/
theorem State.foldl_lightLost {ls : List LinkId} (hnodup : ls.Nodup) (h : ∀ m ∈ ls, usableState (s.link m).state = true) :
    let t := ls.foldl State.lightLost s
    (∀ m ∈ ls, (t.link m).state = lsDown ∧ (t.link m).lanesLive = 0) ∧
      (∀ m, m ∉ ls → (t.link m).beyondFlits = (s.link m).beyondFlits) ∧ t = { s with lnk := t.lnk, tkp := t.tkp, evr := t.evr } := by
  induction ls generalizing s with
  | nil => exact ⟨fun m hm => absurd hm List.not_mem_nil, fun m _ => rfl, rfl⟩
  | cons l ls ih =>
    obtain ⟨hfirst, hrest⟩ := List.nodup_cons.1 hnodup
    have hne : ∀ m ∈ ls, m ≠ l := fun m hm hml => hfirst (hml ▸ hm)
    obtain ⟨hdown, hothers, hframe⟩ := ih (s := s.failLink l false) hrest fun m hm => by
      rw [State.state_failLink_other (hne m hm)]
      exact h m (List.mem_cons_of_mem _ hm)
    intro t
    have ht : t = ls.foldl State.lightLost (s.failLink l false) := by
      rw [← State.lightLost_of_usable (h l List.mem_cons_self)]
      rfl
    rw [← ht] at hdown hothers hframe
    refine ⟨fun m hm => ?_, fun m hm => ?_, hframe.trans ?_⟩
    · rcases List.mem_cons.1 hm with rfl | hm
      · have hlink := (hothers m hfirst).trans State.link_failLink_same
        exact ⟨(congrArg Link.state hlink :), (congrArg Link.lanesLive hlink :)⟩
      · exact hdown m hm
    · rw [List.mem_cons, not_or] at hm
      exact (hothers m hm.2).trans (State.link_failLink_other hm.1)
    · exact (congrArg (fun u : State => { u with lnk := t.lnk, tkp := t.tkp, evr := t.evr }) State.failLink_frame :)

/-- The four links of a port. -/
def portLinks (p : Fin 6) : List LinkId := (List.range 4).map fun j => linkOf (4 * p.val + j)

theorem portLinks_nodup (p : Fin 6) : (portLinks p).Nodup := by
  revert p
  decide

theorem mem_portLinks {p : Fin 6} : m ∈ portLinks p ↔ ∃ j : Fin 4, linkOf (4 * p.val + j.val) = m := by
  simp only [portLinks, List.mem_map, List.mem_range]
  exact ⟨fun ⟨j, hj, hm⟩ => ⟨⟨j, hj⟩, hm⟩, fun ⟨j, hm⟩ => ⟨j.val, j.isLt, hm⟩⟩

theorem port_of_mem_portLinks {p : Fin 6} (h : m ∈ portLinks p) : m.val / 4 = p.val := by
  obtain ⟨j, rfl⟩ := mem_portLinks.1 h
  have hval : (linkOf (4 * p.val + j.val)).val = (4 * p.val + j.val) % 24 := rfl
  omega

theorem exec_fibreUnplug {p : Fin 6} : exec (.fibreUnplug p) s = .next ((portLinks p).foldl State.lightLost s) :=
  congrArg Host.Outcome.next (List.foldl_map (f := fun j => linkOf (4 * p.val + j)) (g := State.lightLost)).symm

end

/-- Settles O38: a clause is one outcome of a codeword, of lanes that fail or of a lane-map exchange; the links of a cable fail one
after the other. -/
theorem lanesDropAndLinksFail : Obligations.LanesDropAndLinksFail := by
  unfold Obligations.LanesDropAndLinksFail
  simp only [exec_codewordReceive, exec_replayRequest, exec_laneLossOfLock, exec_laneErrorInterval, exec_laneMap, exec_restripe]
  refine ⟨fun s l lseq ls sched hstate => ⟨?corrected, fun hmany => ⟨?lost, ?replayed⟩⟩, fun s l n hstate => ⟨?held, ?gone⟩,
    fun s l lseq ls u n lane => ⟨?deaf, ?silent⟩, fun s l light => ?fails, fun s l lanes hstate => ?lanes,
    fun s l lanes light hcarries => ⟨?disabled, ?other⟩, fun s l => ⟨?quiet, ?oneBad⟩, fun s l lane hstate => ⟨?mapDeaf, ?first, ?second⟩,
    fun s l lane hdropping => ⟨fun hack => ?unacknowledged, fun a hack => ?acknowledged⟩, fun s p h => ?unplugged⟩
  case corrected => exact fun hfew => congrArg _ (State.codeword_of_corrected hstate hfew)
  case lost => exact fun h => congrArg _ (State.codeword_of_lost hstate hmany h)
  case replayed => exact fun hsched h => congrArg _ (State.codeword_of_replayed hstate hmany hsched h)
  case held => exact fun hsent hheld => congrArg _ (State.replay_of_held hstate hsent hheld)
  case gone => exact fun h => congrArg _ (State.replay_of_gone hstate h)
  case deaf => exact fun h => congrArg _ (State.codeword_of_deaf h)
  case silent => exact fun h => ⟨congrArg _ (State.replay_of_silent h), congrArg _ (State.laneMap_of_deaf (.inl h))⟩
  case fails =>
    have hlink := State.link_failLink_same (s := s) (l := l) (light := light)
    exact ⟨(congrArg Link.state hlink :), (congrArg Link.lanesLive hlink :), (congrArg Link.laneDropped hlink :),
      (congrArg Link.dropping hlink :), (congrArg Link.light hlink :), fun m hm => State.state_failLink_other hm, State.failLink_frame⟩
  case lanes =>
    simp only [State.lossOfLock_of_carrying hstate]
    refine ⟨fun hlost => congrArg _ (State.loseLanes_of_failing hlost (.inl rfl)), fun hmany => ?_, fun hlost h => ?_,
      fun i hlost hdropped hdropping => congrArg _ (State.loseLanes_of_one hlost hdropped hdropping),
      fun hlost light => congrArg _ (State.loseLanes_of_none hlost)⟩
    · exact congrArg _ (State.loseLanes_of_failing (List.ne_nil_of_length_pos (Nat.zero_lt_of_lt hmany)) (.inr (.inl hmany)))
    · exact congrArg _ (State.loseLanes_of_failing hlost (.inr (.inr h)))
  case disabled => exact fun hstate h => congrArg _ (State.lossOfLock_of_disabled hstate h)
  case other => exact fun h => congrArg _ (State.lossOfLock_of_other hcarries h)
  case quiet => exact fun h => congrArg _ (State.laneInterval_of_quiet h)
  case oneBad =>
    exact fun i hstate hbad honly hlive hdropped hdropping hlight =>
      congrArg _ (State.laneInterval_of_one hstate hbad honly hlive hdropped hdropping hlight)
  case mapDeaf => exact fun h => congrArg _ (State.laneMap_of_deaf (.inr h))
  case first => exact fun hready hdropped hdropping => congrArg _ (State.laneMap_of_first hstate hready hdropped hdropping)
  case second => exact fun hready hdropped hother => congrArg _ (State.laneMap_of_second hstate hready hdropped hother)
  case unacknowledged =>
    exact ⟨exec_laneMapAck_of_unacknowledged hdropping hack, fun h => exec_laneMapAck_of_ignored (.inr h),
      exec_laneMapTimeout_of_unacknowledged hdropping hack, congrArg _ (State.restripe_of_unacknowledged hack)⟩
  case acknowledged =>
    have hlink := State.link_restripe hdropping hack
    obtain ⟨hht, hbeside⟩ := State.restripe_beside hdropping hack rfl
    refine ⟨exec_laneMapAck_of_ignored (.inl (by simp [hack])), exec_laneMapTimeout_of_acknowledged hack, _, rfl,
      (congrArg Link.laneDropped hlink :), (congrArg Link.droppedLane hlink :), (congrArg Link.dropping hlink :),
      (congrArg Link.lanesLive hlink :), (congrArg Link.state hlink :), fun hrun hfits => ?_, hbeside⟩
    rw [hht]
    exact State.le_ht_passToHt hrun hfits
  case unplugged =>
    obtain ⟨hdown, hothers, hframe⟩ := State.foldl_lightLost (portLinks_nodup p) fun m hm => by
      obtain ⟨j, rfl⟩ := mem_portLinks.1 hm
      exact h j
    generalize hdark : (portLinks p).foldl State.lightLost s = t at hdown hothers hframe
    exact ⟨t, exec_fibreUnplug.trans (congrArg _ hdark), fun j => hdown _ (mem_portLinks.2 ⟨j, rfl⟩),
      fun m hm => (congrArg Link.state (hothers m (mt port_of_mem_portLinks hm)) :), hframe⟩

end Sys2Proof.Machine

/-! The end of a loop test in the dark (09_links.md R256). -/

namespace Sys2Proof.Machine

section
variable {s : State} {l : LinkId} {errors : List Nat}

theorem exec_loopTestEnd : exec (.loopTestEnd l errors) s = .next (s.loopEnd l errors) := rfl

/-- Without light a test of the partner's ends as a failure of the link. -/
theorem State.loopEnd_of_dark (hstate : (s.link l).state = lsLoop) (hown : (s.link l).loopOwn = false) (hdark : (s.link l).light = false) :
    s.loopEnd l errors = s.failLink l false := by
  unfold State.loopEnd
  dsimp only
  rw [if_neg (by simp [hstate]), if_neg (Bool.eq_false_iff.1 hown), if_neg (Bool.eq_false_iff.1 hdark)]

/-- A failure records FAIL for a far-end test that still waits for its frame boundary. -/
theorem Link.failed_loopResult {k : Link} {light : Bool} (hpend : k.loopPend = true) (hfar : k.loopFar = true) :
    (k.failed light).loopResult = 3 := by
  simp [Link.failed, Link.loseTest, hpend, hfar]

end

/-- A link of the reset state put into a test of the partner's, in the dark, while a far-end test of its own waits. -/
def testedLink : Link := { linkReset with state := lsLoop, loopFar := true, loopPend := true }

def testedState : State := State.reset.modLink 0 fun _ => testedLink

theorem link_testedState : testedState.link 0 = testedLink := State.link_modLink_same ..

/-- Refutes O39: the end of a test that finds no light fails the link, and the failure records FAIL for a far-end test that waits
for its frame boundary (`Link.loseTest`), where the statement has LOOP_RESULT of a test of the partner's stay. In `testedState` link 0
goes from LOOP_RESULT 0 to 3; the statement has no hypothesis that leaves such a state out. -/
theorem not_linksSleepWakeAndLoop : ¬ Obligations.LinksSleepWakeAndLoop := by
  unfold Obligations.LinksSleepWakeAndLoop
  rintro ⟨-, -, -, -, htest⟩
  obtain ⟨-, hend⟩ := htest testedState 0 []
  have hlink := link_testedState
  generalize testedState = s at hend hlink
  have hstate : (s.link 0).state = lsLoop := congrArg Link.state hlink
  have hown : (s.link 0).loopOwn = false := congrArg Link.loopOwn hlink
  have hnone : (s.link 0).loopResult = 0 := congrArg Link.loopResult hlink
  obtain ⟨t, ht, -, -, -, hkept, -, -⟩ := hend hstate
  have hrecorded : (t.link 0).loopResult = 3 := by
    rw [← Host.Outcome.next.inj (exec_loopTestEnd.symm.trans ht), State.loopEnd_of_dark hstate hown (congrArg Link.light hlink)]
    refine (congrArg Link.loopResult State.link_failLink_same :).trans ?_
    rw [hlink]
    exact Link.failed_loopResult (light := false) rfl rfl
  rw [hrecorded, if_neg (Bool.eq_false_iff.1 hown), hnone] at hkept
  exact absurd hkept (by decide)

end Sys2Proof.Machine

/-! Flits that arrive: delivered, forwarded, dropped or refused as stale, and the streams they belong to (09_links.md R249, R252, R253;
10_collectives.md R277 to R279; log entries 79, 80). -/

namespace Sys2Proof.Machine

section
variable {s : State} {l m : LinkId} {f : Flit} {t : Topo} {g : GroupId}

/-! ## The commands -/

theorem exec_beFlitReceive : exec (.beFlitReceive l f) s = .next (s.beReceive l f) := rfl
theorem exec_schedFlitReceive {bad : Bool} : exec (.schedFlitReceive l f bad) s = .next (s.schedReceive l f bad) := rfl
theorem exec_staleFlitReceive : exec (.staleFlitReceive l f) s = .next (s.staleArrive l f) := rfl
theorem exec_beHoldExpiry {o : Option LinkId} : exec (.beHoldExpiry o) s = .next (s.holdExpiry o) := rfl
theorem exec_streamAck {d : BitVec 3} {n : Word} {missing : BitVec 64} :
    exec (.streamAck g d n missing) s = .next (s.streamAck g d.toNat n missing) := rfl

/-! ## A flit routed hop by hop (R252; log entry 79) -/

section
variable {here on : State → State}

theorem State.hopReceive_of_closed (h : usableState (s.link l).state = false ∨ (s.link l).awaited ≠ none) :
    s.hopReceive l f here on = s := by
  refine if_pos ?_
  simpa [Link.discards, Option.isSome_iff_ne_none] using h

section
variable (husable : usableState (s.link l).state = true) (hready : (s.link l).awaited = none)
include husable hready

theorem State.hopReceive_of_foreign (hslice : f.slice ≠ s.lnk.sliceId.toNat) : s.hopReceive l f here on = s.dropBe 1 := by
  unfold State.hopReceive
  rw [if_neg (by simp [husable, hready, Link.discards]), if_pos (bne_iff_ne.2 hslice)]

variable (hslice : f.slice = s.lnk.sliceId.toNat) (htopo : s.lnk.topo = some t)
include hslice htopo

theorem State.hopReceive_of_routed : s.hopReceive l f here on =
    if t.beDir f = none then here s else if 64 ≤ f.hops + 1 then s.dropBe 1 else on s := by
  unfold State.hopReceive
  rw [if_neg (by simp [husable, hready, Link.discards]), if_neg (by simp [hslice]), htopo]
  simp only [Option.isNone_iff_eq_none]

theorem State.hopReceive_of_arrived (hdir : t.beDir f = none) : s.hopReceive l f here on = here s := by
  rw [State.hopReceive_of_routed husable hready hslice htopo, if_pos hdir]

theorem State.hopReceive_of_spent (hdir : t.beDir f ≠ none) (hhops : 63 ≤ f.hops) : s.hopReceive l f here on = s.dropBe 1 := by
  rw [State.hopReceive_of_routed husable hready hslice htopo, if_neg hdir, if_pos (by omega)]

theorem State.hopReceive_of_forwarded (hdir : t.beDir f ≠ none) (hhops : f.hops < 63) : s.hopReceive l f here on = on s := by
  rw [State.hopReceive_of_routed husable hready hslice htopo, if_neg hdir, if_neg (by omega)]

end
end

section
variable (htopo : s.lnk.topo = some t)
include htopo

theorem State.queueBe_of_link (hlink : s.beLink t f = some m) :
    s.queueBe f = s.modLink m fun k => { k with queues := vmod k.queues (t.queueOf f) (· ++ [(s.now, f)]) } := by
  rw [State.queueBe, State.queueBeSince, htopo]
  dsimp only
  rw [hlink]

theorem State.queueBe_of_none (hlink : s.beLink t f = none) :
    s.queueBe f = { s with lnk := { s.lnk with waiting := s.lnk.waiting ++ [(s.now, f)] } } := by
  rw [State.queueBe, State.queueBeSince, htopo]
  dsimp only
  rw [hlink]

theorem State.queueStale_of_link (hlink : s.beLink t f = some m) :
    s.queueStale f = s.modLink m fun k => { k with control := k.control ++ [f] } := by
  rw [State.queueStale, htopo, Option.bind_some, hlink]

theorem State.queueStale_of_none (hlink : s.beLink t f = none) :
    s.queueStale f = { s with lnk := { s.lnk with waiting := s.lnk.waiting ++ [(s.now, f)] } } := by
  rw [State.queueStale, htopo, Option.bind_some, hlink]

end

/-! ## A group's stream flits (R278, R279) -/

section
variable {d gen : Nat} {take : State → State}

theorem State.streamFlit_of_inactive (h : (s.group g).state ≠ 1) : s.streamFlit g d gen take = s := if_pos (bne_iff_ne.2 h)

theorem State.streamFlit_of_stale (h : (s.group g).state = 1) (hgen : gen ≠ (vget (s.group g).gens (dirFin d)).toNat % 65536) :
    s.streamFlit g d gen take = s.staleFlit g := by
  unfold State.streamFlit
  dsimp only
  rw [if_neg (by simp [h]), if_pos (bne_iff_ne.2 hgen)]

theorem State.streamFlit_of_current (h : (s.group g).state = 1) (hgen : gen = (vget (s.group g).gens (dirFin d)).toNat % 65536) :
    s.streamFlit g d gen take = take s := by
  unfold State.streamFlit
  dsimp only
  rw [if_neg (by simp [h]), if_neg (by simp [hgen])]

theorem State.streamTake_of_num {seq : Word} {p : List Byte} {n : Nat} (h : (s.group g).numOf (seq.toNat / 2 ^ 24) = some n) :
    s.streamTake g d seq p = s.modGroup g fun q => { q with
      rx := vmod q.rx (dirFin d) fun r => r.take (streamKey n (bit seq.toNat 23)) (seq.toNat % 2 ^ 23)
        (if bit seq.toNat 23 || n < (s.group g).ctail.toNat then none else some p) } := by
  unfold State.streamTake
  dsimp only
  rw [h]

end

/-! ## A BE flit at its destination (R249, R252, R279) -/

/-- The direction that stream data of a flit came from; none for a flit of no stream. -/
def State.streamDir (s : State) (f : Flit) : Option Nat := if f.cls == 1 then s.sourceDir f else none

theorem State.streamDir_of_none (h : f.cls ≠ 1 ∨ s.sourceDir f = none) : s.streamDir f = none := by
  rcases h with h | h
  · exact if_neg (mt beq_iff_eq.1 h)
  · rw [State.streamDir, h, ite_self]

theorem State.streamDir_of_stream (h : f.cls = 1) : s.streamDir f = s.sourceDir f := if_pos (beq_iff_eq.2 h)

/-- A stale flit is counted, and its source is told. -/
def State.refused (s : State) (f : Flit) : State :=
  { s with lnk := { s.lnk with stale := satInc s.lnk.stale } }.queueStale
    (mkFlit fkStale 0 s.lnk.sliceId.toNat (f.sx, f.sy, f.sz) (f.dx, f.dy, f.dz) f.srcGen (s.lnk.gen.toNat % 65536) 0 f.seq [])

theorem State.beDeliver_of_stale (hgen : f.dstGen ≠ s.lnk.gen.toNat % 65536) : s.beDeliver f =
    if s.streamDir f = none then s.refused f else (s.refused f).staleFlit (groupOf (fieldAt f.payload 0 2 % 64)) := by
  unfold State.beDeliver
  dsimp only
  rw [if_pos (bne_iff_ne.2 hgen)]
  cases hdir : s.streamDir f with
  | none =>
    unfold State.streamDir at hdir
    rw [hdir, if_pos rfl, State.refused]
    exact if_neg Bool.false_ne_true
  | some d =>
    unfold State.streamDir at hdir
    rw [hdir, if_neg (Option.some_ne_none d), State.refused]
    exact if_pos rfl

theorem State.beDeliver_of_plain (hgen : f.dstGen = s.lnk.gen.toNat % 65536) (hdir : s.streamDir f = none) :
    s.beDeliver f = { s with lnk := { s.lnk with arrived := arriveInOrder f s.lnk.arrived } } := by
  unfold State.streamDir at hdir
  unfold State.beDeliver
  dsimp only
  rw [if_neg (by simp [hgen]), hdir]

theorem State.beDeliver_of_stream {d : Nat} (hgen : f.dstGen = s.lnk.gen.toNat % 65536) (hdir : s.streamDir f = some d) :
    s.beDeliver f = s.streamFlit (groupOf (fieldAt f.payload 0 2 % 64)) d f.srcGen fun s =>
      s.partTake (groupOf (fieldAt f.payload 0 2 % 64)) d f.payload := by
  unfold State.streamDir at hdir
  unfold State.beDeliver
  dsimp only
  rw [if_neg (by simp [hgen]), hdir]

/-! ## SCHED flits (R278) -/

theorem State.schedReceive_of_closed {bad : Bool}
    (h : (usableState (s.link l).state = false ∨ (s.link l).awaited ≠ none) ∨ bad = true) : s.schedReceive l f bad = s := by
  refine if_pos ?_
  simpa [Link.discards, Option.isSome_iff_ne_none] using h

section
variable (husable : usableState (s.link l).state = true) (hready : (s.link l).awaited = none)
include husable hready

theorem State.schedReceive_of_stale (hgen : f.dstGen ≠ s.lnk.gen.toNat % 65536) : s.schedReceive l f false =
    { s with lnk := { s.lnk with stale := satInc s.lnk.stale } }.staleFlit (groupOf (f.group % 64)) := by
  unfold State.schedReceive
  dsimp only
  rw [if_neg (by simp [husable, hready, Link.discards]), if_pos (bne_iff_ne.2 hgen)]

theorem State.schedReceive_of_fresh (hgen : f.dstGen = s.lnk.gen.toNat % 65536) : s.schedReceive l f false =
    s.streamFlit (groupOf (f.group % 64)) (s.dirOf l) f.srcGen fun s =>
      s.streamTake (groupOf (f.group % 64)) (s.dirOf l) f.seq f.payload := by
  unfold State.schedReceive
  dsimp only
  rw [if_neg (by simp [husable, hready, Link.discards]), if_neg (by simp [hgen])]

end

/-! ## A flit taken by its stream (R276, R278) -/

section
variable {r : StreamRx} {key n : Nat} {held : Option (List Byte)}
variable (hgot : r.got.getD key 0 = n)
include hgot

theorem StreamRx.take_duplicate {i : Nat} (hroom : n < 2 ^ 22) (hold : i < n) : r.take key i held = r := by
  have hd : 2 ^ 22 ≤ (i + 2 ^ 23 - n % 2 ^ 23) % 2 ^ 23 := by omega
  unfold StreamRx.take
  dsimp only
  rw [hgot, decide_eq_true hd]
  exact if_pos (Bool.true_or _)

variable (hnone : r.later = [])
include hnone

theorem StreamRx.take_next :
    r.take key n held = { r with got := r.got.put key (n + 1), data := r.data ++ (held.map fun p => (key, n, p)).toList } := by
  have hd : (n + 2 ^ 23 - n % 2 ^ 23) % 2 ^ 23 = 0 := by omega
  unfold StreamRx.take
  dsimp only
  rw [hgot, hd, hnone]
  rfl

theorem StreamRx.take_ahead {j : Nat} (hpos : 0 < j) (hnear : j < 2 ^ 22) : r.take key (n + j) held =
    { r with later := [(key, n + j)], data := r.data ++ (held.map fun p => (key, n + j, p)).toList } := by
  have hd : (n + j + 2 ^ 23 - n % 2 ^ 23) % 2 ^ 23 = j := by omega
  unfold StreamRx.take
  dsimp only
  rw [hgot, hd, hnone, decide_eq_false hnear.not_ge, if_neg (by simp), if_neg hpos.ne']
  rfl

end

/-! ## A collective whose data were refused (R249, R279) -/

theorem State.modGroup_congr {p q : Group → Group} (h : p (s.group g) = q (s.group g)) : s.modGroup g p = s.modGroup g q :=
  congrArg (fun x => { s with col := { s.col with groups := vset s.col.groups g x } }) h

section
variable {k : Collective} (hcols : (s.group g).cols = [k]) (hending : k.ending = none)
include hcols hending

theorem State.colEnd_of_one {st : Byte} :
    s.colEnd g k.num st = s.modGroup g fun q => { q with cols := [{ k with ending := some st, hold := [] }] } := by
  refine State.modGroup_congr ?_
  rw [hcols]
  simp [hending]

variable (haccepted : k.accepted = true)
include haccepted

theorem State.find_inProgress_of_one : (s.group g).cols.find? (fun k => k.accepted && k.ending.isNone) = some k := by
  rw [hcols]
  simp [hending, haccepted]

theorem State.staleFlit_of_one : s.staleFlit g =
    ({ s with col := { s.col with staleCnt := satInc s.col.staleCnt } }.modGroup g fun q =>
      { q with cols := [{ k with ending := some stStale, hold := [] }] }).raiseBeacon bcStale := by
  have hfound := State.find_inProgress_of_one (s := { s with col := { s.col with staleCnt := satInc s.col.staleCnt } }) (g := g) hcols
    hending haccepted
  have hended := State.colEnd_of_one (s := { s with col := { s.col with staleCnt := satInc s.col.staleCnt } }) (g := g) (st := stStale)
    hcols hending
  unfold State.staleFlit
  dsimp only
  rw [hfound]
  dsimp only
  rw [hended]

end

/-- The group that sent a refused flit by BE. -/
def State.staleGroup (s : State) (seq : Word) : Option GroupId :=
  (List.finRange 64).find? fun g => (s.group g).state == 1 && (s.group g).tx.toList.any fun y => y.be.any fun b => b.1 == seq

section
variable {seq : Word}

theorem State.staleReceive_of_one {k : Collective} (hgroup : s.staleGroup seq = some g) (hcols : (s.group g).cols = [k])
    (haccepted : k.accepted = true) (hending : k.ending = none) : s.staleReceive seq =
      s.modGroup g fun q => { q with cols := [{ k with ending := some stStale, hold := [] }] } := by
  unfold State.staleGroup at hgroup
  unfold State.staleReceive
  rw [hgroup]
  dsimp only
  rw [State.find_inProgress_of_one hcols hending haccepted]
  exact State.colEnd_of_one hcols hending

theorem State.staleReceive_of_inactive (h : ∀ g, (s.group g).state ≠ 1) : s.staleReceive seq = s := by
  have hnone : s.staleGroup seq = none := List.find?_eq_none.2 fun g _ => by
    rw [beq_eq_false_iff_ne.2 (h g), Bool.false_and]
    exact Bool.false_ne_true
  unfold State.staleGroup at hnone
  unfold State.staleReceive
  rw [hnone]

end

/-! ## BE_HOLD_EXPIRY (R252; log entry 79) -/

theorem eq_nil_of_longestWait {q : List (Nat × Flit)} (h : longestWait q = none) : q = [] := by
  cases q with
  | nil => rfl
  | cons e r =>
    rw [longestWait] at h
    split at h <;> exact absurd h (Option.some_ne_none _)

theorem mem_of_longestWait {q : List (Nat × Flit)} {f : Nat × Flit} (h : longestWait q = some f) : f ∈ q ∧ ∀ e ∈ q, f.1 ≤ e.1 := by
  induction q generalizing f with
  | nil => exact absurd h.symm (Option.some_ne_none f)
  | cons e r ih =>
    rw [longestWait] at h
    split at h
    · next g hrest =>
      obtain ⟨hmem, hleast⟩ := ih hrest
      obtain rfl := Option.some.inj h
      by_cases hlt : g.1 < e.1
      · rw [if_pos hlt]
        exact ⟨List.mem_cons_of_mem _ hmem, List.forall_mem_cons.2 ⟨hlt.le, hleast⟩⟩
      · rw [if_neg hlt]
        exact ⟨List.mem_cons_self, List.forall_mem_cons.2 ⟨le_rfl, fun x hx => (Nat.le_of_not_lt hlt).trans (hleast x hx)⟩⟩
    · next hrest =>
      obtain rfl := Option.some.inj h
      rw [eq_nil_of_longestWait hrest]
      simp

/-- The flits that wait for a link, but for STALE ones. -/
def State.mayExpire (s : State) : List (Nat × Flit) := s.lnk.waiting.filter fun f => Flit.kind f.2 != fkStale

theorem State.holdExpiry_of_noneWaiting (h : s.mayExpire = []) : s.holdExpiry none = s := by
  unfold State.mayExpire at h
  unfold State.holdExpiry
  dsimp only
  rw [h]
  rfl

theorem State.holdExpiry_of_waiting {f : Nat × Flit} (h : longestWait s.mayExpire = some f) :
    s.holdExpiry none = { s with lnk := { s.lnk with waiting := s.lnk.waiting.erase f } }.dropBe 1 := by
  unfold State.mayExpire at h
  unfold State.holdExpiry
  dsimp only
  rw [h]

/-- The flits in a link's queues. -/
def Link.inQueues (k : Link) : List (Nat × Flit) := k.queues.toList.flatMap id

theorem Link.mem_inQueues {k : Link} {f : Nat × Flit} : f ∈ k.inQueues ↔ ∃ i, f ∈ vget k.queues i := by
  simp only [Link.inQueues, List.mem_flatMap, Vector.mem_toList_iff, Vector.mem_iff_getElem, id]
  constructor
  · rintro ⟨_, ⟨i, hi, rfl⟩, h⟩
    exact ⟨⟨i, hi⟩, h⟩
  · rintro ⟨i, h⟩
    exact ⟨_, ⟨i.val, i.isLt, rfl⟩, h⟩

theorem State.holdExpiry_of_noneQueued (h : ∀ i, vget (s.link l).queues i = []) : s.holdExpiry (some l) = s := by
  have hnone : (s.link l).inQueues = [] := List.eq_nil_iff_forall_not_mem.2 fun f hf => by
    obtain ⟨i, hi⟩ := Link.mem_inQueues.1 hf
    simp [h i] at hi
  unfold Link.inQueues at hnone
  unfold State.holdExpiry
  dsimp only
  rw [hnone]
  rfl

theorem State.holdExpiry_of_queued {f : Nat × Flit} (h : longestWait (s.link l).inQueues = some f) : ∃ i, f ∈ vget (s.link l).queues i ∧
    s.holdExpiry (some l) = (s.modLink l fun k => { k with queues := vmod k.queues i (·.erase f) }).dropBe 1 := by
  obtain ⟨j, hj⟩ := Link.mem_inQueues.1 (mem_of_longestWait h).1
  obtain ⟨i, hi⟩ : ∃ i, (List.finRange 4).find? (fun i => (vget (s.link l).queues i).contains f) = some i := by
    rw [← Option.isSome_iff_exists, List.find?_isSome]
    exact ⟨j, List.mem_finRange j, List.contains_iff_mem.2 hj⟩
  refine ⟨i, List.contains_iff_mem.1 (List.find?_some hi :), ?_⟩
  unfold Link.inQueues at h
  unfold State.holdExpiry
  dsimp only
  rw [h]
  dsimp only
  rw [hi]

/-! ## STREAM_ACK (R278; log entry 80) -/

section
variable {y : StreamTx} {n q : Word} {missing : BitVec 64}

/-- An acknowledgement of `n` releases `q`: the same collective and kind, not past `n`. -/
def ReleasedBy (n q : Word) : Prop := q.toNat / 2 ^ 23 = n.toNat / 2 ^ 23 ∧ q.toNat ≤ n.toNat

theorem StreamTx.mem_acked_kept : f ∈ (y.acked n missing).kept ↔ f ∈ y.kept ∧ ¬ ReleasedBy n f.seq := by
  simp [StreamTx.acked, ReleasedBy, imp_iff_not_or]

/-- The unreleased flits an acknowledgement reports missing. -/
def StreamTx.reported (y : StreamTx) (n : Word) (missing : BitVec 64) : List Word :=
  ((y.acked n missing).kept.map Flit.seq).filter fun q => (q - n - 1).toNat < 64 && missing.getLsbD (q - n - 1).toNat

theorem StreamTx.mem_reported : q ∈ y.reported n missing ↔
    ∃ f ∈ (y.acked n missing).kept, f.seq = q ∧ (q - n - 1).toNat < 64 ∧ missing.getLsbD (q - n - 1).toNat = true := by
  simp only [StreamTx.reported, List.mem_filter, List.mem_map, Bool.and_eq_true, decide_eq_true_eq]
  exact ⟨fun ⟨⟨f, hkept, hseq⟩, hreported⟩ => ⟨f, hkept, hseq, hreported⟩,
    fun ⟨f, hkept, hseq, hreported⟩ => ⟨⟨f, hkept, hseq⟩, hreported⟩⟩

theorem StreamTx.acked_again : (y.acked n missing).again =
    (y.again.filter fun q => !(q.toNat / 2 ^ 23 == n.toNat / 2 ^ 23 && q.toNat ≤ n.toNat)) ++
      (y.reported n missing).filter fun q => !y.again.contains q := rfl

/-- A flit reported missing that is to be sent again already is listed once, and no released one is. -/
theorem StreamTx.mem_acked_again : q ∈ (y.acked n missing).again ↔
    (q ∈ y.again ∧ ¬ ReleasedBy n q) ∨
      ∃ f ∈ (y.acked n missing).kept, f.seq = q ∧ (q - n - 1).toNat < 64 ∧ missing.getLsbD (q - n - 1).toNat = true := by
  have hagain : q ∈ (y.acked n missing).again ↔ (q ∈ y.again ∧ ¬ ReleasedBy n q) ∨ (q ∈ y.reported n missing ∧ q ∉ y.again) := by
    simp [StreamTx.acked_again, ReleasedBy, imp_iff_not_or]
  rw [hagain, ← StreamTx.mem_reported]
  refine ⟨Or.imp_right And.left, ?_⟩
  rintro (h | hreported)
  · exact .inl h
  · by_cases hold : q ∈ y.again
    · obtain ⟨f, hkept, rfl, -⟩ := StreamTx.mem_reported.1 hreported
      exact .inl ⟨hold, (StreamTx.mem_acked_kept.1 hkept).2⟩
    · exact .inr ⟨hreported, hold⟩

end

theorem State.streamAck_of_free {d : Nat} {n : Word} {missing : BitVec 64} (h : (s.group g).state = 0) :
    s.streamAck g d n missing = s := if_pos (beq_iff_eq.2 h)

theorem State.streamAck_of_live {d : Nat} {n : Word} {missing : BitVec 64} (h : (s.group g).state ≠ 0) :
    s.streamAck g d n missing = s.modGroup g fun q => { q with tx := vmod q.tx (dirFin d) (·.acked n missing) } :=
  if_neg (mt beq_iff_eq.1 h)

end

/-- Settles O40: a clause is one outcome of a flit that arrives, of a stream's take, of a hold that expires or of an acknowledgement. -/
theorem flitsDeliverForwardOrDrop : Obligations.FlitsDeliverForwardOrDrop := by
  unfold Obligations.FlitsDeliverForwardOrDrop
  simp only [exec_beFlitReceive, exec_schedFlitReceive, exec_staleFlitReceive, exec_beHoldExpiry, exec_streamAck]
  refine ⟨fun s l f husable hready => ⟨?foreign, ?spent, ?forwarded, ?waits, ?refused, ?delivered⟩, fun s l f bad h => ?closed,
    fun s l f husable hready => ⟨?bad, ?schedStale, ?schedInactive, ?schedOld, ?schedTaken⟩, fun r key n held hgot hnone hroom => ?take,
    fun s g k hcols haccepted hending => State.staleFlit_of_one hcols hending haccepted,
    fun s l f t g k husable hready hslice htopo hdir => ⟨?staleEnds, ?staleIdle⟩, fun q f => ⟨eq_nil_of_longestWait, mem_of_longestWait⟩,
    fun s => ⟨?noneWaiting, ?waiting, ?noneQueued, ?queued⟩, fun s g d n missing => ⟨?ackFree, ?ackLive⟩⟩
  case foreign =>
    exact fun hslice => ⟨congrArg _ (State.hopReceive_of_foreign husable hready hslice),
      congrArg _ (State.hopReceive_of_foreign husable hready hslice)⟩
  case spent =>
    exact fun t hslice htopo hdir hhops => ⟨congrArg _ (State.hopReceive_of_spent husable hready hslice htopo hdir hhops),
      congrArg _ (State.hopReceive_of_spent husable hready hslice htopo hdir hhops)⟩
  case forwarded =>
    intro t m hslice htopo hdir hhops hlink
    rw [State.beReceive, State.staleArrive, State.hopReceive_of_forwarded husable hready hslice htopo hdir hhops,
      State.hopReceive_of_forwarded husable hready hslice htopo hdir hhops]
    exact ⟨congrArg _ (State.queueBe_of_link htopo hlink), congrArg _ (State.queueStale_of_link htopo hlink)⟩
  case waits =>
    intro t hslice htopo hdir hhops hlink
    rw [State.beReceive, State.staleArrive, State.hopReceive_of_forwarded husable hready hslice htopo hdir hhops,
      State.hopReceive_of_forwarded husable hready hslice htopo hdir hhops]
    exact ⟨congrArg _ (State.queueBe_of_none htopo hlink), congrArg _ (State.queueStale_of_none htopo hlink)⟩
  case refused =>
    intro t hslice htopo hdir hgen
    rw [State.beReceive, State.hopReceive_of_arrived husable hready hslice htopo hdir, State.beDeliver_of_stale hgen]
    refine ⟨fun hplain => congrArg _ (if_pos (State.streamDir_of_none hplain)), fun hcls hsource => congrArg _ (if_neg ?_)⟩
    rwa [State.streamDir_of_stream hcls]
  case delivered =>
    intro t hslice htopo hdir hgen
    rw [State.beReceive, State.hopReceive_of_arrived husable hready hslice htopo hdir]
    refine ⟨fun hplain => congrArg _ (State.beDeliver_of_plain hgen (State.streamDir_of_none hplain)), fun d hcls hsource => ?_⟩
    rw [State.beDeliver_of_stream hgen ((State.streamDir_of_stream hcls).trans hsource)]
    exact ⟨fun h => congrArg _ (State.streamFlit_of_inactive h), fun h hold => congrArg _ (State.streamFlit_of_stale h hold),
      fun h hcurrent => congrArg _ (State.streamFlit_of_current h hcurrent)⟩
  case closed =>
    exact ⟨congrArg _ (State.hopReceive_of_closed h), congrArg _ (State.schedReceive_of_closed (.inl h)),
      congrArg _ (State.hopReceive_of_closed h)⟩
  case bad => exact congrArg _ (State.schedReceive_of_closed (.inr rfl))
  case schedStale => exact fun hgen => congrArg _ (State.schedReceive_of_stale husable hready hgen)
  case schedInactive =>
    exact fun hgen h => congrArg _ ((State.schedReceive_of_fresh husable hready hgen).trans (State.streamFlit_of_inactive h))
  case schedOld =>
    exact fun hgen h hold => congrArg _ ((State.schedReceive_of_fresh husable hready hgen).trans (State.streamFlit_of_stale h hold))
  case schedTaken =>
    exact fun n hgen h hcurrent hnum => congrArg _ ((State.schedReceive_of_fresh husable hready hgen).trans
      ((State.streamFlit_of_current h hcurrent).trans (State.streamTake_of_num hnum)))
  case take =>
    exact ⟨StreamRx.take_next hgot hnone, fun j hpos hnear => StreamRx.take_ahead hgot hnone hpos hnear,
      fun i hold => StreamRx.take_duplicate hgot hroom hold⟩
  case staleEnds =>
    exact fun hgroup hcols haccepted hending => congrArg _ ((State.hopReceive_of_arrived husable hready hslice htopo hdir).trans
      (State.staleReceive_of_one hgroup hcols haccepted hending))
  case staleIdle =>
    exact fun h => congrArg _ ((State.hopReceive_of_arrived husable hready hslice htopo hdir).trans (State.staleReceive_of_inactive h))
  case noneWaiting => exact fun h => congrArg _ (State.holdExpiry_of_noneWaiting h)
  case waiting => exact fun f h => congrArg _ (State.holdExpiry_of_waiting h)
  case noneQueued => exact fun l h => congrArg _ (State.holdExpiry_of_noneQueued h)
  case queued =>
    intro l f h
    obtain ⟨i, hmem, hdrop⟩ := State.holdExpiry_of_queued h
    exact ⟨i, hmem, congrArg _ hdrop⟩
  case ackFree => exact fun h => congrArg _ (State.streamAck_of_free h)
  case ackLive =>
    intro h
    rw [State.streamAck_of_live h]
    refine ⟨_, rfl, rfl, fun g' hg' => State.group_modGroup_other _ _ _ _ hg', ?_⟩
    rw [State.group_modGroup_same]
    dsimp only
    rw [vget_vmod_same]
    exact ⟨rfl, fun f => StreamTx.mem_acked_kept, fun q => StreamTx.mem_acked_again⟩

end Sys2Proof.Machine

/-! The abort beacon: how it ends the slice, which links it leaves by, and when a received one is acted on (10_collectives.md R288, R289;
05_commands.md R150, R151). -/

namespace Sys2Proof.Machine

section
variable {s : State} {l m : LinkId} {p : List Byte}

/-! ## The commands -/

theorem exec_abort : exec .abort s = .next (s.raiseBeacon bcSoftware) := rfl
theorem exec_beaconReceive : exec (.beaconReceive l p) s = .next (s.beaconReceive l p) := rfl

/-! ## What an abort ends (R150, R288) -/

section
variable {g : Group} {k : Collective} {st : Byte}

theorem Group.ending_of_mem_endAll (h : k ∈ (g.endAll st).cols) : k.ending ≠ none := by
  obtain ⟨j, -, rfl⟩ := List.mem_map.1 h
  split
  · next hended => exact Option.isSome_iff_ne_none.1 hended
  · exact Option.some_ne_none st

/-- A group after an abort: a free one stays free. -/
def Group.aborted (g : Group) : Group := if g.state == 0 then g else { g.endAll stAborted with state := 2 }

theorem Group.aborted_of_free (h : g.state = 0) : g.aborted = g := if_pos (beq_iff_eq.2 h)

theorem Group.aborted_of_live (h : g.state ≠ 0) : g.aborted = { g.endAll stAborted with state := 2 } := if_neg (mt beq_iff_eq.1 h)

end

section
variable {k : Cmd}

theorem Cmd.abort_of_ended (h : k.ending ≠ none) : k.abort = k := if_pos (by simp [Option.isSome_iff_ne_none, h])

theorem Cmd.abort_of_stopped (h : k.ending = none) (huses : k.phase = .fetched ∨ k.usesField = true) :
    k.abort = { k with ending := some stAborted, killing := none, endIdx := k.stopIdx } := by
  refine if_neg ?_
  rcases huses with huses | huses <;> simp [h, huses, Cmd.dispatched]

/-- A dispatched HOIST or MARKER command or table operation runs on (R151). -/
theorem Cmd.abort_of_spared (hphase : k.phase ≠ .fetched) (hoff : k.usesField = false) : k.abort = k :=
  if_pos (by simp [hphase, hoff, Cmd.dispatched])

theorem Cmd.stopIdx_of_fetched (h : k.phase = .fetched) : k.stopIdx = noOp := if_neg (by simp [h, Cmd.dispatched])

end

/-- A context bound to the slice after an abort. -/
def Context.aborted (x : Context) : Context := { x with stop := true, cmds := x.cmds.map Cmd.abort }

/-- The slice aborted, before readiness is judged again. -/
def State.aborted (s : State) : State :=
  { s with
    col.groups := s.col.groups.map Group.aborted
    ctxs := Vector.ofFn fun c => (vget s.ctxs c).map fun x => if s.col.bound.contains c.val then x.aborted else x }

theorem State.abortSlice_eq : s.abortSlice = s.aborted.settle := rfl

theorem State.group_aborted {g : GroupId} : s.aborted.group g = (s.group g).aborted := vget_map ..

theorem State.ctx?_aborted {c : CtxId} :
    s.aborted.ctx? c = (s.ctx? c).map fun x => if s.col.bound.contains c.val then x.aborted else x := vget_ofFn ..

theorem State.ctx?_aborted_of_bound {c : CtxId} {x : Context} (hx : s.ctx? c = some x) (h : s.col.bound.contains c.val = true) :
    s.aborted.ctx? c = some x.aborted := by
  rw [State.ctx?_aborted, hx, Option.map_some, if_pos h]

theorem State.ctx?_aborted_of_unbound {c : CtxId} (h : s.col.bound.contains c.val = false) : s.aborted.ctx? c = s.ctx? c := by
  rw [State.ctx?_aborted, h]
  exact Option.map_id'

/-! ## The links a beacon leaves by (R289) -/

section
variable {but : Option LinkId}

theorem beaconLink_iff {st : BitVec 4} : beaconLink st = true ↔ usableState st = true ∨ st = lsRetired := by
  simp [beaconLink]

theorem beaconLink_eq_false_iff {st : BitVec 4} : beaconLink st = false ↔ usableState st = false ∧ st ≠ lsRetired := by
  simp [beaconLink]

theorem carriesFlits_of_beaconLink {st : BitVec 4} (h : beaconLink st = true) : carriesFlits st = true := by
  rcases beaconLink_iff.1 h with h | h <;> simp [carriesFlits, discovers, h]

/-- A beacon flit to the partner of a link, of the sequence number `n`. -/
def State.beaconFlit (s : State) (p : List Byte) (l : LinkId) (n : Word) : Flit :=
  ({ s with lnk := { s.lnk with beSeq := n } } : State).linkFlit l fkBeacon p

/-- What a flood makes of a link: a beacon leaves it as the next codeword where it takes one. -/
def State.Flooded (s : State) (p : List Byte) (but : Option LinkId) (l : LinkId) (k : Link) : Prop :=
  (beaconLink (s.link l).state = true → some l ≠ but → ∃ n, k = (s.link l).emit (s.beaconFlit p l n)) ∧
    (beaconLink (s.link l).state = false ∨ some l = but → k = s.link l)

/-- The step of a flood at one link. -/
def State.floodLink (p : List Byte) (but : Option LinkId) (s : State) (l : LinkId) : State :=
  if beaconLink (s.link l).state && some l != but then s.sendNext l fkBeacon p else s

theorem State.floodBeacon_eq : s.floodBeacon p but = (List.finRange 24).foldl (State.floodLink p but) s := rfl

/-- A link made into `k`, the next flit of the module's own being number `n`. -/
def State.withLink (s : State) (l : LinkId) (k : Link) (n : Word) : State :=
  { s.modLink l (fun _ => k) with lnk := { (s.modLink l fun _ => k).lnk with beSeq := n } }

theorem State.link_withLink_same {k : Link} {n : Word} : (s.withLink l k n).link l = k := State.link_modLink_same ..

theorem State.link_withLink_other {k : Link} {n : Word} (h : m ≠ l) : (s.withLink l k n).link m = s.link m :=
  State.link_modLink_other _ _ _ _ h

theorem State.withLink_self : s.withLink l (s.link l) s.lnk.beSeq = s :=
  (congrArg (fun u : State => { u with lnk := { u.lnk with beSeq := s.lnk.beSeq } }) State.modLink_self :)

/-- What a flood makes of a link is judged by that link alone. -/
theorem State.flooded_of_withLink {k k' : Link} {n : Word} (hm : m ≠ l) (h : (s.withLink l k n).Flooded p but m k') :
    s.Flooded p but m k' := by
  have hflit : ∀ i, (s.withLink l k n).beaconFlit p m i = s.beaconFlit p m i := fun i => by
    have hlink : (({ s.withLink l k n with lnk := { (s.withLink l k n).lnk with beSeq := i } } : State).link m).partnerGen =
      (s.link m).partnerGen := congrArg Link.partnerGen (State.link_withLink_other hm)
    unfold State.beaconFlit State.linkFlit
    rw [hlink]
    rfl
  simpa only [State.Flooded, State.link_withLink_other hm, hflit] using h

theorem State.floodLink_floods : ∃ k n, s.floodLink p but l = s.withLink l k n ∧ s.Flooded p but l k := by
  by_cases h : beaconLink (s.link l).state = true ∧ some l ≠ but
  · refine ⟨(s.link l).emit (s.beaconFlit p l s.lnk.beSeq), s.lnk.beSeq + 1, ?_, fun _ _ => ⟨_, rfl⟩, fun hnot => ?_⟩
    · rw [State.floodLink, if_pos (by simpa using h), State.sendNext, if_pos (carriesFlits_of_beaconLink h.1)]
      rfl
    · exact absurd hnot (by simpa using h)
  · refine ⟨s.link l, s.lnk.beSeq, ?_, fun hlink hbut => absurd ⟨hlink, hbut⟩ h, fun _ => rfl⟩
    rw [State.floodLink, if_neg (by simpa using h), State.withLink_self]

theorem State.foldl_floodLink {ls : List LinkId} (hnodup : ls.Nodup) : ∃ (v : Vector Link 24) (n : Word),
    ls.foldl (State.floodLink p but) s = { s with lnk := { s.lnk with links := v, beSeq := n } } ∧
      ∀ m, (m ∈ ls → s.Flooded p but m (vget v m)) ∧ (m ∉ ls → vget v m = s.link m) := by
  induction ls generalizing s with
  | nil => exact ⟨s.lnk.links, s.lnk.beSeq, rfl, fun m => ⟨fun hm => absurd hm List.not_mem_nil, fun _ => rfl⟩⟩
  | cons l ls ih =>
    obtain ⟨hfirst, hrest⟩ := List.nodup_cons.1 hnodup
    obtain ⟨k, i, hstep, hflooded⟩ := State.floodLink_floods (s := s) (l := l) (p := p) (but := but)
    obtain ⟨v, n, hfold, hlinks⟩ := ih (s := s.withLink l k i) hrest
    refine ⟨v, n, by rw [List.foldl_cons, hstep, hfold]; rfl, fun m => ?_⟩
    by_cases hm : m = l
    · subst hm
      have hown := (hlinks m).2 hfirst
      rw [State.link_withLink_same] at hown
      exact ⟨fun _ => hown ▸ hflooded, fun hnot => absurd List.mem_cons_self hnot⟩
    · refine ⟨fun hmem => State.flooded_of_withLink hm ((hlinks m).1 ((List.mem_cons.1 hmem).resolve_left hm)), fun hnot => ?_⟩
      exact ((hlinks m).2 fun hmem => hnot (List.mem_cons_of_mem _ hmem)).trans (State.link_withLink_other hm)

/-- A flood of beacons changes nothing but the links, each by its own flit. -/
theorem State.floodBeacon_floods :
    s.floodBeacon p but = { s with lnk := (s.floodBeacon p but).lnk } ∧ ∀ l, s.Flooded p but l ((s.floodBeacon p but).link l) := by
  obtain ⟨v, n, hfold, hlinks⟩ := State.foldl_floodLink (s := s) (p := p) (but := but) (List.nodup_finRange 24)
  rw [State.floodBeacon_eq, hfold]
  exact ⟨rfl, fun l => (hlinks l).1 (List.mem_finRange l)⟩

end

/-! ## A beacon acted on, and one received (R289) -/

/-- The BEACON event of an abort, and the beacon's identity remembered: `here` tells a beacon of this module's own. -/
theorem State.actBeacon_of_flood {u : State} {but : Option LinkId} {here : Bool} (h : s.floodBeacon p but = u) : u.actBeacon p here =
    { u.abortSlice with col := { u.abortSlice.col with known := (beaconId p :: s.col.known).take 32 } }.raise 0x46 0
      (leBytes 4 (b2n here) ++ List.replicate 12 0 ++ slice p 0 24) := by
  have hknown : (s.floodBeacon p but).col.known = s.col.known := (congrArg (fun t : State => t.col.known) State.floodBeacon_floods.1 :)
  rw [State.actBeacon, ← hknown, h]

theorem State.beaconReceive_of_fresh (hlink : beaconLink (s.link l).state = true) (hready : (s.link l).awaited = none)
    (hnew : s.col.known.contains (beaconId p) = false) (hslice : fieldAt p 0 2 = s.lnk.sliceId.toNat)
    (hyoung : s.ht ≤ fieldAt p 0x10 8 + 1000000) : s.beaconReceive l p =
      ({ s with col := { s.col with beaconRx := satInc s.col.beaconRx } }.floodBeacon p (some l)).actBeacon p false := by
  have hkept : ¬ (!beaconLink (s.link l).state || (s.link l).discards || s.col.known.contains (beaconId p) ||
      fieldAt p 0 2 != s.lnk.sliceId.toNat || fieldAt p 0x10 8 + 1000000 < s.ht) = true := by
    rw [hlink, hnew, hslice, Link.discards, hready, decide_eq_false hyoung.not_gt, bne_self_eq_false]
    decide
  exact if_neg hkept

theorem State.beaconReceive_of_dropped
    (h : beaconLink (s.link l).state = false ∨ (s.link l).awaited ≠ none ∨ s.col.known.contains (beaconId p) = true ∨
      fieldAt p 0 2 ≠ s.lnk.sliceId.toNat ∨ fieldAt p 0x10 8 + 1000000 < s.ht) : s.beaconReceive l p = s := by
  refine if_pos ?_
  simpa only [Bool.or_eq_true, Bool.not_eq_true', Link.discards, Option.isSome_iff_ne_none, bne_iff_ne, decide_eq_true_eq, or_assoc]
    using h

end

/-- Settles O41: the slice aborts group by group and command by command, a beacon leaves by every link that takes one, and a received
one is either acted on or dropped. -/
theorem abortEndsTheSlice : Obligations.AbortEndsTheSlice := by
  unfold Obligations.AbortEndsTheSlice
  refine ⟨fun s => ⟨s.aborted, State.abortSlice_eq, ?live, ?free, ?bound, ?unbound, rfl⟩, fun k => ⟨Cmd.abort_of_ended,
    Cmd.abort_of_stopped, fun _ => Cmd.abort_of_spared, Cmd.stopIdx_of_fetched⟩, ?flood, ?software, ?fresh, ?dropped⟩
  case live =>
    intro g h
    rw [State.group_aborted, Group.aborted_of_live h]
    exact ⟨rfl, fun k => Group.ending_of_mem_endAll⟩
  case free =>
    intro g h
    rw [State.group_aborted, Group.aborted_of_free h]
  case bound => exact fun c x => State.ctx?_aborted_of_bound
  case unbound => exact fun c => State.ctx?_aborted_of_unbound
  case flood =>
    intro s p but
    obtain ⟨hframe, hlinks⟩ := State.floodBeacon_floods (s := s) (p := p) (but := but)
    refine ⟨hframe, fun l => ⟨fun hlink => (hlinks l).1 (beaconLink_iff.2 hlink), fun hnot => ?_⟩⟩
    exact (hlinks l).2 (hnot.imp_left beaconLink_eq_false_iff.2)
  case software =>
    intro s p u
    have hflood : State.floodBeacon { s with col := { s.col with beaconTx := satInc s.col.beaconTx } } p none = u := rfl
    have hraised : s.raiseBeacon bcSoftware = u.actBeacon p true := rfl
    rw [exec_abort, hraised, State.actBeacon_of_flood hflood]
    rfl
  case fresh =>
    intro s l p hlink hready hnew hslice hyoung u
    have hflood : State.floodBeacon { s with col := { s.col with beaconRx := satInc s.col.beaconRx } } p (some l) = u := rfl
    rw [exec_beaconReceive, State.beaconReceive_of_fresh (beaconLink_iff.2 hlink) hready hnew hslice hyoung, hflood,
      State.actBeacon_of_flood hflood]
    rfl
  case dropped =>
    exact fun s l p h => exec_beaconReceive.trans (congrArg _ (State.beaconReceive_of_dropped (h.imp_left beaconLink_eq_false_iff.2)))

end Sys2Proof.Machine

/-! GROUP_LAUNCH, GROUP_END and GROUP_READ, the launch doorbell and the ring head (10_collectives.md R263 to R265, R271, R287, R292). -/

namespace Sys2Proof.Machine

section
variable {s : State} {g h : GroupId}

/-! ## The commands -/

theorem exec_groupLaunch : exec .groupLaunch s = .next s.groupLaunch := rfl
theorem exec_groupEnd : exec .groupEnd s = .next s.groupEnd := rfl
theorem exec_groupRead : exec .groupRead s = .next s.groupRead := rfl
theorem exec_colGLdb {v : Word} : exec (.colGLdb g v) s = .next (s.launchDoorbell g v) := rfl
theorem exec_colGCheadWrite {v : Word} : exec (.colGCheadWrite g v) s = .next (s.colHead g v) := rfl

/-! ## Scratch pages (R264) -/

theorem State.takeFrame_frame {die : Option Nat} {fn : FnId} {use : FrameUse} {f : Nat} {u : State}
    (h : s.takeFrame die fn use = some (f, u)) : u = { s with frames := u.frames, mem := u.mem } := by
  unfold State.takeFrame at h
  split at h
  · obtain ⟨f', -, hclaim⟩ := Option.map_eq_some_iff.1 h
    obtain ⟨-, rfl⟩ := Prod.mk.inj hclaim
    rfl
  · exact absurd h.symm (Option.some_ne_none _)

theorem State.takeScratch_takes {fn : FnId} {n : Nat} {fs : List Nat} {u : State} (h : s.takeScratch fn n = some (fs, u)) :
    fs.length = n ∧ u = { s with frames := u.frames, mem := u.mem } := by
  induction n generalizing s fs with
  | zero =>
    obtain ⟨rfl, rfl⟩ := Prod.mk.inj (Option.some.inj h)
    exact ⟨rfl, rfl⟩
  | succ n ih =>
    obtain ⟨⟨f, v⟩, hfirst, hrest⟩ := Option.bind_eq_some_iff.1 h
    obtain ⟨⟨fs', u'⟩, htaken, hall⟩ := Option.map_eq_some_iff.1 hrest
    obtain ⟨rfl, rfl⟩ := Prod.mk.inj hall
    obtain ⟨hlength, hframe⟩ := ih htaken
    refine ⟨congrArg (· + 1) hlength, hframe.trans ?_⟩
    exact congrArg (fun w : State => { w with frames := u'.frames, mem := u'.mem }) (State.takeFrame_frame hfirst)

/-! ## GROUP_LAUNCH (R263, R264) -/

/-- The lowest group that is free. -/
def State.freeGroup (s : State) : Option GroupId := (List.finRange 64).find? fun g => (s.group g).state == 0

theorem State.freeGroup_of_none (h : ∀ g, (s.group g).state ≠ 0) : s.freeGroup = none :=
  List.find?_eq_none.2 fun g _ => mt beq_iff_eq.1 (h g)

theorem State.freeGroup_of_free (h : (s.group g).state = 0) : ∃ g', s.freeGroup = some g' :=
  Option.isSome_iff_exists.1 (List.find?_isSome.2 ⟨g, List.mem_finRange g, beq_iff_eq.2 h⟩)

theorem State.freeGroup_of_lowest (hfree : (s.group g).state = 0) (hlow : ∀ h < g, (s.group h).state ≠ 0) : s.freeGroup = some g := by
  refine List.find?_eq_some_iff_getElem.2 ⟨beq_iff_eq.2 hfree, g.val, by simp, by simp, fun j hj => ?_⟩
  have hlower : (List.finRange 64)[j]'(by simp; omega) < g := by simpa [Fin.lt_def] using hj
  simpa using hlow _ hlower

/-- The group that a launch makes. -/
def State.launched (s : State) (a : List Byte) (c : CtxId) (x : Context) (t : Topo) (p : PlanImage) (fs : List Nat) : Group :=
  { groupReset with
    state := 1, ctx := BitVec.ofNat 8 c.val, scratch := fs, args := a, rank := boxRank t a, det := x.det
    fabric := p.fabric, beStart := p.beStart, total := p.total, plans := p.plans
    gens := Vector.ofFn fun d => if (boxDirs t a).contains d.val then (s.dirGen d.val).getD 0 else 0 }

/-- A context is bound to the slice. -/
def State.bindCtx (s : State) (c : CtxId) : State :=
  { s with col := { s.col with bound := if s.col.bound.contains c.val then s.col.bound else s.col.bound ++ [c.val] } }

section
variable {a : List Byte} {c : CtxId}
variable (hrun : s.Serves 0x80) (ha : slice s.mbxBytes 0 64 = a) (hc : ctxOf (fieldAt a 0 1) = c)
include hrun ha hc

theorem State.groupLaunch_of_noBase (h : s.ctx? c = none ∨ s.lnk.topo = none) : s.groupLaunch = s.mbxEnd stOk [8, 0, 0, 0] := by
  simp only [State.groupLaunch, hrun.mbxRun, ha, hc]
  split
  · next hx ht => rcases h with h | h <;> simp [h] at hx ht
  · rfl

variable {x : Context} {t : Topo} (hx : s.ctx? c = some x) (ht : s.lnk.topo = some t)
include hx ht

theorem State.groupLaunch_of_badArgs (h : s.launchBad a x t = true) : s.groupLaunch = s.mbxEnd stOk [8, 0, 0, 0] := by
  simp only [State.groupLaunch, hrun.mbxRun, ha, hc, hx, ht, h, if_true]
  rfl

variable (hgood : s.launchBad a x t = false)
include hgood

theorem State.groupLaunch_of_badImage (h : s.planImage x t a = none) : s.groupLaunch = s.mbxEnd stOk [8, 0, 0, 0] := by
  simp only [State.groupLaunch, hrun.mbxRun, ha, hc, hx, ht, hgood, h, Bool.false_eq_true, if_false]
  rfl

variable {p : PlanImage} (himage : s.planImage x t a = some p)
include himage

theorem State.groupLaunch_of_otherFabric (h : p.fabric ≠ s.profile.fabricEff) : s.groupLaunch = s.mbxEnd stOk [8, 0, 0, 0] := by
  simp only [State.groupLaunch, hrun.mbxRun, ha, hc, hx, ht, hgood, himage, bne_iff_ne, h, Bool.false_eq_true, if_false, if_true, ne_eq,
    not_false_eq_true]
  rfl

variable (hfabric : p.fabric = s.profile.fabricEff)
include hfabric

theorem State.groupLaunch_of_noGroup (h : s.freeGroup = none) : s.groupLaunch = s.mbxEnd stOk [4, 0, 0, 0] := by
  unfold State.freeGroup at h
  simp only [State.groupLaunch, hrun.mbxRun, ha, hc, hx, ht, hgood, himage, hfabric, h, bne_self_eq_false, Bool.false_eq_true, if_false]
  rfl

variable (hgroup : s.freeGroup = some g)
include hgroup

theorem State.groupLaunch_of_noEntries
    (h : s.planFree < p.total ∨ s.liveGroups.any (fun q => planConflict p.plans q.plans) = true) :
    s.groupLaunch = s.mbxEnd stOk [4, 0, 0, 0] := by
  have hfull : (decide (s.planFree < p.total) || s.liveGroups.any fun q => planConflict p.plans q.plans) = true := by simpa using h
  unfold State.freeGroup at hgroup
  simp only [State.groupLaunch, hrun.mbxRun, ha, hc, hx, ht, hgood, himage, hfabric, hgroup, hfull, bne_self_eq_false,
    Bool.false_eq_true, if_false, if_true]
  rfl

variable (hfits : p.total ≤ s.planFree) (hapart : s.liveGroups.any (fun q => planConflict p.plans q.plans) = false)
include hfits hapart

theorem State.groupLaunch_of_noScratch (h : s.takeScratch x.fn (fieldAt a 0x28 4) = none) :
    s.groupLaunch = s.mbxEnd stOk [4, 0, 0, 0] := by
  unfold State.freeGroup at hgroup
  simp only [State.groupLaunch, hrun.mbxRun, ha, hc, hx, ht, hgood, himage, hfabric, hgroup, h, hfits.not_gt, hapart, bne_self_eq_false,
    Bool.or_false, decide_false, Bool.false_eq_true, if_false]
  rfl

theorem State.groupLaunch_of_room {fs : List Nat} {u : State} (h : s.takeScratch x.fn (fieldAt a 0x28 4) = some (fs, u)) :
    s.groupLaunch = ((u.modGroup g fun _ => s.launched a c x t p fs).bindCtx c).mbxEnd stOk (leBytes 4 (g.val * 256)) := by
  have hframe := (State.takeScratch_takes h).2
  have hgens : u.dirGen = s.dirGen := by
    rw [hframe]
    rfl
  unfold State.freeGroup at hgroup
  simp only [State.groupLaunch, hrun.mbxRun, ha, hc, hx, ht, hgood, himage, hgroup, h, hfits.not_gt, hapart, bne_iff_ne, ne_eq, hfabric,
    not_true_eq_false, Bool.or_false, decide_false, Bool.false_eq_true, if_false, hgens, State.launched, State.bindCtx, State.mbxOk_eq]
  have hresult : stOk.toNat + g.val * 2 ^ 8 = g.val * 256 := Nat.zero_add _
  rw [hresult]
  rfl

end

/-! ## GROUP_END and GROUP_READ (R265, R292) -/

theorem groupOf_val : groupOf g.val = g := Fin.ofNat_val_eq_self g

theorem State.argReserved_of_group (h : s.mbxArg 0 = g.val) : s.argReserved 6 = false :=
  State.argReserved_eq_false (h ▸ g.isLt)

section
variable (hrun : s.Serves 0x81)
include hrun

theorem State.groupEnd_of_reserved (h : 64 ≤ s.mbxArg 0) : s.groupEnd = s.mbxEnd stOk [8, 0, 0, 0] := by
  rw [State.groupEnd, hrun.mbxRun, State.argReserved_eq_true (width := 6) h, Bool.true_or]
  rfl

variable (harg : s.mbxArg 0 = g.val)
include harg

theorem State.groupEnd_of_free (h : (s.group g).state = 0) : s.groupEnd = s.mbxEnd stOk [8, 0, 0, 0] := by
  rw [State.groupEnd, hrun.mbxRun, harg, groupOf_val, beq_iff_eq.2 h, Bool.or_true]
  rfl

theorem State.groupEnd_of_live (h : (s.group g).state ≠ 0) : s.groupEnd = (s.endGroup g).settle.mbxEnd stOk [0, 0, 0, 0] := by
  rw [State.groupEnd, hrun.mbxRun, State.argReserved_of_group harg, harg, groupOf_val, beq_eq_false_iff_ne.2 h]
  rfl

end

section
variable (hrun : s.Serves 0x82)
include hrun

theorem State.groupRead_of_reserved (h : 64 ≤ s.mbxArg 0) : s.groupRead = s.mbxEnd stBad [] := by
  rw [State.groupRead, hrun.mbxRun]
  dsimp only
  rw [State.argReserved_eq_true (width := 6) h, Bool.true_or]
  rfl

variable (harg : s.mbxArg 0 = g.val)
include harg

theorem State.groupRead_of_free (h : (s.group g).state = 0) : s.groupRead = s.mbxEnd stBad [] := by
  rw [State.groupRead, hrun.mbxRun, harg, groupOf_val]
  dsimp only
  rw [beq_iff_eq.2 h, Bool.or_true]
  rfl

theorem State.groupRead_of_live (h : (s.group g).state ≠ 0) : s.groupRead = s.mbxEnd stOk
    ((s.group g).args ++ ((s.group g).gens.toList.flatMap fun w => leBytes 4 w.toNat) ++ leBytes 8 (s.group g).done) := by
  rw [State.groupRead, hrun.mbxRun, State.argReserved_of_group harg, harg, groupOf_val]
  dsimp only
  rw [beq_eq_false_iff_ne.2 h]
  rfl

end

/-! ## The record of a collective (R287) -/

section
variable {k : Collective} {rest : List Collective} {st : Byte}

/-- The first collective of a group, ended with status `st`, has its record; `rest` follow it. -/
def State.recordedCol (s : State) (g : GroupId) (k : Collective) (rest : List Collective) (st : Byte) : State :=
  (((((s.hostWrite ((s.group g).crBase + 32 * ((s.group g).ctail.toNat % 64))
    (colRecord { k with endHt := s.ht } st (phaseOf (s.group g).ctail 64))).modGroup g fun q => { q with
      ctail := q.ctail + 1, done := q.done + 1, cols := rest, irqs := if k.irq then q.irqs ++ [q.ctail] else q.irqs }).modGroup g fun q =>
        q.closeStreams k.num.toNat).tallyHost (ctxOf (s.group g).ctx.toNat) 32).setTag (ctxOf (s.group g).ctx.toNat) k.tag (.done st))

theorem State.colFinish_of_noneEnded (h : ∀ k rest, (s.group g).cols = k :: rest → k.ending = none) : s.colFinish g = s := by
  unfold State.colFinish
  dsimp only
  split
  · rfl
  · next k rest hcols => rw [h k rest hcols]

section
variable (hcols : (s.group g).cols = k :: rest) (hending : k.ending = some st)
include hcols hending

theorem State.colFinish_of_mayNot (h : s.mayRequest 0 = false) : s.colFinish g = s := by
  unfold State.colFinish
  dsimp only
  rw [hcols]
  dsimp only
  rw [hending, h]
  rfl

theorem State.colFinish_of_mayRequest (h : s.mayRequest 0 = true) : s.colFinish g =
    if k.irq then (s.recordedCol g k rest st).irqEvent (256 + g.val) else s.recordedCol g k rest st := by
  unfold State.colFinish
  dsimp only
  rw [hcols]
  dsimp only
  rw [hending, h]
  rfl

end

theorem State.group_tallyHost {c : CtxId} {n : Nat} : (s.tallyHost c n).group h = s.group h :=
  congrArg (fun x : Col => vget x.groups h) (State.tallyHost_col s c n)

theorem State.group_irqEvent {src : Nat} : (s.irqEvent src).group h = s.group h :=
  congrArg (fun x : Col => vget x.groups h) (State.irqEvent_col s src)

theorem State.group_recordedCol_other (hh : h ≠ g) : (s.recordedCol g k rest st).group h = s.group h :=
  State.group_tallyHost.trans ((State.group_modGroup_other _ _ _ _ hh).trans (State.group_modGroup_other _ _ _ _ hh))

/-- A group's records leave every other group alone. -/
theorem State.group_colFinish_other (hh : h ≠ g) : (s.colFinish g).group h = s.group h := by
  by_cases hnone : ∀ k rest, (s.group g).cols = k :: rest → k.ending = none
  · rw [State.colFinish_of_noneEnded hnone]
  · push Not at hnone
    obtain ⟨k, rest, hcols, hended⟩ := hnone
    obtain ⟨st, hending⟩ := Option.ne_none_iff_exists'.1 hended
    cases hmay : s.mayRequest 0 with
    | false => rw [State.colFinish_of_mayNot hcols hending hmay]
    | true =>
      rw [State.colFinish_of_mayRequest hcols hending hmay]
      exact view_ite (State.group · h) (State.group_irqEvent.trans (State.group_recordedCol_other hh)) (State.group_recordedCol_other hh)

end

/-! ## The end of a group (R265) -/

theorem State.group_finishAll_other {st : Byte} (hh : h ≠ g) : (s.finishAll g st).group h = s.group h :=
  (foldl_view (State.group · h) (fun _ _ => State.group_colFinish_other hh) _ _).trans (State.group_modGroup_other _ _ _ _ hh)

theorem State.group_endGroup_same : (s.endGroup g).group g = groupReset := State.group_modGroup_same ..

theorem State.group_endGroup_other (hh : h ≠ g) : (s.endGroup g).group h = s.group h := by
  unfold State.endGroup
  dsimp only
  rw [State.group_modGroup_other _ _ _ _ hh]
  exact (foldl_view (f := State.releaseFrame) (State.group · h) (fun _ _ => rfl) _ _).trans (State.group_finishAll_other hh)

theorem State.modGroup_modGroup {p q : Group → Group} : (s.modGroup g p).modGroup g q = s.modGroup g fun x => q (p x) := by
  have hgroups : vmod (vmod s.col.groups g p) g q = vmod s.col.groups g fun x => q (p x) := by
    rw [vmod, vget_vmod_same]
    exact Vector.set_set ..
  exact congrArg (fun v => { s with col := { s.col with groups := v } }) hgroups

/-- A group without collectives or scratch ends at once. -/
theorem State.endGroup_of_empty (hcols : (s.group g).cols = []) (hscratch : (s.group g).scratch = []) :
    s.endGroup g = s.modGroup g fun _ => groupReset := by
  have hfinish : s.finishAll g stFenced = s.modGroup g fun q => q.endAll stFenced := by
    unfold State.finishAll
    dsimp only
    rw [State.group_modGroup_same, Group.endAll, hcols]
    rfl
  unfold State.endGroup
  rw [hfinish]
  dsimp only
  rw [State.group_modGroup_same, Group.endAll, hscratch, List.foldl_nil, State.modGroup_modGroup]

/-! ## The launch doorbell and the ring head (R271, R287) -/

section
variable {v : Word}

theorem headOk_iff {tail prev : Word} : headOk v tail prev = true ↔ (tail - v).toNat ≤ (tail - prev).toNat := decide_eq_true_iff

theorem State.launchDoorbell_of_free (h : (s.group g).state = 0) : s.launchDoorbell g v = s.regViol := if_pos (beq_iff_eq.2 h)

theorem State.colHead_of_free (h : (s.group g).state = 0) : s.colHead g v = s.regViol := if_pos (beq_iff_eq.2 h)

variable (hlive : (s.group g).state ≠ 0)
include hlive

theorem State.launchDoorbell_of_live : s.launchDoorbell g v =
    if doorbellOk v (s.group g).lhead (s.group g).ldb 64 then s.modGroup g fun q => { q with ldb := v }
    else { s with col := { s.col with dbBad := satInc s.col.dbBad } } := if_neg (mt beq_iff_eq.1 hlive)

theorem State.colHead_of_live : s.colHead g v =
    if headOk v (s.group g).ctail (s.group g).chead then
      s.modGroup g fun q => { q with chead := v, irqs := unconsumed q.irqs v q.ctail }
    else { s with col := { s.col with dbBad := satInc s.col.dbBad } } := if_neg (mt beq_iff_eq.1 hlive)

theorem State.launchDoorbell_of_accepted (hhead : (v - (s.group g).lhead).toNat ≤ 64) (htail : (v - (s.group g).ldb).toNat ≤ 64) :
    s.launchDoorbell g v = s.modGroup g fun q => { q with ldb := v } := by
  rw [State.launchDoorbell_of_live hlive, if_pos (doorbellOk_iff.2 ⟨hhead, htail⟩)]

theorem State.launchDoorbell_of_refused (h : 64 < (v - (s.group g).lhead).toNat ∨ 64 < (v - (s.group g).ldb).toNat) :
    s.launchDoorbell g v = { s with col := { s.col with dbBad := satInc s.col.dbBad } } := by
  rw [State.launchDoorbell_of_live hlive, if_neg (by rw [doorbellOk_iff]; omega)]

theorem State.colHead_of_accepted (h : ((s.group g).ctail - v).toNat ≤ ((s.group g).ctail - (s.group g).chead).toNat) :
    s.colHead g v = s.modGroup g fun q => { q with chead := v, irqs := unconsumed q.irqs v q.ctail } := by
  rw [State.colHead_of_live hlive, if_pos (headOk_iff.2 h)]

theorem State.colHead_of_refused (h : ((s.group g).ctail - (s.group g).chead).toNat < ((s.group g).ctail - v).toNat) :
    s.colHead g v = { s with col := { s.col with dbBad := satInc s.col.dbBad } } := by
  rw [State.colHead_of_live hlive, if_neg (mt headOk_iff.1 h.not_ge)]

end

end

/-- Settles O42: a clause is one outcome of a launch, an end, a read, a doorbell or a head write. -/
theorem groupsLaunchAndEnd : Obligations.GroupsLaunchAndEnd := by
  unfold Obligations.GroupsLaunchAndEnd
  refine ⟨fun s hmbx hfenced hretired hcore => ?launch, fun s fn n fs u => State.takeScratch_takes,
    fun s hmbx hfenced hretired hcore => ?ends, fun s g => ⟨State.group_endGroup_same, fun h => State.group_endGroup_other⟩,
    fun s g => State.endGroup_of_empty, fun s hmbx hfenced hretired hcore => ?read, fun s g v => ?rings⟩
  case launch =>
    have hrun : s.Serves 0x80 := ⟨hmbx, hfenced, hretired, hcore⟩
    refine ⟨fun h => exec_groupLaunch.trans (congrArg _ (State.groupLaunch_of_noBase hrun rfl rfl h)), fun x t hx ht =>
      ⟨fun hbad => exec_groupLaunch.trans (congrArg _ ?bad), fun p hgood himage hfabric =>
        ⟨fun hall => exec_groupLaunch.trans (congrArg _ ?allTaken), fun g hfree hfull => exec_groupLaunch.trans (congrArg _ ?noRoom),
          fun g hfree hlow hfits hapart hscratch => ?room⟩⟩⟩
    case bad =>
      cases hargs : s.launchBad (slice s.mbxBytes 0 64) x t with
      | true => exact State.groupLaunch_of_badArgs hrun rfl rfl hx ht hargs
      | false =>
        rcases hbad with hbad | hbad | ⟨p, himage, hfabric⟩
        · exact absurd (hargs.symm.trans hbad) Bool.false_ne_true
        · exact State.groupLaunch_of_badImage hrun rfl rfl hx ht hargs hbad
        · exact State.groupLaunch_of_otherFabric hrun rfl rfl hx ht hargs himage hfabric
    case allTaken =>
      exact State.groupLaunch_of_noGroup hrun rfl rfl hx ht hgood himage hfabric (State.freeGroup_of_none hall)
    case noRoom =>
      obtain ⟨g', hgroup⟩ := State.freeGroup_of_free hfree
      by_cases hentries : s.planFree < p.total ∨ s.liveGroups.any (fun q => planConflict p.plans q.plans) = true
      · exact State.groupLaunch_of_noEntries hrun rfl rfl hx ht hgood himage hfabric hgroup hentries
      · obtain ⟨hfits, hapart⟩ := not_or.1 hentries
        exact State.groupLaunch_of_noScratch hrun rfl rfl hx ht hgood himage hfabric hgroup (Nat.le_of_not_lt hfits)
          (Bool.eq_false_iff.2 hapart) ((or_assoc.2 hfull).resolve_left hentries)
    case room =>
      obtain ⟨⟨fs, u⟩, htaken⟩ := Option.isSome_iff_exists.1 hscratch
      have hbound : u.col.bound = s.col.bound := (congrArg (fun v : State => v.col.bound) (State.takeScratch_takes htaken).2 :)
      refine ⟨fs, u, htaken, exec_groupLaunch.trans (congrArg _ ?_)⟩
      rw [← hbound]
      exact State.groupLaunch_of_room hrun rfl rfl hx ht hgood himage hfabric (State.freeGroup_of_lowest hfree hlow) hfits hapart htaken
  case ends =>
    have hrun : s.Serves 0x81 := ⟨hmbx, hfenced, hretired, hcore⟩
    exact ⟨fun h => exec_groupEnd.trans (congrArg _ (State.groupEnd_of_reserved hrun h)),
      fun g harg h => exec_groupEnd.trans (congrArg _ (State.groupEnd_of_free hrun harg h)),
      fun g harg h => exec_groupEnd.trans (congrArg _ (State.groupEnd_of_live hrun harg h))⟩
  case read =>
    have hrun : s.Serves 0x82 := ⟨hmbx, hfenced, hretired, hcore⟩
    exact ⟨fun h => exec_groupRead.trans (congrArg _ (State.groupRead_of_reserved hrun h)),
      fun g harg h => exec_groupRead.trans (congrArg _ (State.groupRead_of_free hrun harg h)),
      fun g harg h => exec_groupRead.trans (congrArg _ (State.groupRead_of_live hrun harg h))⟩
  case rings =>
    exact ⟨fun h => ⟨exec_colGLdb.trans (congrArg _ (State.launchDoorbell_of_free h)),
        exec_colGCheadWrite.trans (congrArg _ (State.colHead_of_free h))⟩,
      fun h hhead htail => exec_colGLdb.trans (congrArg _ (State.launchDoorbell_of_accepted h hhead htail)),
      fun h hpast => exec_colGLdb.trans (congrArg _ (State.launchDoorbell_of_refused h hpast)),
      fun h hle => exec_colGCheadWrite.trans (congrArg _ (State.colHead_of_accepted h hle)),
      fun h hgt => exec_colGCheadWrite.trans (congrArg _ (State.colHead_of_refused h hgt))⟩

end Sys2Proof.Machine

/-! Collectives from their fetch to their record: acceptance, the exchange of readiness entries, the start of a data phase, the
record, and the Canary (10_collectives.md R271, R275, R276, R287; 05_commands.md R141). -/

namespace Sys2Proof.Machine

section
variable {s : State} {g : GroupId} {k : Collective} {e : List Byte}

/-! ## The commands -/

theorem exec_collectiveAccept_of_eq {desc : List Byte} {t : State} (h : s.collectiveAccept g desc = t) :
    exec (.collectiveAccept g desc) s = .next t.settle := h ▸ rfl
theorem exec_readinessEntry {num : Byte} {d : BitVec 3} :
    exec (.readinessEntry g num d e) s = .next (s.readiness g num d.toNat e) := rfl
theorem exec_dataPhaseStart {sends : List (BitVec 3 × List Byte)} :
    exec (.dataPhaseStart g sends) s = .next (s.dataStart g sends) := rfl
theorem exec_collectiveComplete_of_eq {t : State} (h : s.colFinish g = t) :
    exec (.collectiveComplete g) s = .next t.settle := h ▸ rfl
theorem exec_collectiveCanaryExpiry : exec (.collectiveCanaryExpiry g) s = .next (s.colCanary g) := rfl

/-! ## Fetch (R271) -/

section
variable {c : CtxId} {x : Context} {desc : List Byte}

/-- The collective of a descriptor as it is fetched. -/
def Group.fetchedCol (q : Group) (desc : List Byte) : Collective :=
  { num := q.lhead, desc := slice desc 0 128, status := stOk, accepted := false, hold := [], entries := []
    start := none, ending := none, endHt := 0, sent := 0, lost := false }

/-- A descriptor taken from the launch ring: its TAG is PENDING, its bytes are counted, and LHEAD steps. -/
def State.fetching (s : State) (g : GroupId) (c : CtxId) (k : Collective) : State :=
  ((s.setTag c k.tag .pending).tallyHost c 128).modGroup g fun q => { q with lhead := q.lhead + 1 }

def State.addCol (s : State) (g : GroupId) (k : Collective) : State := s.modGroup g fun q => { q with cols := q.cols ++ [k] }

theorem State.isSome_ctx?_fetching {d : CtxId} : ((s.fetching g d k).ctx? c).isSome = (s.ctx? c).isSome :=
  State.isSome_ctx?_tallyHost.trans State.isSome_ctx?_modCtx

theorem State.startPageIns_of_none (h : (s.ctx? c).isSome = true) : s.startPageIns c [] = some s := by
  obtain ⟨x, hx⟩ := Option.isSome_iff_exists.1 h
  rw [State.startPageIns, hx]
  rfl

theorem State.mayLaunch_of (hlive : (s.group g).state ≠ 0) (hrung : (s.group g).lhead ≠ (s.group g).ldb)
    (hroom : ((s.group g).lhead - (s.group g).chead).toNat < 64) (hall : ∀ j ∈ (s.group g).cols, j.accepted = true)
    (hmay : s.mayRequest 0 = true) : s.mayLaunch (s.group g) = true := by
  simp only [State.mayLaunch, Bool.and_eq_true, bne_iff_ne, decide_eq_true_eq, List.all_eq_true]
  exact ⟨⟨⟨⟨hlive, hrung⟩, hroom⟩, hall⟩, hmay⟩

section
variable (hc : ctxOf (s.group g).ctx.toNat = c) (hx : s.ctx? c = some x) (hk : (s.group g).fetchedCol desc = k)
variable (hmay : s.mayLaunch (s.group g) = true)
include hc hx hk hmay

theorem State.colFetch_of_aborted (h : (s.group g).state = 2) :
    s.colFetch g desc = (s.fetching g c k).addCol g { k with accepted := true, ending := some stAborted } := by
  subst hc hk
  simp only [State.colFetch, hx, hmay, h]
  rfl

variable (hlive : (s.group g).state ≠ 2)
include hlive

theorem State.colFetch_of_failed (h : (s.fetching g c k).entryStatus x (s.group g) k ≠ stOk) : s.colFetch g desc =
    ((s.fetching g c k).addCol g { k with status := (s.fetching g c k).entryStatus x (s.group g) k }).colAccept g
      { k with status := (s.fetching g c k).entryStatus x (s.group g) k } := by
  subst hc hk
  unfold State.colFetch
  dsimp only
  rw [hx]
  dsimp only
  rw [hmay, if_neg (by decide), if_neg (mt beq_iff_eq.1 hlive)]
  exact if_pos (bne_iff_ne.2 h)

theorem State.colFetch_of_resident (h : (s.fetching g c k).entryStatus x (s.group g) k = stOk)
    (hres : x.notResident ((s.fetching g c k).colPages x (s.group g) k) = []) : s.colFetch g desc =
    ((s.fetching g c k).addCol g { k with hold := (s.fetching g c k).colPages x (s.group g) k }).colAccept g
      { k with hold := (s.fetching g c k).colPages x (s.group g) k } := by
  have hins : (s.fetching g c k).startPageIns c (x.notResident ((s.fetching g c k).colPages x (s.group g) k)) =
      some (s.fetching g c k) := by
    rw [hres]
    exact State.startPageIns_of_none (State.isSome_ctx?_fetching.trans (Option.isSome_iff_exists.2 ⟨x, hx⟩))
  subst hc hk
  unfold State.colFetch
  dsimp only
  rw [hx]
  dsimp only
  rw [hmay, if_neg (by decide), if_neg (mt beq_iff_eq.1 hlive)]
  refine (if_neg (mt bne_iff_ne.1 (not_not.2 h))).trans ?_
  unfold State.fetching Group.fetchedCol at hins
  rw [hins]
  exact if_pos (List.isEmpty_iff.2 hres)

end

theorem State.collectiveAccept_of_noneFetched (h : ∀ j ∈ (s.group g).cols, j.accepted = true) :
    s.collectiveAccept g desc = s.colFetch g desc := by
  have hnone : (s.group g).cols.find? (fun k => !k.accepted && k.ending.isNone) = none :=
    List.find?_eq_none.2 fun j hj => by simp [h j hj]
  unfold State.collectiveAccept
  dsimp only
  rw [hnone]

section
variable (hx : s.ctx? (ctxOf (s.group g).ctx.toNat) = some x)
variable (hk : (s.group g).cols.find? (fun k => !k.accepted && k.ending.isNone) = some k)
include hx hk

theorem State.collectiveAccept_of_arrived (h : x.notResident k.hold = []) : s.collectiveAccept g desc = s.colAccept g k := by
  unfold State.collectiveAccept
  dsimp only
  rw [hk]
  dsimp only
  rw [hx]
  exact if_pos (List.isEmpty_iff.2 h)

theorem State.collectiveAccept_of_waiting (h : x.notResident k.hold ≠ []) : s.collectiveAccept g desc = s := by
  unfold State.collectiveAccept
  dsimp only
  rw [hk]
  dsimp only
  rw [hx]
  exact if_neg (mt List.isEmpty_iff.1 h)

end
end

/-! ## What leaves by a group's streams (R275, R277) -/

/-- What a flit put on a stream leaves alone: the groups' collectives, and hall time with its records. -/
def State.besideStreams (s : State) (g : GroupId) : List Collective × Tkp := ((s.group g).cols, s.tkp)

theorem State.pushFlits_besideStreams {key d : Nat} {bytes : List Byte} :
    (s.pushFlits g key bytes d).besideStreams g = s.besideStreams g := by
  unfold State.pushFlits
  split
  · rfl
  · unfold State.besideStreams
    rw [State.group_modGroup_same]
    rfl

theorem State.floodEntry_besideStreams {num : Nat} {but : Option Nat} :
    (s.floodEntry g num e but).besideStreams g = s.besideStreams g :=
  foldl_view (State.besideStreams · g) (fun _ _ => State.pushFlits_besideStreams) _ _

/-! ## Acceptance (R271, R274, R275) -/

section
variable {q : Group}

theorem Group.complete_iff : q.complete k = true ↔ k.entries.length = q.count := beq_iff_eq

theorem Group.settleEntries_of_incomplete (h : k.entries.length ≠ q.count) : q.settleEntries k = k :=
  if_neg (by simp [mt Group.complete_iff.1 h])

section
variable (haccepted : k.accepted = true) (hending : k.ending = none) (hall : k.entries.length = q.count)
include haccepted hending hall

theorem Group.settleEntries_of_complete :
    q.settleEntries k = ((q.decide k).map fun st => { k with ending := some st, hold := [] }).getD k := by
  unfold Group.settleEntries
  rw [haccepted, hending, Group.complete_iff.2 hall]
  refine (if_pos rfl).trans ?_
  split
  · next hdecided => rw [hdecided]; rfl
  · next hnone => rw [hnone]; rfl

end
end

theorem State.updateStraggler_col : s.updateStraggler.col = s.col := by
  unfold State.updateStraggler
  dsimp only
  split <;> rfl

theorem State.group_recordLateness {l : Int} : (s.recordLateness l).group g = s.group g :=
  congrArg (fun c : Col => vget c.groups g) State.updateStraggler_col

theorem State.acceptStatus_eq {x : Context} {q : Group} : s.acceptStatus x q k =
    { k with status := if k.status = stOk then s.entryStatus x q k else k.status } := by
  simp only [State.acceptStatus, beq_iff_eq]

/-- A collective as its group accepts it: with this rank's entry, and the entries that came before it. -/
def State.acceptedCol (s : State) (x : Context) (q : Group) (k : Collective) : Collective :=
  { s.acceptStatus x q k with
    accepted := true
    entries := ((q.early.filter fun p => p.1 == k.num.toNat).foldl (fun (m : Assoc (List Byte)) p => m.put (entryRank p.2) p.2) []).put
      q.rank (s.ownEntry x q (s.acceptStatus x q k)) }

section
variable {x : Context} (hx : s.ctx? (ctxOf (s.group g).ctx.toNat) = some x)
include hx

theorem State.colAccept_of_context : s.colAccept g k = ((s.recordLateness ((s.ht : Int) - k.startHt)).modGroup g fun q => { q with
    early := q.early.filter fun p => p.1 != k.num.toNat
    cols := q.cols.map fun j => if j.num == k.num then q.settleEntries (s.acceptedCol x (s.group g) k) else j }).floodEntry g k.num.toNat
      (s.ownEntry x (s.group g) (s.acceptStatus x (s.group g) k)) none := by
  unfold State.colAccept
  dsimp only
  rw [hx]
  rfl

theorem State.tkp_colAccept : (s.colAccept g k).tkp = (s.recordLateness ((s.ht : Int) - k.startHt)).tkp := by
  rw [State.colAccept_of_context hx]
  exact (congrArg Prod.snd State.floodEntry_besideStreams :)

theorem State.cols_colAccept_of_one (hcols : (s.group g).cols = [k]) (hearly : (s.group g).early = []) (hcount : 2 ≤ (s.group g).count) :
    ((s.colAccept g k).group g).cols = [{ k with
      accepted := true, status := if k.status = stOk then s.entryStatus x (s.group g) k else k.status
      entries := [((s.group g).rank, s.ownEntry x (s.group g) (s.acceptStatus x (s.group g) k))] }] := by
  have haccepted : s.acceptedCol x (s.group g) k = { k with
      accepted := true, status := if k.status = stOk then s.entryStatus x (s.group g) k else k.status
      entries := [((s.group g).rank, s.ownEntry x (s.group g) (s.acceptStatus x (s.group g) k))] } := by
    rw [State.acceptedCol, hearly, State.acceptStatus_eq]
    rfl
  rw [State.colAccept_of_context hx]
  refine (congrArg Prod.fst State.floodEntry_besideStreams :).trans ?_
  dsimp only [State.besideStreams]
  rw [State.group_modGroup_same, State.group_recordLateness, haccepted]
  dsimp only
  rw [hcols, List.map_singleton, beq_self_eq_true, if_pos rfl]
  exact congrArg (List.cons · []) (Group.settleEntries_of_incomplete (Nat.lt_of_lt_of_le Nat.one_lt_two hcount).ne)

end

/-! ## Readiness entries (R275, R276) -/

theorem entryOk_iff : entryOk e = true ↔ fieldAt e 2 1 < 0x0C := decide_eq_true_iff

section
variable {num : Byte} {d : Nat}

theorem State.readiness_of_none (h : (s.group g).state ≠ 1 ∨ (s.group g).count ≤ entryRank e ∨ 0x0C ≤ fieldAt e 2 1) :
    s.readiness g num d e = s := by
  refine if_pos ?_
  rw [Bool.or_eq_true, Bool.or_eq_true, bne_iff_ne, decide_eq_true_eq, or_assoc, Bool.not_eq_true', ← Bool.not_eq_true, entryOk_iff,
    Nat.not_lt]
  exact h

section
variable {n : Nat} (hactive : (s.group g).state = 1) (hrank : entryRank e < (s.group g).count) (hok : entryOk e = true)
variable (hnum : (s.group g).numOf num.toNat = some n)
include hactive hrank hok hnum

theorem State.readiness_of_recorded (h : n < (s.group g).ctail.toNat) : s.readiness g num d e = s := by
  unfold State.readiness
  dsimp only
  rw [if_neg (by simp [hactive, hrank, hok]), hnum]
  exact if_pos h

variable (hopen : (s.group g).ctail.toNat ≤ n)
include hopen

theorem State.readiness_of_early (hcols : (s.group g).cols = []) (hearly : (s.group g).early = []) : s.readiness g num d e =
    (s.modGroup g fun q => { q with early := [(n, e)] }).floodEntry g n e (some d) := by
  unfold State.readiness
  dsimp only
  rw [if_neg (by simp [hactive, hrank, hok]), hnum]
  dsimp only
  rw [if_neg hopen.not_gt, hcols, hearly]
  refine congrArg (fun u : State => u.floodEntry g n e (some d)) (State.modGroup_congr ?_)
  rw [hearly]
  rfl

end

section
variable (hactive : (s.group g).state = 1) (hrank : entryRank e < (s.group g).count) (hok : entryOk e = true)
variable (hcols : (s.group g).cols = [k]) (hnum : (s.group g).numOf num.toNat = some k.num.toNat)
variable (hopen : (s.group g).ctail.toNat ≤ k.num.toNat)
include hactive hrank hok hcols hnum hopen

theorem State.readiness_of_found : s.readiness g num d e = if k.entries.has (entryRank e) then s else
    (s.modGroup g fun q => { q with cols := [(s.group g).settleEntries { k with entries := k.entries.put (entryRank e) e }] }).floodEntry
      g k.num.toNat e (some d) := by
  have hfound : (s.group g).cols.find? (fun j => j.num.toNat == k.num.toNat) = some k := by simp [hcols]
  have hput : (s.modGroup g fun q => { q with cols := q.cols.map fun j =>
        if j.num == k.num then q.settleEntries { j with entries := j.entries.put (entryRank e) e } else j }) =
      s.modGroup g fun q => { q with cols := [(s.group g).settleEntries { k with entries := k.entries.put (entryRank e) e }] } := by
    refine State.modGroup_congr ?_
    rw [hcols, List.map_singleton, beq_self_eq_true, if_pos rfl]
  unfold State.readiness
  dsimp only
  rw [if_neg (by simp [hactive, hrank, hok]), hnum]
  dsimp only
  rw [if_neg hopen.not_gt, hfound]
  dsimp only
  rw [hput]

theorem State.readiness_of_held (h : k.entries.has (entryRank e) = true) : s.readiness g num d e = s := by
  rw [State.readiness_of_found hactive hrank hok hcols hnum hopen, if_pos h]

theorem State.readiness_of_new (h : k.entries.has (entryRank e) = false) : s.readiness g num d e =
    (s.modGroup g fun q => { q with cols := [(s.group g).settleEntries { k with entries := k.entries.put (entryRank e) e }] }).floodEntry
      g k.num.toNat e (some d) := by
  rw [State.readiness_of_found hactive hrank hok hcols hnum hopen, if_neg (Bool.eq_false_iff.1 h)]

end
end

/-! ## The start of a data phase (R276) -/

theorem le_foldl_max {l : List Nat} {n : Nat} : n ≤ l.foldl max n ∧ ∀ m ∈ l, m ≤ l.foldl max n := by
  induction l generalizing n with
  | nil => exact ⟨le_rfl, fun m hm => absurd hm List.not_mem_nil⟩
  | cons a l ih =>
    obtain ⟨hstart, hrest⟩ := ih (n := max n a)
    exact ⟨(le_max_left n a).trans hstart, List.forall_mem_cons.2 ⟨(le_max_right n a).trans hstart, hrest⟩⟩

/-- The frame boundary at which a data phase starts, and what it waits for. -/
theorem startFrame_spec {entries : List (Nat × List Byte)} {now f : Nat}
    (hf : frameFrom ((entries.map fun e => entryStart e.2).foldl max now) = f) :
    f % 10000 = 0 ∧ now ≤ f ∧ ∀ e ∈ entries, entryStart e.2 ≤ f := by
  subst hf
  obtain ⟨hframe, hle, -⟩ := frameFrom_spec ((entries.map fun e => entryStart e.2).foldl max now)
  obtain ⟨hnow, hstarts⟩ := le_foldl_max (l := entries.map fun e => entryStart e.2) (n := now)
  exact ⟨hframe, hnow.trans hle, fun e he => (hstarts _ (List.mem_map_of_mem he)).trans hle⟩

theorem State.group_passToHt {n : Nat} : (s.passToHt n).group g = s.group g :=
  (congrArg (State.group · g) (State.passToHt_clocks n) :)

section
variable {x : Context} {sends : List (BitVec 3 × List Byte)}

theorem State.mayStart_of_one {q : Group} (hcols : q.cols = [k]) (hactive : q.state = 1) (haccepted : k.accepted = true)
    (hending : k.ending = none) (hstart : k.start = none) (hall : k.entries.length = q.count) (hrun : s.tkp.state ≠ 0) :
    s.mayStart q = some k := by
  have hon : (s.tkp.state != tkUnlocked) = true := bne_iff_ne.2 hrun
  unfold State.mayStart
  rw [hcols]
  refine if_pos ?_
  rw [hactive, haccepted, hending, hstart, Group.complete_iff.2 hall, hon]
  rfl

theorem State.dataStart_of_none (hcols : (s.group g).cols = []) : s.dataStart g sends = s := by
  unfold State.dataStart State.mayStart
  dsimp only
  rw [hcols]

section
variable (hmay : s.mayStart (s.group g) = some k) (hx : s.ctx? (ctxOf (s.group g).ctx.toNat) = some x)
include hmay hx

theorem State.dataStart_of_resident (hcols : (s.group g).cols = [k]) (hres : x.notResident (s.colPages x (s.group g) k) = []) {f : Nat}
    (hf : frameFrom ((k.entries.map fun e => entryStart e.2).foldl max s.ht) = f) : s.dataStart g sends =
    ((s.passToHt f).modGroup g fun q => { q with cols := [{ k with
      start := some f, hold := s.colPages x (s.group g) k, sent := (sends.map fun d => d.2.length).foldl (· + ·) 0 }] }).pushData g
        k.num.toNat sends := by
  unfold State.dataStart
  dsimp only
  rw [hmay, hx]
  dsimp only
  rw [hres, hf]
  refine congrArg (fun u : State => u.pushData g k.num.toNat sends) (State.modGroup_congr ?_)
  rw [State.group_passToHt, hcols, List.map_singleton, beq_self_eq_true, if_pos rfl]

theorem State.dataStart_of_away (haway : x.notResident (s.colPages x (s.group g) k) ≠ []) : s.dataStart g sends =
    ((s.startPageIns (ctxOf (s.group g).ctx.toNat) (x.notResident (s.colPages x (s.group g) k))).map fun t =>
      t.modGroup g fun q => { q with
        cols := q.cols.map fun j => if j.num == k.num then { j with hold := s.colPages x (s.group g) k } else j }).getD s := by
  unfold State.dataStart
  dsimp only
  rw [hmay, hx]
  exact if_neg (mt List.isEmpty_iff.1 haway)

end
end

/-! ## The Canary (R287) -/

theorem State.colCanary_of_none (hcols : (s.group g).cols = []) : s.colCanary g = s := by
  unfold State.colCanary
  dsimp only
  rw [hcols]
  rfl

/-- A collective ends with TIMEOUT and its Canary's event is raised. -/
def State.timedOut (s : State) (g : GroupId) (k : Collective) : State :=
  (s.modGroup g fun q => { q with cols := [{ k with ending := some stTimeout, hold := [] }] }).raise 0x20 4 (leBytes 4 g.val)

theorem State.colCanary_of_one (hcols : (s.group g).cols = [k]) (haccepted : k.accepted = true) (hending : k.ending = none) :
    s.colCanary g = if s.col.abortOnTimeout then (s.timedOut g k).raiseBeacon bcTimeout else s.timedOut g k := by
  unfold State.colCanary
  dsimp only
  rw [State.find_inProgress_of_one hcols hending haccepted]
  dsimp only
  rw [State.colEnd_of_one hcols hending]
  rfl

end

/-- Settles O43: a clause is one outcome of a fetch, an acceptance, a readiness entry, a start, a record or a Canary. -/
theorem collectivesAcceptedAndStarted : Obligations.CollectivesAcceptedAndStarted := by
  unfold Obligations.CollectivesAcceptedAndStarted
  refine ⟨?fetched, fun s g desc x k hx hk => ⟨?arrived, ?waiting⟩, ?accepted, ?entry, ?early, ?ignored, ?settled, ?started,
    ?recorded, ?canary, fun s g hcols => ⟨?idle, ?unstarted⟩⟩
  case fetched =>
    intro s g x desc q c k u with' hx hall hlive hrung hroom hrequest
    have hmay : s.mayLaunch (s.group g) = true := State.mayLaunch_of hlive hrung hroom hall hrequest
    have hfetch := State.collectiveAccept_of_noneFetched (desc := desc) hall
    exact ⟨fun h => exec_collectiveAccept_of_eq (hfetch.trans (State.colFetch_of_aborted rfl hx rfl hmay h)),
      fun h hst => exec_collectiveAccept_of_eq (hfetch.trans (State.colFetch_of_failed rfl hx rfl hmay h hst)),
      fun h hst hres => exec_collectiveAccept_of_eq (hfetch.trans (State.colFetch_of_resident rfl hx rfl hmay h hst hres))⟩
  case arrived => exact fun h => exec_collectiveAccept_of_eq (State.collectiveAccept_of_arrived hx hk h)
  case waiting => exact fun h => exec_collectiveAccept_of_eq (State.collectiveAccept_of_waiting hx hk h)
  case accepted =>
    exact fun s g x k hx hcols hearly hcount =>
      ⟨_, State.cols_colAccept_of_one hx hcols hearly hcount, rfl, State.tkp_colAccept hx⟩
  case entry =>
    exact fun s g num d e k hactive hrank hok hcols hnum hopen =>
      ⟨fun h => exec_readinessEntry.trans (congrArg _ (State.readiness_of_held hactive hrank hok hcols hnum hopen h)),
        fun h => exec_readinessEntry.trans (congrArg _ (State.readiness_of_new hactive hrank hok hcols hnum hopen h))⟩
  case early =>
    exact fun s g num d e n hactive hrank hok hnum =>
      ⟨fun h => exec_readinessEntry.trans (congrArg _ (State.readiness_of_recorded hactive hrank hok hnum h)),
        fun hopen hcols hearly =>
          exec_readinessEntry.trans (congrArg _ (State.readiness_of_early hactive hrank hok hnum hopen hcols hearly))⟩
  case ignored => exact fun s g num d e h => exec_readinessEntry.trans (congrArg _ (State.readiness_of_none h))
  case settled =>
    intro q k haccepted hending hall
    rw [Group.settleEntries_of_complete haccepted hending hall]
    refine ⟨fun st h => ?_, fun h => ?_⟩ <;> rw [h] <;> rfl
  case started =>
    intro s g k x sends hcols hactive haccepted hending hstart hx hall hrun f pages
    have hmay := State.mayStart_of_one hcols hactive haccepted hending hstart hall hrun
    exact ⟨fun h => exec_dataPhaseStart.trans (congrArg _ (State.dataStart_of_resident hmay hx hcols h rfl)),
      fun h => exec_dataPhaseStart.trans (congrArg _ (State.dataStart_of_away hmay hx h)), startFrame_spec rfl⟩
  case recorded =>
    exact fun s g k st hcols hending => ⟨fun h => exec_collectiveComplete_of_eq (State.colFinish_of_mayNot hcols hending h),
      fun h => exec_collectiveComplete_of_eq (State.colFinish_of_mayRequest hcols hending h)⟩
  case canary =>
    exact fun s g k hcols haccepted hending =>
      exec_collectiveCanaryExpiry.trans (congrArg _ (State.colCanary_of_one hcols haccepted hending))
  case idle => exact exec_collectiveCanaryExpiry.trans (congrArg _ (State.colCanary_of_none hcols))
  case unstarted => exact fun sends => exec_dataPhaseStart.trans (congrArg _ (State.dataStart_of_none hcols))

end Sys2Proof.Machine

/-! The data phase of a collective: what each writes at DST_VA, when it ends with another status, and how partial sums combine
(10_collectives.md R273, R276, R280 to R283; 04_seam_hoist.md R118). -/

namespace Sys2Proof.Machine

/-! ## Bytes written in place into resident pages (R118) -/

theorem mem_pagesOf {va len v : Nat} : v ∈ pagesOf va len ↔ 0 < len ∧ va / pageSize ≤ v ∧ v ≤ (va + len - 1) / pageSize := by
  unfold pagesOf
  by_cases h : len = 0
  · simp [h]
  · have hle : va / pageSize ≤ (va + len - 1) / pageSize := Nat.div_le_div_right (by omega)
    rw [if_neg h]
    simp only [List.mem_map, List.mem_range]
    constructor
    · rintro ⟨i, hi, rfl⟩
      omega
    · rintro ⟨-, hlow, hhigh⟩
      exact ⟨v - va / pageSize, by omega, by omega⟩

/-- Every page that a run of bytes is cut at is a page of its range. -/
theorem mem_pagesOf_of_mem_pageCuts {fuel va : Nat} {bs : List Byte} {cut : Nat × Nat × List Byte} (h : cut ∈ pageCuts fuel va bs) :
    cut.1 ∈ pagesOf va bs.length := by
  induction fuel generalizing va bs with
  | zero => exact absurd h List.not_mem_nil
  | succ fuel ih =>
    have hsize : 0 < pageSize := by decide
    rw [pageCuts] at h
    split at h
    · exact absurd h List.not_mem_nil
    · next hsome =>
      have hpos : 0 < bs.length := List.length_pos_iff.2 (mt List.isEmpty_iff.2 hsome)
      rcases List.mem_cons.1 h with rfl | hrest
      · exact mem_pagesOf.2 ⟨hpos, le_rfl, Nat.div_le_div_right (by omega)⟩
      · obtain ⟨hleft, hlow, hhigh⟩ := mem_pagesOf.1 (ih hrest)
        rw [List.length_drop] at hleft hhigh
        refine mem_pagesOf.2 ⟨hpos, (Nat.div_le_div_right (Nat.le_add_right ..)).trans hlow, hhigh.trans (Nat.div_le_div_right ?_)⟩
        omega

theorem mem_rangePages {v : Nat} {rs : List (Nat × Nat)} : v ∈ rangePages rs ↔ ∃ r ∈ rs, v ∈ pagesOf r.1 r.2 := by
  simp [rangePages, List.mem_eraseDups]

section
variable {s : State} {c : CtxId}

/-- The committed page table of a context. -/
def State.table (s : State) (c : CtxId) : Option (Assoc DWord) := (s.ctx? c).map Context.pt

theorem State.table_modCtx {d : CtxId} {f : Context → Context} (hf : ∀ x, (f x).pt = x.pt) : (s.modCtx d f).table c = s.table c := by
  unfold State.table
  by_cases hcd : c = d
  · subst hcd
    rw [State.ctx?_modCtx_same, Option.map_map]
    exact congrArg (fun p : Context → Assoc DWord => (s.ctx? c).map p) (funext hf)
  · rw [State.ctx?_modCtx_other _ _ _ _ hcd]

theorem State.table_dirty {d : CtxId} {f : Nat} : (s.dirty d f).table c = s.table c := by
  unfold State.dirty
  split
  · exact view_ite (State.table · c) rfl (State.table_modCtx fun _ => rfl)
  · rfl

theorem State.table_writePage {d : CtxId} {vpn off : Nat} {bs : List Byte} : (s.writePage d vpn off bs).table c = s.table c := by
  unfold State.writePage
  split
  · rfl
  · exact view_ite (State.table · c) State.table_dirty (view_ite (State.table · c) rfl rfl)

theorem State.arrive_of_resident {x : Context} {vpn : Nat} (hx : s.ctx? c = some x) (h : pteState (x.pt.getD vpn 0) = psResident) :
    s.arrive c vpn = s := by
  unfold State.arrive
  rw [hx]
  exact if_pos (by rw [h]; decide)

theorem State.ownPage_of_resident {x : Context} {vpn : Nat} (hx : s.ctx? c = some x) (h : pteState (x.pt.getD vpn 0) = psResident) :
    s.ownPage c vpn = some s := by
  unfold State.ownPage
  rw [hx, Option.bind_some]
  dsimp only
  rw [h]
  rfl

/-- A write into pages that are RESIDENT or unmapped needs no copy of any. -/
theorem State.writeCommitted_isSome {pt : Assoc DWord} {cuts : List (Nat × Nat × List Byte)} {force : Bool} (htable : s.table c = some pt)
    (h : ∀ cut ∈ cuts, pteState (pt.getD cut.1 0) = psUnmapped ∨ pteState (pt.getD cut.1 0) = psResident) :
    (s.writeCommitted c force cuts).isSome = true := by
  induction cuts generalizing s with
  | nil => rfl
  | cons cut cuts ih =>
    obtain ⟨hfirst, hrest⟩ := List.forall_mem_cons.1 h
    obtain ⟨x, hx, rfl⟩ := Option.map_eq_some_iff.1 htable
    rw [State.writeCommitted, hx, Option.bind_some]
    dsimp only
    split
    · exact ih htable hrest
    · next hwrites =>
      have hres : pteState (x.pt.getD cut.1 0) = psResident := hfirst.resolve_left fun hnone => hwrites (by rw [hnone]; rfl)
      rw [State.arrive_of_resident hx hres, State.ownPage_of_resident hx hres]
      exact ih (State.table_writePage.trans htable) hrest

end

/-! ## The course of a data phase (R276, R280) -/

section
variable {s : State} {g : GroupId} {op : Nat} {trees : List RedTree} {cs : List (Nat × List Byte)} {errs : SeamErrs}

theorem State.colRun_of_notRunning (h : (s.group g).running op = none) : s.colRun g op trees cs errs = s := by
  unfold State.colRun
  dsimp only
  rw [h]

theorem State.colBuffers_writes {x : Context} {q : Group} {k : Collective} : ∃ m, (s.colBuffers x q k).2 = [(k.dst, m)] := by
  unfold State.colBuffers
  dsimp only
  split
  · exact ⟨_, rfl⟩
  · exact ⟨_, rfl⟩

section
variable {c : CtxId} {x : Context} {k : Collective} {out : List Byte} {rd wr : List (Nat × Nat)}

/-- What a data phase counts before its result is written: violations, and the Tally's fabric bytes. -/
def State.colCounted (s : State) (c : CtxId) (x : Context) (k : Collective) (rd wr : List (Nat × Nat)) : State :=
  if s.sch.tallyC2Eff then
    ((s.violations c (unmappedIn x false rd) false).violations c (unmappedIn x true wr) true).modCtx c fun x =>
      { x with tally := { x.tally with fabricBytes := x.tally.fabricBytes + BitVec.ofNat 64 k.sent } }
  else (s.violations c (unmappedIn x false rd) false).violations c (unmappedIn x true wr) true

theorem State.table_colCounted : (s.colCounted c x k rd wr).table c = s.table c := by
  have hviol : ((s.violations c (unmappedIn x false rd) false).violations c (unmappedIn x true wr) true).table c = s.table c := by
    unfold State.table State.ctx?
    rw [State.violations_ctxs, State.violations_ctxs]
  unfold State.colCounted
  split
  · refine Eq.trans (State.table_modCtx ?_) hviol
    exact fun _ => rfl
  · exact hviol

/-- Where every page written is RESIDENT or unmapped, the result is written. -/
theorem State.isSome_writeCommittedAt_colCounted (hx : s.ctx? c = some x)
    (h : ∀ p ∈ rangePages [(k.dst, out.length)], pteState (x.pt.getD p 0) = psUnmapped ∨ pteState (x.pt.getD p 0) = psResident) :
    ((s.colCounted c x k rd wr).writeCommittedAt c false k.dst out).isSome = true := by
  have htable : (s.colCounted c x k rd wr).table c = some x.pt :=
    State.table_colCounted.trans (by rw [State.table, hx, Option.map_some])
  exact State.writeCommitted_isSome htable fun cut hcut =>
    h _ (mem_rangePages.2 ⟨_, List.mem_singleton_self _, mem_pagesOf_of_mem_pageCuts hcut⟩)

variable (hk : (s.group g).running op = some k) (hc : ctxOf (s.group g).ctx.toNat = c) (hx : s.ctx? c = some x)
variable (hout : s.colResult x (s.group g) k trees cs = out)
variable (hrd : (s.colBuffers x (s.group g) k).1 = rd) (hwr : (s.colBuffers x (s.group g) k).2.map (fun r => (r.1, out.length)) = wr)
include hk hc hx hout hrd hwr

/-- An uncorrectable error in a page that the operation reads or writes, or a POISONED page, ends the collective with FENCED. -/
theorem State.colRun_of_fenced {bad : List Nat} (hce : errs.ce = [])
    (hbad : errs.ue.filter (fun f => (x.framesOf (rangePages (rd ++ wr))).contains f || (k.reduces && (s.group g).scratch.contains f)) = bad)
    (h : bad ≠ [] ∨ ∃ p ∈ rangePages (rd ++ wr), pteState (x.pt.getD p 0) = psPoisoned) : s.colRun g op trees cs errs =
      ((bad.foldl (fun s f => s.seamUe f) s).colEnd g k.num stFenced).raiseBeacon bcSeamUe := by
  subst hc hout hrd hwr hbad
  unfold State.colRun
  dsimp only
  rw [hk, hx]
  dsimp only
  rw [hce]
  refine if_pos ?_
  rw [Bool.or_eq_true, Bool.not_eq_true']
  exact h.imp List.isEmpty_eq_false_iff.2 fun ⟨p, hp, hpoisoned⟩ => List.any_eq_true.2 ⟨p, hp, beq_iff_eq.2 hpoisoned⟩

/-- Without such a page the result is written, unless a copy that it needs cannot be had. -/
theorem State.colRun_of_clean (hclean : ∀ p ∈ rangePages (rd ++ wr), pteState (x.pt.getD p 0) ≠ psPoisoned) :
    s.colRun g op trees cs (s.seamErrs []) = (((s.colCounted c x k rd wr).writeCommittedAt c false k.dst out).map fun t =>
      (t.tallySeam c (((rd ++ wr).map fun r => r.2).foldl (· + ·) 0)).colEnd g k.num stOk).getD
        ((s.colCounted c x k rd wr).colEnd g k.num stNoRoom) := by
  subst hc hout hrd hwr
  have hce : s.seamCe (s.seamErrs []).ce = s := rfl
  unfold State.colRun
  dsimp only
  rw [hk, hx]
  dsimp only
  rw [hce, State.violations_sch, State.violations_sch]
  refine (if_neg ?_).trans ?_
  · rw [Bool.or_eq_true, not_or]
    exact ⟨Bool.false_ne_true, fun hany => by
      obtain ⟨p, hp, hpoisoned⟩ := List.any_eq_true.1 hany
      exact hclean p hp (beq_iff_eq.1 hpoisoned)⟩
  · unfold State.colCounted
    split
    · next t hwritten => rw [hwritten]; rfl
    · next hnone => rw [hnone]; rfl

end
end

/-! ## Results (R273) -/

section
variable {s : State} {x : Context} {q : Group} {k : Collective} {tr : List RedTree} {cs : List (Nat × List Byte)}

/-- The bytes that a rank sent. -/
def sentBy (cs : List (Nat × List Byte)) (r : Nat) : List Byte := ((cs.find? fun c => c.1 == r).map (·.2)).getD []

theorem State.colResult_of_allreduce (h : k.op = 1) : s.colResult x q k tr cs =
    q.reduceBytes k tr (fun r => if r = q.rank then s.ownData x q k else sentBy cs r) 0 k.n := by
  simp only [State.colResult, Collective.reduces, h]
  rfl

theorem State.colResult_of_reduceScatter (h : k.op = 2) : s.colResult x q k tr cs =
    q.reduceBytes k tr (fun r => if r = q.rank then s.ownData x q k else sentBy cs r)
      (q.rank * k.n / q.count) ((q.rank + 1) * k.n / q.count) := by
  simp only [State.colResult, Collective.reduces, h]
  rfl

theorem Collective.reduces_of_copying (h : 3 ≤ k.op) : k.reduces = false := by
  simp only [Collective.reduces, Bool.or_eq_false_iff, beq_eq_false_iff_ne]
  omega

/-- A copying collective reads its source at SRC_VA. -/
theorem State.ownData_of_copying (h : 3 ≤ k.op) :
    s.ownData x q k = s.committedBytes x k.src (q.bufSizes k (s.cntOf x q k)).1 := by
  unfold State.ownData Group.canon
  dsimp only
  rw [Collective.reduces_of_copying h, Bool.and_false]
  rfl

theorem State.ownPart_of_whole (h6 : k.op ≠ 6) (h7 : k.op ≠ 7) : s.ownPart x q k = s.ownData x q k := by
  unfold State.ownPart
  dsimp only
  rw [if_neg h6, if_neg h7]

theorem State.colResult_of_copying (h : 3 ≤ k.op) (h5 : k.op ≠ 5) : s.colResult x q k tr cs =
    (List.range q.count).flatMap fun r => if r = q.rank then s.ownPart x q k else slice (sentBy cs r) 0 (q.partLen k r) := by
  unfold State.colResult
  dsimp only
  rw [Collective.reduces_of_copying h, if_neg Bool.false_ne_true, if_neg h5]
  rfl

theorem State.colResult_of_broadcast (h : k.op = 5) : s.colResult x q k tr cs =
    if q.rank = k.root then s.ownData x q k else slice (sentBy cs k.root) 0 k.n := by
  unfold State.colResult
  dsimp only
  rw [Collective.reduces_of_copying (by omega), if_neg Bool.false_ne_true, if_pos h]
  rfl

theorem State.colResult_of_allgather (h : k.op = 3) : s.colResult x q k tr cs = (List.range q.count).flatMap fun r =>
    if r = q.rank then s.committedBytes x k.src k.n else slice (sentBy cs r) 0 k.n := by
  rw [State.colResult_of_copying (by omega) (by omega), State.ownPart_of_whole (by omega) (by omega), State.ownData_of_copying (by omega)]
  simp only [Group.bufSizes, Group.partLen, h]
  rfl

theorem State.colResult_of_allgatherv (h : k.op = 4) : s.colResult x q k tr cs = (List.range q.count).flatMap fun r =>
    if r = q.rank then s.committedBytes x k.src k.n else slice (sentBy cs r) 0 (entryCount (k.entries.getD r [])) := by
  rw [State.colResult_of_copying (by omega) (by omega), State.ownPart_of_whole (by omega) (by omega), State.ownData_of_copying (by omega)]
  simp only [Group.bufSizes, Group.partLen, h]
  rfl

theorem State.colResult_of_alltoall (h : k.op = 6) : s.colResult x q k tr cs = (List.range q.count).flatMap fun r =>
    if r = q.rank then slice (s.committedBytes x k.src (q.count * k.n)) (q.rank * k.n) k.n else slice (sentBy cs r) 0 k.n := by
  have hown : s.ownPart x q k = slice (s.ownData x q k) (q.rank * k.n) k.n := if_pos h
  rw [State.colResult_of_copying (by omega) (by omega), hown, State.ownData_of_copying (by omega)]
  simp only [Group.bufSizes, Group.partLen, h]
  rfl

theorem State.colResult_of_root (h : k.op = 5) (hroot : q.rank = k.root) : s.colResult x q k tr cs = s.committedBytes x k.src k.n := by
  rw [State.colResult_of_broadcast h, if_pos hroot, State.ownData_of_copying (by omega)]
  simp only [Group.bufSizes, h, if_pos hroot]

end

/-! ## Partial sums (R281 to R283) -/

section
variable {q : Group} {k : Collective} {tr : List RedTree} {contrib : Nat → List Byte} {i : Nat}

/-- Element `i` of a rank's contribution. -/
def Collective.leaf (k : Collective) (contrib : Nat → List Byte) (i r : Nat) : FNum :=
  (scalarFmt k.fmt).decode (fieldAt (contrib r) (colWidth k.fmt * i) (colWidth k.fmt))

theorem Group.canon_of_det (h : q.det ≠ 2) : q.canon k = false := by
  rw [Group.canon, beq_eq_false_iff_ne.2 h, Bool.false_and]

/-- Under FIXED the ranks are the first leaves of the smallest full tree that holds them. -/
theorem Group.reduceElem_of_fixed (h : q.det = 1) : q.reduceElem k tr contrib i =
    (fixedTree (combine k.red k.wfmt) (clog2 q.count) ((List.range (2 ^ clog2 q.count)).map fun r =>
      if r < q.count then some (k.leaf contrib i r) else none)).getD FNum.zero := by
  unfold Group.reduceElem
  dsimp only
  rw [Group.canon_of_det (by rw [h]; decide), h]
  rfl

theorem Group.reduceElem_of_free {a b : Nat} (h : q.det = 0) (hcount : q.count = 2) (htree : tr[i]? = some (.node (.leaf a) (.leaf b)))
    (hleaves : a + b = 1) :
    q.reduceElem k tr contrib i = combine k.red k.wfmt (k.leaf contrib i a) (k.leaf contrib i b) := by
  have hget : tr.getD i (.leaf q.count) = .node (.leaf a) (.leaf b) := by rw [List.getD_eq_getElem?_getD, htree, Option.getD_some]
  have hok : redTreeOk q.count (.node (.leaf a) (.leaf b)) = true := by
    rw [hcount]
    obtain ⟨rfl, rfl⟩ | ⟨rfl, rfl⟩ : (a = 0 ∧ b = 1) ∨ (a = 1 ∧ b = 0) := by omega
    · rfl
    · rfl
  unfold Group.reduceElem
  dsimp only
  rw [Group.canon_of_det (by rw [h]; decide), h, hget, hok]
  rfl

end

/-- The seven operations as instructions: each is the course of its OP, with the trees the engine chose for a reduction. -/
theorem exec_collective {g : GroupId} {trees tr : List RedTree} {cs : List (Nat × List Byte)} {i : List SeamHit → Instr} {op : Nat}
    (h : (i, op, tr) ∈ [((fun h => Instr.allreduce g trees cs h), 1, trees), ((fun h => .reduceScatter g trees cs h), 2, trees),
      ((fun h => .allgather g cs h), 3, []), ((fun h => .allgatherv g cs h), 4, []), ((fun h => .broadcast g cs h), 5, []),
      ((fun h => .alltoall g cs h), 6, []), ((fun h => .alltoallv g cs h), 7, [])]) (s : State) (hits : List SeamHit) :
    exec (i hits) s = .next (s.colRun g op tr cs (s.seamErrs hits)) := by
  simp only [List.mem_cons, Prod.mk.injEq, List.not_mem_nil, or_false] at h
  rcases h with ⟨rfl, rfl, rfl⟩ | ⟨rfl, rfl, rfl⟩ | ⟨rfl, rfl, rfl⟩ | ⟨rfl, rfl, rfl⟩ | ⟨rfl, rfl, rfl⟩ | ⟨rfl, rfl, rfl⟩ | ⟨rfl, rfl, rfl⟩ <;>
    rfl

/-- Settles O44: the course of a data phase, the bytes of each collective, and the trees of partial sums. -/
theorem collectivesMoveAndReduce : Obligations.CollectivesMoveAndReduce := by
  unfold Obligations.CollectivesMoveAndReduce
  refine ⟨fun s g trees cs i op tr hmem => ?course, fun s x q k tr cs => ?results, fun q k tr contrib i => ?trees,
    fun w a b => ⟨rfl, rfl, rfl⟩⟩
  case course =>
    intro q c
    have hexec := exec_collective hmem s
    refine ⟨fun hits h => (hexec hits).trans (congrArg _ (State.colRun_of_notRunning h)), ?_⟩
    intro k x hk hx out rd wr v u moved
    refine ⟨fun hclean => ?clean, fun hpoisoned => ?poisoned, fun f n hf hn => ?errors⟩
    case clean =>
      have hrun : s.colRun g op tr cs (s.seamErrs []) =
          ((u.writeCommittedAt c false k.dst out).map moved).getD (u.colEnd g k.num stNoRoom) :=
        State.colRun_of_clean (rd := rd) (wr := wr) (out := out) hk rfl hx rfl rfl rfl hclean
      refine ⟨fun hsome => ?_, fun hnone => ?_, fun hpages => ?_⟩
      · obtain ⟨t, ht⟩ := Option.isSome_iff_exists.1 hsome
        rw [ht] at hrun
        exact ⟨t, ht, (hexec []).trans (congrArg _ hrun)⟩
      · rw [hnone] at hrun
        exact (hexec []).trans (congrArg _ hrun)
      · obtain ⟨m, hwrites⟩ := State.colBuffers_writes (s := s) (x := x) (q := q) (k := k)
        have hwr : wr = [(k.dst, out.length)] := congrArg (List.map fun r : Nat × Nat => (r.1, out.length)) hwrites
        exact State.isSome_writeCommittedAt_colCounted hx (hwr ▸ hpages)
    case poisoned =>
      exact (hexec []).trans (congrArg _ (State.colRun_of_fenced (rd := rd) (wr := wr) (out := out) (bad := []) hk rfl hx rfl rfl rfl rfl rfl
        (.inr hpoisoned)))
    case errors =>
      have herrs : s.seamErrs [{ page := f, symbols := n }] = { ue := [f], ce := [] } := State.seamErrs_of_uncorrectable hn
      have hbad : [f].filter (fun f => (x.framesOf (rangePages (rd ++ wr))).contains f || (k.reduces && q.scratch.contains f)) = [f] :=
        List.filter_eq_self.2 (by simpa using hf)
      refine (hexec _).trans (congrArg _ ?_)
      rw [herrs]
      exact State.colRun_of_fenced (rd := rd) (wr := wr) (out := out) (bad := [f]) hk rfl hx rfl rfl rfl rfl hbad (.inl (List.cons_ne_nil f []))
  case results =>
    exact ⟨State.colResult_of_allgather, State.colResult_of_allgatherv,
      fun h hother => (State.colResult_of_broadcast h).trans (if_neg hother), State.colResult_of_root, State.colResult_of_alltoall,
      State.colResult_of_allreduce, State.colResult_of_reduceScatter⟩
  case trees =>
    refine ⟨fun h hcount => ?_, fun h hcount => ?_, fun h hcount => ?_, fun h a b hcount htree => Group.reduceElem_of_free h hcount htree⟩
    all_goals
      rw [Group.reduceElem_of_fixed h, hcount]
      rfl

end Sys2Proof.Machine

/-! The beginning of a snapshot and its freeze instant (11_snapshots.md R293 to R297, R313). -/

namespace Sys2Proof.Machine

section
variable {s : State} {n : SnapId}

/-! ## The commands -/

theorem exec_snapBegin {flag : List Byte} : exec (.snapBegin flag) s = .next (s.snapBegin flag) := rfl
theorem exec_snapshotFreeze : exec (.snapshotFreeze n) s = .next (s.snapFreeze n) := rfl
theorem exec_snapRead : exec .snapRead s = .next s.snapRead := rfl

/-! ## SNAP_BEGIN (R293, R313) -/

/-- The lowest snapshot slot that is free. -/
def State.freeSnap (s : State) : Option SnapId := (List.finRange 8).find? fun i => (s.snap i).state == 0

theorem State.freeSnap_of_none (h : ∀ i, (s.snap i).state ≠ 0) : s.freeSnap = none :=
  List.find?_eq_none.2 fun i _ => mt beq_iff_eq.1 (h i)

/-- The slot found is free, and it is the lowest that is. -/
theorem State.freeSnap_cases : (s.freeSnap = none ∧ ∀ i, (s.snap i).state ≠ 0) ∨
    ∃ i, s.freeSnap = some i ∧ (s.snap i).state = 0 ∧ ∀ j < i, (s.snap j).state ≠ 0 := by
  cases hfound : s.freeSnap with
  | none => exact .inl ⟨rfl, fun i => by simpa using List.find?_eq_none.1 hfound i (List.mem_finRange i)⟩
  | some i =>
    obtain ⟨hfree, k, hk, rfl, hlower⟩ := List.find?_eq_some_iff_getElem.1 hfound
    refine .inr ⟨_, rfl, by simpa using hfree, fun j hj => ?_⟩
    have hlt : j.val < k := by simpa [Fin.lt_def] using hj
    simpa using hlower j.val hlt

/-- The snapshots of context `c` in progress. -/
def State.liveSnaps (s : State) (c : CtxId) : Nat := (s.snp.slots.toList.filter fun q => q.live && q.ctx.toNat == c.val).length

/-- The snapshot that the arguments `a` ask for. -/
def State.begun (s : State) (a : List Byte) (c : CtxId) (x : Context) : SnapSlot :=
  { snapSlotReset with
    state := 1, ctx := BitVec.ofNat 8 c.val, gen := BitVec.ofNat 32 (fieldAt a 4 4), step := BitVec.ofNat 32 (fieldAt a 8 4)
    record := fieldAt a 0x18 2
    list := (List.range (fieldAt a 0x0C 4)).map fun i => shardOf (s.committedBytes x (fieldAt a 0x10 6 + 32 * i) 32) }

/-- Arguments that pass name a context and a RECORD_SLOT of it with room for a record a shard. -/
theorem State.snapArgs_of_good {a : List Byte} (h : s.snapArgsBad a = false) : ∃ x w, s.ctx? (ctxOf (fieldAt a 0 1)) = some x ∧
    x.slot? (fieldAt a 0x18 2) = some w ∧ 512 * fieldAt a 0x0C 4 ≤ w.size := by
  unfold State.snapArgsBad at h
  dsimp only at h
  split at h
  case h_1 => cases h
  case h_2 x hx =>
    simp only [Bool.or_eq_false_iff, decide_eq_false_iff_not, Nat.not_lt, beq_eq_false_iff_ne] at h
    obtain ⟨⟨⟨⟨⟨⟨⟨⟨⟨⟨⟨_, hcount⟩, _⟩, _⟩, _⟩, _⟩, _⟩, _⟩, _⟩, _⟩, _⟩, hroom⟩ := h
    cases hw : x.slot? (fieldAt a 0x18 2) with
    | none =>
      rw [Context.slotSize, hw] at hroom
      exact absurd hroom (by simp only [Option.map_none, Option.getD_none]; omega)
    | some w =>
      rw [Context.slotSize, hw] at hroom
      exact ⟨x, w, hx, hw, hroom⟩

section
variable {a flag : List Byte} {c : CtxId} (hrun : s.Serves 0x90) (ha : slice s.mbxBytes 0 64 = a) (hc : ctxOf (fieldAt a 0 1) = c)
include hrun ha hc

theorem State.snapBegin_of_badArgs (h : s.snapArgsBad a = true) : s.snapBegin flag = s.mbxEnd stOk [8, 0, 0, 0] := by
  simp only [State.snapBegin, hrun.mbxRun, ha, hc, h, if_true]
  split
  · rfl
  · rfl

variable {x : Context} {w : WinSlot} (hgood : s.snapArgsBad a = false) (hx : s.ctx? c = some x) (hw : x.slot? (fieldAt a 0x18 2) = some w)
include hgood hx hw

theorem State.snapBegin_of_waits (hheld : w.held = none) (hmay : s.mayRequest x.fn = false) : s.snapBegin flag = s := by
  simp only [State.snapBegin, hrun.mbxRun, ha, hc, hx, hw, hgood, hheld, hmay, Option.any_some, Option.isSome_none, Bool.not_false,
    Bool.and_self, Bool.false_eq_true, if_false, if_true]

/-- A RECORD_SLOT that the device holds, or whose flag word can be read, is not waited for. -/
theorem State.snapBegin_of_read (h : w.held ≠ none ∨ s.mayRequest x.fn = true) : s.snapBegin flag =
    match s.acquire c (fieldAt a 0x18 2) flag with
    | none => s.mbxEnd stOk [8, 0, 0, 0]
    | some t =>
      match s.freeSnap with
      | none => t.mbxEnd stOk [4, 0, 0, 0]
      | some i =>
        if 2 ≤ s.liveSnaps c then t.mbxEnd stOk [4, 0, 0, 0]
        else ((t.modSlot c (fieldAt a 0x18 2) fun w => { w with busy := true }).modSnap i fun _ => s.begun a c x).mbxEnd stOk
          (leBytes 4 (i.val * 256)) := by
  have hread : (!s.mayRequest x.fn && !w.held.isSome) = false := by
    rcases h with h | h
    · simp [Option.isSome_iff_ne_none.2 h]
    · simp [h]
  have hnumber : ∀ i : SnapId, stOk.toNat + i.val * 2 ^ 8 = i.val * 256 := fun i => Nat.zero_add _
  simp only [State.snapBegin, hrun.mbxRun, ha, hc, hx, hw, hgood, hread, Option.any_some, hnumber, Bool.false_eq_true, if_false]
  rfl

theorem State.snapBegin_of_hostOwned (hheld : w.held = none) (hmay : s.mayRequest x.fn = true) (howner : flagOwner flag = false) :
    s.snapBegin flag = s.mbxEnd stOk [8, 0, 0, 0] := by
  rw [State.snapBegin_of_read hrun ha hc hgood hx hw (.inr hmay), State.acquire_of_hostOwned hx hw hheld howner]

variable {t : State} (hread : w.held ≠ none ∨ s.mayRequest x.fn = true) (ht : s.acquire c (fieldAt a 0x18 2) flag = some t)
include hread ht

theorem State.snapBegin_of_full (h : (∀ i, (s.snap i).state ≠ 0) ∨ 2 ≤ s.liveSnaps c) :
    s.snapBegin flag = t.mbxEnd stOk [4, 0, 0, 0] := by
  rw [State.snapBegin_of_read hrun ha hc hgood hx hw hread, ht]
  dsimp only
  rcases h with h | h
  · rw [State.freeSnap_of_none h]
  · simp only [h, if_true]
    split
    · rfl
    · rfl

theorem State.snapBegin_of_room (h : ¬ ((∀ i, (s.snap i).state ≠ 0) ∨ 2 ≤ s.liveSnaps c)) :
    ∃ i : SnapId, (s.snap i).state = 0 ∧ (∀ j : SnapId, j < i → (s.snap j).state ≠ 0) ∧ s.snapBegin flag =
      ((t.modSlot c (fieldAt a 0x18 2) fun w => { w with busy := true }).modSnap i fun _ => s.begun a c x).mbxEnd stOk
        (leBytes 4 (i.val * 256)) := by
  obtain ⟨hsome, hfew⟩ := not_or.1 h
  rcases State.freeSnap_cases (s := s) with ⟨-, hall⟩ | ⟨i, hfound, hfree, hlow⟩
  · exact absurd hall hsome
  · refine ⟨i, hfree, hlow, ?_⟩
    rw [State.snapBegin_of_read hrun ha hc hgood hx hw hread, ht, hfound]
    exact if_neg hfew

end

/-- A slot held by the device or handed over to it is had. -/
theorem State.acquire_isSome {c : CtxId} {k : Nat} {flag : List Byte} {x : Context} {w : WinSlot} (hx : s.ctx? c = some x)
    (hw : x.slot? k = some w) (h : w.held ≠ none ∨ flagOwner flag = true) : ∃ t, s.acquire c k flag = some t := by
  by_cases hheld : w.held = none
  · exact ⟨_, State.acquire_of_handedOver hx hw hheld (h.resolve_left (not_not.2 hheld))⟩
  · exact ⟨s, State.acquire_of_held hx hw (Option.isSome_iff_ne_none.2 hheld)⟩

/-! ## SNAP_READ (R313) -/

section
variable (hrun : s.Serves 0x91)
include hrun

theorem State.snapRead_of_reserved (h : 8 ≤ s.mbxArg 0) : s.snapRead = s.mbxEnd stBad [] := by
  rw [State.snapRead, hrun.mbxRun, if_pos (State.argReserved_eq_true (width := 3) h), State.mbxFail_eq]

theorem State.snapRead_of_slot (h : s.mbxArg 0 = n.val) : s.snapRead = s.mbxEnd stOk
    (leBytes 8 (s.snap n).ht ++ leBytes 8 (s.snap n).digested ++ leBytes 8 (s.snap n).written ++ leBytes 8 (s.snap n).endHt) := by
  have hnumber : Fin.ofNat 8 n.val = n := Fin.ofNat_val_eq_self n
  rw [State.snapRead, hrun.mbxRun, State.argReserved_eq_false (width := 3) (h ▸ n.isLt), h, hnumber]
  rfl

end

end

/-! ## Tables filled in turn -/

section
variable {α β : Type} {m : Assoc α} {i : Nat} {v : α}

theorem Assoc.mem_of_get? (h : m.get? i = some v) : (i, v) ∈ m := by
  induction m with
  | nil => exact absurd h.symm (Option.some_ne_none v)
  | cons e r ih =>
    obtain ⟨k, w⟩ := e
    rw [Assoc.get?] at h
    split at h
    case isTrue hk => exact List.mem_cons.2 (.inl (Prod.ext hk.symm (Option.some.inj h).symm))
    case isFalse => exact List.mem_cons_of_mem _ (ih h)

theorem Assoc.getD_map {f : α → α} {d : α} (hf : f d = d) : Assoc.getD (m.map fun e => (e.1, f e.2)) i d = f (m.getD i d) := by
  induction m with
  | nil => exact hf.symm
  | cons e r ih =>
    rw [Assoc.getD, List.map_cons, Assoc.get?, Assoc.getD, Assoc.get?]
    split
    · rfl
    · exact ih

theorem Assoc.getD_of_get? {d : α} (h : m.get? i = some v) : m.getD i d = v := by rw [Assoc.getD, h, Option.getD_some]

/-- A key that entries of a list give one and the same value has it once they are all put in. -/
theorem Assoc.get?_foldl_put {key : β → Nat} {val : β → α} {l : List β} (hval : ∀ b ∈ l, key b = i → val b = v)
    (h : m.get? i = some v ∨ ∃ b ∈ l, key b = i) :
    Assoc.get? (l.foldl (fun (m : Assoc α) b => m.put (key b) (val b)) m) i = some v := by
  induction l generalizing m with
  | nil => exact h.resolve_right fun ⟨_, hb, _⟩ => List.not_mem_nil hb
  | cons b l ih =>
    obtain ⟨hfirst, hrest⟩ := List.forall_mem_cons.1 hval
    refine ih hrest ?_
    by_cases hb : key b = i
    · exact .inl (hb ▸ (hfirst hb).symm ▸ Assoc.get?_put_same)
    · refine .imp (Assoc.get?_put_other (Ne.symm hb)).trans ?_ h
      exact fun ⟨b', hmem, hkey⟩ => ⟨b', (List.mem_cons.1 hmem).resolve_left fun heq => hb (heq ▸ hkey), hkey⟩

end

/-! ## Entries of pages that are frozen -/

theorem toNat_mkPte {st f hd : Nat} {ro pin : Bool} (hst : st < 16) (hf : f < 24 * dieStride) (hhd : hd < 65536) :
    (mkPte st ro pin (locSeam f) hd).toNat =
      st + b2n ro * 16 + b2n pin * 32 + (f / dieStride) * 256 + (f % dieStride) * 8192 + hd * 281474976710656 := by
  have hro : b2n ro ≤ 1 := by cases ro <;> decide
  have hpin : b2n pin ≤ 1 := by cases pin <;> decide
  have hdie : f / 12288 < 24 := Nat.div_lt_of_lt_mul hf
  have hpage : f % 12288 < 12288 := Nat.mod_lt _ (by decide)
  simp only [mkPte, locSeam, dieStride, BitVec.toNat_ofNat]
  omega

section
variable {p : DWord} {st f : Nat} (hst : st < 16) (hf : f < 24 * dieStride)
include hst hf

theorem pteState_pteMove : pteState (pteMove p st (locSeam f)) = st := by
  have hhd : pteHandle p < 65536 := Nat.mod_lt _ (by decide)
  simp only [pteState, pteMove, toNat_mkPte hst hf hhd, bits]
  omega

theorem pteFrame_pteMove : pteFrame (pteMove p st (locSeam f)) = f := by
  have hhd : pteHandle p < 65536 := Nat.mod_lt _ (by decide)
  have hro : b2n (pteRo p) ≤ 1 := by cases pteRo p <;> decide
  have hpin : b2n (ptePin p) ≤ 1 := by cases ptePin p <;> decide
  have hdie : f / 12288 < 24 := Nat.div_lt_of_lt_mul hf
  simp only [pteFrame, pteMove, toNat_mkPte hst hf hhd, bits, dieStride]
  generalize pteHandle p = hd, b2n (pteRo p) = ro, b2n (ptePin p) = pin at *
  have hdieBits : (st + ro * 16 + pin * 32 + f / 12288 * 256 + f % 12288 * 8192 + hd * 281474976710656) / 2 ^ 8 % 2 ^ 5 =
      f / 12288 := by omega
  have hpageBits : (st + ro * 16 + pin * 32 + f / 12288 * 256 + f % 12288 * 8192 + hd * 281474976710656) / 2 ^ 13 % 2 ^ 14 =
      f % 12288 := by omega
  rw [hdieBits, hpageBits]
  omega

end

/-! ## The freeze instant (R294, R297) -/

/-- The entry a snapshot takes for a page: a RESIDENT one is FROZEN. -/
def heldPte (p : DWord) : DWord := if pteState p == psResident then pteMove p psFrozen (locSeam (pteFrame p)) else p

/-- The entries a snapshot takes for the pages `vs` of a context: those of the states RESIDENT to POISONED. -/
def Context.heldFor (x : Context) (vs : List Nat) : Assoc DWord := vs.foldl (fun (m : Assoc DWord) v =>
  if pteState (x.pt.getD v 0) == psUnmapped || 5 < pteState (x.pt.getD v 0) then m else m.put v (heldPte (x.pt.getD v 0))) []

/-- An entry of a context whose page a snapshot has frozen. -/
def freezePte (held : Assoc DWord) (p : DWord) : DWord :=
  if pteState p == psResident &&
      (held.filterMap fun e => if pteState e.2 == psFrozen then some (pteFrame e.2) else none).contains (pteFrame p) then
    pteMove p psFrozen (locSeam (pteFrame p))
  else p

/-- The CONTROL bytes captured for a list, by the place of their shard. -/
def State.controlFor (s : State) (hs : List Shard) : Assoc (List Byte) :=
  (hs.zipIdx.filter fun e => e.1.kind == 2).foldl (fun (m : Assoc (List Byte)) e => m.put e.2 (s.controlBytes e.1.unit)) []

/-- Slot `n` as the freeze instant leaves it, with context `x`. -/
def State.frozenSlot (s : State) (n : SnapId) (x : Context) : SnapSlot :=
  { s.snap n with
    state := 2, held := x.heldFor (shardPages (s.snap n).list), control := s.controlFor (s.snap n).list, ht := s.ht, modGen := s.lnk.gen }

/-- The state with the pages of snapshot `n` frozen in slot and context. -/
def State.frozenFor (s : State) (n : SnapId) (x : Context) : State :=
  (s.modCtx (ctxOf (s.snap n).ctx.toNat) fun y => y.mapPtes (freezePte (s.frozenSlot n x).held)).modSnap n fun _ => s.frozenSlot n x

section
variable {s : State} {n : SnapId} {x : Context}

theorem State.snapFreeze_of_waits (h : (s.snap n).state ≠ 1 ∨ s.openInProgress (s.snap n).list = true) : s.snapFreeze n = s := by
  unfold State.snapFreeze
  dsimp only
  split
  · rfl
  · exact if_pos (by simpa using h)

theorem State.get?_controlFor {hs : List Shard} {i : Nat} {h : Shard} (hget : hs[i]? = some h) (hkind : h.kind = 2) :
    (s.controlFor hs).get? i = some (s.controlBytes h.unit) := by
  have hmem : (h, i) ∈ hs.zipIdx.filter fun e => e.1.kind == 2 :=
    List.mem_filter.2 ⟨List.mk_mem_zipIdx_iff_getElem?.2 hget, beq_iff_eq.2 hkind⟩
  refine Assoc.get?_foldl_put (fun e he hkey => ?_) (.inr ⟨(h, i), hmem, rfl⟩)
  have hsame : hs[e.2]? = some e.1 := List.mk_mem_zipIdx_iff_getElem?.1 (List.mem_filter.1 he).1
  rw [hkey, hget] at hsame
  rw [Option.some.inj hsame]

theorem Context.get?_heldFor {vs : List Nat} {v : Nat} (hv : v ∈ vs) (hlow : 1 ≤ pteState (x.pt.getD v 0))
    (hhigh : pteState (x.pt.getD v 0) ≤ 5) : (x.heldFor vs).get? v = some (heldPte (x.pt.getD v 0)) := by
  have htaken : x.heldFor vs = (vs.filter fun v => !(pteState (x.pt.getD v 0) == psUnmapped || decide (5 < pteState (x.pt.getD v 0)))).foldl
      (fun (m : Assoc DWord) v => m.put v (heldPte (x.pt.getD v 0))) [] := by
    rw [List.foldl_filter]
    refine congrArg (fun f => vs.foldl f []) (funext₂ fun m v => ?_)
    cases pteState (x.pt.getD v 0) == psUnmapped || decide (5 < pteState (x.pt.getD v 0)) with
    | false => rfl
    | true => rfl
  have hkept : v ∈ vs.filter fun v => !(pteState (x.pt.getD v 0) == psUnmapped || decide (5 < pteState (x.pt.getD v 0))) :=
    List.mem_filter.2 ⟨hv, by simpa [psUnmapped] using ⟨Nat.one_le_iff_ne_zero.1 hlow, hhigh⟩⟩
  rw [htaken]
  exact Assoc.get?_foldl_put (fun b _ hb => by rw [hb]) (.inr ⟨v, hkept, rfl⟩)

theorem mem_shardPages {hs : List Shard} {h : Shard} {v : Nat} (hh : h ∈ hs) (hrange : h.isRange = true) (hv : v ∈ pagesOf h.va h.len) :
    v ∈ shardPages hs :=
  mem_rangePages.2 ⟨(h.va, h.len), List.mem_map.2 ⟨h, List.mem_filter.2 ⟨hh, hrange⟩, rfl⟩, hv⟩

/-- Every page of the ranges that is not UNMAPPED is held. -/
theorem State.get?_frozenSlot {h : Shard} {v : Nat} (hh : h ∈ (s.snap n).list) (hrange : h.isRange = true) (hv : v ∈ pagesOf h.va h.len)
    (hlow : 1 ≤ pteState (x.pt.getD v 0)) (hhigh : pteState (x.pt.getD v 0) ≤ 5) :
    (s.frozenSlot n x).held.get? v = some (heldPte (x.pt.getD v 0)) :=
  Context.get?_heldFor (mem_shardPages hh hrange hv) hlow hhigh

theorem heldPte_of_resident {p : DWord} (h : pteState p = psResident) : heldPte p = pteMove p psFrozen (locSeam (pteFrame p)) :=
  if_pos (beq_iff_eq.2 h)

theorem freezePte_zero {held : Assoc DWord} : freezePte held 0 = 0 := rfl

/-- A RESIDENT page that the snapshot took is FROZEN in the context too. -/
theorem freezePte_of_held {held : Assoc DWord} {v : Nat} {p : DWord} (hres : pteState p = psResident) (hframe : pteFrame p < 24 * dieStride)
    (hheld : held.get? v = some (heldPte p)) : freezePte held p = heldPte p := by
  rw [heldPte_of_resident hres] at hheld ⊢
  refine if_pos ?_
  rw [hres, beq_self_eq_true, Bool.true_and, List.contains_iff_mem]
  refine List.mem_filterMap.2 ⟨_, Assoc.mem_of_get? hheld, ?_⟩
  rw [if_pos (beq_iff_eq.2 (pteState_pteMove (by decide) hframe)), pteFrame_pteMove (by decide) hframe]

/-- The same for the page at `v` of a context that held the entries. -/
theorem Context.pt_mapPtes_freezePte {held : Assoc DWord} {v : Nat} (hres : pteState (x.pt.getD v 0) = psResident)
    (hframe : pteFrame (x.pt.getD v 0) < 24 * dieStride) (hheld : held.get? v = some (heldPte (x.pt.getD v 0))) :
    (x.mapPtes (freezePte held)).pt.getD v 0 = heldPte (x.pt.getD v 0) :=
  (Assoc.getD_map freezePte_zero).trans (freezePte_of_held hres hframe hheld)

theorem State.snap_violations {c : CtxId} {k : Nat} {wr : Bool} {m : SnapId} : (s.violations c k wr).snap m = s.snap m :=
  congrArg (fun q : Snp => vget q.slots m) (State.violations_snp s c k wr)

theorem State.ctx?_violations {c d : CtxId} {k : Nat} {wr : Bool} : (s.violations c k wr).ctx? d = s.ctx? d :=
  congrArg (fun q => vget q d) (State.violations_ctxs s c k wr)

section
variable (hstate : (s.snap n).state = 1) (hopen : s.openInProgress (s.snap n).list = false)
  (hx : s.ctx? (ctxOf (s.snap n).ctx.toNat) = some x)
include hstate hopen hx

theorem State.snapFreeze_of_freezing : ∃ lost, s.snapFreeze n = (s.frozenFor n x).violations (ctxOf (s.snap n).ctx.toNat) lost false := by
  simp only [State.snapFreeze, hx, hstate, hopen, bne_self_eq_false, Bool.or_self, Bool.false_eq_true, if_false]
  exact ⟨_, rfl⟩

theorem State.snap_snapFreeze_same : (s.snapFreeze n).snap n = s.frozenSlot n x := by
  obtain ⟨lost, hfrozen⟩ := State.snapFreeze_of_freezing hstate hopen hx
  rw [hfrozen, State.snap_violations]
  exact State.snap_modSnap_same ..

theorem State.snap_snapFreeze_other {m : SnapId} (hm : m ≠ n) : (s.snapFreeze n).snap m = s.snap m := by
  obtain ⟨lost, hfrozen⟩ := State.snapFreeze_of_freezing hstate hopen hx
  rw [hfrozen, State.snap_violations]
  exact State.snap_modSnap_other _ _ _ _ hm

theorem State.ctx?_snapFreeze_same :
    (s.snapFreeze n).ctx? (ctxOf (s.snap n).ctx.toNat) = some (x.mapPtes (freezePte (s.frozenSlot n x).held)) := by
  obtain ⟨lost, hfrozen⟩ := State.snapFreeze_of_freezing hstate hopen hx
  rw [hfrozen, State.ctx?_violations]
  exact (State.ctx?_modCtx_same ..).trans (congrArg (Option.map _) hx)

theorem State.ctx?_snapFreeze_other {d : CtxId} (hd : d ≠ ctxOf (s.snap n).ctx.toNat) : (s.snapFreeze n).ctx? d = s.ctx? d := by
  obtain ⟨lost, hfrozen⟩ := State.snapFreeze_of_freezing hstate hopen hx
  rw [hfrozen, State.ctx?_violations]
  exact State.ctx?_modCtx_other _ _ _ _ hd

/-- The freeze instant changes no byte, no Seam page's use and nothing of Training Support. -/
theorem State.snapFreeze_memories : (s.snapFreeze n).mem = s.mem ∧ (s.snapFreeze n).host = s.host ∧ (s.snapFreeze n).frames = s.frames ∧
    (s.snapFreeze n).opt = s.opt := by
  obtain ⟨lost, hfrozen⟩ := State.snapFreeze_of_freezing hstate hopen hx
  rw [hfrozen, State.violations_mem, State.violations_host, State.violations_frames, State.violations_opt]
  exact ⟨rfl, rfl, rfl, rfl⟩

end

end

/-- Settles O45: a clause is one outcome of SNAP_BEGIN, of a slot's flag word, of the freeze instant or of SNAP_READ. -/
theorem snapshotsBeginAndFreeze : Obligations.SnapshotsBeginAndFreeze := by
  unfold Obligations.SnapshotsBeginAndFreeze
  refine ⟨fun s flag hmbx hfenced hretired hcore => ?begins, fun s c n flag x w hx hw => ?acquire,
    fun s n h => exec_snapshotFreeze.trans (congrArg _ (State.snapFreeze_of_waits h)), fun s n x hstate hopen hx => ?freeze,
    fun s hmbx hfenced hretired hcore => ?read⟩
  case begins =>
    have hrun : s.Serves 0x90 := ⟨hmbx, hfenced, hretired, hcore⟩
    refine ⟨fun hbad => exec_snapBegin.trans (congrArg _ (State.snapBegin_of_badArgs hrun rfl rfl hbad)), fun x w hgood hx hw =>
      ⟨fun hheld hmay => exec_snapBegin.trans (congrArg _ (State.snapBegin_of_waits hrun rfl rfl hgood hx hw hheld hmay)),
        fun hheld hmay howner => exec_snapBegin.trans (congrArg _ (State.snapBegin_of_hostOwned hrun rfl rfl hgood hx hw hheld hmay howner)),
        fun h => ?_⟩, State.snapArgs_of_good⟩
    obtain ⟨t, ht⟩ := State.acquire_isSome (flag := flag) hx hw (h.imp_right And.right)
    have hread := h.imp_right And.left
    refine ⟨t, ht, fun hfull => exec_snapBegin.trans (congrArg _ (State.snapBegin_of_full hrun rfl rfl hgood hx hw hread ht hfull)),
      fun hroom => ?_⟩
    obtain ⟨i, hfree, hlow, hbegun⟩ := State.snapBegin_of_room hrun rfl rfl hgood hx hw hread ht hroom
    exact ⟨i, hfree, hlow, exec_snapBegin.trans (congrArg _ hbegun)⟩
  case acquire =>
    exact ⟨fun hheld => State.acquire_of_held hx hw (Option.isSome_iff_ne_none.2 hheld), State.acquire_of_hostOwned hx hw,
      State.acquire_of_handedOver hx hw⟩
  case freeze =>
    have hsnap := State.snap_snapFreeze_same hstate hopen hx
    obtain ⟨hmem, hhost, hframes, hopt⟩ := State.snapFreeze_memories hstate hopen hx
    refine ⟨s.snapFreeze n, exec_snapshotFreeze, congrArg SnapSlot.state hsnap, congrArg SnapSlot.ht hsnap, congrArg SnapSlot.modGen hsnap,
      (congrArg SnapSlot.list hsnap :), (congrArg SnapSlot.done hsnap :), fun m => State.snap_snapFreeze_other hstate hopen hx,
      fun i h hget hkind => ?control, fun h hh hrange v hv => ⟨fun hlow hhigh => ?held, fun hres hframe => ?frozen⟩, hmem, hhost, hframes,
      hopt, fun d => State.ctx?_snapFreeze_other hstate hopen hx⟩
    case control => exact (congrArg (fun t : SnapSlot => t.control.get? i) hsnap).trans (State.get?_controlFor hget hkind)
    case held =>
      rw [hsnap]
      exact Option.isSome_iff_exists.2 ⟨_, State.get?_frozenSlot hh hrange hv hlow hhigh⟩
    case frozen =>
      have hget := State.get?_frozenSlot hh hrange hv hres.ge (hres.trans_le (by decide))
      have hstateOf := pteState_pteMove (p := x.pt.getD v 0) (st := psFrozen) (by decide) hframe
      have hframeOf := pteFrame_pteMove (p := x.pt.getD v 0) (st := psFrozen) (by decide) hframe
      rw [← heldPte_of_resident hres] at hstateOf hframeOf
      refine ⟨?_, ?_, _, State.ctx?_snapFreeze_same hstate hopen hx, ?_, ?_⟩
      · rw [hsnap, Assoc.getD_of_get? hget, hstateOf]
      · rw [hsnap, Assoc.getD_of_get? hget, hframeOf]
      · rw [Context.pt_mapPtes_freezePte hres hframe hget, hstateOf]
      · rw [Context.pt_mapPtes_freezePte hres hframe hget, hframeOf]
  case read =>
    have hrun : s.Serves 0x91 := ⟨hmbx, hfenced, hretired, hcore⟩
    exact ⟨fun h => exec_snapRead.trans (congrArg _ (State.snapRead_of_reserved hrun h)),
      fun i h => exec_snapRead.trans (congrArg _ (State.snapRead_of_slot hrun h))⟩

end Sys2Proof.Machine

/-! The end of a snapshot: the debts it leaves and the pages it releases (11_snapshots.md R297, R301, R303, R304; 12_host_attachment.md
R316). -/

namespace Sys2Proof.Machine

/-! ## Debts of ended snapshots (R303, R304) -/

/-- The state with the snapshots, the bytes of Seam, the event rings and the hall time of another. -/
def State.taking (s u : State) : State := { s with snp := u.snp, mem := u.mem, evr := u.evr, tkp := u.tkp }

/-- The state with other debts of snapshots. -/
def State.withDebts (s : State) (ds : List SnapDebt) : State := { s with snp := { s.snp with debts := ds } }

/-- A debt is that of a context of function `fn`. -/
def State.owes (s : State) (fn : FnId) (d : SnapDebt) : Bool := (s.ctx? d.ctx).any (·.fn == fn)

section
variable {s u : State} {c : CtxId} {d : SnapDebt} {slot len : Nat} {crc : Word}

theorem State.ctx?_taking : (s.taking u).ctx? c = s.ctx? c := rfl

theorem State.tallyHost_taking : (s.taking u).tallyHost c len = (s.tallyHost c len).taking u := by
  unfold State.tallyHost
  rw [show (s.taking u).sch = s.sch from rfl]
  split
  · rfl
  · rfl

theorem State.handback_taking : (s.taking u).handback c slot len crc = (s.handback c slot len crc).taking u := by
  unfold State.handback
  rw [State.ctx?_taking]
  split
  · rfl
  · split
    · rfl
    · split
      · rfl
      · dsimp only
        rw [← State.tallyHost_taking]
        rfl

/-- One record's bytes written as each of the records `is` of the record slot at host address `a`. -/
def State.writeRecords (s : State) (c : CtxId) (a : Nat) (bs : List Byte) (is : List Nat) : State :=
  is.foldl (fun s i => (s.hostWrite (a + 512 * i) bs).tallyHost c 512) s

theorem State.writeRecords_taking {a : Nat} {bs : List Byte} {is : List Nat} :
    (s.taking u).writeRecords c a bs is = (s.writeRecords c a bs is).taking u :=
  List.foldl_hom (State.taking · u) fun _ _ => State.tallyHost_taking (s := State.hostWrite _ _ _)

theorem State.payDebt_of_noContext (hx : s.ctx? d.ctx = none) : s.payDebt d = s := by
  rw [State.payDebt, hx]

theorem State.payDebt_of_context {x : Context} (hx : s.ctx? d.ctx = some x) : s.payDebt d =
    ((match d.slot with
      | some k => (s.writeRecords d.ctx (x.slotAddr d.record) (List.replicate 512 0) d.zeros).handback d.ctx k 0 0
      | none => s.writeRecords d.ctx (x.slotAddr d.record) (List.replicate 512 0) d.zeros) : State).handback d.ctx d.record
        (512 * d.count) 0 := by
  rw [State.payDebt, hx]
  rfl

/-- Debts are paid by the contexts and host memory alone, whatever the snapshots are. -/
theorem State.payDebt_taking : (s.taking u).payDebt d = (s.payDebt d).taking u := by
  cases hx : s.ctx? d.ctx with
  | none => rw [State.payDebt_of_noContext hx, State.payDebt_of_noContext (s := s.taking u) hx]
  | some x =>
    rw [State.payDebt_of_context hx, State.payDebt_of_context (s := s.taking u) hx, State.writeRecords_taking]
    cases d.slot with
    | none => exact State.handback_taking
    | some k =>
      dsimp only
      rw [State.handback_taking, State.handback_taking]

theorem State.payAll_taking {ds : List SnapDebt} : ds.foldl State.payDebt (s.taking u) = (ds.foldl State.payDebt s).taking u :=
  List.foldl_hom (State.taking · u) fun _ _ => State.payDebt_taking

theorem State.payDebts_of_mayNot {fn : FnId} (h : s.mayRequest fn = false) : s.payDebts fn = s := by
  rw [State.payDebts, h]
  rfl

theorem State.payDebts_of_mayRequest {fn : FnId} (h : s.mayRequest fn = true) : s.payDebts fn =
    (s.snp.debts.filter (s.owes fn)).foldl State.payDebt (s.withDebts (s.snp.debts.filter fun d => !s.owes fn d)) := by
  rw [State.payDebts, h]
  rfl

theorem State.payDebts_taking {fn : FnId} : ∃ ds, s.payDebts fn = (s.payDebts fn).taking (s.withDebts ds) := by
  cases hmay : s.mayRequest fn with
  | false =>
    rw [State.payDebts_of_mayNot hmay]
    exact ⟨s.snp.debts, rfl⟩
  | true =>
    rw [State.payDebts_of_mayRequest hmay]
    generalize s.snp.debts.filter (fun d => !s.owes fn d) = rest
    exact ⟨rest, State.payAll_taking (s := s.withDebts rest) (u := s.withDebts rest)⟩

/-- A debt alone of a context whose function may issue requests is paid. -/
theorem State.payDebts_of_one {x : Context} (hx : s.ctx? d.ctx = some x) (h : s.mayRequest x.fn = true) :
    (s.withDebts [d]).payDebts x.fn = (s.payDebt d).taking (s.withDebts []) := by
  have howes : (s.withDebts [d]).owes x.fn d = true := by
    rw [State.owes, show (s.withDebts [d]).ctx? d.ctx = some x from hx]
    exact beq_self_eq_true x.fn
  rw [State.payDebts_of_mayRequest (s := s.withDebts [d]) h, show (s.withDebts [d]).snp.debts = [d] from rfl]
  simp only [List.filter_cons, List.filter_nil, howes, Bool.not_true, Bool.false_eq_true, if_false, if_true, List.foldl_cons,
    List.foldl_nil]
  exact State.payDebt_taking (s := s) (u := s.withDebts [])

end

/-! ## The release of held pages (R297) -/

/-- The state less the contexts and the uses of Seam pages. -/
def State.besidePages (s : State) : State := { s with ctxs := Vector.replicate 256 none, frames := [] }

section
variable {s : State} {n m : SnapId} {need : List Nat}

theorem State.gcReplaced_besidePages : s.gcReplaced.besidePages = s.besidePages :=
  foldl_view State.besidePages (f := fun (u : State) (e : CtxId × Context) => u.modCtx e.1 _) (fun _ _ => rfl) _ _

/-- But for the contexts and the uses of Seam pages, a release changes the entries held and nothing else. -/
theorem State.keepHeld_besidePages : (s.keepHeld n need).besidePages =
    (s.modSnap n fun t => { t with held := t.held.filter fun e => need.contains e.1 }).besidePages :=
  State.gcReplaced_besidePages

theorem State.snap_keepHeld_same :
    (s.keepHeld n need).snap n = { s.snap n with held := (s.snap n).held.filter fun e => need.contains e.1 } :=
  (congrArg (State.snap · n) State.keepHeld_besidePages).trans (State.snap_modSnap_same ..)

theorem State.snap_keepHeld_other (hm : m ≠ n) : (s.keepHeld n need).snap m = s.snap m :=
  (congrArg (State.snap · m) State.keepHeld_besidePages).trans (State.snap_modSnap_other _ _ _ _ hm)

theorem State.keepHeld_mem : (s.keepHeld n need).mem = s.mem := (congrArg State.mem State.keepHeld_besidePages :)
theorem State.keepHeld_host : (s.keepHeld n need).host = s.host := (congrArg State.host State.keepHeld_besidePages :)
theorem State.keepHeld_evr : (s.keepHeld n need).evr = s.evr := (congrArg State.evr State.keepHeld_besidePages :)
theorem State.keepHeld_tkp : (s.keepHeld n need).tkp = s.tkp := (congrArg State.tkp State.keepHeld_besidePages :)
theorem State.keepHeld_debts : (s.keepHeld n need).snp.debts = s.snp.debts :=
  (congrArg (fun u : State => u.snp.debts) State.keepHeld_besidePages :)

end

/-! ## The end of a snapshot (R301, R303, R304) -/

/-- What the snapshot in slot `t` owes when it ends. -/
def SnapSlot.debt (t : SnapSlot) : SnapDebt :=
  { ctx := ctxOf t.ctx.toNat, record := t.record, count := t.list.length, zeros := (List.range t.list.length).drop t.done
    slot := t.writing }

/-- The status of the snapshot in slot `t` when it ends with `st`: that of its first shard that failed. -/
def SnapSlot.finalStatus (t : SnapSlot) (st : Byte) : Byte :=
  if t.status ≠ stOk then t.status else if t.list.length ≤ t.done then stOk else st

/-- The debts of snapshot `n` are entered, and paid where its function may issue requests. -/
def State.indebted (s : State) (n : SnapId) : State :=
  match s.ctx? (ctxOf (s.snap n).ctx.toNat) with
  | some x => (s.withDebts (s.snp.debts ++ [(s.snap n).debt])).payDebts x.fn
  | none => s.withDebts (s.snp.debts ++ [(s.snap n).debt])

/-- Slot `n` is that of a snapshot that ended with `status`, and `left` shards of it count as failed. -/
def State.markEnded (s : State) (n : SnapId) (status : Byte) (left : Nat) : State :=
  { s.modSnap n (fun t => { t with state := 3, status := status, endHt := s.ht, writing := none }) with
    snp.shardsFail := satAdd s.snp.shardsFail left }

section
variable {s : State} {n m : SnapId} {st : Byte}

theorem State.indebted_taking : ∃ ds, s.indebted n = (s.indebted n).taking (s.withDebts ds) := by
  unfold State.indebted
  split
  · exact State.payDebts_taking
  · exact ⟨s.snp.debts ++ [(s.snap n).debt], rfl⟩

theorem State.snapEnd_eq : s.snapEnd n st =
    (((s.indebted n).markEnded n ((s.snap n).finalStatus st) (s.snap n).debt.zeros.length).keepHeld n []).raise 0x80 n.val
      (leBytes 4 (((s.snap n).finalStatus st).toNat + (s.snap n).ctx.toNat * 256) ++ leBytes 4 (s.snap n).gen.toNat) := by
  have hfinal : (if (s.snap n).status != stOk then (s.snap n).status else
      if ((List.range (s.snap n).list.length).drop (s.snap n).done).isEmpty then stOk else st) = (s.snap n).finalStatus st := by
    simp [SnapSlot.finalStatus]
  unfold State.snapEnd
  dsimp only
  rw [hfinal]
  rfl

theorem State.snap_snapEnd_same : (s.snapEnd n st).snap n =
    { s.snap n with state := 3, status := (s.snap n).finalStatus st, endHt := s.ht, writing := none, held := [] } := by
  obtain ⟨ds, hpaid⟩ := State.indebted_taking (s := s) (n := n)
  have hended : ((s.indebted n).markEnded n ((s.snap n).finalStatus st) (s.snap n).debt.zeros.length).snap n =
      { s.snap n with state := 3, status := (s.snap n).finalStatus st, endHt := s.ht, writing := none } := by
    rw [hpaid]
    exact State.snap_modSnap_same ..
  rw [State.snapEnd_eq]
  refine State.snap_keepHeld_same.trans ?_
  rw [hended]
  simp

theorem State.snap_snapEnd_other (hm : m ≠ n) : (s.snapEnd n st).snap m = s.snap m := by
  obtain ⟨ds, hpaid⟩ := State.indebted_taking (s := s) (n := n)
  rw [State.snapEnd_eq]
  refine (State.snap_keepHeld_other hm).trans ?_
  rw [hpaid]
  exact State.snap_modSnap_other _ _ _ _ hm

theorem State.snapEnd_mem : (s.snapEnd n st).mem = s.mem := by
  obtain ⟨ds, hpaid⟩ := State.indebted_taking (s := s) (n := n)
  rw [State.snapEnd_eq]
  exact State.keepHeld_mem.trans (congrArg State.mem hpaid :)

theorem State.snapEnd_debts : (s.snapEnd n st).snp.debts = (s.indebted n).snp.debts := by
  rw [State.snapEnd_eq]
  exact State.keepHeld_debts

theorem State.snapEnd_host : (s.snapEnd n st).host = (s.indebted n).host := by
  rw [State.snapEnd_eq]
  exact State.keepHeld_host

/-- Events are raised by the event rings and hall time alone. -/
theorem State.evr_raise_congr {u : State} {code subject : Nat} {payload : List Byte} (hevr : u.evr = s.evr) (htkp : u.tkp = s.tkp) :
    (u.raise code subject payload).evr = (s.raise code subject payload).evr := by
  simp only [State.raise, State.ht64, State.ht, hevr, htkp]

theorem State.snapEnd_evr : (s.snapEnd n st).evr = (s.raise 0x80 n.val
    (leBytes 4 (((s.snap n).finalStatus st).toNat + (s.snap n).ctx.toNat * 256) ++ leBytes 4 (s.snap n).gen.toNat)).evr := by
  obtain ⟨ds, hpaid⟩ := State.indebted_taking (s := s) (n := n)
  rw [State.snapEnd_eq]
  exact State.evr_raise_congr (State.keepHeld_evr.trans (congrArg State.evr hpaid :))
    (State.keepHeld_tkp.trans (congrArg State.tkp hpaid :))

section
variable {x : Context} (hx : s.ctx? (ctxOf (s.snap n).ctx.toNat) = some x)
include hx

theorem State.indebted_of_mayNot (hmay : s.mayRequest x.fn = false) :
    s.indebted n = s.withDebts (s.snp.debts ++ [(s.snap n).debt]) := by
  rw [State.indebted, hx]
  exact State.payDebts_of_mayNot hmay

theorem State.indebted_of_mayRequest (hmay : s.mayRequest x.fn = true) (hnone : s.snp.debts = []) :
    s.indebted n = (s.payDebt (s.snap n).debt).taking (s.withDebts []) := by
  rw [State.indebted, hx, hnone]
  exact State.payDebts_of_one hx hmay

end

end

end Sys2Proof.Machine

/-! The shards of a snapshot, its waits for a slot, CANCEL, release, and the digest of a slot range (11_snapshots.md R300 to R304, R313;
12_host_attachment.md R330). -/

namespace Sys2Proof.Machine

section
variable {s : State} {n : SnapId} {flag : List Byte}

/-! ## The commands -/

theorem exec_shardProcess {hits : List SeamHit} :
    exec (.shardProcess n flag hits) s = .next (s.shardProcess n flag (s.seamErrs hits)) := rfl
theorem exec_slotFlagPoll : exec (.slotFlagPoll n flag) s = .next (s.flagPoll n flag) := rfl
theorem exec_snapshotWaitExpiry : exec (.snapshotWaitExpiry n) s = .next (s.snapTimeout n) := rfl
theorem exec_cancel : exec (.cancel n) s = .next (s.snapCancel n) := rfl
theorem exec_snapshotRelease : exec (.snapshotRelease n) s = .next (s.snapRelease n) := rfl
theorem exec_digestSlot {data : List Byte} {fault : Bool} :
    exec (.digestSlot flag data fault) s = .next (s.digestSlot flag data fault) := rfl

end

section
variable {s a : State} {n : SnapId} {c : CtxId} {slot len : Nat} {crc : Word}

theorem State.modSnap_congr {f g : SnapSlot → SnapSlot} (h : f (s.snap n) = g (s.snap n)) : s.modSnap n f = s.modSnap n g :=
  congrArg (fun t => { s with snp := { s.snp with slots := vset s.snp.slots n t } }) h

theorem State.handback_snp : (s.handback c slot len crc).snp = s.snp := (congrArg State.snp (State.handback_taking (s := s) (u := s)) :)

/-- A slot that is had changes its context alone. -/
theorem State.acquire_frame {flag : List Byte} (h : s.acquire c slot flag = some a) : a = { s with ctxs := a.ctxs } := by
  obtain ⟨x, -, h⟩ := Option.bind_eq_some_iff.1 h
  obtain ⟨w, -, h⟩ := Option.bind_eq_some_iff.1 h
  split at h
  · rw [← Option.some.inj h]
  · split at h
    · rw [← Option.some.inj h]
      unfold State.tallyHost
      split
      · rfl
      · rfl
    · cases h

end

/-! ## The course of a shard (R300, R301, R303) -/

/-- The bytes of shard `h` go to its slot, or are left undefined there, and count. -/
def State.shardMoved (s : State) (c : CtxId) (x : Context) (h : Shard) (bs : List Byte) (fail : Bool) : State :=
  let u := if !h.writes then s
    else if fail then s.hostUndefined (x.slotAddr h.slot + h.slotOff) h.len
    else (s.hostWrite (x.slotAddr h.slot + h.slotOff) bs).tallyHost c bs.length
  if h.isRange then u.tallySeam c bs.length else u

/-- The largest offset written in the run of entries that shard `h` stands in, if it is the next of slot `t`. -/
def SnapSlot.runWith (t : SnapSlot) (h : Shard) (bs : List Byte) : Nat :=
  if h.writes then max t.runMax (h.slotOff + bs.length) else t.runMax

/-- Shard `h`, the next of slot `t`, is the last of its run. -/
def SnapSlot.runEnds (t : SnapSlot) (h : Shard) : Bool :=
  h.writes && (match t.list[t.done + 1]? with
    | some g => !(g.writes && g.slot == h.slot)
    | none => true)

/-- The record of shard `h`, the next of slot `t`: zeros where it failed. -/
def State.shardLogged (s : State) (c : CtxId) (x : Context) (t : SnapSlot) (h : Shard) (bs : List Byte) (fail : Bool) : State :=
  if fail then s.putRecord c x t t.done (List.replicate 512 0)
  else (s.putRecord c x t t.done (s.shardRecord x t h bs ++ s.signature (s.shardRecord x t h bs))).bumpFree

/-- The slot once shard `h` is processed. -/
def SnapSlot.afterShard (t : SnapSlot) (h : Shard) (bs : List Byte) (fail : Bool) (run : Nat) (back : Bool) : SnapSlot :=
  { t with
    done := t.done + 1
    status := if fail && t.status == stOk then stFenced else t.status
    digested := if fail then t.digested else t.digested + bs.length
    written := if fail || !h.writes then t.written else t.written + bs.length
    runMax := if back then 0 else run
    writing := if back then none else if h.writes then some h.slot else t.writing }

/-- The module's count of shards done and failed. -/
def State.countShard (s : State) (fail : Bool) : State :=
  { s with
    snp.shardsOk := if fail then s.snp.shardsOk else s.snp.shardsOk + 1
    snp.shardsFail := if fail then satInc s.snp.shardsFail else s.snp.shardsFail }

/-- The pages that no later shard of slot `t` needs are released, and the snapshot ends after its last shard. -/
def State.shardPassed (s : State) (n : SnapId) (t : SnapSlot) : State :=
  let v := s.keepHeld n (shardPages (t.list.drop (t.done + 1)))
  if t.done + 1 = t.list.length then v.snapEnd n stOk else v

/-- A shard whose bytes stand is recorded and counts; `f` is what else it changes in its slot. -/
def State.shardDone (s : State) (n : SnapId) (x : Context) (t : SnapSlot) (h : Shard) (bs : List Byte)
    (f : SnapSlot → SnapSlot) : State :=
  (((s.shardLogged (ctxOf t.ctx.toNat) x t h bs false).modSnap n fun t' =>
    f { t' with done := t'.done + 1, digested := t'.digested + bs.length }).countShard false).shardPassed n t

/-- A shard that failed has a record of zeros, and its snapshot the status FENCED. -/
def State.shardFailed (s : State) (n : SnapId) (x : Context) (t : SnapSlot) : State :=
  (((s.putRecord (ctxOf t.ctx.toNat) x t t.done (List.replicate 512 0)).modSnap n fun t' =>
    { t' with done := t'.done + 1, status := if t'.status = stOk then stFenced else t'.status }).countShard true).shardPassed n t

/-- The bytes of a shard are written to its slot, held by the device and busy. -/
def State.shardWritten (s : State) (c : CtxId) (x : Context) (h : Shard) (bs : List Byte) : State :=
  let v := ((s.modSlot c h.slot fun w => { w with busy := true }).hostWrite (x.slotAddr h.slot + h.slotOff) bs).tallyHost c bs.length
  if h.kind = 0 then v.tallySeam c bs.length else v

section
variable {s u : State} {n m : SnapId} {c : CtxId} {x : Context} {t : SnapSlot} {h : Shard} {bs : List Byte} {fail : Bool}

theorem State.snap_of_snp (hsnp : u.snp = s.snp) : u.snap m = s.snap m := congrArg (fun q : Snp => vget q.slots m) hsnp

theorem State.putRecord_snp {i : Nat} : (s.putRecord c x t i bs).snp = s.snp := State.tallyHost_snp ..

theorem State.shardLogged_snp : (s.shardLogged c x t h bs fail).snp = s.snp := by
  unfold State.shardLogged
  split
  · exact State.putRecord_snp
  · exact State.putRecord_snp

theorem State.shardWritten_snp : (s.shardWritten c x h bs).snp = s.snp :=
  view_ite State.snp ((State.tallySeam_snp ..).trans (State.tallyHost_snp ..)) (State.tallyHost_snp ..)

/-- What a shard leaves in its slot is told by the slot as it stood. -/
theorem State.modSnap_shardLogged_congr {f g : SnapSlot → SnapSlot} (hsnp : s.snp = u.snp) (hfg : f (u.snap n) = g (u.snap n)) :
    (s.shardLogged c x t h bs fail).modSnap n f = (s.shardLogged c x t h bs fail).modSnap n g :=
  State.modSnap_congr (by rw [State.snap_of_snp (State.shardLogged_snp.trans hsnp), hfg])

theorem SnapSlot.failsOn_iff :
    t.failsOn h [] = true ↔ h.isRange = true ∧ ∃ v ∈ shardPages [h], pteState (t.held.getD v 0) = psPoisoned := by
  simp [SnapSlot.failsOn]

theorem SnapSlot.failsOn_of_whole (hwhole : h.isRange = false ∨ ∀ v ∈ shardPages [h], pteState (t.held.getD v 0) ≠ psPoisoned) :
    t.failsOn h [] = false := by
  rw [Bool.eq_false_iff, ne_eq, SnapSlot.failsOn_iff]
  rintro ⟨hrange, v, hv, hpoisoned⟩
  rcases hwhole with hnone | hwhole
  · exact absurd (hnone.symm.trans hrange) Bool.false_ne_true
  · exact hwhole v hv hpoisoned

theorem SnapSlot.runEnds_eq_false (hwrites : h.writes = true) :
    t.runEnds h = false ↔ ∃ g, t.list[t.done + 1]? = some g ∧ g.writes = true ∧ g.slot = h.slot := by
  unfold SnapSlot.runEnds
  rw [hwrites]
  split
  · next g hg => simp [hg]
  · next hg => simp [hg]

theorem SnapSlot.failsOn_of_poisoned (hrange : h.isRange = true)
    (hpoisoned : ¬ ∀ v ∈ shardPages [h], pteState (t.held.getD v 0) ≠ psPoisoned) : t.failsOn h [] = true := by
  push Not at hpoisoned
  exact SnapSlot.failsOn_iff.2 ⟨hrange, hpoisoned⟩

section
variable (hkind : h.kind = 1)
include hkind

theorem Shard.writes_of_reference : h.writes = false := by rw [Shard.writes, hkind]; rfl

theorem State.shardSlot_of_reference {flag : List Byte} : s.shardSlot c h flag = some s := by
  rw [State.shardSlot, Shard.writes_of_reference hkind]; rfl

theorem SnapSlot.runEnds_of_reference : t.runEnds h = false := by rw [SnapSlot.runEnds, Shard.writes_of_reference hkind]; rfl

theorem State.shardMoved_of_reference : s.shardMoved c x h bs fail = s.tallySeam c bs.length := by
  rw [State.shardMoved, Shard.writes_of_reference hkind, Shard.isRange, hkind]
  rfl

end

theorem Shard.not_range_of_control (hkind : h.kind = 2) : h.isRange = false := by rw [Shard.isRange, hkind]; rfl

/-- A shard that is written is one of DATA or of CONTROL. -/
theorem Shard.kind_of_writes (hwrites : h.writes = true) : h.kind = 0 ∨ h.kind = 2 := by simpa [Shard.writes] using hwrites

theorem State.shardMoved_of_writes (hwrites : h.writes = true) :
    (s.modSlot c h.slot fun w => { w with busy := true }).shardMoved c x h bs false = s.shardWritten c x h bs := by
  rw [State.shardMoved, State.shardWritten, hwrites]
  rcases Shard.kind_of_writes hwrites with hkind | hkind
  · rw [Shard.isRange, hkind]
    rfl
  · rw [Shard.isRange, hkind]
    rfl

/-- The bytes of a shard do not depend on the contexts' windows. -/
theorem State.shardBytes_frame {i : Nat} (hframe : u = { s with ctxs := u.ctxs }) : u.shardBytes x t i h = s.shardBytes x t i h := by
  rw [hframe]
  rfl

theorem State.shardBytes_of_range {i : Nat} (hkind : h.kind ≠ 2) : s.shardBytes x t i h =
    (List.range h.len).map fun j => s.entryByte x (t.held.getD ((h.va + j) / pageSize) 0) ((h.va + j) % pageSize) :=
  if_neg (mt beq_iff_eq.1 hkind)

end

section
variable {s : State} {n : SnapId} {flag : List Byte}

theorem State.shardProcess_of_notWriting {errs : SeamErrs} (h : (s.snap n).state ≠ 2) : s.shardProcess n flag errs = s := by
  unfold State.shardProcess
  dsimp only
  split
  · exact if_pos (by rw [bne_iff_ne.2 h]; rfl)
  · rfl

section
variable {x : Context} {h : Shard} (hx : s.ctx? (ctxOf (s.snap n).ctx.toNat) = some x) (hh : (s.snap n).list[(s.snap n).done]? = some h)
include hx hh

theorem State.shardProcess_of_mayNot {errs : SeamErrs} (hmay : s.mayRequest x.fn = false) : s.shardProcess n flag errs = s := by
  unfold State.shardProcess
  dsimp only
  rw [hx, hh]
  exact if_pos (by simp [hmay])

variable (hstate : (s.snap n).state = 2) (hmay : s.mayRequest x.fn = true)
include hstate hmay

theorem State.shardProcess_of_waits {errs : SeamErrs} (hwrites : h.writes = true)
    (hnone : s.acquire (ctxOf (s.snap n).ctx.toNat) h.slot flag = none) : s.shardProcess n flag errs = s := by
  simp only [State.shardProcess, hx, hh, hstate, hmay, State.shardSlot, hwrites, hnone, bne_self_eq_false, Bool.not_true, Bool.or_self,
    Bool.false_eq_true, if_false, if_true, Option.map_none]

/-- R301: a shard whose slot is had, and in whose pages no error shows, takes its course. -/
theorem State.shardProcess_of_slot {a : State} (ha : s.shardSlot (ctxOf (s.snap n).ctx.toNat) h flag = some a) :
    s.shardProcess n flag (s.seamErrs []) =
      let t := s.snap n
      let c := ctxOf t.ctx.toNat
      let bs := a.shardBytes x t t.done h
      let fail := t.failsOn h []
      let u := a.shardMoved c x h bs fail
      let v := if t.runEnds h then u.handback c h.slot (t.runWith h bs) 0 else u
      (((v.shardLogged c x t h bs fail).modSnap n fun t' => t'.afterShard h bs fail (t.runWith h bs) (t.runEnds h)).countShard
        fail).shardPassed n t := by
  have hgo : ¬ ((s.snap n).state != 2 || !s.mayRequest x.fn) = true := by simp [hstate, hmay]
  unfold State.shardProcess State.shardPassed
  dsimp only
  rw [hx, hh]
  dsimp only
  rw [if_neg hgo, ha]
  exact if_congr beq_iff_eq rfl rfl

/-- A REFERENCE shard is digested where it stands. -/
theorem State.shardProcess_of_reference (hkind : h.kind = 1)
    (hwhole : ∀ v ∈ shardPages [h], pteState ((s.snap n).held.getD v 0) ≠ psPoisoned) :
    s.shardProcess n flag (s.seamErrs []) =
      (s.tallySeam (ctxOf (s.snap n).ctx.toNat) (s.shardBytes x (s.snap n) (s.snap n).done h).length).shardDone n x (s.snap n) h
        (s.shardBytes x (s.snap n) (s.snap n).done h) id := by
  have hwrites := Shard.writes_of_reference hkind
  rw [State.shardProcess_of_slot hx hh hstate hmay (State.shardSlot_of_reference hkind)]
  dsimp only
  rw [SnapSlot.failsOn_of_whole (.inr hwhole), SnapSlot.runEnds_of_reference hkind, State.shardMoved_of_reference hkind,
    if_neg Bool.false_ne_true, State.modSnap_shardLogged_congr (u := s) (State.tallySeam_snp ..)]
  · rfl
  · rw [SnapSlot.afterShard, SnapSlot.runWith, hwrites]
    rfl

theorem State.shardProcess_of_poisonedReference (hkind : h.kind = 1)
    (hpoisoned : ¬ ∀ v ∈ shardPages [h], pteState ((s.snap n).held.getD v 0) ≠ psPoisoned) :
    s.shardProcess n flag (s.seamErrs []) =
      (s.tallySeam (ctxOf (s.snap n).ctx.toNat) (s.shardBytes x (s.snap n) (s.snap n).done h).length).shardFailed n x (s.snap n) := by
  have hwrites := Shard.writes_of_reference hkind
  rw [State.shardProcess_of_slot hx hh hstate hmay (State.shardSlot_of_reference hkind)]
  dsimp only
  rw [SnapSlot.failsOn_of_poisoned (by rw [Shard.isRange, hkind]; rfl) hpoisoned, SnapSlot.runEnds_of_reference hkind,
    State.shardMoved_of_reference hkind, if_neg Bool.false_ne_true, State.modSnap_shardLogged_congr (u := s) (State.tallySeam_snp ..)]
  · rfl
  · rw [SnapSlot.afterShard, SnapSlot.runWith, hwrites]
    simp only [Bool.true_and, beq_iff_eq]
    rfl

/-- A DATA or CONTROL shard is written to its slot, which is handed back after the last shard of its run. -/
theorem State.shardProcess_of_writes {a : State} (hwrites : h.writes = true)
    (hwhole : h.kind = 2 ∨ ∀ v ∈ shardPages [h], pteState ((s.snap n).held.getD v 0) ≠ psPoisoned)
    (ha : s.acquire (ctxOf (s.snap n).ctx.toNat) h.slot flag = some a) :
    s.shardProcess n flag (s.seamErrs []) =
      let bs := s.shardBytes x (s.snap n) (s.snap n).done h
      let c := ctxOf (s.snap n).ctx.toNat
      let u := a.shardWritten c x h bs
      let run := max (s.snap n).runMax (h.slotOff + bs.length)
      (if (s.snap n).runEnds h then u.handback c h.slot run 0 else u).shardDone n x (s.snap n) h bs fun t => { t with
        written := t.written + bs.length
        runMax := if (s.snap n).runEnds h then 0 else run
        writing := if (s.snap n).runEnds h then none else some h.slot } := by
  have hframe := State.acquire_frame ha
  have hacquired : a.snp = s.snp := by rw [hframe]
  have hslot : s.shardSlot (ctxOf (s.snap n).ctx.toNat) h flag =
      some (a.modSlot (ctxOf (s.snap n).ctx.toNat) h.slot fun w => { w with busy := true }) := by
    rw [State.shardSlot, hwrites, ha]
    rfl
  have hbytes : (a.modSlot (ctxOf (s.snap n).ctx.toNat) h.slot fun w => { w with busy := true }).shardBytes x (s.snap n) (s.snap n).done h =
      s.shardBytes x (s.snap n) (s.snap n).done h := State.shardBytes_frame (by rw [hframe]; rfl)
  have hsnp : ∀ bs run, (if (s.snap n).runEnds h then
      (a.shardWritten (ctxOf (s.snap n).ctx.toNat) x h bs).handback (ctxOf (s.snap n).ctx.toNat) h.slot run 0
      else a.shardWritten (ctxOf (s.snap n).ctx.toNat) x h bs).snp = s.snp := fun bs run =>
    view_ite State.snp (State.handback_snp.trans (State.shardWritten_snp.trans hacquired)) (State.shardWritten_snp.trans hacquired)
  rw [State.shardProcess_of_slot hx hh hstate hmay hslot]
  dsimp only
  rw [hbytes, SnapSlot.failsOn_of_whole (hwhole.imp_left Shard.not_range_of_control), State.shardMoved_of_writes hwrites,
    SnapSlot.runWith, hwrites, if_pos rfl, State.modSnap_shardLogged_congr (hsnp _ _)]
  · rfl
  · rw [SnapSlot.afterShard, hwrites]
    rfl

end

end

/-! ## Waits for a slot (R302; 12_host_attachment.md R330) -/

section
variable {s : State} {n : SnapId} {flag : List Byte}

theorem State.waitsFor_of_notWriting (h : (s.snap n).state ≠ 2) : s.waitsFor n = none := by
  unfold State.waitsFor
  dsimp only
  split
  · rw [beq_eq_false_iff_ne.2 h]
    rfl
  · rfl

theorem State.snapTimeout_of_noWait (h : s.waitsFor n = none) : s.snapTimeout n = s := by
  rw [State.snapTimeout, h]
  rfl

theorem State.flagPoll_of_noWait (h : s.waitsFor n = none) : s.flagPoll n flag = s := by
  rw [State.flagPoll, h]

section
variable {x : Context} {h : Shard} (hx : s.ctx? (ctxOf (s.snap n).ctx.toNat) = some x) (hh : (s.snap n).list[(s.snap n).done]? = some h)
  (hstate : (s.snap n).state = 2) (hwrites : h.writes = true)
include hx hh hstate hwrites

/-- A slot that is not defined is waited for as is one that the device does not hold. -/
theorem State.waitsFor_of_notHeld (hslot : x.slot? h.slot = none ∨ ∃ w, x.slot? h.slot = some w ∧ w.held = none) :
    s.waitsFor n = some (ctxOf (s.snap n).ctx.toNat, h.slot) := by
  have hnone : (x.slot? h.slot).any (fun w : WinSlot => w.held.isSome) = false := by
    rcases hslot with hslot | ⟨w, hslot, hheld⟩
    · rw [hslot]
      rfl
    · rw [hslot, Option.any_some, hheld]
      rfl
  unfold State.waitsFor
  dsimp only
  rw [hx, hh]
  dsimp only
  rw [hstate, hwrites, hnone]
  rfl

theorem State.snapTimeout_of_waits (hslot : x.slot? h.slot = none ∨ ∃ w, x.slot? h.slot = some w ∧ w.held = none) :
    s.snapTimeout n = (s.snapEnd n stTimeout).raise 0x20 5 (leBytes 4 n.val) := by
  rw [State.snapTimeout, State.waitsFor_of_notHeld hx hh hstate hwrites hslot]
  rfl

variable {w : WinSlot} (hw : x.slot? h.slot = some w) (hheld : w.held = none)
include hw hheld

theorem State.flagPoll_of_waits (hno : flagOwner flag = false ∨ s.mayRequest x.fn = false) : s.flagPoll n flag = s := by
  rw [State.flagPoll, State.waitsFor_of_notHeld hx hh hstate hwrites (.inr ⟨w, hw, hheld⟩)]
  dsimp only
  rw [hx, Option.any_some]
  cases hmay : s.mayRequest x.fn with
  | false => rfl
  | true =>
    rw [State.acquire_of_hostOwned hx hw hheld (hno.resolve_right (by rw [hmay]; decide))]
    rfl

theorem State.flagPoll_of_handedOver (howner : flagOwner flag = true) (hmay : s.mayRequest x.fn = true) : s.flagPoll n flag =
    ((((s.modSlot (ctxOf (s.snap n).ctx.toNat) h.slot fun w => { w with
      held := some (flagSeq flag), flagLen := flagLenOf flag, flagCrc := flagCrcOf flag }).tallyHost (ctxOf (s.snap n).ctx.toNat) 16).modSlot
        (ctxOf (s.snap n).ctx.toNat) h.slot fun w => { w with busy := true }).modSnap n fun t => { t with writing := some h.slot }) := by
  rw [State.flagPoll, State.waitsFor_of_notHeld hx hh hstate hwrites (.inr ⟨w, hw, hheld⟩)]
  dsimp only
  rw [hx, Option.any_some, hmay, State.acquire_of_handedOver hx hw hheld howner]
  rfl

end

/-! ## CANCEL and SNAPSHOT_RELEASE (R304) -/

theorem State.snapCancel_of_free (h : (s.snap n).state = 0) : s.snapCancel n = s.regViol := if_pos (beq_iff_eq.2 h)

theorem State.snapRelease_of_free (h : (s.snap n).state = 0) : s.snapRelease n = s.regViol := if_pos (beq_iff_eq.2 h)

theorem State.snapCancel_of_live (h : (s.snap n).state = 1 ∨ (s.snap n).state = 2) : s.snapCancel n = s.snapEnd n stKilled := by
  rcases h with h | h
  · rw [State.snapCancel, SnapSlot.live, h]
    rfl
  · rw [State.snapCancel, SnapSlot.live, h]
    rfl

theorem State.snapRelease_of_live (h : (s.snap n).state = 1 ∨ (s.snap n).state = 2) : s.snapRelease n = s := by
  rcases h with h | h
  · rw [State.snapRelease, h]
    rfl
  · rw [State.snapRelease, h]
    rfl

theorem State.snapCancel_of_ended (h : (s.snap n).state = 3) : s.snapCancel n = s := by
  rw [State.snapCancel, SnapSlot.live, h]
  rfl

theorem State.snapRelease_of_ended (h : (s.snap n).state = 3) : s.snapRelease n = s.modSnap n fun _ => snapSlotReset := by
  rw [State.snapRelease, h]
  rfl

end

/-! ## DIGEST_SLOT (R313) -/

section
variable {s : State} {flag data : List Byte} {fault : Bool} (hrun : s.Serves 0x92)
include hrun

theorem State.digestSlot_of_badArgs (h : bits (s.mbxArg 0) 15 8 ≠ 0 ∨ s.mbxArg 1 ≠ 0 ∨ 2 ^ 30 < fieldAt s.mbxBytes 16 8 ∨
    ((s.ctx? (ctxOf (bits (s.mbxArg 0) 7 0))).bind fun x => x.slot? (bits (s.mbxArg 0) 31 16)) = none) :
    s.digestSlot flag data fault = s.mbxEnd stOk [8, 0, 0, 0] := by
  rw [State.digestSlot, hrun.mbxRun]
  dsimp only
  split
  · rfl
  · next hargs =>
    simp only [Bool.or_eq_true, bne_iff_ne, decide_eq_true_eq, not_or] at hargs
    obtain ⟨⟨hreserved, hsecond⟩, hlen⟩ := hargs
    rw [((h.resolve_left hreserved).resolve_left hsecond).resolve_left hlen]
    rfl

section
variable {x : Context} {w : WinSlot} (hreserved : bits (s.mbxArg 0) 15 8 = 0) (hsecond : s.mbxArg 1 = 0)
  (hlen : fieldAt s.mbxBytes 16 8 ≤ 2 ^ 30) (hx : s.ctx? (ctxOf (bits (s.mbxArg 0) 7 0)) = some x)
  (hw : x.slot? (bits (s.mbxArg 0) 31 16) = some w)
include hreserved hsecond hlen hx hw

/-- What a request for the digest of a range of a defined slot comes to. -/
theorem State.digestSlot_of_slot : s.digestSlot flag data fault =
    if w.p2p || w.size < fieldAt s.mbxBytes 8 8 + fieldAt s.mbxBytes 16 8 then s.mbxEnd stOk [8, 0, 0, 0]
    else if !s.mayRequest x.fn then s
    else match s.acquire (ctxOf (bits (s.mbxArg 0) 7 0)) (bits (s.mbxArg 0) 31 16) flag with
      | none => s.mbxEnd stOk [8, 0, 0, 0]
      | some t =>
        if fault then t.mbxEnd stOk [7, 0, 0, 0]
        else (t.tallyHost (ctxOf (bits (s.mbxArg 0) 7 0)) (fieldAt s.mbxBytes 16 8)).mbxEnd stOk
          (leBytes 4 0 ++ sha384 (slice data 0 (fieldAt s.mbxBytes 16 8))) := by
  simp only [State.digestSlot, hrun.mbxRun, hreserved, hsecond, hlen.not_gt, hx, hw, Option.bind_some, Option.any_some, bne_self_eq_false,
    decide_false, Bool.or_self, Bool.false_eq_true, if_false]
  rfl

theorem State.digestSlot_of_badRange (h : w.p2p = true ∨ w.size < fieldAt s.mbxBytes 8 8 + fieldAt s.mbxBytes 16 8) :
    s.digestSlot flag data fault = s.mbxEnd stOk [8, 0, 0, 0] :=
  (State.digestSlot_of_slot hrun hreserved hsecond hlen hx hw).trans (if_pos (by simpa using h))

variable (hport : w.p2p = false) (hrange : fieldAt s.mbxBytes 8 8 + fieldAt s.mbxBytes 16 8 ≤ w.size)
include hport hrange

theorem State.digestSlot_of_mayNot (hmay : s.mayRequest x.fn = false) : s.digestSlot flag data fault = s := by
  rw [State.digestSlot_of_slot hrun hreserved hsecond hlen hx hw, if_neg (by simpa [hport] using hrange), hmay]
  rfl

variable (hmay : s.mayRequest x.fn = true)
include hmay

theorem State.digestSlot_of_hostOwned (hheld : w.held = none) (howner : flagOwner flag = false) :
    s.digestSlot flag data fault = s.mbxEnd stOk [8, 0, 0, 0] := by
  rw [State.digestSlot_of_slot hrun hreserved hsecond hlen hx hw, if_neg (by simpa [hport] using hrange), hmay,
    State.acquire_of_hostOwned hx hw hheld howner]
  rfl

theorem State.digestSlot_of_held (hheld : w.held ≠ none) : s.digestSlot flag data fault =
    if fault then s.mbxEnd stOk [7, 0, 0, 0]
    else (s.tallyHost (ctxOf (bits (s.mbxArg 0) 7 0)) (fieldAt s.mbxBytes 16 8)).mbxEnd stOk
      (leBytes 4 0 ++ sha384 (slice data 0 (fieldAt s.mbxBytes 16 8))) := by
  rw [State.digestSlot_of_slot hrun hreserved hsecond hlen hx hw, if_neg (by simpa [hport] using hrange), hmay,
    State.acquire_of_held hx hw (Option.isSome_iff_ne_none.2 hheld)]
  rfl

end

end

/-- Settles O46: a clause is one outcome of a shard, of the end of a snapshot, of a wait, of CANCEL, of a release or of DIGEST_SLOT. -/
theorem snapshotsWriteAndEnd : Obligations.SnapshotsWriteAndEnd := by
  unfold Obligations.SnapshotsWriteAndEnd
  refine ⟨fun s n flag x h => ?shards, fun s x t i h hkind => State.shardBytes_of_range hkind,
    fun s n flag hits h => exec_shardProcess.trans (congrArg _ (State.shardProcess_of_notWriting h)), fun s n st => ?ends,
    fun s n => ?release, fun s n x h => ?waits, fun s n h => ?noWait, fun s flag data hmbx hfenced hretired hcore => ?digest⟩
  case shards =>
    intro t c bs whole fin good more hx hh hstate
    refine ⟨fun hmay hits => exec_shardProcess.trans (congrArg _ (State.shardProcess_of_mayNot hx hh hmay)), fun hmay =>
      ⟨fun hkind hwhole => exec_shardProcess.trans (congrArg _ (State.shardProcess_of_reference hx hh hstate hmay hkind hwhole)),
        fun hkind hpoisoned => exec_shardProcess.trans
          (congrArg _ (State.shardProcess_of_poisonedReference hx hh hstate hmay hkind hpoisoned)),
        fun hwrites hwhole hsome => ?written,
        fun hwrites hnone hits => exec_shardProcess.trans (congrArg _ (State.shardProcess_of_waits hx hh hstate hmay hwrites hnone))⟩⟩
    case written =>
      obtain ⟨a, ha⟩ := Option.isSome_iff_exists.1 hsome
      have hdone := State.shardProcess_of_writes hx hh hstate hmay hwrites hwhole ha
      refine ⟨a, ha, fun hmore => ?_, fun hlast => ?_⟩
      · rw [(SnapSlot.runEnds_eq_false hwrites).2 hmore] at hdone
        exact exec_shardProcess.trans (congrArg _ hdone)
      · rw [Bool.eq_true_of_not_eq_false (mt (SnapSlot.runEnds_eq_false hwrites).1 hlast)] at hdone
        exact exec_shardProcess.trans (congrArg _ hdone)
  case ends =>
    have hsnap := State.snap_snapEnd_same (s := s) (n := n) (st := st)
    have hstatus : ((s.snapEnd n st).snap n).status = (s.snap n).finalStatus st := congrArg SnapSlot.status hsnap
    refine ⟨congrArg SnapSlot.state hsnap, congrArg SnapSlot.held hsnap, congrArg SnapSlot.endHt hsnap, (congrArg SnapSlot.list hsnap :),
      congrArg SnapSlot.writing hsnap, hstatus, fun m => State.snap_snapEnd_other, State.snapEnd_mem, ?_, fun x hx =>
        ⟨fun hmay => ?_, fun hmay hnone => ?_⟩⟩
    · rw [hstatus]
      exact State.snapEnd_evr
    · rw [State.snapEnd_debts, State.snapEnd_host, State.indebted_of_mayNot hx hmay]
      exact ⟨rfl, rfl⟩
    · rw [State.snapEnd_debts, State.snapEnd_host, State.indebted_of_mayRequest hx hmay hnone]
      exact ⟨rfl, rfl⟩
  case release =>
    exact ⟨fun h => ⟨exec_cancel.trans (congrArg _ (State.snapCancel_of_free h)),
        exec_snapshotRelease.trans (congrArg _ (State.snapRelease_of_free h))⟩,
      fun h => ⟨exec_cancel.trans (congrArg _ (State.snapCancel_of_live h)),
        exec_snapshotRelease.trans (congrArg _ (State.snapRelease_of_live h))⟩,
      fun h => ⟨exec_cancel.trans (congrArg _ (State.snapCancel_of_ended h)),
        exec_snapshotRelease.trans (congrArg _ (State.snapRelease_of_ended h))⟩⟩
  case waits =>
    intro c hx hh hstate hwrites
    exact ⟨fun hslot => exec_snapshotWaitExpiry.trans (congrArg _ (State.snapTimeout_of_waits hx hh hstate hwrites hslot)),
      fun w hw hheld flag =>
        ⟨fun hno => exec_slotFlagPoll.trans (congrArg _ (State.flagPoll_of_waits hx hh hstate hwrites hw hheld hno)),
          fun howner hmay => exec_slotFlagPoll.trans
            (congrArg _ (State.flagPoll_of_handedOver hx hh hstate hwrites hw hheld howner hmay))⟩⟩
  case noWait =>
    have hnone := State.waitsFor_of_notWriting h
    exact ⟨exec_snapshotWaitExpiry.trans (congrArg _ (State.snapTimeout_of_noWait hnone)),
      fun flag => exec_slotFlagPoll.trans (congrArg _ (State.flagPoll_of_noWait hnone))⟩
  case digest =>
    have hrun : s.Serves 0x92 := ⟨hmbx, hfenced, hretired, hcore⟩
    refine ⟨fun h f => exec_digestSlot.trans (congrArg _ (State.digestSlot_of_badArgs hrun ?badArgs)), fun x hreserved hsecond hlen hx =>
      ⟨fun hnone f => exec_digestSlot.trans (congrArg _ (State.digestSlot_of_badArgs hrun (.inr (.inr (.inr ?noSlot))))), fun w hw =>
        ⟨fun h f => exec_digestSlot.trans (congrArg _ (State.digestSlot_of_badRange hrun hreserved hsecond hlen hx hw h)),
          fun hport hrange =>
            ⟨fun hmay f => exec_digestSlot.trans
                (congrArg _ (State.digestSlot_of_mayNot hrun hreserved hsecond hlen hx hw hport hrange hmay)),
              fun hmay hheld howner f => exec_digestSlot.trans
                (congrArg _ (State.digestSlot_of_hostOwned hrun hreserved hsecond hlen hx hw hport hrange hmay hheld howner)),
              fun hmay hheld => ?held⟩⟩⟩⟩
    case badArgs => exact h.imp_right (Or.imp_right (Or.imp_right fun hnone => by rw [hnone, Option.bind_none]))
    case noSlot => rw [hx, Option.bind_some, hnone]
    case held =>
      have hread := fun f => State.digestSlot_of_held (flag := flag) (data := data) (fault := f) hrun hreserved hsecond hlen hx hw hport
        hrange hmay hheld
      exact ⟨exec_digestSlot.trans (congrArg _ (hread false)), exec_digestSlot.trans (congrArg _ (hread true))⟩

end Sys2Proof.Machine

/-! What a step keeps, at the front of the queue and on an empty one (13_reset_health.md R353, R365; 12_host_attachment.md R324). -/

namespace Sys2Proof.Machine

section
variable {s t : State}

/-- A step, idle or of a command, keeps the invariants of Safety.lean. -/
theorem step_keeps (h : step s = .next t) :
    (s.retiredHeld = true → t.retiredHeld = true) ∧ (s.mailboxSane = true → t.mailboxSane = true) := by
  unfold step at h
  split at h
  case h_1 =>
    cases h
    exact ⟨s.idle_kept.held, s.idle_kept.mailbox⟩
  case h_2 =>
    have hkept := exec_next_kept h
    exact ⟨hkept.held, hkept.mailbox⟩

end

/-- Settles O1: `step` takes the first command off the queue. -/
theorem stepRunsFrontCommand : Obligations.StepRunsFrontCommand := by
  unfold Obligations.StepRunsFrontCommand
  exact fun c rest s => rfl

/-- Settles O3: what `Kept` says of the queue holds of every command. -/
theorem everyCommandCompletesAndSparesTheQueue : Obligations.EveryCommandCompletesAndSparesTheQueue := by
  unfold Obligations.EveryCommandCompletesAndSparesTheQueue
  intro c s
  obtain ⟨t, hexec, hkept⟩ := exec_kept c s
  exact ⟨t, hexec, hkept.queue⟩

/-- Settles O5: an idle step and every command keep a retired module in the core reset. -/
theorem stepKeepsRetiredModuleHeld : Obligations.StepKeepsRetiredModuleHeld := by
  unfold Obligations.StepKeepsRetiredModuleHeld
  exact fun s t hheld hstep => (step_keeps hstep).1 hheld

/-- Settles O6: an idle step and every command leave one of BUSY and VALID clear. -/
theorem stepKeepsMailboxSane : Obligations.StepKeepsMailboxSane := by
  unfold Obligations.StepKeepsMailboxSane
  exact fun s t hsane hstep => (step_keeps hstep).2 hsane

/-- Settles O7: each part of the state after the power-on reset is given by its definition. -/
theorem resetMeetsTheInvariants : Obligations.ResetMeetsTheInvariants := by
  unfold Obligations.ResetMeetsTheInvariants
  exact ⟨rfl, rfl, rfl, fun c => vget_replicate none c, rfl, fun a => ⟨rfl, rfl, rfl⟩, rfl, rfl⟩

end Sys2Proof.Machine

/-! Posted writes that take effect, and a capture asked for by a register (12_host_attachment.md R321; 13_reset_health.md R363;
02_field.md R59). -/

namespace Sys2Proof.Machine

section
variable {s : State} {b : PBlock} {v : Word}

theorem exec_postedWriteEffect : exec (.postedWriteEffect b) s = .next (s.postedEffect b) := rfl

theorem State.postedEffect_of_idle (h : s.posted.get b = none) : s.postedEffect b = s := by
  rw [State.postedEffect, h]

/-- The state in which a block's BUSY has cleared. -/
def State.unposted (s : State) (b : PBlock) : State := { s with posted := s.posted.put b none }

/-- The effect of a write on the fields of its block, BUSY having cleared. -/
def State.blockEffect (s : State) (b : PBlock) (w : PostedWrite) : State :=
  match b with
  | .seam => s.effectSeam (w.offset - 0x6000) w.value
  | .fld => s.effectFld (w.offset - 0x8000) w.value
  | .tkp => s.effectTkp (w.offset - 0xB000) w.value
  | .rst => s.effectRst (w.offset - 0x12000) w.value
  | .hlt => s.effectHlt (w.offset - 0x13000) w.value
  | .sec => s
  | .cal => s
  | .pwr => s.effectPwr (w.offset - 0x16000) w.value
  | .svc => s.effectSvc (w.offset - 0x17000) w.value

theorem State.postedEffect_of_posted {w : PostedWrite} (h : s.posted.get b = some w) :
    s.postedEffect b = ((s.unposted b).restoreParity w.offset).blockEffect b w := by
  rw [State.postedEffect, h]
  rfl

theorem State.restoreParity_of_none {o : Nat} (h : carriesParity o = false) : s.restoreParity o = s := if_neg (by simp [h])

theorem State.restoreParity_of_limit {o : Nat} (h : carriesParity o = true) :
    s.restoreParity o = { s with rst := { s.rst with badParity := s.rst.badParity.filter (· != o) } } := if_pos h

/-- A write of a register without parity goes to its fields at once. -/
theorem State.postedEffect_of_plain {o : Nat} (h : s.posted.get b = some { offset := o, value := v }) (hplain : carriesParity o = false) :
    s.postedEffect b = (s.unposted b).blockEffect b { offset := o, value := v } := by
  rw [State.postedEffect_of_posted h, State.restoreParity_of_none hplain]

/-! ## FLD_CAPT (R59) -/

theorem State.effectFld_capt_of_noStart (h : wbit v 24 = false) :
    s.effectFld (0x8014 - 0x8000) v = { s with fld := { s.fld with capSlot := wfield v 0, capCtx := wfield v 16 } } := if_neg (by simp [h])

theorem State.effectFld_capt_of_start (h : wbit v 24 = true) : s.effectFld (0x8014 - 0x8000) v = s.captureAsk (wfield v 16) (wfield v 0) := if_pos h

/-- Whether a capture is refused depends on the slot and the context asked for, not on its being asked for. -/
theorem State.captureRefused_captureAsked_eq {ctx : Byte} {slot : BitVec 16} : (s.captureAsked ctx slot).captureRefused =
    State.captureRefused { s with fld := { s.fld with capSlot := slot, capCtx := ctx } } := rfl

/-- What a write of FLD_CAPT makes of the capture's fields. -/
def State.captWritten (s : State) (v : Word) : Fld :=
  { s.fld with
    capSlot := if wbit v 24 = true ∧ s.fld.capState = 1 then s.fld.capSlot else wfield v 0
    capCtx := if wbit v 24 = true ∧ s.fld.capState = 1 then s.fld.capCtx else wfield v 16
    capAsk := if wbit v 24 = true ∧ s.fld.capState ≠ 1 then
      !State.captureRefused { s with fld := { s.fld with capSlot := wfield v 0, capCtx := wfield v 16 } } else s.fld.capAsk
    capState := if wbit v 24 = true ∧ s.fld.capState ≠ 1 ∧
      State.captureRefused { s with fld := { s.fld with capSlot := wfield v 0, capCtx := wfield v 16 } } = true then 3
      else s.fld.capState }

theorem State.effectFld_capt : s.effectFld (0x8014 - 0x8000) v = { s with fld := s.captWritten v } := by
  cases hstart : wbit v 24 with
  | false =>
    rw [State.effectFld_capt_of_noStart hstart]
    simp only [State.captWritten, hstart, Bool.false_eq_true, false_and, if_false]
  | true =>
    rw [State.effectFld_capt_of_start hstart]
    by_cases hrun : s.fld.capState = 1
    · rw [State.captureAsk_of_running hrun]
      simp only [State.captWritten, hstart, hrun, true_and, ne_eq, not_true, false_and, if_true, if_false]
      rw [← hrun]
    · cases hrefused : State.captureRefused { s with fld := { s.fld with capSlot := wfield v 0, capCtx := wfield v 16 } } with
      | true =>
        rw [State.captureAsk_of_refused hrun hrefused]
        simp only [State.captWritten, hstart, hrun, hrefused, true_and, ne_eq, not_false_eq_true, if_true, if_false, Bool.not_true]
      | false =>
        rw [State.captureAsk_of_accepted hrun hrefused]
        simp only [State.captWritten, State.captureAsked, hstart, hrun, hrefused, true_and, ne_eq, not_false_eq_true, if_true, if_false,
          Bool.not_false, Bool.false_eq_true]

/-! ## Registers of one field group -/

theorem State.effectPwr_cool : s.effectPwr (0x16028 - 0x16000) v = { s with
    pwr := { s.pwr with inletWarn := wfield v 0, outletWarn := wfield v 8, flowWarn := wfield v 16 } } := rfl
theorem State.effectTkp_guard : s.effectTkp (0xB008 - 0xB000) v = { s with tkp := { s.tkp with guard := wfield v 0 } } := rfl
theorem State.effectHlt_thrSeam : s.effectHlt (0x13010 - 0x13000) v = { s with hlt := { s.hlt with thrSeam := v } } := rfl
theorem State.effectSeam_scrub : s.effectSeam (0x6010 - 0x6000) v = { s with seam := { s.seam with scrubH := wfield v 0 } } := rfl
theorem State.effectRst_escMask : s.effectRst (0x12010 - 0x12000) v = { s with rst := { s.rst with escMask := v } } := rfl

/-! ## SVC_CTRL -/

theorem State.effectSvc_of_locateAlone (hdrained : wbit v 0 = false) (hcancel : wbit v 2 = false) :
    s.effectSvc (0x17004 - 0x17000) v = { s with svc := { s.svc with locate := wbit v 1 } } := by
  unfold State.effectSvc
  simp only [hdrained, hcancel, Bool.false_eq_true, if_false]

end

/-- Settles O9: a posted write clears BUSY, restores the parity of a limit register, and reaches the fields of its block. -/
theorem postedWritesTakeEffect : Obligations.PostedWritesTakeEffect := by
  unfold Obligations.PostedWritesTakeEffect
  simp only [exec_postedWriteEffect]
  refine ⟨fun s v h => ?pwr, fun s v h => ?tkp, fun s v h => ?hlt, fun s v h => ?seam, fun s v h => ?rst, fun s v h => ?fld,
    fun s v h hdrained hcancel => ?svc, fun s b h => congrArg _ (State.postedEffect_of_idle h)⟩
  case pwr => rw [State.postedEffect_of_plain (b := .pwr) h (by decide +kernel), State.blockEffect, State.effectPwr_cool]; rfl
  case tkp =>
    rw [State.postedEffect_of_posted (b := .tkp) h, State.restoreParity_of_limit (o := 0xB008) (by decide +kernel), State.blockEffect,
      State.effectTkp_guard]
    rfl
  case hlt => rw [State.postedEffect_of_plain (b := .hlt) h (by decide +kernel), State.blockEffect, State.effectHlt_thrSeam]; rfl
  case seam => rw [State.postedEffect_of_plain (b := .seam) h (by decide +kernel), State.blockEffect, State.effectSeam_scrub]; rfl
  case rst => rw [State.postedEffect_of_plain (b := .rst) h (by decide +kernel), State.blockEffect, State.effectRst_escMask]; rfl
  case fld => rw [State.postedEffect_of_plain (b := .fld) h (by decide +kernel), State.blockEffect, State.effectFld_capt]; rfl
  case svc =>
    rw [State.postedEffect_of_plain (b := .svc) h (by decide +kernel), State.blockEffect,
      State.effectSvc_of_locateAlone hdrained hcancel]
    rfl

end Sys2Proof.Machine

/-! Port 1 is fenced, drains and returns (12_host_attachment.md R340, Table 12.17). -/

namespace Sys2Proof.Machine

section
variable {s : State} {cause : BitVec 4}

/-! ## The commands -/

theorem exec_p1Fence {on : Bool} : exec (.p1Fence on) s = .next (s.writeP1Fence on) := rfl
theorem exec_hp1PerstN : exec .hp1PerstN s = .next (s.port1Down.fencePort1 6 true) := rfl
theorem exec_port1HotReset_hotReset : exec (.port1HotReset .hotReset) s = .next (s.port1Down.fencePort1 2 true) := rfl
theorem exec_port1HotReset_dlDown : exec (.port1HotReset .dlDown) s = .next (s.port1Down.fencePort1 3 true) := rfl
theorem exec_port1HotReset_flr : exec (.port1HotReset .flr) s = .next (s.fencePort1 5 true) := rfl
theorem exec_port1FenceDrained : exec .port1FenceDrained s = .next s.port1Drained := rfl

/-! ## The fence -/

theorem State.writeP1Fence_on : s.writeP1Fence true = s.fencePort1 1 true := rfl

theorem State.fencePort1_of_open (h : s.hub.p1Fenced = false) (setReg : Bool) : s.fencePort1 cause setReg = { s with
    hub := { s.hub with p1FenceReg := s.hub.p1FenceReg || setReg, p1Fenced := true }
    port1 := { s.port1 with draining := some cause, lastCause := cause } } := if_neg (by simp [h])

theorem State.fencePort1_of_fenced (h : s.hub.p1Fenced = true) (setReg : Bool) :
    s.fencePort1 cause setReg = { s with hub := { s.hub with p1FenceReg := s.hub.p1FenceReg || setReg } } := if_pos h

/-- A cause that sets P1_FENCE. -/
theorem State.fencePort1_sets_of_open (h : s.hub.p1Fenced = false) : s.fencePort1 cause true = { s with
    hub := { s.hub with p1FenceReg := true, p1Fenced := true }
    port1 := { s.port1 with draining := some cause, lastCause := cause } } := by
  rw [State.fencePort1_of_open h, Bool.or_true]

theorem State.fencePort1_sets_of_fenced (h : s.hub.p1Fenced = true) :
    s.fencePort1 cause true = { s with hub := { s.hub with p1FenceReg := true } } := by
  rw [State.fencePort1_of_fenced h, Bool.or_true]

/-! ## The return -/

theorem State.port1Return_of_fenceReg (h : s.hub.p1FenceReg = true) : s.port1Return = s := if_neg (by simp [h])

theorem State.port1Return_of_ready (hfenced : s.hub.p1Fenced = true) (hup : s.hub.p1Up = true) (hmaster : s.port1.busMaster = true)
    (hd0 : s.port1.d3hot = false) (hreg : s.hub.p1FenceReg = false) (hdrained : s.port1.draining = none) : s.port1Return =
      if s.port1.lastCause = 0 then { s with hub := { s.hub with p1Fenced := false } }
      else ({ s with hub := { s.hub with p1Fenced := false } } : State).portEvent s.port1.lastCause false :=
  if_pos (by simp [hfenced, hup, hmaster, hd0, hreg, hdrained])

theorem State.port1Drained_of_fenceReg (h : s.port1.draining = some cause) (hreg : s.hub.p1FenceReg = true) : s.port1Drained =
    ({ s with port1 := { s.port1 with draining := none } } : State).portEvent cause true := by
  rw [State.port1Drained, h]
  exact State.port1Return_of_fenceReg hreg

end

/-- Settles O11: each clause is one outcome of `State.fencePort1`, of the drain or of `State.port1Return`. -/
theorem portOneFences : Obligations.PortOneFences := by
  unfold Obligations.PortOneFences
  simp only [exec_p1Fence, exec_hp1PerstN, exec_port1HotReset_hotReset, exec_port1HotReset_dlDown, exec_port1HotReset_flr,
    exec_port1FenceDrained]
  refine ⟨fun s hopen => ?opens, fun s hfenced => ?stays, fun s cause hdraining hreg => ?drained,
    fun s hfenced hup hmaster hd0 hdrained => ?returns⟩
  case opens =>
    have hdown : s.port1Down.hub.p1Fenced = false := hopen
    exact ⟨congrArg _ (State.fencePort1_sets_of_open hopen), congrArg _ (State.fencePort1_sets_of_open hdown),
      congrArg _ (State.fencePort1_sets_of_open hdown), congrArg _ (State.fencePort1_sets_of_open hdown),
      congrArg _ (State.fencePort1_sets_of_open hopen)⟩
  case stays =>
    have hdown : s.port1Down.hub.p1Fenced = true := hfenced
    exact ⟨congrArg _ (State.fencePort1_sets_of_fenced hfenced), congrArg _ (State.fencePort1_sets_of_fenced hdown),
      congrArg _ (State.fencePort1_sets_of_fenced hdown), congrArg _ (State.fencePort1_sets_of_fenced hdown),
      congrArg _ (State.fencePort1_sets_of_fenced hfenced)⟩
  case drained => exact congrArg _ (State.port1Drained_of_fenceReg hdraining hreg)
  case returns =>
    have hready := State.port1Return_of_ready (s := { s with hub := { s.hub with p1FenceReg := false } }) hfenced hup hmaster hd0 rfl
      hdrained
    exact ⟨fun h => congrArg _ (hready.trans (if_pos h)), fun h => congrArg _ (hready.trans (if_neg h))⟩

end Sys2Proof.Machine

/-! Links, Bus Master Enable and completions at the host ports (12_host_attachment.md R316, R341; 15_power_bringup.md R412). -/

namespace Sys2Proof.Machine

section
variable {s : State} {fn : FnId} {gen : BitVec 3} {width : BitVec 5} {work : TimedWork}

/-! ## The commands -/

theorem exec_pcieLinkUp {port1 : Bool} : exec (.pcieLinkUp port1 gen width) s = .next (s.pcieLinkUp port1 gen width) := rfl
theorem exec_busMasterDisable {f : PortFn} {d3hot : Bool} : exec (.busMasterDisable f d3hot) s = .next (s.busMasterOff f d3hot) := rfl
theorem exec_busMasterEnable {f : PortFn} {d3hot : Bool} : exec (.busMasterEnable f d3hot) s = .next (s.busMasterOn f d3hot) := rfl
theorem exec_completionTimeout {port1 second : Bool} :
    exec (.completionTimeout port1 second work) s = .next (s.completionTimeout port1 second work) := rfl

/-! ## Links (R314, R412) -/

theorem genOk_iff : genOk gen = true ↔ gen.toNat ∈ [5, 6, 7] := List.contains_iff_mem

theorem widthOk_iff : widthOk width = true ↔ width.toNat ∈ [4, 8, 16] := by
  have h : widthOk width = true ↔ width.toNat ∈ (pcieFeatures .data).widths := List.contains_iff_mem
  rw [h]
  simp only [pcieFeatures, List.mem_cons, List.not_mem_nil, or_false]
  tauto

/-- The state of a link that may come up, before its port is told. -/
def State.hostWaits (s : State) : State := { s with pwr := { s.pwr with stage := if s.pwr.stage = 4 then 5 else s.pwr.stage } }

section
variable (hgen : genOk gen = true) (hwidth : widthOk width = true) (hmain : s.pwr.mainOn = true) (hhold : s.pwr.hold = .none)
  (hisland : s.sec.islandOnly = false)
include hgen hwidth hmain hhold hisland

theorem State.pcieLinkUp_of_powered {port1 : Bool} : s.pcieLinkUp port1 gen width =
    if port1 then
      State.port1Return { s.hostWaits with hub := { s.hub with p1Up := true, p1Gen := gen, p1Width := width } }
    else if s.perst then s
    else { s.hostWaits with hub := { s.hub with p0Up := true, p0Gen := gen, p0Width := width } } :=
  if_neg (by simp [hgen, hwidth, hmain, hhold, hisland])

end

theorem State.pcieLinkUp_of_unfit {port1 : Bool} (h : genOk gen = false ∨ widthOk width = false ∨ s.pwr.mainOn = false ∨
    s.pwr.hold ≠ .none ∨ s.sec.islandOnly = true) : s.pcieLinkUp port1 gen width = s := by
  refine if_pos ?_
  simpa only [Bool.or_eq_true, Bool.not_eq_true', bne_iff_ne, or_assoc] using h

/-! ## Bus Master Enable and D3hot (R316) -/

theorem State.payDebts_of_none (h : s.snp.debts = []) : s.payDebts fn = s := by
  unfold State.payDebts
  simp only [h, List.filter_nil, List.foldl_nil]
  split
  · rw [← h]
  · rfl

/-- Nothing waits for a function without contexts. -/
theorem State.flushFn_of_unused (hctxs : ∀ e ∈ s.contexts, e.2.fn ≠ fn) (hdebts : s.snp.debts = []) : s.flushFn fn = s := by
  have hrecords : s.contexts.foldl (fun (t : State) e => if e.2.fn == fn then t.flushRecords e.1 else t) s = s :=
    (List.foldl_ext _ _ s fun t e he => if_neg (mt beq_iff_eq.1 (hctxs e he))).trans (List.foldl_fixed _)
  rw [State.flushFn, hrecords, State.payDebts_of_none hdebts]

theorem State.busMasterOn_of_unused (hctxs : ∀ e ∈ s.contexts, e.2.fn ≠ fn) (hdebts : s.snp.debts = []) :
    s.busMasterOn (.port0 fn) false = { s with fns := vmod s.fns fn fun x => { x with busMaster := true, enabled := true } } :=
  State.flushFn_of_unused (s := { s with fns := vmod s.fns fn fun x => { x with busMaster := true, enabled := true } }) hctxs hdebts

theorem State.busMasterOff_data_of_open (h : s.hub.p1Fenced = false) : s.busMasterOff .data false = { s with
    hub := { s.hub with p1Fenced := true }
    port1 := { s.port1 with busMaster := false, draining := some 5, lastCause := 5 } } := by
  refine (State.fencePort1_of_open (s := { s with port1 := { s.port1 with busMaster := false } }) h false).trans ?_
  rw [Bool.or_false]

theorem State.busMasterOn_data_of_fenceReg (hreg : s.hub.p1FenceReg = true) :
    s.busMasterOn .data false = { s with port1 := { s.port1 with busMaster := true } } :=
  State.port1Return_of_fenceReg (s := { s with port1 := { s.port1 with busMaster := true } }) hreg

end

/-- Settles O12: each clause is one outcome of a link, of Bus Master Enable or of a completion. -/
theorem portsLinksAndCompletions : Obligations.PortsLinksAndCompletions := by
  unfold Obligations.PortsLinksAndCompletions
  simp only [exec_pcieLinkUp, exec_busMasterDisable, exec_busMasterEnable, exec_completionTimeout]
  refine ⟨fun s gen width hgen hwidth hmain hhold hisland => ?up, fun s p1 gen width h => ?unfit, fun s f => ⟨rfl, rfl, rfl⟩,
    fun s f hctxs hdebts => congrArg _ (State.busMasterOn_of_unused hctxs hdebts),
    fun s hopen => congrArg _ (State.busMasterOff_data_of_open hopen),
    fun s _ hreg => congrArg _ (State.busMasterOn_data_of_fenceReg hreg), fun s w hopen => ?timeout, fun s w => rfl, fun s c => rfl,
    fun s f => rfl, fun s => rfl⟩
  case up =>
    have hup := fun port1 =>
      State.pcieLinkUp_of_powered (port1 := port1) (genOk_iff.2 hgen) (widthOk_iff.2 hwidth) hmain hhold hisland
    have hport0 := (hup false).trans (if_neg Bool.false_ne_true)
    refine ⟨fun hperst => congrArg _ (hport0.trans (if_neg (Bool.eq_false_iff.1 hperst))),
      fun hperst => congrArg _ (hport0.trans (if_pos hperst)), fun hreg => congrArg _ (((hup true).trans (if_pos rfl)).trans ?_)⟩
    exact State.port1Return_of_fenceReg hreg
  case unfit =>
    refine congrArg _ (State.pcieLinkUp_of_unfit ?_)
    rwa [Bool.eq_false_iff, Bool.eq_false_iff, ne_eq, ne_eq, genOk_iff, widthOk_iff]
  case timeout =>
    exact congrArg _ (State.fencePort1_sets_of_open (s := { s with hub := { s.hub with cplTimeout := satInc s.hub.cplTimeout } }) hopen)

end Sys2Proof.Machine

/-! The mailbox's control (12_host_attachment.md R324, R342; 13_reset_health.md R361, R365). -/

namespace Sys2Proof.Machine

section
variable {s : State} {v : Word}

theorem exec_mbxAck : exec .mbxAck s = .next s.mbxAck := rfl
theorem exec_mbxReservedCode : exec .mbxReservedCode s = .next s.mbxReserved := rfl

/-! ## HUB_MBX_CTRL: offset 0x100 of PF0's BAR0 -/

theorem State.read_mbxCtrl_isSome : (s.read 0 .bar0 0x100).isSome = true := by
  simp [State.read, State.fileWord, State.hubWord]

theorem State.writeDword_mbxCtrl : s.writeDword 0 .bar0 0x100 0xF v = s.mbxCtrl v := by
  have hopen : s.beforeReady 0 .bar0 0x100 = false := by simp [State.beforeReady]
  have hparity : s.restoreParity 0x100 = s := if_neg (by decide)
  rw [State.writeDword_of_whole State.read_mbxCtrl_isSome hopen]
  simp [State.write, State.fileWrite, blockOf, hparity, State.writeHub]

/-- The request accepted: VALID clears, and the moment is recorded. -/
theorem State.mbxCtrl_of_go (hidle : s.mbx.busy = false) (hgo : wbit v 16 = true) (hack : wbit v 17 = false) : s.mbxCtrl v = { s with
    mbx := { s.mbx with
      code := wfield v 0, busy := true, valid := false, running := wfield v 0, htGo := s.tkp.ht, stGo := s.tkp.state } } := by
  simp only [State.mbxCtrl, hgo, hack, Bool.false_eq_true, if_false, if_true, State.mbxGo, hidle]

/-! ## Requests (R342, R361, R365) -/

theorem State.mbxIs_eq_true {code : Nat} : s.mbxIs code = true ↔ s.mbx.busy = true ∧ s.mbx.running.toNat = code := by
  simp [State.mbxIs]

theorem State.mbxIs_eq_false {code : Nat} : s.mbxIs code = false ↔ s.mbx.busy = false ∨ s.mbx.running.toNat ≠ code := by
  rw [← Bool.not_eq_true, State.mbxIs_eq_true]
  simp [imp_iff_not_or]

theorem State.mbxReserved_of_reserved (hbusy : s.mbx.busy = true) (hcode : mailboxCodes.contains s.mbx.running.toNat = false) :
    s.mbxReserved = s.mbxEnd (if s.mbx.fenced then stFenced else stBad) [] :=
  if_pos (by rw [hbusy, hcode]; rfl)

/-- A retired module answers FENCED to a request that a core domain serves. -/
theorem State.mbxRun_of_retired {code : Nat} {k : State → State} (hmbx : s.mbxIs code = true) (hfenced : s.mbx.fenced = false)
    (hretired : s.rst.retired = true) : s.mbxRun code k = s.mbxEnd stFenced [] := by
  rw [State.mbxRun, State.mbxRunAlways_runs s code _ hmbx hfenced]
  exact if_pos hretired

end

/-- Settles O13: each clause is one outcome of a write of HUB_MBX_CTRL or of a request. -/
theorem mailboxControl : Obligations.MailboxControl := by
  unfold Obligations.MailboxControl
  refine ⟨fun s => rfl, fun s v hidle hgo hack => ?go, fun s hbusy hcode => congrArg _ (State.mbxReserved_of_reserved hbusy hcode),
    fun s hbusy hrun hfenced hretired => congrArg _ (State.mbxRun_of_retired ?is hfenced hretired),
    fun s hbusy hrun hfenced hretired hheld => congrArg _ (State.mbxRun_waits s 0x30 _ ?is' hfenced hretired hheld rfl),
    State.mbxEnd_mbx⟩
  case go => rw [exec_registerWrite_oneDword, State.writeDword_mbxCtrl, State.mbxCtrl_of_go hidle hgo hack]
  case is | is' => exact State.mbxIs_eq_true.2 ⟨hbusy, by rw [hrun]; rfl⟩

end Sys2Proof.Machine

/-! The Sieve's timers, its messages and its claims (12_host_attachment.md R343, R344). -/

namespace Sys2Proof.Machine

section
variable {s : State} {src : BitVec 9}

theorem exec_irqCoalesceTimer : exec (.irqCoalesceTimer src) s = .next (s.irqTimer src.toNat) := rfl
theorem exec_irqClaim : exec (.irqClaim src) s = .next (s.irqClaim src) := rfl
theorem exec_msixHeldSend : exec (.msixHeldSend src) s = .next (s.msixHeld src.toNat) := rfl

/-- A source by its number. -/
theorem source_eq (src : BitVec 9) : Fin.ofNat 512 src.toNat = src.toFin := Fin.ext (Nat.mod_eq_of_lt src.isLt)

/-! ## The timer (R343) -/

/-- No time passes to an instant that has come. -/
theorem State.pass_zero (h : s.tkp.ht < 2 ^ 68) : s.pass 0 = s := by
  unfold State.pass htWrap
  simp only [Nat.mul_zero, Nat.zero_sub, Nat.add_zero, Nat.sub_zero, Nat.mod_eq_of_lt h, ite_self]

theorem State.irqPend_of_fired {n : Nat} (h : s.irq.fired.getLsbD n = true) : s.irqPend n = s := if_pos h

theorem State.irqPend_of_quiet {n : Nat} (h : s.irq.fired.getLsbD n = false) : s.irqPend n =
    State.irqSend { s with irq := { s.irq with pending := setBit s.irq.pending n true, fired := setBit s.irq.fired n true } } n :=
  if_neg (Bool.eq_false_iff.1 h)

theorem State.irqTimer_of_stopped (h : vget s.irq.first src.toFin = none) : s.irqTimer src.toNat = s := by
  simp only [State.irqTimer, source_eq]
  rw [h]

theorem State.irqTimer_of_due {t : Nat} (h : vget s.irq.first src.toFin = some t) (hon : s.irq.enable.getLsbD src.toNat = true)
    (hdue : t + 1000 * (vget s.irq.cfg src.toFin).micros ≤ s.now) (hht : s.tkp.ht < 2 ^ 68) :
    s.irqTimer src.toNat = s.irqPend src.toNat := by
  simp only [State.irqTimer, source_eq]
  rw [h]
  dsimp only
  rw [Nat.sub_eq_zero_of_le hdue, State.pass_zero hht]
  exact if_pos hon

/-! ## Messages and claims (R344) -/

theorem State.irqSend_of_held {n : Nat} (h : s.irqCanSend n = false) : s.irqSend n = s := if_neg (Bool.eq_false_iff.1 h)

theorem State.irqSend_of_free {n : Nat} (h : s.irqCanSend n = true) : s.irqSend n =
    (let t := (s.hostWrite (s.irqRoute n).2.addr.toNat (leBytes 4 (s.irqRoute n).2.data.toNat)).irqClear n
     { t with irq := { t.irq with msgs := s.irq.msgs + 1 } }) := if_pos h

theorem State.irqClaim_eq : s.irqClaim src = { s with irq := { s.irq with
    claimSrc := src
    pending := setBit s.irq.pending src.toNat false
    fired := setBit s.irq.fired src.toNat false
    ev := vset s.irq.ev src.toFin 0
    first := vset s.irq.first src.toFin none
    emptyClaims := if s.irqStatus src.toNat then s.irq.emptyClaims else satInc s.irq.emptyClaims } } := by
  simp only [State.irqClaim, State.irqClear, source_eq]
  rfl

end

/-- Settles O14: each clause is one outcome of the timer, of a message or of a claim. -/
theorem sieveTimersAndClaims : Obligations.SieveTimersAndClaims := by
  unfold Obligations.SieveTimersAndClaims
  simp only [exec_irqCoalesceTimer, exec_irqClaim, exec_msixHeldSend]
  refine ⟨fun s src t hfirst hon hdue hht => ?due, fun s src hnone => congrArg _ (State.irqTimer_of_stopped hnone),
    fun s n => State.irqSend_of_free, fun s n => State.irqSend_of_held, fun s src => congrArg _ State.irqClaim_eq, fun s src => rfl⟩
  case due =>
    rw [State.irqTimer_of_due hfirst hon hdue hht]
    exact ⟨fun h => congrArg _ (State.irqPend_of_quiet h), fun h => congrArg _ (State.irqPend_of_fired h)⟩

end Sys2Proof.Machine

/-! WIN_CFG, WIN_SLOT and WIN_RECLAIM (12_host_attachment.md R327, R328, R331, R332). -/

namespace Sys2Proof.Machine

section
variable {s : State} {c : CtxId} {x : Context} {w : Window} {t : WinSlot} {n len : Nat} {crc : Word}

theorem exec_winCfg : exec .winCfg s = .next s.winCfg := rfl
theorem exec_winSlot : exec .winSlot s = .next s.winSlot := rfl
theorem exec_winReclaim : exec .winReclaim s = .next s.winReclaim := rfl

/-! ## WIN_CFG and WIN_SLOT -/

theorem State.winCfg_of_good (hrun : s.Serves 0x10) (hgood : winCfgBad s.mbxBytes = false)
    (hx : s.ctx? (ctxOf (fieldAt s.mbxBytes 0 1)) = some x) (hnone : x.window = none) : s.winCfg =
      (s.modCtx (ctxOf (fieldAt s.mbxBytes 0 1)) fun x => { x with window := some { windowReset with
        nslots := bits (fieldAt s.mbxBytes 4 4) 16 0, wxLog2 := bits (fieldAt s.mbxBytes 4 4) 27 24
        flagBase := BitVec.ofNat 64 (fieldAt s.mbxBytes 8 8), wxBase := BitVec.ofNat 64 (fieldAt s.mbxBytes 16 8)
        wxcBase := BitVec.ofNat 64 (fieldAt s.mbxBytes 24 8) } }).mbxEnd stOk [0, 0, 0, 0] := by
  rw [State.winCfg, hrun.mbxRun]
  simp only [hx, hgood, hnone, Option.isSome_none, Bool.or_self, Bool.false_eq_true, if_false]
  rfl

theorem State.winSlot_of_window (hrun : s.Serves 0x11) (hx : s.ctx? (ctxOf (fieldAt s.mbxBytes 0 1)) = some x)
    (hw : x.window = some w) : s.winSlot = (s.modCtx (ctxOf (fieldAt s.mbxBytes 0 1)) fun x =>
      { x with window := some { w with slots := (w.slotRequest s.mbxBytes).2 } }).mbxEnd stOk
        (leBytes 4 (w.slotRequest s.mbxBytes).1.toNat) := by
  rw [State.winSlot, hrun.mbxRun]
  simp only [hx, Option.bind_some, hw]
  rfl

/-- A slot that fits is defined. -/
theorem Window.slotRequest_of_new {k addr : Nat} {p2p : Bool} {a : List Byte} (h0 : fieldAt a 0 4 = n * 2 ^ 16 + fieldAt a 0 1)
    (hctx : fieldAt a 0 1 < 256) (h1 : fieldAt a 4 4 = k + b2n p2p * 2 ^ 8) (haddr : fieldAt a 8 8 = addr) (hn : n < w.nslots)
    (hn' : n < 65536) (hk : 16 ≤ k) (hk' : k ≤ 30) (halign : addr % 65536 = 0) (hnew : w.slots.get? n = none)
    (hroom : w.total + 2 ^ k ≤ 2 ^ 36) : w.slotRequest a =
      (stOk, w.slots.put n { log2 := k, p2p := p2p, addr := BitVec.ofNat 64 addr, held := none, flagLen := 0, flagCrc := 0
                             busy := false }) := by
  have hb : b2n p2p ≤ 1 := by cases p2p <;> decide
  have hslot : bits (fieldAt a 0 4) 31 16 = n := by rw [h0, bits]; omega
  have hzero0 : bits (fieldAt a 0 4) 15 8 = 0 := by rw [h0, bits]; omega
  have hlog : bits (fieldAt a 4 4) 4 0 = k := by rw [h1, bits]; omega
  have hzero1 : bits (fieldAt a 4 4) 7 5 = 0 := by rw [h1, bits]; omega
  have hzero2 : bits (fieldAt a 4 4) 31 10 = 0 := by rw [h1, bits]; omega
  have hclear : bit (fieldAt a 4 4) 9 = false := by rw [h1, bit]; exact decide_eq_false (by omega)
  have hp2p : bit (fieldAt a 4 4) 8 = p2p := by
    have hdiv : (k + b2n p2p * 2 ^ 8) / 2 ^ 8 % 2 = b2n p2p := by omega
    rw [h1, bit, hdiv]
    cases p2p <;> rfl
  have hin : ¬ w.nslots ≤ n := Nat.not_le.2 hn
  have hhas : w.slots.has n = false := by rw [Assoc.has, hnew, Option.isSome_none]
  simp only [Window.slotRequest, hslot, hzero0, hlog, hzero1, hzero2, hclear, hp2p, haddr, halign, hin, hhas, hk.not_gt, hk'.not_gt,
    hroom.not_gt, bne_self_eq_false, decide_false, Bool.or_self, Bool.false_eq_true, if_false]

/-! ## WIN_RECLAIM and handbacks -/

section
variable (hrun : s.Serves 0x12) (hzero : bits (s.mbxArg 0) 15 8 = 0) (hx : s.ctx? (ctxOf (bits (s.mbxArg 0) 7 0)) = some x)
  (ht : x.slot? (bits (s.mbxArg 0) 31 16) = some t)
include hrun hzero hx ht

theorem State.winReclaim_of_slot : s.winReclaim =
    if t.held.isNone then s.mbxEnd stOk [stBad, 0, 0, 0]
    else if x.farPool.contains (bits (s.mbxArg 0) 31 16) || t.busy then s.mbxEnd stOk [stNoRoom, 0, 0, 0]
    else if !s.mayRequest x.fn then s
    else (s.handback (ctxOf (bits (s.mbxArg 0) 7 0)) (bits (s.mbxArg 0) 31 16) 0 0).mbxEnd stOk [0, 0, 0, 0] := by
  rw [State.winReclaim, hrun.mbxRun]
  simp only [hzero, bne_self_eq_false, Bool.false_eq_true, if_false, hx, Option.bind_some, ht, Option.map_some]
  rfl

theorem State.winReclaim_of_hostOwned (h : t.held = none) : s.winReclaim = s.mbxEnd stOk [stBad, 0, 0, 0] :=
  (State.winReclaim_of_slot hrun hzero hx ht).trans (if_pos (Option.isNone_iff_eq_none.2 h))

theorem State.winReclaim_of_used (hheld : t.held.isSome = true)
    (h : t.busy = true ∨ x.farPool.contains (bits (s.mbxArg 0) 31 16) = true) : s.winReclaim = s.mbxEnd stOk [stNoRoom, 0, 0, 0] := by
  rw [State.winReclaim_of_slot hrun hzero hx ht, if_neg (Option.isNone_eq_false_iff.2 hheld ▸ Bool.false_ne_true), if_pos (by simpa [or_comm] using h)]

theorem State.winReclaim_of_idle (hheld : t.held.isSome = true) (hidle : t.busy = false)
    (hpool : x.farPool.contains (bits (s.mbxArg 0) 31 16) = false) : s.winReclaim =
      if !s.mayRequest x.fn then s
      else (s.handback (ctxOf (bits (s.mbxArg 0) 7 0)) (bits (s.mbxArg 0) 31 16) 0 0).mbxEnd stOk [0, 0, 0, 0] := by
  rw [State.winReclaim_of_slot hrun hzero hx ht, if_neg (Option.isNone_eq_false_iff.2 hheld ▸ Bool.false_ne_true), if_neg (by rw [hpool, hidle]; decide)]

end

section
variable (hx : s.ctx? c = some x) (hw : x.window = some w) (ht : w.slots.get? n = some t)
include hx hw ht

theorem State.handback_of_pooled (hpool : x.farPool.contains n = true) :
    s.handback c n len crc = s.modSlot c n fun t => { t with busy := false } := by
  rw [State.handback, hx, Option.bind_some, hw, Option.bind_some, ht, Option.map_some]
  exact if_pos hpool

theorem State.handback_of_held {seq : BitVec 31} (hpool : x.farPool.contains n = false) (hheld : t.held = some seq) :
    s.handback c n len crc =
      (((s.hostWrite (w.flagBase.toNat + 16 * n + 4) (leBytes 4 len ++ leBytes 4 crc.toNat)).hostWrite
        (w.flagBase.toNat + 16 * n) (leBytes 4 ((seq + 1).toNat * 2))).modSlot c n fun t =>
          { t with held := none, busy := false }).tallyHost c 12 := by
  rw [State.handback, hx, Option.bind_some, hw, Option.bind_some, ht, Option.map_some]
  dsimp only
  rw [if_neg (Bool.eq_false_iff.1 hpool), hheld]

end

end

/-- Settles O16: each clause is one outcome of a request or of a handback. -/
theorem windowRequestsDefineAndReclaim : Obligations.WindowRequestsDefineAndReclaim := by
  unfold Obligations.WindowRequestsDefineAndReclaim
  simp only [exec_winCfg, exec_winSlot, exec_winReclaim]
  refine ⟨fun s x hmbx hfenced hlive hcore hgood hx hnone => congrArg _ (State.winCfg_of_good ⟨hmbx, hfenced, hlive, hcore⟩ hgood hx hnone),
    fun s x w hmbx hfenced hlive hcore hx hw => congrArg _ (State.winSlot_of_window ⟨hmbx, hfenced, hlive, hcore⟩ hx hw),
    fun w n k addr p2p a => Window.slotRequest_of_new, fun s x t hmbx hfenced hlive hcore hzero hx ht => ?reclaim,
    fun s c x w n t seq len crc => State.handback_of_pooled, 
    fun s c x w n t seq len crc hx hw ht => State.handback_of_held hx hw ht⟩
  case reclaim =>
    have hrun : s.Serves 0x12 := ⟨hmbx, hfenced, hlive, hcore⟩
    refine ⟨fun hheld hidle hpool hmay => congrArg _ ?_, fun hheld hidle hpool hmay => congrArg _ ?_,
      fun hnone => congrArg _ (State.winReclaim_of_hostOwned hrun hzero hx ht hnone),
      fun hheld hused => congrArg _ (State.winReclaim_of_used hrun hzero hx ht hheld hused)⟩
    · rw [State.winReclaim_of_idle hrun hzero hx ht hheld hidle hpool, hmay]
      rfl
    · rw [State.winReclaim_of_idle hrun hzero hx ht hheld hidle hpool, hmay]
      rfl

end Sys2Proof.Machine

/-! Rings of window transfers, STORE and WX_COMPLETE (12_host_attachment.md R336, R337, R338). -/

namespace Sys2Proof.Machine

section
variable {s : State} {c : CtxId} {x : Context} {w : Window}

/-! ## Rings (R336) -/

section
variable {fn : FnId} {slot : Fin 32} {v : Word}

theorem exec_wxDb : exec (.wxDb fn slot v) s = .next (s.wxDb fn slot v) := rfl
theorem exec_wxCheadWrite : exec (.wxCheadWrite fn slot v) s = .next (s.wxChead fn slot v) := rfl

theorem State.wxDb_of_emptySlot (h : s.ctxAt fn slot = none) : s.wxDb fn slot v = s.regViol := by
  simp only [State.wxDb, h]

theorem State.wxChead_of_emptySlot (h : s.ctxAt fn slot = none) : s.wxChead fn slot v = s.regViol := by
  simp only [State.wxChead, h]

section
variable (hslot : s.ctxAt fn slot = some (c, x))
include hslot

theorem State.wxDb_of_noWindow (hw : x.window = none) : s.wxDb fn slot v = s.dbBad c := by
  simp only [State.wxDb, hslot, hw]

theorem State.wxChead_of_noWindow (hw : x.window = none) : s.wxChead fn slot v = s.dbBad c := by
  simp only [State.wxChead, hslot, hw]

theorem State.wxDb_of_window (hw : x.window = some w) : s.wxDb fn slot v =
    if doorbellOk v w.head w.tail (2 ^ w.wxLog2) then s.modWindow c fun w => { w with tail := v } else s.dbBad c := by
  simp only [State.wxDb, hslot, hw]

theorem State.wxChead_of_window (hw : x.window = some w) : s.wxChead fn slot v =
    if headOk v w.ctail w.chead then
      s.modCtx c fun x => { x with window := some { w with chead := v }, wxIrqs := unconsumed x.wxIrqs v w.ctail }
    else s.dbBad c := by
  simp only [State.wxChead, hslot, hw]

end

end

/-! ## What a context's window keeps through the tallies -/

section
variable {d : CtxId} {n : Nat}

theorem State.ctx?_tallyHost_of_context (hx : s.ctx? c = some x) :
    ∃ y, (s.tallyHost c n).ctx? c = some y ∧ y.window = x.window := by
  unfold State.tallyHost
  split
  · exact ⟨_, ((State.ctx?_modCtx_same s c _).trans (congrArg _ hx) :), rfl⟩
  · exact ⟨x, hx, rfl⟩

theorem State.ctx?_tallySeam_of_context (hx : s.ctx? c = some x) :
    ∃ y, (s.tallySeam c n).ctx? c = some y ∧ y.window = x.window := by
  unfold State.tallySeam
  split
  · exact ⟨_, ((State.ctx?_modCtx_same s c _).trans (congrArg _ hx) :), rfl⟩
  · exact ⟨x, hx, rfl⟩

theorem State.modWindow_congr {f g : Window → Window} (hx : s.ctx? c = some x) (hw : x.window = some w) (h : f w = g w) :
    s.modWindow c f = s.modWindow c g :=
  State.modCtx_congr hx (by rw [hw, Option.map_some, Option.map_some, h])

theorem State.committedBytes_tallyHost {va len : Nat} :
    (s.tallyHost d n).committedBytes x va len = s.committedBytes x va len := by
  unfold State.tallyHost
  split <;> rfl

end

/-! ## STORE (R337, R338) -/

section
variable {desc flag : List Byte} {t : WinSlot} {errs : SeamErrs} {fault : Bool}

theorem exec_store {hits : List SeamHit} :
    exec (.store c desc flag hits fault) s = .next (s.storeRun c desc flag (s.seamErrs hits) fault) := rfl

/-- Pages that are all RESIDENT have no byte unmapped. -/
theorem Context.unmapped_of_resident {va len : Nat} (h : ∀ v ∈ pagesOf va len, pteState (x.pt.getD v 0) = psResident) :
    x.unmapped va len = 0 := by
  refine (List.foldl_ext _ (fun (n : Nat) _ => n) 0 fun n v hv => ?_).trans (List.foldl_fixed _)
  exact if_neg (by rw [h v hv]; decide)

section
variable (hgood : transferBad desc = false) (ht : x.slot? (fieldAt desc 4 2) = some t)
  (hfits : fieldAt desc 0x18 4 + fieldAt desc 0x20 4 ≤ t.size)
  (hres : ∀ v ∈ pagesOf (fieldAt desc 0x10 6) (fieldAt desc 0x20 4), pteState (x.pt.getD v 0) = psResident)
  (hkeep : bit (fieldAt desc 0 4) 8 = false)
include hgood ht hfits hres hkeep

/-- A transfer into a slot that is had, whose range lies in it, from RESIDENT pages. -/
theorem State.transferRun_of_resident (hhad : s.acquire c (fieldAt desc 4 2) flag = some s) :
    s.transferRun c x desc flag { ue := [], ce := [] } false =
      ((((s.hostWrite (t.addr.toNat + fieldAt desc 0x18 4)
        (s.committedBytes x (fieldAt desc 0x10 6) (fieldAt desc 0x20 4))).tallyHost c (fieldAt desc 0x20 4)).tallySeam c
          (fieldAt desc 0x20 4)), stOk, fieldAt desc 0x20 4) := by
  have hpoison : ((pagesOf (fieldAt desc 0x10 6) (fieldAt desc 0x20 4)).any fun v => pteState (x.pt.getD v 0) == psPoisoned) = false :=
    List.any_eq_false.2 fun v hv => by rw [hres v hv]; decide
  simp only [State.transferRun, hgood, ht, hhad, Bool.false_eq_true, if_false, hfits.not_gt, List.filter_nil, List.foldl_nil,
    List.isEmpty_nil, Bool.not_true, Bool.or_self, hpoison, Context.unmapped_of_resident hres, hkeep]
  rfl

end

section
variable (hlen : desc.length = 64) (hx : s.ctx? c = some x) (hw : x.window = some w) (hmay : s.mayTransfer x w = true)
include hlen hx hw hmay

/-- The descriptor at the ring's head is fetched, its transfer runs, and the head moves on. -/
theorem State.storeRun_of_may {u : State} {st : Byte} {m : Nat} (hrun : (s.tallyHost c 64).transferRun c x desc flag errs fault = (u, st, m)) :
    s.storeRun c desc flag errs fault = u.modWindow c fun w => { w with
      head := w.head + 1, transfers := [{ seq := w.head, desc := desc, status := some st, written := m }] } := by
  simp only [State.storeRun, hx, Option.bind_some, hw, Option.map_some, hmay, Bool.not_true, Bool.false_eq_true, if_false,
    slice_whole hlen, hrun]

theorem State.storeRun_of_malformed (hbad : transferBad desc = true) : s.storeRun c desc flag errs fault =
    (s.tallyHost c 64).modWindow c fun u => { u with
      head := w.head + 1, transfers := [{ seq := w.head, desc := desc, status := some stBad, written := 0 }] } := by
  obtain ⟨y, hy, hwindow⟩ := State.ctx?_tallyHost_of_context (n := 64) hx
  rw [State.storeRun_of_may hlen hx hw hmay (u := s.tallyHost c 64) (st := stBad) (m := 0) (by rw [State.transferRun, if_pos hbad])]
  exact State.modWindow_congr hy (hwindow.trans hw) rfl

theorem State.storeRun_of_resident (hgood : transferBad desc = false) (ht : w.slots.get? (fieldAt desc 4 2) = some t)
    (hheld : t.held.isSome = true) (hfits : fieldAt desc 0x18 4 + fieldAt desc 0x20 4 ≤ t.size)
    (hres : ∀ v ∈ pagesOf (fieldAt desc 0x10 6) (fieldAt desc 0x20 4), pteState (x.pt.getD v 0) = psResident)
    (hkeep : bit (fieldAt desc 0 4) 8 = false) : s.storeRun c desc flag { ue := [], ce := [] } false =
      ((((s.tallyHost c 64).hostWrite (t.addr.toNat + fieldAt desc 0x18 4)
        (s.committedBytes x (fieldAt desc 0x10 6) (fieldAt desc 0x20 4))).tallyHost c (fieldAt desc 0x20 4)).tallySeam c
          (fieldAt desc 0x20 4)).modWindow c fun u => { u with
            head := w.head + 1
            transfers := [{ seq := w.head, desc := desc, status := some stOk, written := fieldAt desc 0x20 4 }] } := by
  have hslot : ∀ y : Context, y.window = x.window → y.slot? (fieldAt desc 4 2) = some t := fun y hy => by
    rw [Context.slot?, hy, hw, Option.bind_some, ht]
  obtain ⟨y, hy, hywindow⟩ := State.ctx?_tallyHost_of_context (n := 64) hx
  have hrun := State.transferRun_of_resident hgood (hslot x rfl) hfits hres hkeep
    (State.acquire_of_held (flag := flag) hy (hslot y hywindow) hheld)
  rw [State.storeRun_of_may hlen hx hw hmay hrun, State.committedBytes_tallyHost]
  obtain ⟨z, hz, hzwindow⟩ := State.ctx?_tallyHost_of_context (n := fieldAt desc 0x20 4)
    (s := (s.tallyHost c 64).hostWrite (t.addr.toNat + fieldAt desc 0x18 4)
      (s.committedBytes x (fieldAt desc 0x10 6) (fieldAt desc 0x20 4))) hy
  obtain ⟨z', hz', hzwindow'⟩ := State.ctx?_tallySeam_of_context (n := fieldAt desc 0x20 4) hz
  exact State.modWindow_congr hz' (hzwindow'.trans (hzwindow.trans (hywindow.trans hw))) rfl

end

end

/-! ## WX_COMPLETE -/

theorem exec_wxComplete : exec (.wxComplete c) s = .next (s.wxComplete c) := rfl

theorem State.wxComplete_of_run {t : Transfer} {st : Byte} (hx : s.ctx? c = some x) (hw : x.window = some w)
    (ht : w.transfers = [t]) (hst : t.status = some st) (hmay : s.mayRequest x.fn = true) (hquiet : bit (fieldAt t.desc 0 4) 9 = false) :
    s.wxComplete c = ((s.hostWrite (w.wxcBase.toNat + 32 * (w.ctail.toNat % 2 ^ w.wxLog2))
      (transferRecord t (phaseOf w.ctail (2 ^ w.wxLog2)) s.ht)).modCtx c fun x => { x with
        window := some { w with ctail := w.ctail + 1, transfers := [] } }).tallyHost c 32 := by
  simp only [State.wxComplete, hx, Option.bind_some, hw, Option.map_some, ht, hst, Option.isNone_some, hmay, Bool.not_true, Bool.or_self,
    Bool.false_eq_true, if_false, hquiet]

end

/-- Settles O17: each clause is one outcome of a ring's doorbell or head, of STORE or of WX_COMPLETE. -/
theorem windowRingsAndTransfers : Obligations.WindowRingsAndTransfers := by
  unfold Obligations.WindowRingsAndTransfers
  simp only [exec_wxDb, exec_wxCheadWrite, exec_store, exec_wxComplete]
  refine ⟨fun s fn slot v hslot => ⟨congrArg _ (State.wxDb_of_emptySlot hslot), congrArg _ (State.wxChead_of_emptySlot hslot)⟩,
    fun s fn slot v c x w hslot hw => ?rings,
    fun s fn slot v c x hslot hw => ⟨congrArg _ (State.wxDb_of_noWindow hslot hw), congrArg _ (State.wxChead_of_noWindow hslot hw)⟩,
    fun s c x w t desc flag hlen hx hw hmay hgood ht hheld hfits hres hkeep =>
      congrArg _ (State.storeRun_of_resident hlen hx hw hmay hgood ht hheld hfits hres hkeep),
    fun s c x w desc flag hits pf hlen hx hw hmay hbad => congrArg _ (State.storeRun_of_malformed hlen hx hw hmay hbad),
    fun s c x w t st hx hw ht hst hmay hquiet => congrArg _ (State.wxComplete_of_run hx hw ht hst hmay hquiet)⟩
  case rings =>
    rw [State.wxDb_of_window hslot hw, State.wxChead_of_window hslot hw]
    refine ⟨fun hhead htail => congrArg _ (if_pos (doorbellOk_iff.2 ⟨hhead, htail⟩)), fun hfar => congrArg _ (if_neg ?_),
      fun hle => congrArg _ (if_pos (headOk_iff.2 hle)), fun hlt => congrArg _ (if_neg (mt headOk_iff.1 hlt.not_ge))⟩
    rw [doorbellOk_iff]
    omega

end Sys2Proof.Machine


/-! What the resets share: a beacon raised, links trained, slots abandoned, and the state a system reset and a hold come to
(13_reset_health.md R353 to R356; 15_power_bringup.md R402, R406). -/

namespace Sys2Proof.Machine

section
variable {s : State} {l m : LinkId}

/-! ## A beacon of this module -/

theorem State.Flooded.state_light {p : List Byte} {but : Option LinkId} {k : Link} (h : s.Flooded p but l k) :
    k.state = (s.link l).state ∧ k.light = (s.link l).light := by
  obtain ⟨hsent, hkept⟩ := h
  by_cases hlink : beaconLink (s.link l).state = true ∧ some l ≠ but
  · obtain ⟨n, rfl⟩ := hsent hlink.1 hlink.2
    exact ⟨rfl, rfl⟩
  · rw [hkept (by rwa [not_and_or, Bool.not_eq_true, not_not] at hlink)]
    exact ⟨rfl, rfl⟩

theorem State.raise_frame {code subject : Nat} {p : List Byte} :
    s.raise code subject p = { s with evr := (s.raise code subject p).evr } := rfl

theorem State.abortSlice_frame : ∃ ctxs sch col, s.abortSlice = { s with ctxs := ctxs, sch := sch, col := col } := by
  obtain ⟨ctxs, sch, h⟩ := State.settle_eq (s := s.aborted)
  exact ⟨ctxs, sch, s.aborted.col, by rw [State.abortSlice_eq, h]; unfold State.aborted; rfl⟩

theorem State.actBeacon_frame {p : List Byte} {here : Bool} :
    ∃ ctxs sch col evr, s.actBeacon p here = { s with ctxs := ctxs, sch := sch, col := col, evr := evr } := by
  obtain ⟨ctxs, sch, col, h⟩ := s.abortSlice_frame
  refine ⟨ctxs, sch, { col with known := (beaconId p :: s.col.known).take 32 }, (s.actBeacon p here).evr, ?_⟩
  unfold State.actBeacon
  rw [h]
  rfl

/-- A beacon reaches contexts, groups, the event ring and the links' codewords; no link changes its state. -/
theorem State.raiseBeacon_frame {cause : Nat} : ∃ ctxs sch col evr v n,
    s.raiseBeacon cause = { s with ctxs := ctxs, sch := sch, col := col, evr := evr, lnk := { s.lnk with links := v, beSeq := n } } ∧
      ∀ l, (vget v l).state = (s.link l).state ∧ (vget v l).light = (s.link l).light := by
  obtain ⟨v, n, hflood, hlinks⟩ := State.foldl_floodLink (s := { s with col := { s.col with beaconTx := satInc s.col.beaconTx } })
    (p := s.beaconPayload cause) (but := none) (List.nodup_finRange 24)
  obtain ⟨ctxs, sch, col, evr, hact⟩ := State.actBeacon_frame (p := s.beaconPayload cause) (here := true) (s := State.floodBeacon
    { s with col := { s.col with beaconTx := satInc s.col.beaconTx } } (s.beaconPayload cause) none)
  refine ⟨ctxs, sch, col, evr, v, n, ?_, fun l => ((hlinks l).1 (List.mem_finRange l)).state_light⟩
  rw [State.floodBeacon_eq, hflood] at hact
  rw [State.raiseBeacon, State.floodBeacon_eq, hflood, hact]

theorem State.groupsActive_eq_false (h : ∀ g, (s.group g).state ≠ 1) : s.groupsActive = false := by
  rw [State.groupsActive, List.any_eq_false]
  intro g hg
  obtain ⟨i, hi, rfl⟩ := List.mem_iff_getElem.1 hg
  have hfree := h ⟨i, by simpa using hi⟩
  rw [Vector.getElem_toList]
  exact fun hstate => hfree (beq_iff_eq.1 hstate)

theorem State.resetBeacon_frame : ∃ ctxs sch col evr v n,
    s.resetBeacon = { s with ctxs := ctxs, sch := sch, col := col, evr := evr, lnk := { s.lnk with links := v, beSeq := n } } ∧
      (∀ l, (vget v l).state = (s.link l).state ∧ (vget v l).light = (s.link l).light) ∧
      ((∀ g, (s.group g).state ≠ 1) → v = s.lnk.links ∧ n = s.lnk.beSeq) := by
  by_cases h : s.groupsActive = true
  · obtain ⟨ctxs, sch, col, evr, v, n, hbeacon, hlinks⟩ := State.raiseBeacon_frame (s := s) (cause := bcReset)
    refine ⟨ctxs, sch, col, evr, v, n, (if_pos h).trans hbeacon, hlinks, fun hquiet => ?_⟩
    rw [State.groupsActive_eq_false hquiet] at h
    cases h
  · exact ⟨_, _, _, _, _, _, if_neg h, fun _ => ⟨rfl, rfl⟩, fun _ => ⟨rfl, rfl⟩⟩

/-! ## Slots that a reset abandons -/

theorem State.abandonCapture_frame : ∃ host free, s.abandonCapture = { s with host := host, hostFree := free } := by
  unfold State.abandonCapture
  split
  · exact ⟨_, _, rfl⟩
  · exact ⟨_, _, rfl⟩

/-- The step of `abandonShards` at one slot changes host memory alone, so the fold does. -/
theorem foldl_host_frame {α : Type} {f : State → α → State}
    (h : ∀ (s : State) a, ∃ host free, f s a = { s with host := host, hostFree := free }) (as : List α) :
    ∀ s : State, ∃ host free, as.foldl f s = { s with host := host, hostFree := free } := by
  induction as with
  | nil => exact fun s => ⟨_, _, rfl⟩
  | cons a as ih =>
    intro s
    obtain ⟨host, free, hstep⟩ := h s a
    obtain ⟨host', free', hrest⟩ := ih (f s a)
    exact ⟨host', free', hrest.trans (by rw [hstep])⟩

theorem State.abandonShards_frame : ∃ host free, s.abandonShards = { s with host := host, hostFree := free } := by
  refine foldl_host_frame (fun s n => ?_) _ s
  dsimp only
  split
  · split
    · exact ⟨_, _, rfl⟩
    · exact ⟨_, _, rfl⟩
  · exact ⟨_, _, rfl⟩

theorem State.abandon_frame : ∃ host free, s.abandonCapture.abandonShards = { s with host := host, hostFree := free } := by
  obtain ⟨host, free, hcapture⟩ := s.abandonCapture_frame
  rw [hcapture]
  exact State.abandonShards_frame

/-! ## Links that train (09_links.md R244) -/

/-- No link carries time symbols or BE traffic: each is down or in training. -/
def State.LinksIdle (s : State) : Prop := ∀ l, (s.link l).state = lsDown ∨ (s.link l).state = lsTraining

theorem State.LinksIdle.tkpSettle (h : s.LinksIdle) : s.tkpSettle = s := by
  refine State.tkpSettle_of_untrained ?_
  rcases h s.parentLink with h | h <;> rw [State.parentTrained, h] <;> decide

/-- A link that starts training, uncounted: its state, its lanes and an event, while nothing carries time. -/
theorem State.train_eq : s.train l false = (s.modLink l fun k => { k with
    lanesLive := 0, laneDropped := false, droppedLane := 0, dropping := none, ackHt := none, seen := false }).setLink l lsTraining := rfl

theorem State.train_frame : s.train l false =
    { s with lnk := (s.train l false).lnk, tkp := (s.train l false).tkp, evr := (s.train l false).evr } :=
  State.setLink_frame

theorem State.setLink_lnk {new : BitVec 4} : (s.setLink l new).lnk.gen = s.lnk.gen ∧ (s.setLink l new).lnk.topo = s.lnk.topo := by
  by_cases h : (s.link l).state = new
  · rw [State.setLink_of_same h]
    exact ⟨rfl, rfl⟩
  · have hview := State.setLink_beyondFlits h
    exact ⟨(congrArg (·.lnk.gen) hview :), (congrArg (·.lnk.topo) hview :)⟩

theorem State.train_lnk : (s.train l false).lnk.gen = s.lnk.gen ∧ (s.train l false).lnk.topo = s.lnk.topo := State.setLink_lnk

@[simp] theorem State.state_train_same : ((s.train l false).link l).state = lsTraining := State.state_setLink_same

theorem State.state_train_other (h : m ≠ l) : ((s.train l false).link m).state = (s.link m).state :=
  State.train_eq ▸ (State.state_setLink_other h).trans (congrArg Link.state (State.link_modLink_other _ _ _ _ h) :)

theorem State.light_train : ((s.train l false).link m).light = (s.link m).light := by
  by_cases h : m = l
  · subst h
    rw [State.train_eq]
    exact (congrArg Link.light State.link_setLink_same :).trans (congrArg Link.light (State.link_modLink_same _ _ _) :)
  · rw [State.train_eq]
    exact (congrArg Link.light (State.link_setLink_other h) :).trans (congrArg Link.light (State.link_modLink_other _ _ _ _ h) :)

theorem State.LinksIdle.train (h : s.LinksIdle) : (s.train l false).LinksIdle := by
  intro m
  by_cases hm : m = l
  · rw [hm, State.state_train_same]
    exact Or.inr rfl
  · rw [State.state_train_other hm]
    exact h m

theorem State.LinksIdle.modLink {f : Link → Link} (h : s.LinksIdle)
    (hf : (f (s.link l)).state = lsDown ∨ (f (s.link l)).state = lsTraining) : (s.modLink l f).LinksIdle := by
  intro m
  by_cases hm : m = l
  · rwa [hm, State.link_modLink_same]
  · rw [State.link_modLink_other _ _ _ _ hm]
    exact h m

/-- A link that is down comes into training with its event alone, while no link carries time. -/
theorem State.LinksIdle.setLink_of_down (h : s.LinksIdle) (hdown : (s.link l).state = lsDown) : s.setLink l lsTraining =
    (s.modLink l (·.into lsTraining)).raise 0x40 l.val
      (leBytes 4 ((s.link l).state.toNat + lsTraining.toNat * 2 ^ 4 + (s.link l).lanesLive.toNat * 2 ^ 16)) := by
  have hidle : (s.modLink l (·.into lsTraining)).LinksIdle := h.modLink (Or.inr rfl)
  have hstate : ((s.modLink l (·.into lsTraining)).link l).state = lsTraining := by rw [State.link_modLink_same]; rfl
  unfold State.setLink
  dsimp only
  rw [hdown, if_neg (by decide), if_neg (by decide), if_neg (by decide), if_neg (by decide)]
  generalize leBytes 4 _ = p
  have hsilent : ((s.modLink l (·.into lsTraining)).raise 0x40 l.val p).sendDiscovery l = (s.modLink l (·.into lsTraining)).raise 0x40 l.val p :=
    State.sendDiscovery_of_silent (by
      have hkept : (((s.modLink l (·.into lsTraining)).raise 0x40 l.val p).link l).state = lsTraining := hstate
      rw [hkept]
      decide)
  exact (congrArg State.tkpSettle hsilent).trans (State.LinksIdle.tkpSettle (s := (s.modLink l (·.into lsTraining)).raise 0x40 l.val p) hidle)

theorem State.LinksIdle.train_tkp (h : s.LinksIdle) : (s.train l false).tkp = s.tkp := by
  rw [State.train_eq]
  have hidle := h.modLink (l := l) (f := fun k => { k with
    lanesLive := 0, laneDropped := false, droppedLane := 0, dropping := none, ackHt := none, seen := false }) (h l)
  rcases hidle l with hdown | htraining
  · rw [hidle.setLink_of_down hdown]
    rfl
  · rw [State.setLink_of_same htraining]
    rfl

/-- The step of `trainAll` at one link. -/
def State.trainLit (s : State) (l : LinkId) : State := if (s.link l).light then s.train l false else s

theorem State.trainAll_eq : s.trainAll = (List.finRange 24).foldl State.trainLit s := rfl

/-- What training the links with light changes: links, Time Keeper and event rings; GEN and the topology stay. -/
theorem State.foldl_trainLit {ls : List LinkId} : ∃ lnk tkp evr,
    ls.foldl State.trainLit s = { s with lnk := lnk, tkp := tkp, evr := evr } ∧ (s.LinksIdle → tkp = s.tkp) ∧ lnk.gen = s.lnk.gen ∧ lnk.topo = s.lnk.topo ∧
      ∀ m, (vget lnk.links m).light = (s.link m).light ∧
        (m ∈ ls → (s.link m).light = true → (vget lnk.links m).state = lsTraining) ∧
        (m ∉ ls ∨ (s.link m).light = false → (vget lnk.links m).state = (s.link m).state) := by
  induction ls generalizing s with
  | nil => exact ⟨_, _, _, rfl, fun _ => rfl, rfl, rfl, fun m => ⟨rfl, fun h => absurd h List.not_mem_nil, fun _ => rfl⟩⟩
  | cons l ls ih =>
    obtain ⟨lnk, tkp, evr, hfold, htkp, hgen, htopo, hlinks⟩ := ih (s := s.trainLit l)
    rw [List.foldl_cons, hfold]
    by_cases hlit : (s.link l).light = true
    · have hstep : s.trainLit l = s.train l false := if_pos hlit
      rw [hstep] at htkp hgen htopo hlinks ⊢
      refine ⟨lnk, tkp, evr, ?_, fun h => (htkp h.train).trans h.train_tkp, hgen.trans State.train_lnk.1, htopo.trans State.train_lnk.2, fun m => ?_⟩
      · rw [State.train_frame]
      obtain ⟨hlight, htrained, hkept⟩ := hlinks m
      rw [State.light_train] at hlight htrained hkept
      refine ⟨hlight, fun hm hm' => ?_, fun hm => ?_⟩
      · by_cases hmem : m ∈ ls
        · exact htrained hmem hm'
        · rw [hkept (Or.inl hmem), (List.mem_cons.1 hm).resolve_right hmem, State.state_train_same]
      · have hne : m ≠ l := by
          rintro rfl
          exact hm.elim (fun h => h List.mem_cons_self) fun h => by rw [h] at hlit; cases hlit
        rw [hkept (hm.imp_left fun h hmem => h (List.mem_cons_of_mem _ hmem)), State.state_train_other hne]
    · have hstep : s.trainLit l = s := if_neg hlit
      rw [hstep] at htkp hgen htopo hlinks ⊢
      refine ⟨lnk, tkp, evr, rfl, htkp, hgen, htopo, fun m => ?_⟩
      obtain ⟨hlight, htrained, hkept⟩ := hlinks m
      refine ⟨hlight, fun hm hm' => htrained ((List.mem_cons.1 hm).resolve_left ?_) hm', fun hm => hkept ?_⟩
      · rintro rfl
        exact hlit hm'
      · exact hm.imp_left fun h hmem => h (List.mem_cons_of_mem _ hmem)

theorem State.link_trainAll : ∃ lnk tkp evr, s.trainAll = { s with lnk := lnk, tkp := tkp, evr := evr } ∧ (s.LinksIdle → tkp = s.tkp) ∧
    lnk.gen = s.lnk.gen ∧ lnk.topo = s.lnk.topo ∧ ∀ m, ((s.link m).light = true → (vget lnk.links m).state = lsTraining) ∧
      ((s.link m).light = false → (vget lnk.links m).state = (s.link m).state) := by
  obtain ⟨lnk, tkp, evr, hfold, htkp, hgen, htopo, hlinks⟩ := State.foldl_trainLit (s := s) (ls := List.finRange 24)
  refine ⟨lnk, tkp, evr, hfold, htkp, hgen, htopo, fun m => ?_⟩
  obtain ⟨-, htrained, hkept⟩ := hlinks m
  exact ⟨htrained (List.mem_finRange m), fun h => hkept (Or.inr h)⟩

/-! ## Escalation (R364) -/

theorem State.escalate_of_counted {cause : Nat} {counted : Bool} (h : counted = true ∨ s.causeCounted cause = true) :
    s.escalate cause counted = { s with rst := { s.rst with
      stamps := (s.islandTime :: s.rst.stamps).take 15
      retireAfter := !s.rst.retired && (s.rst.retireAfter ||
        s.rst.countLimit ≤ State.escRecent { s with rst := { s.rst with stamps := (s.islandTime :: s.rst.stamps).take 15 } }) } } :=
  if_pos (Bool.or_eq_true_iff.2 h)

theorem State.escalate_of_uncounted {cause : Nat} {counted : Bool} (h : counted = false) (hmask : s.causeCounted cause = false) :
    s.escalate cause counted = s := if_neg (by rw [h, hmask]; decide)

theorem State.escalate_frame {cause : Nat} {counted : Bool} : ∃ stamps after,
    s.escalate cause counted = { s with rst := { s.rst with stamps := stamps, retireAfter := after } } := by
  by_cases h : counted = true ∨ s.causeCounted cause = true
  · exact ⟨_, _, State.escalate_of_counted h⟩
  · rw [not_or, Bool.not_eq_true, Bool.not_eq_true] at h
    exact ⟨_, _, State.escalate_of_uncounted h.1 h.2⟩

/-! ## The system reset (R353, R355) -/

/-- A system reset's cause is recorded and counted. -/
def State.caused (s : State) (cause detail : Nat) (counted : Bool) : State :=
  { s.escalate cause counted with rst := { (s.escalate cause counted).rst with
    cause := BitVec.ofNat 8 cause, detail := BitVec.ofNat 3 detail } }

theorem State.caused_frame {cause detail : Nat} {counted : Bool} : ∃ stamps after, s.caused cause detail counted =
    { s with rst := { s.rst with
      stamps := stamps, retireAfter := after, cause := BitVec.ofNat 8 cause, detail := BitVec.ofNat 3 detail } } := by
  obtain ⟨stamps, after, h⟩ := s.escalate_frame (cause := cause) (counted := counted)
  exact ⟨stamps, after, by rw [State.caused, h]⟩

/-- The dies start anew: GEN and the epoch step, the calibration image and a firmware bank are chosen. -/
def State.anew (s : State) : State :=
  { s with
    lnk := { s.lnk with gen := s.lnk.gen + 1 }, rst := { s.rst with epoch := s.rst.epoch + 1 }, pwr := { s.pwr with stage := 4 }
    seam := { s.seam with zeroing := true } }.loadCal.bootBank

theorem State.systemStart_eq {cause detail : Nat} {counted : Bool} : s.systemStart cause detail counted =
    let u := s.caused cause detail counted
    if !u.pwr.mainOn || u.pwr.hold != .none then u
    else u.resetBeacon.abandonCapture.abandonShards.systemClear.anew.trainAll := by
  have hanew : ∀ u v : State, (if !u.pwr.mainOn || u.pwr.hold != .none then u else
      let s : State := { v with
        lnk := { v.lnk with gen := v.lnk.gen + 1 }, rst := { v.rst with epoch := v.rst.epoch + 1 }
        pwr := { v.pwr with stage := 4 }, seam := { v.seam with zeroing := true } }
      s.loadCal.bootBank.trainAll) = if !u.pwr.mainOn || u.pwr.hold != .none then u else v.anew.trainAll := fun _ _ => by
    unfold State.anew
    rfl
  exact hanew _ _

/-- A system reset does not see what a beacon and abandoned slots change, host memory excepted. -/
theorem State.systemClear_of_beside {ctxs : Vector (Option Context) 256} {sch : Sch} {col : Col} {evr : Vector EventRing 4}
    {v : Vector Link 24} {n : Word} {host : Cells} {free : List (Nat × Nat)} (h : ∀ l, (vget v l).light = (s.link l).light) :
    State.systemClear { s with
      ctxs := ctxs, sch := sch, col := col, evr := evr, lnk := { s.lnk with links := v, beSeq := n }, host := host, hostFree := free } =
      { s.systemClear with host := host, hostFree := free } := by
  have hlinks : (Vector.ofFn fun l => { linkReset with light := (vget v l).light } : Vector Link 24) =
      Vector.ofFn fun l => { linkReset with light := (s.link l).light } := congrArg _ (funext fun l => by rw [h l])
  exact congrArg (fun links : Vector Link 24 => ({ s.systemClear with
    host := host, hostFree := free, lnk := { s.systemClear.lnk with links := links } } : State)) hlinks

/-- Before a reset clears the module a beacon may leave and the slots being filled are abandoned: of what is cleared host memory alone
sees it. -/
theorem State.systemClear_of_beacon {u : State} {ctxs : Vector (Option Context) 256} {sch : Sch} {col : Col} {evr : Vector EventRing 4}
    {v : Vector Link 24} {n : Word}
    (hbeacon : u = { s with ctxs := ctxs, sch := sch, col := col, evr := evr, lnk := { s.lnk with links := v, beSeq := n } })
    (hlight : ∀ l, (vget v l).light = (s.link l).light) :
    ∃ host free, u.abandonCapture.abandonShards.systemClear = { s.systemClear with host := host, hostFree := free } := by
  obtain ⟨host, free, habandon⟩ := u.abandon_frame
  have hleft : u.abandonCapture.abandonShards = { s with
      ctxs := ctxs, sch := sch, col := col, evr := evr, lnk := { s.lnk with links := v, beSeq := n }, host := host, hostFree := free } := by
    rw [habandon, hbeacon]
  exact ⟨host, free, (congrArg State.systemClear hleft).trans (State.systemClear_of_beside hlight)⟩

theorem State.systemClear_leaving : ∃ host free,
    s.resetBeacon.abandonCapture.abandonShards.systemClear = { s.systemClear with host := host, hostFree := free } := by
  obtain ⟨ctxs, sch, col, evr, v, n, hbeacon, hlinks, -⟩ := s.resetBeacon_frame
  exact State.systemClear_of_beacon hbeacon fun l => (hlinks l).2

theorem State.systemClear_raising {cause : Nat} : ∃ host free,
    (s.raiseBeacon cause).abandonCapture.abandonShards.systemClear = { s.systemClear with host := host, hostFree := free } := by
  obtain ⟨ctxs, sch, col, evr, v, n, hbeacon, hlinks⟩ := s.raiseBeacon_frame (cause := cause)
  exact State.systemClear_of_beacon hbeacon fun l => (hlinks l).2

theorem State.loadCal_frame : s.loadCal = { s with cal := s.loadCal.cal } := rfl
theorem State.bootBank_frame : s.bootBank = { s with sec := s.bootBank.sec } := rfl

theorem State.link_systemClear : s.systemClear.link l = { linkReset with light := (s.link l).light } := vget_ofFn ..

theorem State.link_anew : s.anew.link l = s.link l := rfl

theorem State.caused_pwr {cause detail : Nat} {counted : Bool} : (s.caused cause detail counted).pwr = s.pwr := by
  obtain ⟨stamps, after, h⟩ := s.caused_frame (cause := cause) (detail := detail) (counted := counted)
  rw [h]

theorem State.caused_lnk {cause detail : Nat} {counted : Bool} : (s.caused cause detail counted).lnk = s.lnk := by
  obtain ⟨stamps, after, h⟩ := s.caused_frame (cause := cause) (detail := detail) (counted := counted)
  rw [h]

theorem State.systemStart_of_unpowered {cause detail : Nat} {counted : Bool} (h : s.pwr.mainOn = false ∨ s.pwr.hold ≠ .none) :
    s.systemStart cause detail counted = s.caused cause detail counted := by
  rw [State.systemStart_eq]
  exact if_pos (by rw [State.caused_pwr]; simpa using h)

theorem State.anew_beside {host : Cells} {free : List (Nat × Nat)} :
    State.anew { s with host := host, hostFree := free } = { s.anew with host := host, hostFree := free } := rfl

theorem State.systemStart_of_powered {cause detail : Nat} {counted : Bool} (hon : s.pwr.mainOn = true) (hfree : s.pwr.hold = .none) :
    ∃ host free lnk evr, s.systemStart cause detail counted =
        { (s.caused cause detail counted).systemClear.anew with host := host, hostFree := free, lnk := lnk, evr := evr } ∧
      lnk.gen = s.lnk.gen + 1 ∧ lnk.topo = none ∧
      ∀ l, ((s.link l).light = true → (vget lnk.links l).state = lsTraining) ∧
        ((s.link l).light = false → (vget lnk.links l).state = lsDown) := by
  obtain ⟨host, free, hclear⟩ := State.systemClear_leaving (s := s.caused cause detail counted)
  have hlnk := s.caused_lnk (cause := cause) (detail := detail) (counted := counted)
  have hgo : ¬(!(s.caused cause detail counted).pwr.mainOn || (s.caused cause detail counted).pwr.hold != .none) = true := by
    rw [State.caused_pwr, hon, hfree]
    decide
  have hstart : s.systemStart cause detail counted = _ := State.systemStart_eq.trans (if_neg hgo)
  rw [hstart, hclear, State.anew_beside]
  generalize s.caused cause detail counted = u at hlnk
  have hlink : ∀ l, State.link { u.systemClear.anew with host := host, hostFree := free } l = { linkReset with light := (s.link l).light } :=
    fun l => (u.link_systemClear (l := l)).trans (by rw [State.link, hlnk]; rfl)
  obtain ⟨lnk, tkp, evr, htrain, htkp, hgen, htopo, hlinks⟩ :=
    State.link_trainAll (s := { u.systemClear.anew with host := host, hostFree := free })
  refine ⟨host, free, lnk, evr, ?_, ?_, htopo, fun l => ?_⟩
  · rw [htrain, htkp fun l => by rw [hlink]; exact Or.inl rfl]
  · rw [hgen, ← hlnk]
    rfl
  · have hl := hlinks l
    rw [hlink] at hl
    exact hl

/-- A system reset in full: its cause and count, what it clears, the dies started anew, the links with light in training. -/
theorem State.systemStart_frame {cause detail : Nat} {counted : Bool} (hon : s.pwr.mainOn = true) (hfree : s.pwr.hold = .none) :
    ∃ stamps after host free lnk evr, s.systemStart cause detail counted =
        { (State.systemClear { s with rst := { s.rst with
            stamps := stamps, retireAfter := after, cause := BitVec.ofNat 8 cause, detail := BitVec.ofNat 3 detail } }).anew with
          host := host, hostFree := free, lnk := lnk, evr := evr } ∧
      lnk.gen = s.lnk.gen + 1 ∧ lnk.topo = none ∧
      ∀ l, ((s.link l).light = true → (vget lnk.links l).state = lsTraining) ∧
        ((s.link l).light = false → (vget lnk.links l).state = lsDown) := by
  obtain ⟨stamps, after, hcaused⟩ := s.caused_frame (cause := cause) (detail := detail) (counted := counted)
  obtain ⟨host, free, lnk, evr, hstart, hlinks⟩ := State.systemStart_of_powered (cause := cause) (detail := detail) (counted := counted) hon hfree
  exact ⟨stamps, after, host, free, lnk, evr, by rw [hstart, hcaused], hlinks⟩

/-! ## The core reset (R354) -/

theorem State.mbxEnd_frame {st : Byte} {bs : List Byte} : s.mbxEnd st bs = { s with
    mbx := (s.mbxEnd st bs).mbx, irq := (s.mbxEnd st bs).irq, host := (s.mbxEnd st bs).host, hostFree := (s.mbxEnd st bs).hostFree } := by
  unfold State.mbxEnd
  rw [State.irqEvent_frame]

/-- A calibration image that the request cut off was having written is given up. -/
def Cal.cut (c : Cal) : Cal :=
  { c with
    state := if c.writing.any (fun w => !w.2) then 0 else c.state
    writing := if c.writing.any (fun w => !w.2) then none else c.writing }

theorem State.mbxCut_of_busy (h : s.mbx.busy = true) : s.mbxCut = { s.mbxEnd stFenced [] with cal := s.cal.cut } := by
  refine (if_pos h).trans ?_
  rw [State.mbxFail_eq, State.mbxEnd_frame]
  rfl

theorem State.mbxCut_frame : ∃ mbx irq host free cal, s.mbxCut = { s with
    mbx := mbx, irq := irq, host := host, hostFree := free, cal := cal } ∧ cal.stored = s.cal.stored ∧ mbx.busy = false ∧
      (s.mbx.busy = true → mbx.status = stFenced ∧ mbx.len = 0 ∧ mbx.valid = true) := by
  by_cases h : s.mbx.busy = true
  · have hcut := State.mbxCut_of_busy h
    have hmbx := s.mbxEnd_mbx stFenced []
    rw [State.mbxEnd_frame] at hcut
    exact ⟨_, _, _, _, _, hcut, rfl, by rw [hmbx], fun _ => by rw [hmbx]; exact ⟨rfl, rfl, rfl⟩⟩
  · exact ⟨_, _, _, _, _, if_neg h, rfl, by simpa using h, fun hbusy => absurd hbusy h⟩

/-- The core domains are cleared and held. -/
def State.coreHeldClear (s : State) : State :=
  { s.coreClear with
    rst := { s.coreClear.rst with coreHeld := true, inReset := some false }, seam := { s.coreClear.seam with zeroing := true } }

theorem State.coreStart_eq {cause : Nat} {counted : Bool} : s.coreStart cause counted =
    let u := s.caused cause 0 counted
    if u.rst.inReset == some true then u else u.resetBeacon.mbxCut.abandonCapture.abandonShards.coreHeldClear := by
  have hheld : ∀ u v : State, (if u.rst.inReset == some true then u else
      { v.coreClear with
        rst := { v.coreClear.rst with coreHeld := true, inReset := some false }
        seam := { v.coreClear.seam with zeroing := true } }) =
      if u.rst.inReset == some true then u else v.coreHeldClear := fun _ _ => by
    unfold State.coreHeldClear
    rfl
  exact hheld _ _

theorem State.caused_inReset {cause detail : Nat} {counted : Bool} : (s.caused cause detail counted).rst.inReset = s.rst.inReset := by
  obtain ⟨stamps, after, h⟩ := s.caused_frame (cause := cause) (detail := detail) (counted := counted)
  rw [h]

theorem State.coreStart_of_inSystem {cause : Nat} {counted : Bool} (h : s.rst.inReset = some true) :
    s.coreStart cause counted = s.caused cause 0 counted := by
  rw [State.coreStart_eq]
  exact if_pos (by rw [State.caused_inReset, h]; decide)

/-- What leaves the core domains before a core reset clears them: the beacon, the mailbox request, the slots being filled. -/
theorem State.coreLeaving : ∃ ctxs sch col evr v n mbx irq host free cal,
    s.resetBeacon.mbxCut.abandonCapture.abandonShards = { s with
      ctxs := ctxs, sch := sch, col := col, evr := evr, lnk := { s.lnk with links := v, beSeq := n }, mbx := mbx, irq := irq
      host := host, hostFree := free, cal := cal } ∧
      (∀ l, (vget v l).state = (s.link l).state ∧ (vget v l).light = (s.link l).light) ∧
      ((∀ g, (s.group g).state ≠ 1) → v = s.lnk.links ∧ n = s.lnk.beSeq) ∧ cal.stored = s.cal.stored ∧ mbx.busy = false ∧
      (s.mbx.busy = true → mbx.status = stFenced ∧ mbx.len = 0 ∧ mbx.valid = true) := by
  obtain ⟨ctxs, sch, col, evr, v, n, hbeacon, hlinks, hquiet⟩ := s.resetBeacon_frame
  obtain ⟨mbx, irq, host, free, cal, hcut, hstored, hidle, hended⟩ := s.resetBeacon.mbxCut_frame
  obtain ⟨host', free', habandon⟩ := s.resetBeacon.mbxCut.abandon_frame
  refine ⟨ctxs, sch, col, evr, v, n, mbx, irq, host', free', cal, ?_, hlinks, hquiet, hstored.trans (by rw [hbeacon]), hidle, fun h =>
    hended (by rw [hbeacon]; exact h)⟩
  rw [habandon, hcut, hbeacon]

theorem State.coreStart_of_running {cause : Nat} {counted : Bool} (h : s.rst.inReset ≠ some true) : s.coreStart cause counted =
    (s.caused cause 0 counted).resetBeacon.mbxCut.abandonCapture.abandonShards.coreHeldClear := by
  rw [State.coreStart_eq]
  exact if_neg (by rw [State.caused_inReset]; simpa using h)

/-! ## Retirement (R365) -/

@[simp] theorem State.announce_beyondFlits : s.announce.beyondFlits = s.beyondFlits :=
  foldl_view State.beyondFlits (fun _ _ => view_ite State.beyondFlits rfl State.sendDiscovery_beyondFlits) _ _

theorem State.announce_frame : s.announce = { s with lnk := s.announce.lnk, tkp := s.announce.tkp } := by
  have hview := s.announce_beyondFlits
  generalize s.announce = t at hview ⊢
  exact (congrArg (fun v : State => { v with lnk := t.lnk, tkp := t.tkp }) hview :)

theorem State.announce_lnk : s.announce.lnk.gen = s.lnk.gen := by
  have hview := s.announce_beyondFlits
  generalize s.announce = t at hview ⊢
  exact (congrArg (·.lnk.gen) hview :)

theorem State.link_announce : (s.announce.link l).state = (s.link l).state ∧ (s.announce.link l).light = (s.link l).light := by
  have hview := s.announce_beyondFlits
  generalize s.announce = t at hview ⊢
  have hlink : t.beyondFlits.link l = s.beyondFlits.link l := by rw [hview]
  rw [State.link_beyondFlits, State.link_beyondFlits] at hlink
  exact ⟨(congrArg Link.state hlink :), (congrArg Link.light hlink :)⟩

/-- The step of `retireLinks` at one link. -/
def State.retireLink (s : State) (l : LinkId) : State :=
  if !(s.link l).light then s
  else if (s.link l).state == lsSleep then s.wake l
  else if (s.link l).state == lsTraining || (s.link l).state == lsWaking then s
  else if (s.link l).state == lsDown || (s.link l).state == lsFailed then
    if s.rst.lfence.getLsbD l.val || s.rst.blkBusy == some (true, l.val) then s else s.train l false
  else s.setLink l lsRetired

theorem State.retireLinks_eq : s.retireLinks = (List.finRange 24).foldl State.retireLink s := rfl

/-- A link that only changes its state keeps GEN, its light, and the other links' states and light. -/
structure State.Relinked (s t : State) (l : LinkId) : Prop where
  frame : t = { s with lnk := t.lnk, tkp := t.tkp, evr := t.evr }
  gen : t.lnk.gen = s.lnk.gen
  light : ∀ m, (t.link m).light = (s.link m).light
  other : ∀ m, m ≠ l → (t.link m).state = (s.link m).state

theorem State.Relinked.refl : s.Relinked s l := ⟨rfl, rfl, fun _ => rfl, fun _ _ => rfl⟩

theorem State.light_setLink {new : BitVec 4} : ((s.setLink l new).link m).light = (s.link m).light := by
  by_cases h : m = l
  · subst h
    exact (congrArg Link.light State.link_setLink_same :)
  · exact (congrArg Link.light (State.link_setLink_other h) :)

theorem State.relinked_setLink {new : BitVec 4} : s.Relinked (s.setLink l new) l :=
  ⟨State.setLink_frame, State.setLink_lnk.1, fun _ => State.light_setLink, fun _ => State.state_setLink_other⟩

theorem State.relinked_train : s.Relinked (s.train l false) l :=
  ⟨State.train_frame, State.train_lnk.1, fun _ => State.light_train, fun _ => State.state_train_other⟩

theorem State.relinked_wake : s.Relinked (s.wake l) l := by
  have hmod : s.Relinked (s.modLink l fun k => { k with sleep := false, sleepAsked := false }) l := by
    refine ⟨rfl, rfl, fun m => ?_, fun m hm => by rw [State.link_modLink_other _ _ _ _ hm]⟩
    by_cases hm : m = l
    · rw [hm, State.link_modLink_same]
    · rw [State.link_modLink_other _ _ _ _ hm]
  unfold State.wake
  dsimp only
  generalize s.modLink l _ = u at hmod
  split
  · obtain ⟨hframe, hgen, hlight, hother⟩ := State.relinked_setLink (s := u) (l := l) (new := lsWaking)
    refine ⟨?_, hgen.trans hmod.gen, fun m => (hlight m).trans (hmod.light m), fun m hm => (hother m hm).trans (hmod.other m hm)⟩
    rw [hframe, hmod.frame]
  · exact hmod

theorem State.relinked_retireLink : s.Relinked (s.retireLink l) l := by
  unfold State.retireLink
  split
  · exact State.Relinked.refl
  split
  · exact State.relinked_wake
  split
  · exact State.Relinked.refl
  split
  · split
    · exact State.Relinked.refl
    · exact State.relinked_train
  · exact State.relinked_setLink

theorem State.retireLink_of_usable (hlight : (s.link l).light = true) (h : usableState (s.link l).state = true) :
    s.retireLink l = s.setLink l lsRetired := by
  have hstate : (s.link l).state = lsUp ∨ (s.link l).state = lsDegraded := by simpa [usableState] using h
  unfold State.retireLink
  rcases hstate with hstate | hstate <;> rw [hlight, hstate] <;> rfl

/-- Links come into RETIRED: what changes is links, Time Keeper and event rings; a usable link with light is then RETIRED. -/
theorem State.foldl_retireLink {ls : List LinkId} (hnodup : ls.Nodup) : ∃ lnk tkp evr,
    ls.foldl State.retireLink s = { s with lnk := lnk, tkp := tkp, evr := evr } ∧ lnk.gen = s.lnk.gen ∧
      ∀ m, (m ∈ ls → (s.link m).light = true → usableState (s.link m).state = true → (vget lnk.links m).state = lsRetired) ∧
        (m ∉ ls → (vget lnk.links m).state = (s.link m).state) := by
  induction ls generalizing s with
  | nil => exact ⟨_, _, _, rfl, rfl, fun m => ⟨fun h => absurd h List.not_mem_nil, fun _ => rfl⟩⟩
  | cons l ls ih =>
    obtain ⟨hfirst, hrest⟩ := List.nodup_cons.1 hnodup
    obtain ⟨hframe, hgen, hlight, hother⟩ := State.relinked_retireLink (s := s) (l := l)
    obtain ⟨lnk, tkp, evr, hfold, hgen', hlinks⟩ := ih (s := s.retireLink l) hrest
    refine ⟨lnk, tkp, evr, by rw [List.foldl_cons, hfold, hframe], hgen'.trans hgen, fun m => ?_⟩
    obtain ⟨hretired, hkept⟩ := hlinks m
    refine ⟨fun hm hlit husable => ?_, fun hm => ?_⟩
    · by_cases hml : m = l
      · subst hml
        rw [hkept hfirst, State.retireLink_of_usable hlit husable, State.state_setLink_same]
      · refine hretired ((List.mem_cons.1 hm).resolve_left hml) ((hlight m).trans hlit) ?_
        rw [hother m hml]
        exact husable
    · rw [hkept fun hmem => hm (List.mem_cons_of_mem _ hmem), hother m fun h => hm (h ▸ List.mem_cons_self)]

/-- The record of a retirement: its cause, its stamp, and the core domains held for good. -/
def State.retiring (s : State) (cause : Nat) : State :=
  { s.escalate cause false with rst := { (s.escalate cause false).rst with
    retired := true, coreHeld := true, retireAfter := false, cause := BitVec.ofNat 8 cause, detail := 0 } }

theorem State.retire_eq {cause : Nat} : s.retire cause =
    let w := ((s.retiring cause).raiseBeacon bcRetire).announce.retireLinks
    w.abandonCapture.abandonShards.coreClear.raise 0xD1 0 (leBytes 4 cause ++ leBytes 4 w.escRecent) := by
  have hrest : ∀ w : State, w.abandonCapture.abandonShards.coreClear.raise 0xD1 0 (leBytes 4 cause ++ leBytes 4 w.escRecent) =
      w.abandonCapture.abandonShards.coreClear.raise 0xD1 0 (leBytes 4 cause ++ leBytes 4 w.escRecent) := fun _ => rfl
  exact hrest _

theorem State.retiring_frame {cause : Nat} : ∃ stamps, s.retiring cause = { s with rst := { s.rst with
    stamps := stamps, retired := true, coreHeld := true, retireAfter := false, cause := BitVec.ofNat 8 cause, detail := 0 } } ∧
      (s.causeCounted cause = false → stamps = s.rst.stamps) ∧
      (s.causeCounted cause = true → stamps = (s.islandTime :: s.rst.stamps).take 15) := by
  by_cases h : s.causeCounted cause = true
  · refine ⟨(s.islandTime :: s.rst.stamps).take 15, ?_, fun hnot => absurd (h.symm.trans hnot) (by decide), fun _ => rfl⟩
    rw [State.retiring, State.escalate_of_counted (Or.inr h)]
  · refine ⟨s.rst.stamps, ?_, fun _ => rfl, fun hyes => absurd hyes h⟩
    rw [State.retiring, State.escalate_of_uncounted rfl (Bool.not_eq_true _ ▸ h)]

/-- A retirement clears the core domains of a state that its beacon, its announcement, its links and abandoned slots have changed. -/
theorem State.retire_frame {cause : Nat} : ∃ ctxs sch col evr lnk tkp host free p,
    s.retire cause = (State.coreClear { s.retiring cause with
      ctxs := ctxs, sch := sch, col := col, evr := evr, lnk := lnk, tkp := tkp, host := host, hostFree := free }).raise 0xD1 0 p ∧
      lnk.gen = s.lnk.gen ∧
      ∀ l, (s.link l).light = true → usableState (s.link l).state = true → (vget lnk.links l).state = lsRetired := by
  obtain ⟨stamps, hretiring, -⟩ := s.retiring_frame (cause := cause)
  have hlnk : (s.retiring cause).lnk = s.lnk := by rw [hretiring]
  rw [State.retire_eq]
  dsimp only
  generalize s.retiring cause = u at hlnk
  obtain ⟨ctxs, sch, col, evr, v, n, hbeacon, hlinks⟩ := u.raiseBeacon_frame (cause := bcRetire)
  have hlinks' : ∀ l, ((u.raiseBeacon bcRetire).link l).state = (s.link l).state ∧ ((u.raiseBeacon bcRetire).link l).light = (s.link l).light :=
    fun l => by
      rw [hbeacon]
      exact ⟨(hlinks l).1.trans (by rw [State.link, hlnk]; rfl), (hlinks l).2.trans (by rw [State.link, hlnk]; rfl)⟩
  have hgen : (u.raiseBeacon bcRetire).lnk.gen = s.lnk.gen := by rw [hbeacon, ← hlnk]
  have hannounce := (u.raiseBeacon bcRetire).announce_frame
  have hgen' := (u.raiseBeacon bcRetire).announce_lnk
  have hsaid : ∀ l, _ := fun l => (u.raiseBeacon bcRetire).link_announce (l := l)
  generalize (u.raiseBeacon bcRetire).announce = w at hannounce hgen' hsaid
  obtain ⟨lnk, tkp, evr', hfold, hgen'', hretired⟩ := State.foldl_retireLink (s := w) (List.nodup_finRange 24)
  rw [← State.retireLinks_eq] at hfold
  generalize w.retireLinks = r at hfold
  obtain ⟨host, free, habandon⟩ := r.abandon_frame
  refine ⟨ctxs, sch, col, evr', lnk, tkp, host, free, leBytes 4 cause ++ leBytes 4 r.escRecent, ?_, hgen''.trans (hgen'.trans hgen),
    fun l hlight husable => (hretired l).1 (List.mem_finRange l) ?_ ?_⟩
  · rw [habandon, hfold, hannounce, hbeacon]
  · rw [(hsaid l).2, (hlinks' l).2, hlight]
  · rw [(hsaid l).1, (hlinks' l).1, husable]

end

end Sys2Proof.Machine


/-! Core and system resets start and end (13_reset_health.md R353 to R356, R364; 01_module.md R23). -/

namespace Sys2Proof.Machine

section
variable {s : State} {counted : Bool}

theorem exec_coreReset : exec (.coreReset counted) s = .next (s.coreStart 6 counted) := rfl
theorem exec_coreResetComplete : exec .coreResetComplete s = .next s.coreDone := rfl
theorem exec_systemReset : exec (.systemReset counted) s = .next (s.systemStart 5 0 counted) := rfl
theorem exec_systemResetReady : exec .systemResetReady s = .next s.becomeReady := rfl
theorem exec_startupReady : exec .startupReady s = .next s.becomeReady := rfl
theorem exec_perstN : exec .perstN s = .next (State.systemStart { s with perst := true } 2 0 false) := rfl
theorem exec_hotResetP0 : exec .hotResetP0 s = .next (s.systemStart 3 0 false) := rfl
theorem exec_dlDownP0 : exec .dlDownP0 s = .next (s.systemStart 4 0 false) := rfl

/-! ## The end of a core reset (R354) -/

/-- The core domains have been cleared: the epoch steps and CORE_RESET_DONE is raised. -/
def State.coreCleared (s : State) : State :=
  { s with
    rst := { s.rst with inReset := none, coreHeld := s.rst.retired, epoch := s.rst.epoch + 1 }
    seam := { s.seam with zeroing := false } }.raise 0xD0 0 (leBytes 4 s.rst.cause.toNat ++ leBytes 4 (s.rst.epoch + 1).toNat)

theorem State.coreDone_of_idle (h : s.rst.inReset ≠ some false) : s.coreDone = s := if_neg (by simpa using h)

theorem State.coreDone_of_running (h : s.rst.inReset = some false) :
    s.coreDone = if s.rst.retireAfter && !s.rst.retired then s.coreCleared.retire 0x0B else s.coreCleared :=
  if_pos (by rw [h]; decide)

/-! ## READY (R354; 14_identity_service.md R379) -/

/-- READY rises with a new attestation made at the present GEN. -/
def State.readied (s : State) : State :=
  { s with
    rst := { s.rst with inReset := none, coreHeld := s.rst.retired }
    seam := { s.seam with zeroing := false }
    hub := { s.hub with ready := true }
    pwr := { s.pwr with stage := 6 }
    sec := { s.sec with attestReady := true, attestNo := s.sec.attestNo + 1, attestGen := s.lnk.gen } }

theorem State.becomeReady_of_waiting
    (h : s.rst.inReset ≠ some true ∨ s.sec.islandOnly = true ∨ s.pwr.hold ≠ .none ∨ s.pwr.mainOn = false) : s.becomeReady = s := by
  refine if_neg ?_
  simp only [Bool.and_eq_true, beq_iff_eq, Bool.not_eq_true']
  rintro ⟨⟨⟨hreset, hisland⟩, hhold⟩, hon⟩
  rcases h with h | h | h | h
  · exact h hreset
  · rw [h] at hisland; cases hisland
  · exact h hhold
  · rw [h] at hon; cases hon

theorem State.becomeReady_of_powered (hreset : s.rst.inReset = some true) (hisland : s.sec.islandOnly = false) (hhold : s.pwr.hold = .none)
    (hon : s.pwr.mainOn = true) :
    s.becomeReady = if s.rst.retireAfter && !s.rst.retired then s.readied.retire 0x0B else s.readied :=
  if_pos (by rw [hreset, hisland, hhold, hon]; decide)

theorem retires_eq_false {after retired : Bool} (h : after = false ∨ retired = true) : (after && !retired) = false := by
  rcases h with rfl | rfl
  · rfl
  · exact Bool.and_false _

/-- What a retirement leaves of the record and of the hub. -/
theorem State.retire_spec {cause : Nat} : (s.retire cause).rst.retired = true ∧ (s.retire cause).rst.coreHeld = true ∧
    (s.retire cause).rst.cause = BitVec.ofNat 8 cause ∧ (s.retire cause).rst.retireAfter = false ∧ (s.retire cause).hub = s.hub := by
  obtain ⟨stamps, hretiring, -⟩ := s.retiring_frame (cause := cause)
  obtain ⟨ctxs, sch, col, evr, lnk, tkp, host, free, p, hretire, -⟩ := s.retire_frame (cause := cause)
  rw [hretire, hretiring]
  exact ⟨rfl, rfl, rfl, rfl, rfl⟩

/-! ## Escalation (R364) -/

theorem State.causeCounted_iff {cause : Nat} :
    s.causeCounted cause = true ↔ 2 ≤ cause ∧ cause ≤ 12 ∧ s.rst.escMask.getLsbD cause = true := by
  rw [State.causeCounted, Bool.and_eq_true, Bool.and_eq_true, decide_eq_true_eq, decide_eq_true_eq, and_assoc]

theorem State.causeCounted_eq_false {cause : Nat} (h : cause < 2 ∨ 12 < cause ∨ s.rst.escMask.getLsbD cause = false) :
    s.causeCounted cause = false := by
  rw [← Bool.not_eq_true, State.causeCounted_iff]
  rintro ⟨hlow, hhigh, hmask⟩
  rcases h with h | h | h
  · omega
  · omega
  · rw [h] at hmask; cases hmask

/-! ## The sources of a system reset (Table 13.4) -/

/-- Every source starts the same reset; PERST_N leaves its pin asserted. -/
theorem exec_systemStart {i : Instr} {cause : Byte}
    (h : (i, cause, counted) ∈ [(.systemReset counted, 5, counted), (.perstN, 2, false), (.hotResetP0, 3, false), (.dlDownP0, 4, false)]) :
    ∃ perst, exec i s = .next (State.systemStart { s with perst := perst } cause.toNat 0 counted) := by
  simp only [List.mem_cons, Prod.mk.injEq, List.not_mem_nil, or_false] at h
  rcases h with ⟨rfl, rfl, -⟩ | ⟨rfl, rfl, rfl⟩ | ⟨rfl, rfl, rfl⟩ | ⟨rfl, rfl, rfl⟩
  · exact ⟨s.perst, exec_systemReset⟩
  · exact ⟨true, exec_perstN⟩
  · exact ⟨s.perst, exec_hotResetP0⟩
  · exact ⟨s.perst, exec_dlDownP0⟩

theorem State.systemStart_perst {cause detail : Nat} : (s.systemStart cause detail counted).perst = s.perst := by
  by_cases h : s.pwr.mainOn = true ∧ s.pwr.hold = .none
  · obtain ⟨stamps, after, host, free, lnk, evr, hstart, -⟩ := State.systemStart_frame (cause := cause) (detail := detail) (counted := counted) h.1 h.2
    rw [hstart]
    rfl
  · obtain ⟨stamps, after, hcaused⟩ := s.caused_frame (cause := cause) (detail := detail) (counted := counted)
    rw [State.systemStart_of_unpowered (by rwa [not_and_or, Bool.not_eq_true] at h), hcaused]

/-! ## What a reset leaves empty -/

theorem State.ctx?_of_none {c : CtxId} (h : s.ctxs = Vector.replicate 256 none) : s.ctx? c = none := by
  rw [State.ctx?, h, vget_replicate]

theorem State.group_of_reset {g : GroupId} (h : s.col.groups = Vector.replicate 64 groupReset) : (s.group g).state = 0 := by
  rw [State.group, h, vget_replicate]
  rfl

theorem State.snap_of_reset {n : SnapId} (h : s.snp.slots = Vector.replicate 8 snapSlotReset) : (s.snap n).state = 0 := by
  rw [State.snap, h, vget_replicate]
  rfl

end

/-- Settles O47: by what leaves the module before it is cleared, and by the record of the cause. -/
theorem resetsClearAndRestart : Obligations.ResetsClearAndRestart := by
  unfold Obligations.ResetsClearAndRestart
  simp only [exec_coreReset, exec_coreResetComplete, exec_systemResetReady, exec_startupReady]
  refine ⟨fun s counted h => ⟨_, rfl, ?core⟩, fun s counted h => ?inSystem, fun s => ⟨fun h hstays => ?done, fun h hafter hin => ?retired,
    fun h => by rw [State.coreDone_of_idle h]⟩, fun s i cause counted hi => ?system, fun s => rfl, fun s => ⟨_, exec_perstN, ?perst⟩,
    fun s hreset hisland hhold hon => ⟨fun hstays => ?ready, fun hafter hin => ?retiredReady⟩,
    fun s h => by rw [State.becomeReady_of_waiting h]; exact ⟨rfl, rfl⟩, fun _ => trivial, fun s cause counted => ⟨fun h => ?counted, fun h hmask => ?uncounted⟩⟩
  case core =>
    obtain ⟨stamps, after, hcaused⟩ := s.caused_frame (cause := 6) (detail := 0) (counted := counted)
    rw [State.coreStart_of_running h, hcaused]
    obtain ⟨ctxs, sch, col, evr, v, n, mbx, irq, host, free, cal, hleft, hlinks, hquiet, hstored, hidle, hended⟩ :=
      State.coreLeaving (s := { s with rst := { s.rst with
        stamps := stamps, retireAfter := after, cause := BitVec.ofNat 8 6, detail := BitVec.ofNat 3 0 } })
    rw [hleft]
    exact ⟨rfl, rfl, rfl, rfl, fun c => State.ctx?_of_none rfl, rfl, rfl, fun g => State.group_of_reset rfl, fun n => State.snap_of_reset rfl,
      rfl, rfl, rfl, rfl, rfl, hidle, hended, rfl, rfl, hlinks, fun hfree => by obtain ⟨rfl, rfl⟩ := hquiet hfree; rfl, rfl, rfl, rfl, rfl,
      rfl, rfl, hstored, rfl, rfl, rfl, rfl⟩
  case inSystem => rw [State.coreStart_of_inSystem h]; rfl
  case done => rw [State.coreDone_of_running h, retires_eq_false hstays]; rfl
  case retired =>
    obtain ⟨hretired, hheld, hcause, hafter', -⟩ := State.retire_spec (s := s.coreCleared) (cause := 0x0B)
    rw [State.coreDone_of_running h, hafter, hin]
    exact ⟨_, rfl, hretired, hheld, hcause, hafter'⟩
  case perst => exact State.systemStart_perst (s := { s with perst := true })
  case ready => rw [State.becomeReady_of_powered hreset hisland hhold hon, retires_eq_false hstays]; rfl
  case retiredReady =>
    obtain ⟨hretired, hheld, -, -, hhub⟩ := State.retire_spec (s := s.readied) (cause := 0x0B)
    rw [State.becomeReady_of_powered hreset hisland hhold hon, hafter, hin]
    exact ⟨_, rfl, hretired, hheld, congrArg Hub.ready hhub⟩
  case counted => exact State.escalate_of_counted (h.imp_right State.causeCounted_iff.2)
  case uncounted => exact State.escalate_of_uncounted h (State.causeCounted_eq_false hmask)
  case system =>
    obtain ⟨perst, hexec⟩ := exec_systemStart (s := s) hi
    refine ⟨fun hon hhold => ⟨_, hexec, ?powered⟩, fun hnot => ⟨_, hexec, ?unpowered⟩⟩
    case powered =>
      obtain ⟨stamps, after, host, free, lnk, evr, hstart, hgen, htopo, hlinks⟩ :=
        State.systemStart_frame (s := { s with perst := perst }) (cause := cause.toNat) (detail := 0) (counted := counted) hon hhold
      rw [hstart, BitVec.ofNat_toNat, BitVec.setWidth_eq]
      exact ⟨rfl, rfl, rfl, rfl, rfl, hgen, rfl, htopo, fun c => State.ctx?_of_none rfl, rfl, rfl, fun g => State.group_of_reset rfl,
        fun n => State.snap_of_reset rfl, rfl, rfl, rfl, rfl, rfl, rfl, rfl, rfl, rfl, rfl, rfl, rfl, rfl, rfl, rfl, rfl, rfl,
        fun l => (hlinks l).1, fun l => (hlinks l).2⟩
    case unpowered =>
      obtain ⟨stamps, after, hcaused⟩ := State.caused_frame (s := { s with perst := perst }) (cause := cause.toNat) (detail := 0) (counted := counted)
      rw [State.systemStart_of_unpowered (s := { s with perst := perst }) hnot, hcaused, BitVec.ofNat_toNat, BitVec.setWidth_eq]
      exact ⟨rfl, rfl, rfl, rfl, rfl⟩

end Sys2Proof.Machine


/-! Canaries expire, fail themselves and lose their limits; the long press (13_reset_health.md R361 to R363, R365, R366). -/

namespace Sys2Proof.Machine

section
variable {s : State} {k : CanaryOf} {r : LimitReg} {g : GroupId} {n : SnapId}

theorem exec_fieldProgressExpiry : exec .fieldProgressExpiry s = .next s.fieldCanary := rfl
theorem exec_mailboxCanaryExpiry : exec .mailboxCanaryExpiry s = .next s.mbxCanary := rfl
theorem exec_canarySelfFault : exec (.canarySelfFault k) s = .next (s.selfFault k) := rfl
theorem exec_parityFault : exec (.parityFault r) s = .next (s.parityFault r) := rfl
theorem exec_attnLongPress : exec .attnLongPress s = .next s.longPress := rfl

/-! ## The Field and the mailbox (R361) -/

theorem State.freezeField_of_held {c : CtxId} {x : Context} {j : Cmd} (h : s.holder? = some (c, x, j)) : s.freezeField =
    { s with fld := { s.fld with
      frozen := true, frozenOp := if s.fld.frozen then s.fld.frozenOp else some (BitVec.ofNat 32 j.opNumber) } } := by
  unfold State.freezeField
  rw [h]
  cases hfrozen : s.fld.frozen
  · rfl
  · rw [if_pos rfl, if_pos rfl, ← hfrozen]

theorem State.fieldCanary_of_held {c : CtxId} {x : Context} {j : Cmd} (h : s.holder? = some (c, x, j)) :
    s.fieldCanary = (s.freezeField.endWith c j.seq stTimeout j.opNumber).canaryEvent 0x06 c.val := by
  rw [State.fieldCanary, h]

theorem State.fieldCanary_of_free (h : s.holder? = none) : s.fieldCanary = s := by
  rw [State.fieldCanary, h]

/-! ## Self-faults (R362) -/

/-- A self-fault is counted, names its Canary and is raised with the object its expiry would have. -/
def State.faulted (s : State) (k : CanaryOf) : State :=
  { s with rst := { s.rst with
    selfFaults := satInc s.rst.selfFaults, lastCanary := BitVec.ofNat 8 (canaryId k), lastKind := false } }.raise 0x21 (canaryId k)
      (leBytes 4 (s.canaryObject k))

theorem State.selfFault_eq : s.selfFault k = (s.faulted k).selfFaultAct k := rfl

theorem State.canaryObject_field : s.canaryObject .fieldProgress = match s.sch.holder with
    | some h => h.ctx.val
    | none => 0 := by
  unfold State.canaryObject
  cases s.sch.holder <;> rfl

theorem State.selfFaultAct_of_group_free (h : (s.group g).state = 0) : s.selfFaultAct (.collective g) = s :=
  if_pos (beq_iff_eq.2 h)

theorem State.selfFaultAct_of_group_used (h : (s.group g).state ≠ 0) :
    s.selfFaultAct (.collective g) = s.modGroup g fun q => { q.endAll stFenced with state := 2 } :=
  if_neg (by simpa using h)

theorem SnapSlot.live_iff {t : SnapSlot} : t.live = true ↔ t.state = 1 ∨ t.state = 2 := by
  rw [SnapSlot.live, Bool.or_eq_true, beq_iff_eq, beq_iff_eq]

theorem SnapSlot.live_eq_false {t : SnapSlot} (h : t.state = 0 ∨ t.state = 3) : t.live = false := by
  rw [SnapSlot.live]
  rcases h with h | h <;> rw [h] <;> rfl

theorem State.selfFaultAct_of_snap_live (h : (s.snap n).live = true) : s.selfFaultAct (.snapshotWait n) = s.snapEnd n stFenced := if_pos h

theorem State.selfFaultAct_of_snap_ended (h : (s.snap n).live = false) : s.selfFaultAct (.snapshotWait n) = s :=
  if_neg (Bool.eq_false_iff.1 h)

theorem State.domainFenced_faulted {d : FenceDomain} : (s.faulted k).domainFenced d = s.domainFenced d := by
  cases d <;> rfl

/-! ## The parity of limit registers (R363) -/

/-- The first use of a register whose parity is bad is recorded and raised. -/
def State.parityKnown (s : State) (r : LimitReg) : State :=
  if s.rst.badParity.contains (limitOffset r) then s else State.raise { s with rst := { s.rst with
    badParity := limitOffset r :: s.rst.badParity, parity := satInc s.rst.parity, lastCanary := BitVec.ofNat 8 (limitCanary r), lastKind := true
    lastOffset := BitVec.ofNat 20 (limitOffset r) } } 0x22 (limitCanary r) (leBytes 4 (limitOffset r))

theorem State.parityFault_eq : s.parityFault r = (s.parityKnown r).expireAll r := rfl

theorem State.parityKnown_contains : (s.parityKnown r).rst.badParity.contains (limitOffset r) = true := by
  unfold State.parityKnown
  split
  · assumption
  · exact List.contains_iff_mem.2 List.mem_cons_self

theorem State.schedAllowed_of_guard (h : s.rst.badParity.contains (limitOffset .guard) = true) : s.schedAllowed = false := by
  have hguard : s.rst.badParity.contains offGuard = true := h
  rw [State.schedAllowed, hguard]
  simp only [Bool.not_true, Bool.and_false, Bool.false_and]

theorem State.schedAllowed_of_holdover (h : s.rst.badParity.contains (limitOffset .holdover) = true) : s.schedAllowed = false := by
  have hholdover : s.rst.badParity.contains offHoldover = true := h
  rw [State.schedAllowed, hholdover]
  exact Bool.and_false _

theorem State.drainExpiry_of_idle {l : LinkId} (h : s.linkOut l = false ∨ (s.link l).queued = 0) : s.drainExpiry (.link l) [] = s := by
  refine if_neg ?_
  rw [Bool.and_eq_true]
  rintro ⟨hfenced, hleft⟩
  rcases h with h | h
  · exact absurd (hfenced.symm.trans h) (by decide)
  · refine absurd hleft ?_
    simp [State.drainLeft, h]

theorem State.expireAll_of_drain_idle (h : ∀ l, s.linkOut l = false ∨ (s.link l).queued = 0) : s.expireAll .drain = s := by
  refine List.foldl_map.trans (List.foldl_fixed' (fun l => State.drainExpiry_of_idle (h l)) _)

theorem State.expireAll_of_wait_idle (h : ∀ c x, s.ctx? c = some x → x.cmds = []) : s.expireAll .waitLimit = s := by
  refine (List.foldl_ext _ (fun (t : State) _ => t) s fun t e he => ?_).trans (List.foldl_fixed _)
  rw [h e.1 e.2 (State.mem_contexts.1 he)]
  rfl

/-! ## The long press (R366) -/

theorem State.hostFence_of_fenced (h : s.rst.hostFenced = true) : s.hostFence = s := if_pos h

theorem State.hostFence_frame : ∃ evr, s.hostFence = { s with rst := { s.rst with hostFenced := true }, evr := evr } := by
  by_cases h : s.rst.hostFenced = true
  · rw [State.hostFence_of_fenced h]
    exact ⟨s.evr, by rw [← h]⟩
  · exact ⟨_, if_neg h⟩

theorem State.longPress_of_service (h : s.rst.retired = false) :
    s.longPress = (State.hostFence { s with svc := { s.svc with longPresses := satInc s.svc.longPresses } }).retire 9 := by
  obtain ⟨evr, hfence⟩ := State.hostFence_frame (s := { s with svc := { s.svc with longPresses := satInc s.svc.longPresses } })
  refine if_neg ?_
  rw [hfence, Bool.not_eq_true]
  exact h

theorem State.longPress_of_retired (h : s.rst.retired = true) (hfenced : s.rst.hostFenced = true) :
    let u : State := { s with svc := { s.svc with longPresses := satInc s.svc.longPresses } }
    s.longPress = { u.escalate 9 false with rst := { (u.escalate 9 false).rst with cause := 9, detail := 0 } } := by
  intro u
  have hfence : u.hostFence = u := State.hostFence_of_fenced hfenced
  unfold State.longPress
  dsimp only
  rw [show ({ s with svc := { s.svc with longPresses := satInc s.svc.longPresses } } : State) = u from rfl, hfence]
  exact if_pos h

end

/-- Settles O49: each Canary by what it watches, a limit register by its Canaries, the long press by the retirement it begins. -/
theorem canariesExpireAndRetire : Obligations.CanariesExpireAndRetire := by
  unfold Obligations.CanariesExpireAndRetire
  simp only [exec_fieldProgressExpiry, exec_mailboxCanaryExpiry, exec_canarySelfFault, exec_attnLongPress]
  refine ⟨fun s => ⟨fun h => ?fieldFree, fun c x k h => ?fieldHeld⟩, fun s => ⟨fun h => ?busy, fun h => ?idle⟩, fun s h => rfl,
    fun s k => ⟨rfl, ?faultObject, fun c hk => ?faultContext, ?faultGroup, ?faultSnap, ?faultField, ?faultMailbox, ?faultOverseer, ?faultDrain⟩, fun s r => ?parity,
    fun s h => ?press, fun s h hfenced => ?pressRetired⟩
  case fieldFree => rw [State.fieldCanary_of_free h]
  case fieldHeld => rw [State.fieldCanary_of_held h, State.freezeField_of_held h]; rfl
  case busy => exact congrArg _ (if_pos h)
  case idle => exact congrArg _ (if_neg (Bool.eq_false_iff.1 h))
  case faultObject =>
    rintro rfl
    exact State.canaryObject_field
  case faultContext => rcases hk with rfl | rfl | rfl <;> exact ⟨rfl, rfl⟩
  case faultGroup =>
    rintro g rfl
    exact ⟨State.selfFaultAct_of_group_free (s := s.faulted _), State.selfFaultAct_of_group_used (s := s.faulted _)⟩
  case faultSnap =>
    rintro n rfl
    exact ⟨fun h => State.selfFaultAct_of_snap_live (s := s.faulted _) (SnapSlot.live_iff.2 h),
      fun h => State.selfFaultAct_of_snap_ended (s := s.faulted _) (SnapSlot.live_eq_false h)⟩
  case faultField => rintro rfl; rfl
  case faultMailbox => rintro rfl; rfl
  case faultOverseer => rintro h rfl; rfl
  case faultDrain =>
    rintro d w rfl
    have hdomain : (s.faulted (.drain d w)).domainFenced d = s.domainFenced d := State.domainFenced_faulted
    exact ⟨fun h => if_pos (hdomain.trans h), fun h => if_neg (Bool.eq_false_iff.1 (hdomain.trans h))⟩
  case parity =>
    simp only [exec_parityFault, State.parityFault_eq]
    refine ⟨?limits, ?field, ?run, ?step, ?overseer, ?snap, ?col, ?drain, ?wait, _, rfl⟩
    case limits =>
      rintro (rfl | rfl)
      · exact ⟨rfl, State.schedAllowed_of_guard State.parityKnown_contains⟩
      · exact ⟨rfl, State.schedAllowed_of_holdover State.parityKnown_contains⟩
    case field => rintro rfl; rfl
    case run => rintro rfl; rfl
    case step => rintro c rfl; rfl
    case overseer => rintro rfl; rfl
    case snap => rintro rfl; rfl
    case col => rintro rfl; rfl
    case drain => rintro rfl h; exact congrArg _ (State.expireAll_of_drain_idle h)
    case wait => rintro rfl h; exact congrArg _ (State.expireAll_of_wait_idle h)
  case press =>
    rw [State.longPress_of_service h]
    obtain ⟨evr, hfence⟩ := State.hostFence_frame (s := { s with svc := { s.svc with longPresses := satInc s.svc.longPresses } })
    rw [hfence]
    obtain ⟨stamps, hretiring, huncounted, hcounted⟩ := State.retiring_frame (cause := 9) (s := { s with
      svc := { s.svc with longPresses := satInc s.svc.longPresses }, rst := { s.rst with hostFenced := true }, evr := evr })
    obtain ⟨ctxs, sch, col, evr', lnk, tkp, host, free, p, hretire, hgen, hlinks⟩ := State.retire_frame (cause := 9) (s := { s with
      svc := { s.svc with longPresses := satInc s.svc.longPresses }, rst := { s.rst with hostFenced := true }, evr := evr })
    rw [hretiring] at hretire
    refine ⟨_, congrArg _ hretire, rfl, rfl, rfl, rfl, rfl, fun c => State.ctx?_of_none rfl, rfl, rfl, fun g => State.group_of_reset rfl, rfl,
      hlinks, hgen, rfl, rfl, fun hmask => ?_, fun hmask => ?_, rfl, rfl⟩
    · exact huncounted (State.causeCounted_eq_false (Or.inr (Or.inr hmask)))
    · exact hcounted (State.causeCounted_iff.2 ⟨by decide, by decide, hmask⟩)
  case pressRetired => rw [State.longPress_of_retired h hfenced]

end Sys2Proof.Machine


/-! Rails, the auxiliary feed and the input switch (15_power_bringup.md R401 to R403, R411; 14_identity_service.md R380, R385, R387). -/

namespace Sys2Proof.Machine

section
variable {s : State} {h : Hold}

theorem exec_railWarning {clipB : Bool} {volts : Nat} : exec (.railWarning clipB volts) s = .next (s.railWarning clipB volts) := rfl
theorem exec_railFault {clipB : Bool} {volts : Nat} : exec (.railFault clipB volts) s = .next (s.railFault clipB volts) := rfl
theorem exec_powerOn : exec .powerOn s = .next s.powerClear := rfl
theorem exec_auxLoss : exec .auxLoss s = .next { s.powerClear with pwr := { s.powerClear.pwr with auxOn := false } } := rfl
theorem exec_auxReady : exec .auxReady s = .next s.auxReady := rfl
theorem exec_mainPowerInRange {va vb : Nat} : exec (.mainPowerInRange va vb) s = .next (s.mainInRange va vb) := rfl

/-! ## A hold begins (R402, R406) -/

/-- The dies lose their work and the module is held in system reset, the host interface fenced. -/
def State.held (s : State) (h : Hold) : State :=
  { s.systemClear with
    rst := { s.systemClear.rst with hostFenced := true }, pwr := { s.systemClear.pwr with hold := h, stage := 7 } }

theorem State.holdReset_resetBeacon : ∃ host free, s.resetBeacon.holdReset h = { s.held h with host := host, hostFree := free } := by
  obtain ⟨host, free, hclear⟩ := s.systemClear_leaving
  exact ⟨host, free, by rw [State.holdReset, hclear]; rfl⟩

theorem State.holdReset_raiseBeacon {cause : Nat} :
    ∃ host free, (s.raiseBeacon cause).holdReset h = { s.held h with host := host, hostFree := free } := by
  obtain ⟨host, free, hclear⟩ := s.systemClear_raising (cause := cause)
  exact ⟨host, free, by rw [State.holdReset, hclear]; rfl⟩

/-- The host fence changes nothing that a hold leaves. -/
theorem State.held_hostFence : s.hostFence.held h = s.held h := by
  obtain ⟨evr, hfence⟩ := s.hostFence_frame
  rw [hfence]
  rfl

/-! ## Rails (R401, R402) -/

theorem inRange_iff {volts : Nat} : inRange volts = true ↔ 5000 ≤ volts ∧ volts ≤ 5800 := by
  rw [inRange, Bool.and_eq_true, decide_eq_true_eq, decide_eq_true_eq]

theorem not_inRange {volts : Nat} : (!inRange volts) = decide (volts < 5000 ∨ 5800 < volts) := by
  rw [Bool.eq_iff_iff, Bool.not_eq_true', ← Bool.not_eq_true, inRange_iff, decide_eq_true_eq]
  omega

theorem State.railFault_of_fine {clipB : Bool} {volts : Nat} (h : s.pwr.mainOn = false ∨ (4700 ≤ volts ∧ volts ≤ 6000)) :
    s.railFault clipB volts = s := by
  refine if_neg ?_
  simp only [Bool.and_eq_true, Bool.or_eq_true, decide_eq_true_eq]
  rintro ⟨hon, hvolts⟩
  rcases h with h | h
  · rw [h] at hon; cases hon
  · omega

theorem State.railFault_of_fault {clipB : Bool} {volts : Nat} (hon : s.pwr.mainOn = true) (h : volts < 4700 ∨ 6000 < volts) :
    ∃ host free, s.railFault clipB volts = State.clipVolts { s.held .rail with
      host := host, hostFree := free
      pwr := { (s.held .rail).pwr with
        mainOn := false, railA := !clipB, railB := clipB, trip := false, railFaults := satInc s.pwr.railFaults } } clipB volts := by
  obtain ⟨host, free, hheld⟩ := State.holdReset_resetBeacon (s := s.hostFence) (h := .rail)
  refine ⟨host, free, ?_⟩
  have hgo : (s.pwr.mainOn && (decide (volts < 4700) || decide (6000 < volts))) = true := by simpa [hon] using h
  unfold State.railFault
  rw [if_pos hgo]
  dsimp only
  rw [hheld, State.held_hostFence]
  rfl

/-! ## The auxiliary feed (R403, R411) -/

/-- The module off, a calibration image that was being written left to itself. -/
def State.off (s : State) : State := State.powerClear { s with cal := { s.cal with writing := none } }

/-- An image that was being written is torn, its bytes and its counters free values (14_identity_service.md R387). -/
def State.torn (s : State) : State :=
  { s with cal := { s.cal with
    torn := true, stored := some ((List.range calSize).map (Config.freeByte s.freeCtr)), writes := Config.freeWord s.freeCtr
    origin := Config.freeChoice s.freeCtr 0 } }

theorem State.powerClear_of_quiet (h : s.cal.writing = none) : s.powerClear = s.off := by
  unfold State.off State.powerClear
  rw [h]
  rfl

theorem State.powerClear_of_writing (h : s.cal.writing ≠ none) : s.powerClear = s.off.torn := by
  unfold State.off State.powerClear
  exact if_pos (Option.isSome_iff_ne_none.2 h)

/-- The stored image can be loaded (R385). -/
def Cal.good (c : Cal) : Bool := !c.torn && match c.stored with
  | none => true
  | some b => calImageOk b

theorem Cal.good_eq_true {c : Cal} (htorn : c.torn = false) (hok : ∀ b, c.stored = some b → calImageOk b = true) : c.good = true := by
  rw [Cal.good, htorn]
  cases hstored : c.stored with
  | none => rfl
  | some b => exact hok b hstored

theorem Cal.good_eq_false {c : Cal} (h : c.torn = true ∨ ∃ b, c.stored = some b ∧ calImageOk b = false) : c.good = false := by
  rcases h with h | ⟨b, hb, hbad⟩
  · rw [Cal.good, h]
    rfl
  · rw [Cal.good, hb, Bool.and_eq_false_iff]
    exact Or.inr hbad

theorem State.loadCal_eq : s.loadCal = { s with cal := { s.cal with
    calBad := !s.cal.good, loaded := if s.cal.good then CalValues.image s.cal.stored else .nominal
    offsets := if s.cal.good then CalValues.image s.cal.stored else .nominal, pendingWrite := false } } := rfl

theorem State.bootBank_eq : s.bootBank = { s with sec := { s.sec with
    fwFallback := !s.bankOk s.sec.nextBank && s.bankOk !s.sec.nextBank
    islandOnly := !s.bankOk s.sec.nextBank && !s.bankOk !s.sec.nextBank
    bank := if s.bankOk s.sec.nextBank then s.sec.nextBank else !s.sec.nextBank
    svn := (s.bankOf (if s.bankOk s.sec.nextBank then s.sec.nextBank else !s.sec.nextBank)).svn
    staged := false, attestReady := false } } := rfl

theorem State.auxReady_of_off (h : s.pwr.auxOn = false ∨ s.pwr.stage ≠ 0) : s.auxReady = s := by
  refine if_neg ?_
  rw [Bool.and_eq_true, beq_iff_eq]
  rintro ⟨hon, hstage⟩
  exact h.elim (fun hoff => absurd (hon.symm.trans hoff) (by decide)) fun hnot => hnot hstage

theorem State.auxReady_of_first (hon : s.pwr.auxOn = true) (hstage : s.pwr.stage = 0) :
    s.auxReady = { s with pwr := { s.pwr with stage := 1 }, cal := s.loadCal.cal, sec := s.bootBank.sec } :=
  if_pos (by rw [hon, hstage]; decide)

/-! ## The input switch (R411, R402) -/

theorem State.mainInRange_of_out {va vb : Nat} (h : va < 5000 ∨ 5800 < va ∨ vb < 5000 ∨ 5800 < vb) : s.mainInRange va vb = s := by
  refine if_pos ?_
  rw [Bool.not_eq_true', ← Bool.not_eq_true, Bool.and_eq_true, inRange_iff, inRange_iff]
  omega

/-- The clips at their voltages. -/
def State.clips (s : State) (va vb : Nat) : State := { s with pwr := { s.pwr with va := BitVec.ofNat 16 va, vb := BitVec.ofNat 16 vb } }

/-- What clips in range bring about: the switch closes, a rail hold whose power-on waits ends, or nothing more. -/
theorem State.mainInRange_of_in {va vb : Nat} (ha : 5000 ≤ va ∧ va ≤ 5800) (hb : 5000 ≤ vb ∧ vb ≤ 5800) : s.mainInRange va vb =
    match s.pwr.hold, s.pwr.onAsked with
    | .none, _ => if s.pwr.stage == 1 && !s.pwr.mainOn then (s.clips va vb).switchOn else s.clips va vb
    | .rail, some cause => State.systemStart { s.clips va vb with
        pwr := { (s.clips va vb).pwr with mainOn := true, hold := .none, onAsked := none } } cause.toNat 0 false
    | _, _ => s.clips va vb := by
  unfold State.mainInRange
  rw [inRange_iff.2 ha, inRange_iff.2 hb]
  rfl

section
variable {va vb : Nat} (ha : 5000 ≤ va ∧ va ≤ 5800) (hb : 5000 ≤ vb ∧ vb ≤ 5800)
include ha hb

theorem State.mainInRange_of_first (hhold : s.pwr.hold = .none) (hstage : s.pwr.stage = 1) (hoff : s.pwr.mainOn = false) :
    s.mainInRange va vb = (s.clips va vb).switchOn := by
  rw [State.mainInRange_of_in ha hb, hhold]
  exact if_pos (by rw [hstage, hoff]; decide)

theorem State.mainInRange_of_started (hhold : s.pwr.hold = .none) (h : s.pwr.stage ≠ 1 ∨ s.pwr.mainOn = true) :
    s.mainInRange va vb = s.clips va vb := by
  rw [State.mainInRange_of_in ha hb, hhold]
  refine if_neg ?_
  rw [Bool.and_eq_true, beq_iff_eq]
  rintro ⟨hstage, hoff⟩
  rcases h with h | h
  · exact h hstage
  · rw [h] at hoff
    cases hoff

theorem State.mainInRange_of_asked {cause : Byte} (hhold : s.pwr.hold = .rail) (hasked : s.pwr.onAsked = some cause) :
    s.mainInRange va vb = State.systemStart { s.clips va vb with
      pwr := { (s.clips va vb).pwr with mainOn := true, hold := .none, onAsked := none } } cause.toNat 0 false := by
  rw [State.mainInRange_of_in ha hb, hhold, hasked]

theorem State.mainInRange_of_held (h : s.pwr.hold = .trip ∨ (s.pwr.hold = .rail ∧ s.pwr.onAsked = none)) :
    s.mainInRange va vb = s.clips va vb := by
  rw [State.mainInRange_of_in ha hb]
  rcases h with hhold | ⟨hhold, hasked⟩
  · rw [hhold]
  · rw [hhold, hasked]

end

/-- The input switch closes for the first time. -/
def State.closed (s : State) : State :=
  { s with
    pwr := { s.pwr with mainOn := true, stage := 4 }, lnk := { s.lnk with gen := s.lnk.gen + 1 }
    rst := { s.rst with inReset := some true, coreHeld := true }, seam := { s.seam with zeroing := true } }

theorem State.switchOn_eq : s.switchOn = s.closed.trainAll := rfl

end

/-- Settles O50: a hold by the system reset it leaves the module in, the loss of the feed by what outlasts it, the switch by the clips. -/
theorem railsAndAuxiliaryPower : Obligations.RailsAndAuxiliaryPower := by
  unfold Obligations.RailsAndAuxiliaryPower
  simp only [exec_railWarning, exec_railFault, exec_powerOn, exec_auxLoss, exec_auxReady, exec_mainPowerInRange]
  refine ⟨fun s clipB volts => ?warning, fun s clipB volts => ⟨fun h => by rw [State.railFault_of_fine h], fun hon h => ?fault⟩,
    fun s => ⟨_, rfl, rfl, ?off⟩, fun s => ⟨fun h => by rw [State.auxReady_of_off h], fun hon hstage => ?ready⟩,
    fun s va vb => ⟨fun h => by rw [State.mainInRange_of_out h], fun ha ha' hb hb' => ?clips⟩⟩
  case warning =>
    unfold State.railWarning
    rw [not_inRange]
    cases clipB
    · exact ⟨fun h => congrArg _ (if_pos (beq_iff_eq.2 h)), fun h => congrArg _ (if_neg (mt beq_iff_eq.1 h))⟩
    · exact ⟨fun h => congrArg _ (if_pos (beq_iff_eq.2 h)), fun h => congrArg _ (if_neg (mt beq_iff_eq.1 h))⟩
  case fault =>
    obtain ⟨host, free, hfault⟩ := State.railFault_of_fault (clipB := clipB) hon h
    rw [hfault]
    refine ⟨_, rfl, ?_⟩
    cases clipB <;>
      exact ⟨rfl, rfl, rfl, rfl, rfl, rfl, rfl, rfl, rfl, rfl, rfl, fun c => State.ctx?_of_none rfl, rfl, rfl, fun g => State.group_of_reset rfl,
        rfl, rfl, rfl, rfl, rfl, rfl, rfl, rfl, rfl⟩
  case off =>
    have hlinks : ∀ l, (s.off.link l).state = lsDown ∧ (s.off.link l).light = (s.link l).light := fun l => by
      rw [show s.off.link l = { linkReset with light := (s.link l).light } from vget_ofFn ..]
      exact ⟨rfl, rfl⟩
    by_cases h : s.cal.writing = none
    · rw [State.powerClear_of_quiet h]
      exact ⟨rfl, rfl, rfl, rfl, fun c => State.ctx?_of_none rfl, rfl, rfl, rfl, rfl, rfl, rfl, rfl, hlinks, rfl, rfl, rfl, rfl, rfl, rfl,
        fun _ => ⟨rfl, rfl, rfl, rfl⟩, fun hnot => absurd h hnot⟩
    · rw [State.powerClear_of_writing h]
      exact ⟨rfl, rfl, rfl, rfl, fun c => State.ctx?_of_none rfl, rfl, rfl, rfl, rfl, rfl, rfl, rfl, hlinks, rfl, rfl, rfl, rfl, rfl, rfl,
        fun hnone => absurd hnone h, fun _ => rfl⟩
  case ready =>
    rw [State.auxReady_of_first hon hstage]
    refine ⟨_, rfl, rfl, rfl, rfl, rfl, fun htorn hok => ?_, fun hbad => ?_, fun hsel => ?_, fun hsel hother => ?_, fun hsel hother => ?_, ?_⟩
    · have hgood := Cal.good_eq_true htorn hok
      rw [State.loadCal_eq, hgood]
      exact ⟨rfl, rfl⟩
    · have hgood := Cal.good_eq_false hbad
      rw [State.loadCal_eq, hgood]
      exact ⟨rfl, rfl⟩
    · rw [State.bootBank_eq, hsel]
      exact ⟨rfl, rfl, rfl⟩
    · rw [State.bootBank_eq, hsel, hother]
      exact ⟨rfl, rfl, rfl⟩
    · rw [State.bootBank_eq, hsel, hother]
      exact ⟨rfl, rfl⟩
    · exact ⟨rfl, rfl, rfl, rfl, rfl⟩
  case clips =>
    have hclipA := And.intro ha ha'
    have hclipB := And.intro hb hb'
    refine ⟨fun hhold hstage hon => ?closes, fun hhold hnot => ?stays, fun cause hhold hasked => ?ends, fun h => ?holds⟩
    case closes =>
      obtain ⟨lnk, tkp, evr, htrain, -, hgen, -, hlinks⟩ := State.link_trainAll (s := (s.clips va vb).closed)
      rw [State.mainInRange_of_first hclipA hclipB hhold hstage hon, State.switchOn_eq, htrain]
      exact ⟨_, rfl, rfl, hgen, rfl, rfl, fun l => (hlinks l).1, fun l => (hlinks l).2, rfl, rfl, rfl, rfl⟩
    case stays => exact congrArg _ (State.mainInRange_of_started hclipA hclipB hhold hnot)
    case ends =>
      obtain ⟨stamps, after, host, free, lnk, evr, hstart, hgen, -⟩ := State.systemStart_frame (counted := false) (cause := cause.toNat) (detail := 0)
        (s := { s.clips va vb with pwr := { (s.clips va vb).pwr with mainOn := true, hold := .none, onAsked := none } }) rfl rfl
      rw [State.mainInRange_of_asked hclipA hclipB hhold hasked, hstart, BitVec.ofNat_toNat, BitVec.setWidth_eq]
      exact ⟨_, rfl, rfl, rfl, rfl, rfl, rfl, rfl, rfl, rfl, hgen, rfl, rfl⟩
    case holds => exact congrArg _ (State.mainInRange_of_held hclipA hclipB h)

end Sys2Proof.Machine


/-! The thermal trip and the Field clock (15_power_bringup.md R404 to R406; 13_reset_health.md R370). -/

namespace Sys2Proof.Machine

section
variable {s : State} {temps : List Int} {r : Readings} {p : Pwr}

theorem exec_thermalTrip : exec (.thermalTrip temps) s = .next (s.readTemps temps).tripIfHot := rfl
theorem exec_thermalRelease : exec (.thermalRelease temps) s = .next (s.tripRelease temps) := rfl
theorem exec_fclkControlTest : exec (.fclkControlTest r) s = .next (s.fclkControl r) := rfl

/-! ## The hottest die -/

/-- The step of `Pwr.hottest` at one die. -/
def Pwr.hotter (p : Pwr) (m : Nat × Int) (i : Fin 64) : Nat × Int := if m.2 < vget p.temps i then (i.val, vget p.temps i) else m

theorem Pwr.hottest_eq : p.hottest = (List.finRange 64).foldl p.hotter (0, vget p.temps 0) := rfl

/-- A running maximum: it bounds what it has seen and is one of those, or where it began. -/
theorem Pwr.foldl_hotter {is : List (Fin 64)} {m : Nat × Int} :
    m.2 ≤ (is.foldl p.hotter m).2 ∧ (∀ i ∈ is, vget p.temps i ≤ (is.foldl p.hotter m).2) ∧
      (is.foldl p.hotter m = m ∨ ∃ i : Fin 64, is.foldl p.hotter m = (i.val, vget p.temps i)) := by
  induction is generalizing m with
  | nil => exact ⟨le_refl _, fun i hi => absurd hi List.not_mem_nil, Or.inl rfl⟩
  | cons j is ih =>
    obtain ⟨hstart, hseen, hone⟩ := ih (m := p.hotter m j)
    rw [List.foldl_cons]
    have hstep : m.2 ≤ (p.hotter m j).2 ∧ vget p.temps j ≤ (p.hotter m j).2 ∧
        (p.hotter m j = m ∨ p.hotter m j = (j.val, vget p.temps j)) := by
      unfold Pwr.hotter
      split
      · exact ⟨by omega, le_refl _, Or.inr rfl⟩
      · exact ⟨le_refl _, by omega, Or.inl rfl⟩
    obtain ⟨hfrom, hthis, hwhich⟩ := hstep
    refine ⟨hfrom.trans hstart, fun i hi => ?_, ?_⟩
    · rcases List.mem_cons.1 hi with rfl | hi
      · exact hthis.trans hstart
      · exact hseen i hi
    · rcases hone with hone | hone
      · rw [hone]
        exact hwhich.imp_right fun h => ⟨j, h⟩
      · exact Or.inr hone

/-! ## The trip and its release (R406) -/

theorem State.trip_of_held (h : s.pwr.hold ≠ .none) : s.trip = s := if_pos (bne_iff_ne.2 h)

theorem State.trip_of_free (h : s.pwr.hold = .none) : ∃ host free, s.trip = { s.held .trip with
    host := host, hostFree := free, pwr := { (s.held .trip).pwr with railA := false, railB := false, trip := true } } := by
  obtain ⟨host, free, hheld⟩ := State.holdReset_raiseBeacon (s := s.hostFence) (h := .trip) (cause := bcThermal)
  refine ⟨host, free, ?_⟩
  unfold State.trip
  rw [if_neg (by rw [h]; decide)]
  dsimp only
  rw [hheld, State.held_hostFence]

theorem State.trip_hold (h : s.pwr.hold = .none) : s.trip.pwr.hold = .trip := by
  obtain ⟨host, free, htrip⟩ := State.trip_of_free h
  rw [htrip]
  rfl

theorem State.tripIfHot_of_cool (h : s.pwr.hottest.2 < 64 * 110) : s.tripIfHot = s := if_neg (not_le.2 h)

theorem State.tripIfHot_of_hot (h : 64 * 110 ≤ s.pwr.hottest.2) : s.tripIfHot = s.trip := if_pos h

/-- A trip's hold ends: the trip is counted. -/
def State.released (s : State) : State :=
  { s with pwr := { s.pwr with hold := .none, stage := if s.pwr.mainOn then 7 else 1, trips := satInc s.pwr.trips } }

theorem State.tripRelease_eq : s.tripRelease temps =
    if (s.readTemps temps).pwr.hold == .trip && decide ((s.readTemps temps).pwr.hottest.2 < 64 * 70)
    then (s.readTemps temps).released.systemStart 8 0 false else s.readTemps temps := by
  have hrelease : ∀ u : State, (if u.pwr.hold == .trip && decide (u.pwr.hottest.2 < degrees 70) then
      ({ u with pwr := { u.pwr with hold := .none, stage := if u.pwr.mainOn then 7 else 1, trips := satInc u.pwr.trips } } :
        State).systemStart 0x08 0 false else u) =
      if u.pwr.hold == .trip && decide (u.pwr.hottest.2 < 64 * 70) then u.released.systemStart 8 0 false else u := fun _ => by
    unfold degrees State.released
    rfl
  exact hrelease _

theorem State.readTemps_frame : s.readTemps temps =
    { s with pwr := { s.pwr with raws := (s.readTemps temps).pwr.raws, temps := (s.readTemps temps).pwr.temps } } := by
  unfold State.readTemps State.correct
  dsimp only

theorem State.raws_readTemps {i : Fin 64} : vget (s.readTemps temps).pwr.raws i = temps.getD i.val 0 := by
  unfold State.readTemps State.correct
  exact vget_ofFn ..

theorem State.temps_readTemps {i : Fin 64} :
    vget (s.readTemps temps).pwr.temps i = temps.getD i.val 0 + s.cal.offsets.offset i.val := by
  rw [← State.raws_readTemps (s := s)]
  unfold State.readTemps State.correct
  exact vget_ofFn ..

theorem State.readTemps_hold : (s.readTemps temps).pwr.hold = s.pwr.hold := by
  rw [State.readTemps_frame]

theorem State.tripRelease_of_cool (hhold : s.pwr.hold = .trip) (h : (s.readTemps temps).pwr.hottest.2 < 64 * 70) :
    s.tripRelease temps = (s.readTemps temps).released.systemStart 8 0 false := by
  rw [State.tripRelease_eq]
  exact if_pos (Bool.and_eq_true_iff.2 ⟨beq_iff_eq.2 (State.readTemps_hold.trans hhold), decide_eq_true h⟩)

theorem State.tripRelease_of_other (h : s.pwr.hold ≠ .trip ∨ 64 * 70 ≤ (s.readTemps temps).pwr.hottest.2) :
    s.tripRelease temps = s.readTemps temps := by
  rw [State.tripRelease_eq]
  refine if_neg ?_
  rw [Bool.and_eq_true, beq_iff_eq, decide_eq_true_eq, State.readTemps_hold]
  rintro ⟨hhold, hcool⟩
  exact h.elim (fun hnot => hnot hhold) fun hhot => not_le.2 hcool hhot

/-! ## The Field clock (R404, R405) -/

theorem le_ceilingOf {env : BitVec 2} {steady : Bool} : 950 ≤ ceilingOf env steady := by
  revert env steady
  decide

theorem State.emergReason_isSome : (s.emergReason r).isSome = true ↔ 64 * 102 ≤ s.pwr.hottest.2 ∨ 700 < r.ia ∨ 700 < r.ib ∨
    (s.profile.clockingEff = true ∧ 105 * powerLimit s.profile.envelopeEff < 100 * r.watts10) := by
  unfold State.emergReason degrees
  split_ifs with hhot hcurrent hpower
  · exact ⟨fun _ => Or.inl hhot, fun _ => rfl⟩
  · rw [Bool.or_eq_true, decide_eq_true_eq, decide_eq_true_eq] at hcurrent
    exact ⟨fun _ => Or.inr (or_assoc.1 (Or.inl hcurrent)), fun _ => rfl⟩
  · rw [Bool.and_eq_true, decide_eq_true_eq] at hpower
    exact ⟨fun _ => Or.inr (Or.inr (Or.inr hpower)), fun _ => rfl⟩
  · rw [Bool.or_eq_true, decide_eq_true_eq, decide_eq_true_eq] at hcurrent
    rw [Bool.and_eq_true, decide_eq_true_eq] at hpower
    refine ⟨fun h => absurd h (by decide), ?_⟩
    rintro (h | h | h | h)
    · exact absurd h hhot
    · exact absurd (Or.inl h) hcurrent
    · exact absurd (Or.inr h) hcurrent
    · exact absurd h hpower

theorem State.emergOver_iff : s.emergOver r = true ↔
    s.pwr.hottest.2 < 64 * 95 ∧ r.ia < 660 ∧ r.ib < 660 ∧ r.watts ≤ powerLimit s.profile.envelopeEff := by
  rw [State.emergOver, Bool.and_eq_true, Bool.and_eq_true, Bool.and_eq_true, decide_eq_true_eq, decide_eq_true_eq, decide_eq_true_eq,
    decide_eq_true_eq, and_assoc, and_assoc]
  rfl

theorem State.rule1_iff : s.rule1 r = true ↔
    (s.pwr.emerg = false ∧ (64 * 102 ≤ s.pwr.hottest.2 ∨ 700 < r.ia ∨ 700 < r.ib ∨
      (s.profile.clockingEff = true ∧ 105 * powerLimit s.profile.envelopeEff < 100 * r.watts10))) ∨
    (s.pwr.emerg = true ∧ ¬(s.pwr.hottest.2 < 64 * 95 ∧ r.ia < 660 ∧ r.ib < 660 ∧ r.watts ≤ powerLimit s.profile.envelopeEff)) := by
  rw [← State.emergReason_isSome, ← State.emergOver_iff, State.rule1]
  cases s.pwr.emerg
  · simp
  · simp

/-! ## A test of the clock -/

theorem State.fclkNext_of_settled (h : s.profile.clockPending = false) : s.fclkNext r =
    min (if s.rule1 r then 950
      else if s.profile.clockingEff then steadyClock s.profile.envelopeEff
      else if s.rule2 r then max 950 (s.fclkNow - 25)
      else if s.rule3 r && riseTests ≤ s.pwr.sinceRise + 1 then s.fclkNow + 25
      else s.fclkNow) s.ceiling := by
  unfold State.fclkNext
  rw [h]
  rfl

theorem State.fclkNext_le_of_pending (h : s.profile.clockPending = true) : s.fclkNext r ≤ s.fclkNow := by
  unfold State.fclkNext
  rw [h]
  exact min_le_left _ _

/-- What a test makes of power: the clock, the warnings, their counters. -/
def State.tested (s : State) (r : Readings) : Pwr :=
  { s.pwr with
    fclk := BitVec.ofNat 12 (s.fclkNext r)
    emerg := s.rule1 r
    throttle := s.throttleNext r
    sinceRise := if s.fclkNow < s.fclkNext r then 0 else s.pwr.sinceRise + 1
    throttleUs := if s.pwr.fclk != 0 && s.fclkNow < s.ceiling then s.pwr.throttleUs + 100 else s.pwr.throttleUs
    emergs := if s.rule1 r && !s.pwr.emerg then satInc s.pwr.emergs else s.pwr.emergs }

/-- An event raised unless `c` holds. -/
def State.raiseUnless (s : State) (c : Bool) (code subject : Nat) (b : List Byte) : State := if c then s else s.raise code subject b

theorem State.raiseUnless_frame {c : Bool} {code subject : Nat} {b : List Byte} (hring : (Fin.ofNat 4 (code / 64) : RingId) = 3) : ∃ evr,
    s.raiseUnless c code subject b = { s with evr := evr } ∧ (∀ q : Fin 4, q ≠ 3 → vget evr q = vget s.evr q) ∧
      (c = true → evr = s.evr) := by
  cases c
  · exact ⟨_, rfl, fun q hq => s.raise_other_ring code subject b q (hring ▸ hq), fun h => by cases h⟩
  · exact ⟨_, rfl, fun _ _ => rfl, fun _ => rfl⟩

theorem State.fclkTest_eq : s.fclkTest r =
    (State.raiseUnless { s with pwr := s.tested r, freeCtr := s.freeCtr + 1 } (s.throttleNext r == s.pwr.throttle) 0xF0 0
      (leBytes 4 (b2n (s.throttleNext r) + 2 * s.throttleReason r) ++ leBytes 4 (s.fclkNext r))).raiseUnless
      (s.rule1 r == s.pwr.emerg) 0xF1 s.pwr.hottest.1 (leBytes 4 (b2n (s.rule1 r) + 2 * s.emergCode r)) := by
  unfold State.fclkTest State.raiseUnless State.tested
  rfl

theorem State.fclkTest_frame : ∃ evr, s.fclkTest r = { s with pwr := s.tested r, evr := evr, freeCtr := s.freeCtr + 1 } ∧
    (∀ q : Fin 4, q ≠ 3 → vget evr q = vget s.evr q) ∧ (s.throttleNext r = s.pwr.throttle → s.rule1 r = s.pwr.emerg → evr = s.evr) := by
  rw [State.fclkTest_eq]
  obtain ⟨evr, hthrottle, hring, hsame⟩ := State.raiseUnless_frame (s := { s with pwr := s.tested r, freeCtr := s.freeCtr + 1 })
    (c := s.throttleNext r == s.pwr.throttle) (code := 0xF0) (subject := 0)
    (b := leBytes 4 (b2n (s.throttleNext r) + 2 * s.throttleReason r) ++ leBytes 4 (s.fclkNext r)) (by decide)
  obtain ⟨evr', hemerg, hring', hsame'⟩ := State.raiseUnless_frame (s := { s with pwr := s.tested r, evr := evr, freeCtr := s.freeCtr + 1 })
    (c := s.rule1 r == s.pwr.emerg) (code := 0xF1) (subject := s.pwr.hottest.1)
    (b := leBytes 4 (b2n (s.rule1 r) + 2 * s.emergCode r)) (by decide)
  exact ⟨evr', by rw [hthrottle, hemerg], fun q hq => (hring' q hq).trans (hring q hq),
    fun ht he => (hsame' (beq_iff_eq.2 he)).trans (hsame (beq_iff_eq.2 ht))⟩

theorem State.rule2_iff : s.rule2 r = true ↔ 64 * 95 ≤ s.pwr.hottest.2 ∨ powerLimit s.profile.envelopeEff < r.watts := by
  rw [State.rule2, Bool.or_eq_true, decide_eq_true_eq, decide_eq_true_eq]
  rfl

theorem State.rule3_iff : s.rule3 r = true ↔ s.pwr.hottest.2 < 64 * 92 ∧ 100 * r.watts < 97 * powerLimit s.profile.envelopeEff := by
  rw [State.rule3, Bool.and_eq_true, decide_eq_true_eq, decide_eq_true_eq]
  rfl

section
variable (hsettled : s.profile.clockPending = false)
include hsettled

theorem State.fclkNext_of_emergency (h : s.rule1 r = true) : s.fclkNext r = 950 := by
  rw [State.fclkNext_of_settled hsettled, if_pos h]
  exact min_eq_left le_ceilingOf

theorem State.fclkNext_of_steady (h : s.rule1 r = false) (hsteady : s.profile.clockingEff = true) : s.fclkNext r = s.ceiling := by
  rw [State.fclkNext_of_settled hsettled, h, if_neg (by decide), if_pos hsteady, State.ceiling, hsteady]
  exact min_self _

theorem State.fclkNext_of_hot (h : s.rule1 r = false) (hpeak : s.profile.clockingEff = false) (hhot : s.rule2 r = true) :
    s.fclkNext r = min (max 950 (s.fclkNow - 25)) s.ceiling := by
  rw [State.fclkNext_of_settled hsettled, h, hpeak, hhot]
  rfl

theorem State.fclkNext_of_cool (h : s.rule1 r = false) (hpeak : s.profile.clockingEff = false) (hhot : s.rule2 r = false)
    (hcool : s.rule3 r = true) (htests : 10 ≤ s.pwr.sinceRise + 1) : s.fclkNext r = min (s.fclkNow + 25) s.ceiling := by
  rw [State.fclkNext_of_settled hsettled, h, hpeak, hhot, hcool, riseTests, decide_eq_true htests]
  rfl

theorem State.fclkNext_of_same (h : s.rule1 r = false) (hpeak : s.profile.clockingEff = false) (hhot : s.rule2 r = false)
    (hstay : s.rule3 r = false ∨ s.pwr.sinceRise + 1 < 10) : s.fclkNext r = min s.fclkNow s.ceiling := by
  have hnot : (s.rule3 r && decide (riseTests ≤ s.pwr.sinceRise + 1)) = false := by
    rcases hstay with hcool | hfew
    · rw [hcool, Bool.false_and]
    · rw [riseTests, decide_eq_false (not_le.2 hfew), Bool.and_false]
  rw [State.fclkNext_of_settled hsettled, h, hpeak, hhot, hnot]
  rfl

end

/-! ## The readings taken -/

/-- What the monitors' readings change of power. -/
theorem State.takeReadings_frame : ∃ raws temps watts va vb ia ib aux energy, s.takeReadings r = { s with pwr := { s.pwr with
    raws := raws, temps := temps, watts := watts, va := va, vb := vb, ia := ia, ib := ib, auxMv := aux, energyTenths := energy } } := by
  unfold State.takeReadings
  rw [State.readTemps_frame]
  exact ⟨_, _, _, _, _, _, _, _, _, rfl⟩

theorem State.fclkControl_eq : s.fclkControl r =
    if (s.takeReadings r).tripIfHot.pwr.mainOn && (s.takeReadings r).tripIfHot.pwr.hold == .none
    then (s.takeReadings r).tripIfHot.fclkTest r else (s.takeReadings r).tripIfHot := rfl

theorem State.tripIfHot_of_held (h : s.pwr.hold ≠ .none) : s.tripIfHot = s := by
  unfold State.tripIfHot
  rw [State.trip_of_held h]
  split <;> rfl

end

/-- Settles O51: a trip by the hold it begins, its release by the system reset it is, a test by the rule that sets the clock. -/
theorem tripsAndTheFieldClock : Obligations.TripsAndTheFieldClock := by
  unfold Obligations.TripsAndTheFieldClock
  refine ⟨fun s temps => ⟨State.readTemps_frame, fun i => ⟨State.raws_readTemps, State.temps_readTemps⟩, fun h => ?cool, fun hhot hhold => ?trip,
    fun hhold hcool hon => ?release, fun hhold hcool hoff => ?wait, fun h => ?held⟩, fun p => ⟨fun i => ?bound, ?which⟩, fun s r => ?test⟩
  case cool =>
    rw [exec_thermalTrip]
    rcases h with h | h
    · rw [State.tripIfHot_of_cool h]
    · rw [State.tripIfHot_of_held (by rwa [State.readTemps_hold])]
  case trip =>
    rw [exec_thermalTrip, State.tripIfHot_of_hot hhot]
    have hhold' := (State.readTemps_hold (temps := temps)).trans hhold
    have hread := s.readTemps_frame (temps := temps)
    generalize s.readTemps temps = u at hread hhold'
    obtain ⟨host, free, htrip⟩ := State.trip_of_free hhold'
    rw [htrip, hread]
    exact ⟨_, rfl, rfl, rfl, rfl, rfl, rfl, rfl, rfl, rfl, rfl, fun c => State.ctx?_of_none rfl, rfl, fun g => State.group_of_reset rfl, rfl, rfl,
      rfl, rfl, rfl, rfl, rfl⟩
  case release =>
    rw [exec_thermalRelease, State.tripRelease_of_cool hhold hcool]
    have hread := s.readTemps_frame (temps := temps)
    generalize s.readTemps temps = u at hread
    have hon' : u.released.pwr.mainOn = true := by rw [hread]; exact hon
    obtain ⟨stamps, after, host, free, lnk, evr, hstart, hgen, -⟩ :=
      State.systemStart_frame (s := u.released) (cause := 8) (detail := 0) (counted := false) hon' rfl
    rw [hstart, hread]
    rw [hread] at hgen
    exact ⟨_, rfl, rfl, rfl, rfl, rfl, rfl, rfl, rfl, hgen, rfl, rfl⟩
  case wait =>
    rw [exec_thermalRelease, State.tripRelease_of_cool hhold hcool]
    have hread := s.readTemps_frame (temps := temps)
    generalize s.readTemps temps = u at hread
    have hoff' : u.pwr.mainOn = false := by rw [hread]; exact hoff
    have hstart := State.systemStart_of_unpowered (s := u.released) (cause := 8) (detail := 0) (counted := false) (Or.inl hoff')
    obtain ⟨stamps, after, hcaused⟩ := u.released.caused_frame (cause := 8) (detail := 0) (counted := false)
    have hstage : u.released.pwr = { u.pwr with hold := .none, stage := 1, trips := satInc s.pwr.trips } := by
      unfold State.released
      rw [hoff', hread]
      rfl
    rw [hstart, hcaused]
    exact ⟨_, rfl, hstage, rfl, by rw [hread]; rfl, by rw [hread]; rfl⟩
  case held => rw [exec_thermalRelease, State.tripRelease_of_other h]
  case bound =>
    rw [Pwr.hottest_eq]
    exact Pwr.foldl_hotter.2.1 i (List.mem_finRange i)
  case which =>
    rw [Pwr.hottest_eq]
    exact Pwr.foldl_hotter.2.2.elim (fun h => ⟨0, h⟩) id
  case test =>
    intro u
    have hu : u = s.takeReadings r := rfl
    obtain ⟨raws, temps, watts, va, vb, ia, ib, aux, energy, hread⟩ := s.takeReadings_frame (r := r)
    rw [← hu] at hread
    clear_value u
    have hpower : s.pwr.mainOn = u.pwr.mainOn ∧ s.pwr.hold = u.pwr.hold := by rw [hread]; exact ⟨rfl, rfl⟩
    have hclock : s.pwr.fclk = u.pwr.fclk ∧ s.pwr.sinceRise = u.pwr.sinceRise ∧ s.pwr.throttleUs = u.pwr.throttleUs := by
      rw [hread]; exact ⟨rfl, rfl, rfl⟩
    have hwarn : s.pwr.emerg = u.pwr.emerg ∧ s.pwr.throttle = u.pwr.throttle ∧ s.pwr.emergs = u.pwr.emergs := by
      rw [hread]; exact ⟨rfl, rfl, rfl⟩
    have hbeside : s.profile = u.profile ∧ s.evr = u.evr ∧ s.freeCtr = u.freeCtr := by rw [hread]; exact ⟨rfl, rfl, rfl⟩
    rw [hpower.1, hpower.2, hclock.1, hclock.2.1, hclock.2.2, hwarn.1, hwarn.2.1, hwarn.2.2, hbeside.1, hbeside.2.1, hbeside.2.2,
      exec_fclkControlTest, State.fclkControl_eq, ← hu]
    clear hread hpower hclock hwarn hbeside hu s
    dsimp only
    rw [← State.rule1_iff, show (if u.pwr.fclk = 0 then 950 else u.pwr.fclk.toNat) = u.fclkNow from rfl,
      show ceilingOf u.profile.envelopeEff u.profile.clockingEff = u.ceiling from rfl]
    refine ⟨?still, fun hhot hhold => ?trips, fun hcool hon hhold hpending => ?pending, fun hcool hon hhold hsettled => ?settled⟩
    case still =>
      rintro (hhold | ⟨hcool, hoff⟩)
      · rw [State.tripIfHot_of_held hhold]
        exact congrArg _ (if_neg (by simp [hhold]))
      · rw [State.tripIfHot_of_cool hcool, hoff]
        rfl
    case trips =>
      have hheld := State.trip_hold hhold
      rw [State.tripIfHot_of_hot hhot]
      exact ⟨_, congrArg _ (if_neg (by rw [hheld]; simp)), hheld⟩
    case pending =>
      obtain ⟨evr, htest, -, -⟩ := u.fclkTest_frame (r := r)
      rw [State.tripIfHot_of_cool hcool, if_pos (by rw [hon, hhold]; rfl), htest]
      exact ⟨_, rfl, rfl, (Nat.mod_le _ _).trans (State.fclkNext_le_of_pending hpending)⟩
    case settled =>
      obtain ⟨evr, htest, hring, hsame⟩ := u.fclkTest_frame (r := r)
      rw [State.tripIfHot_of_cool hcool, if_pos (by rw [hon, hhold]; rfl), htest]
      refine ⟨_, rfl, rfl, hring, fun hrule => ?_, fun hrule => ?_, fun hrule hsteady => ?_, fun hrule hpeak hhot => ?_,
        fun hrule hpeak hhot hwatts htests => ?_, fun hrule hpeak hhot hwatts hstay => ?_, ?_, hsame⟩
      · exact ⟨congrArg (BitVec.ofNat 12) (State.fclkNext_of_emergency hsettled hrule), hrule, if_pos hrule, by
          rw [State.tested, hrule]; cases u.pwr.emerg <;> rfl⟩
      · rw [Bool.not_eq_true] at hrule
        exact ⟨hrule, if_neg (by rw [hrule]; simp)⟩
      · exact congrArg (BitVec.ofNat 12) (State.fclkNext_of_steady hsettled (Bool.not_eq_true _ ▸ hrule) hsteady)
      · exact congrArg (BitVec.ofNat 12)
          (State.fclkNext_of_hot hsettled (Bool.not_eq_true _ ▸ hrule) hpeak (State.rule2_iff.2 hhot))
      · have hwarm : u.rule2 r = false := by rw [← Bool.not_eq_true, State.rule2_iff]; omega
        exact congrArg (BitVec.ofNat 12) (State.fclkNext_of_cool hsettled (Bool.not_eq_true _ ▸ hrule) hpeak hwarm
          (State.rule3_iff.2 ⟨hhot, hwatts⟩) htests)
      · have hwarm : u.rule2 r = false := by rw [← Bool.not_eq_true, State.rule2_iff]; omega
        refine congrArg (BitVec.ofNat 12) (State.fclkNext_of_same hsettled (Bool.not_eq_true _ ▸ hrule) hpeak hwarm ?_)
        rw [← Bool.not_eq_true, State.rule3_iff]
        omega
      · exact if_congr (by rw [Bool.and_eq_true, bne_iff_ne, decide_eq_true_eq]) rfl rfl

end Sys2Proof.Machine


/-! The cooling estimate and warning, and the island's reads over the mailbox (15_power_bringup.md R408, R416; 13_reset_health.md R364,
R376). -/

namespace Sys2Proof.Machine

section
variable {s : State} {code : Nat} {k : State → State}

/-! ## A request of the island -/

theorem State.mbxRunAlways_of_fenced (hbusy : s.mbx.busy = true) (hcode : s.mbx.running.toNat = code) (hfenced : s.mbx.fenced = true) :
    s.mbxRunAlways code k = s.mbxEnd stFenced [] := by
  rw [State.mbxRunAlways, if_pos (State.mbxIs_eq_true.2 ⟨hbusy, hcode⟩), if_pos hfenced, State.mbxFail_eq]

theorem State.mbxRunAlways_of_open (hbusy : s.mbx.busy = true) (hcode : s.mbx.running.toNat = code) (hopen : s.mbx.fenced = false) :
    s.mbxRunAlways code k = k s := State.mbxRunAlways_runs s code k (State.mbxIs_eq_true.2 ⟨hbusy, hcode⟩) hopen

theorem State.mbxRunAlways_of_other (h : s.mbx.busy = false ∨ s.mbx.running.toNat ≠ code) : s.mbxRunAlways code k = s :=
  State.mbxRunAlways_idle s code k (State.mbxIs_eq_false.2 h)

theorem exec_tempRead : exec .tempRead s = .next (s.mbxRunAlways 0xF0 fun s =>
    s.mbxOk (s.pwr.temps.toList.flatMap tempBytes ++ tempBytes s.pwr.inlet ++ tempBytes s.pwr.outlet)) := rfl
theorem exec_energyRead : exec .energyRead s = .next (s.mbxRunAlways 0xF1 fun s =>
    s.mbxOk (leBytes 8 (s.pwr.energyTenths / 10) ++ leBytes 8 s.ht)) := rfl
theorem exec_healthRead : exec .healthRead s = .next (s.mbxRunAlways 0xA0 fun s => s.mbxOk s.healthBytes) := rfl
theorem exec_escRead : exec .escRead s = .next (s.mbxRunAlways 0xA1 fun s => s.mbxOk s.escBytes) := rfl
theorem exec_escClear : exec .escClear s = .next (s.mbxRunAlways 0xA2 fun s => s.emptyStamps.mbxStatus stOk) := rfl

/-- A request of the island that answers bytes. -/
theorem State.mbxAnswers {bs : State → List Byte} {o : Host.Outcome State Fault Refusal}
    (ho : o = .next (s.mbxRunAlways code fun s => s.mbxOk (bs s))) :
    (s.mbx.busy = true → s.mbx.running.toNat = code → s.mbx.fenced = false → o = .next (s.mbxEnd stOk (bs s))) ∧
    (s.mbx.busy = true → s.mbx.running.toNat = code → s.mbx.fenced = true → o = .next (s.mbxEnd stFenced [])) ∧
    (s.mbx.busy = false ∨ s.mbx.running.toNat ≠ code → o = .next s) :=
  ⟨fun hbusy hcode hopen => ho.trans (congrArg _ (State.mbxRunAlways_of_open hbusy hcode hopen)),
    fun hbusy hcode hfenced => ho.trans (congrArg _ (State.mbxRunAlways_of_fenced hbusy hcode hfenced)),
    fun h => ho.trans (congrArg _ (State.mbxRunAlways_of_other h))⟩

theorem State.healthBytes_eq : s.healthBytes = s.hlt.scoreSeam.toList.flatMap (fun w => leBytes 4 w.toNat) ++
    s.hlt.scoreLink.toList.flatMap (fun w => leBytes 4 w.toNat) ++ s.hlt.scorePort.toList.flatMap (fun w => leBytes 4 w.toNat) ++
    leBytes 4 s.hlt.overSeam.toNat ++ leBytes 4 s.hlt.overLink.toNat ++ leBytes 4 s.hltStatus.toNat := by
  rw [State.healthBytes, List.flatMap_append, List.flatMap_append]

/-! ## The cooling estimate (R408) -/

theorem flowOf_of_idle {n watts : Nat} {rise : Int} (h : watts < 2000) : flowOf n watts rise = 0xFFFF := if_pos h

theorem flowOf_of_rise {n watts : Nat} {rise : Int} (h : 2000 ≤ watts) (hrise : 0 < rise)
    (hfits : 64000 * watts / (697 * rise.toNat) ≤ 65535) : (flowOf n watts rise).toNat = 64000 * watts / (697 * rise.toNat) := by
  have hstated : ¬(decide (rise ≤ 0) || decide (65535 < 64000 * watts / (697 * rise.toNat))) = true := by
    rw [Bool.or_eq_true, decide_eq_true_eq, decide_eq_true_eq]
    omega
  rw [flowOf, if_neg (by omega)]
  dsimp only
  rw [if_neg hstated, BitVec.toNat_ofNat]
  exact Nat.mod_eq_of_lt (by omega)

/-! ## COOL_WARN (R408) -/

section
variable {bad : Fin 3 → Bool}

/-- How long each condition has held, `bad` telling which hold now. -/
def Pwr.coolHeld (p : Pwr) (bad : Fin 3 → Bool) (i : Fin 3) : Nat := if bad i then vget p.coolRun i + 1 else 0

/-- How long none has. -/
def Pwr.coolCalm (p : Pwr) (bad : Fin 3 → Bool) : Nat := if bad 0 || bad 1 || bad 2 then 0 else p.coolQuiet + 1

/-- COOL_WARN after a second. -/
def Pwr.coolWarns (p : Pwr) (bad : Fin 3 → Bool) : Bool :=
  if p.coolWarn then decide (p.coolCalm bad < 10)
  else decide (10 ≤ p.coolHeld bad 0 ∨ 10 ≤ p.coolHeld bad 1 ∨ 10 ≤ p.coolHeld bad 2)

theorem Pwr.coolHeld_all {p : Pwr} :
    (Vector.ofFn (p.coolHeld bad)).toList.all (· == 0) = !(bad 0 || bad 1 || bad 2) := by
  have hzero : ∀ i, (p.coolHeld bad i == 0) = !bad i := fun i => by
    unfold Pwr.coolHeld
    cases bad i <;> rfl
  change (p.coolHeld bad 0 == 0 && (p.coolHeld bad 1 == 0 && (p.coolHeld bad 2 == 0 && true))) = _
  rw [hzero, hzero, hzero, Bool.and_true, Bool.not_or, Bool.not_or, Bool.and_assoc]

theorem Pwr.coolHeld_any {p : Pwr} : (Vector.ofFn (p.coolHeld bad)).toList.any (10 ≤ ·) =
    decide (10 ≤ p.coolHeld bad 0 ∨ 10 ≤ p.coolHeld bad 1 ∨ 10 ≤ p.coolHeld bad 2) := by
  change (decide (10 ≤ p.coolHeld bad 0) || (decide (10 ≤ p.coolHeld bad 1) || (decide (10 ≤ p.coolHeld bad 2) || false))) = _
  rw [Bool.or_false, ← Bool.decide_or, ← Bool.decide_or]

theorem Pwr.coolCalm_eq {p : Pwr} :
    (if (Vector.ofFn (p.coolHeld bad)).toList.all (· == 0) then p.coolQuiet + 1 else 0) = p.coolCalm bad := by
  rw [Pwr.coolHeld_all, Pwr.coolCalm]
  cases bad 0 || bad 1 || bad 2 <;> rfl

theorem Pwr.coolWarns_eq {p : Pwr} : (if p.coolWarn then decide (p.coolCalm bad < 10)
    else (Vector.ofFn (p.coolHeld bad)).toList.any (10 ≤ ·)) = p.coolWarns bad := by
  rw [Pwr.coolHeld_any, Pwr.coolWarns]

/-- The second's seconds of each condition are counted, and COOL_WARN follows them. -/
def State.cooled (s : State) (bad : Fin 3 → Bool) : State :=
  { s with pwr := { s.pwr with
    coolRun := Vector.ofFn (s.pwr.coolHeld bad), coolQuiet := s.pwr.coolCalm bad, coolWarn := s.pwr.coolWarns bad } }

/-- The readings of the second. -/
def State.coolRead (s : State) (inlet outlet : Int) (watts : Nat) : State :=
  { s with
    pwr := { s.pwr with inlet := inlet, outlet := outlet, flow := flowOf s.freeCtr watts (outlet - inlet) }, freeCtr := s.freeCtr + 1 }

theorem State.coolingUpdate_eq {inlet outlet : Int} {watts : Nat} {u : State} (hu : s.coolRead inlet outlet watts = u)
    (hbad : ∀ i : Fin 3, u.pwr.coolBad i.val = bad i) : s.coolingUpdate inlet outlet watts =
    if u.pwr.coolWarns bad == s.pwr.coolWarn then u.cooled bad
    else (u.cooled bad).raise 0xF2 0
      (leBytes 4 (b2n (u.pwr.coolWarns bad)) ++ leBytes 4 (u.cooled bad).pwr.coolWord.toNat ++ leBytes 4 u.pwr.flow.toNat) := by
  have hheld : (fun i : Fin 3 => if u.pwr.coolBad i.val then vget u.pwr.coolRun i + 1 else 0) = u.pwr.coolHeld bad :=
    funext fun i => by rw [hbad]; rfl
  have hshape : s.coolingUpdate inlet outlet watts =
      let run := Vector.ofFn fun i : Fin 3 => if u.pwr.coolBad i.val then vget u.pwr.coolRun i + 1 else 0
      let quiet := if run.toList.all (· == 0) then u.pwr.coolQuiet + 1 else 0
      let warn := if u.pwr.coolWarn then decide (quiet < 10) else run.toList.any (10 ≤ ·)
      let t : State := { u with pwr := { u.pwr with coolRun := run, coolQuiet := quiet, coolWarn := warn } }
      if warn == s.pwr.coolWarn then t
      else t.raise 0xF2 0 (leBytes 4 (b2n warn) ++ leBytes 4 t.pwr.coolWord.toNat ++ leBytes 4 u.pwr.flow.toNat) := by
    subst hu
    rfl
  rw [hshape, hheld]
  dsimp only
  rw [Pwr.coolCalm_eq, Pwr.coolWarns_eq]
  rfl

end

end

/-- Settles O52: the warning by how long each condition has held, the reads by the mailbox request they serve. -/
theorem coolingWarningsAndTheIslandsReads : Obligations.CoolingWarningsAndTheIslandsReads := by
  unfold Obligations.CoolingWarningsAndTheIslandsReads
  refine ⟨fun s inlet outlet watts => ?cooling, fun n watts rise => ⟨flowOf_of_idle, flowOf_of_rise⟩, fun s i code bs hi => ?reads, fun s => ?clear⟩
  case cooling =>
    intro u bad held quiet warn t
    have hbad : ∀ i : Fin 3, u.pwr.coolBad i.val = bad i
      | 0 => rfl
      | 1 => rfl
      | 2 => rfl
    have hupdate := State.coolingUpdate_eq (s := s) (inlet := inlet) (outlet := outlet) (watts := watts) (u := u) rfl hbad
    refine ⟨fun h => congrArg _ (hupdate.trans (if_pos (beq_iff_eq.2 h))), fun h => congrArg _ (hupdate.trans (if_neg (mt beq_iff_eq.1 h)))⟩
  case reads =>
    simp only [List.mem_cons, Prod.mk.injEq, List.not_mem_nil, or_false] at hi
    rcases hi with ⟨rfl, rfl, rfl⟩ | ⟨rfl, rfl, rfl⟩ | ⟨rfl, rfl, rfl⟩ | ⟨rfl, rfl, rfl⟩
    · exact (State.mbxAnswers exec_tempRead :)
    · exact (State.mbxAnswers exec_energyRead :)
    · rw [← State.healthBytes_eq]
      exact (State.mbxAnswers exec_healthRead :)
    · exact (State.mbxAnswers exec_escRead :)
  case clear =>
    rw [exec_escClear]
    exact ⟨fun hbusy hcode hopen => congrArg _ (State.mbxRunAlways_of_open hbusy hcode hopen),
      fun hbusy hcode hfenced => congrArg _ (State.mbxRunAlways_of_fenced hbusy hcode hfenced),
      fun h => congrArg _ (State.mbxRunAlways_of_other h)⟩

end Sys2Proof.Machine


/-! One island second: the health scores (13_reset_health.md R367, R368). -/

namespace Sys2Proof.Machine

/-! ## A bit set or cleared -/

section
variable {w : Nat} {v : BitVec w} {i j : Nat} {b : Bool}

theorem getLsbD_setBit_false : (setBit v i false).getLsbD j = (v.getLsbD j && !decide (j < w ∧ i = j)) := by
  rw [setBit, if_neg (by decide), BitVec.getLsbD_and, BitVec.getLsbD_not, BitVec.getLsbD_ofNat, Nat.testBit_two_pow]
  by_cases hj : j < w
  · simp [hj]
  · simp [hj, BitVec.getLsbD_of_ge v j (by omega)]

theorem getLsbD_setBit_self (h : i < w) : (setBit v i b).getLsbD i = b := by
  cases b
  · rw [getLsbD_setBit_false]
    simp [h]
  · rw [getLsbD_setBit]
    simp [h]

theorem getLsbD_setBit_other (h : j ≠ i) : (setBit v i b).getLsbD j = v.getLsbD j := by
  cases b
  · rw [getLsbD_setBit_false]
    simp [h.symm]
  · rw [getLsbD_setBit]
    simp [h.symm]

end

/-! ## Scores one after the other -/

section
variable {n : Nat} {put : Vector Word n → BitVec n → Vector EventRing 4 → State} {step : State → Fin n → State}
  {next : Fin n → Word → Word} {flag : Fin n → Word → Bool → Bool}

/-- A part's step replaces its score and its flag, and touches event ring 0 where the flag changes. -/
def ScoreStep (put : Vector Word n → BitVec n → Vector EventRing 4 → State) (step : State → Fin n → State) (next : Fin n → Word → Word)
    (flag : Fin n → Word → Bool → Bool) : Prop :=
  ∀ sc ov evr d, ∃ evr', step (put sc ov evr) d =
      put (vset sc d (next d (vget sc d))) (setBit ov d.val (flag d (next d (vget sc d)) (ov.getLsbD d.val))) evr' ∧
    (∀ q : Fin 4, q ≠ 0 → vget evr' q = vget evr q) ∧
    (flag d (next d (vget sc d)) (ov.getLsbD d.val) = ov.getLsbD d.val → evr' = evr)

/-- Parts that take their steps one after the other move their own score and flag each; with no flag changed no event is raised. -/
theorem ScoreStep.foldl (hstep : ScoreStep put step next flag) {ds : List (Fin n)} (hnodup : ds.Nodup) {sc : Vector Word n} {ov : BitVec n}
    {evr : Vector EventRing 4} : ∃ sc' ov' evr', ds.foldl step (put sc ov evr) = put sc' ov' evr' ∧
      (∀ d, (d ∈ ds → vget sc' d = next d (vget sc d) ∧ ov'.getLsbD d.val = flag d (next d (vget sc d)) (ov.getLsbD d.val)) ∧
        (d ∉ ds → vget sc' d = vget sc d ∧ ov'.getLsbD d.val = ov.getLsbD d.val)) ∧
      (∀ q : Fin 4, q ≠ 0 → vget evr' q = vget evr q) ∧
      ((∀ d ∈ ds, ov'.getLsbD d.val = ov.getLsbD d.val) → evr' = evr) := by
  induction ds generalizing sc ov evr with
  | nil => exact ⟨sc, ov, evr, rfl, fun d => ⟨fun h => absurd h List.not_mem_nil, fun _ => ⟨rfl, rfl⟩⟩, fun _ _ => rfl, fun _ => rfl⟩
  | cons e ds ih =>
    obtain ⟨hfirst, hrest⟩ := List.nodup_cons.1 hnodup
    obtain ⟨evr₁, hone, hring₁, hsame₁⟩ := hstep sc ov evr e
    have hown : (setBit ov e.val (flag e (next e (vget sc e)) (ov.getLsbD e.val))).getLsbD e.val =
        flag e (next e (vget sc e)) (ov.getLsbD e.val) := getLsbD_setBit_self e.isLt
    have hother : ∀ d : Fin n, d ≠ e → ∀ b, (setBit ov e.val b).getLsbD d.val = ov.getLsbD d.val := fun d hd b =>
      getLsbD_setBit_other (Fin.val_ne_of_ne hd)
    obtain ⟨sc', ov', evr', hfold, hparts, hring, hsame⟩ := ih hrest (sc := vset sc e (next e (vget sc e)))
      (ov := setBit ov e.val (flag e (next e (vget sc e)) (ov.getLsbD e.val))) (evr := evr₁)
    refine ⟨sc', ov', evr', by rw [List.foldl_cons, hone, hfold], fun d => ?_, fun q hq => (hring q hq).trans (hring₁ q hq), fun hkept => ?_⟩
    · obtain ⟨hin, hout⟩ := hparts d
      by_cases hd : d = e
      · subst hd
        obtain ⟨hscore, hover⟩ := hout hfirst
        rw [vget_vset_same] at hscore
        exact ⟨fun _ => ⟨hscore, hover.trans hown⟩, fun hnot => absurd List.mem_cons_self hnot⟩
      · rw [vget_vset_other _ _ _ _ hd, hother d hd] at hin hout
        exact ⟨fun hmem => hin ((List.mem_cons.1 hmem).resolve_left hd), fun hnot => hout fun hmem => hnot (List.mem_cons_of_mem _ hmem)⟩
    · have hlast := ((hparts e).2 hfirst).2
      have hflag := (hlast.trans hown).symm.trans (hkept e List.mem_cons_self)
      refine (hsame fun d hd => ?_).trans (hsame₁ hflag)
      have hne : d ≠ e := fun h => hfirst (h ▸ hd)
      rw [hother d hne]
      exact hkept d (List.mem_cons_of_mem _ hd)

end

section
variable {s u : State} {p0 p1 : Nat}

theorem exec_healthUpdate : exec (.healthUpdate p0 p1) s = .next (s.healthUpdate p0 p1) := rfl

/-! ## The HEALTH event (R368) -/

section
variable {part thr : Nat} {score : Word} {was new : Bool}

theorem State.healthEvent_of_same (h : was = new) : s.healthEvent part score thr was new = s := if_pos (beq_iff_eq.2 h)

theorem State.healthEvent_of_changed (h : was ≠ new) : s.healthEvent part score thr was new =
    s.raise 0x25 part (leBytes 4 score.toNat ++ leBytes 4 thr ++ leBytes 4 (b2n new)) := if_neg (mt beq_iff_eq.1 h)

theorem State.healthEvent_frame : ∃ evr, s.healthEvent part score thr was new = { s with evr := evr } ∧
    (∀ q : Fin 4, q ≠ 0 → vget evr q = vget s.evr q) ∧ (new = was → evr = s.evr) := by
  by_cases h : was = new
  · exact ⟨s.evr, State.healthEvent_of_same h, fun _ _ => rfl, fun _ => rfl⟩
  · exact ⟨_, State.healthEvent_of_changed h, fun q hq => s.raise_other_ring 0x25 part _ q hq, fun hsame => absurd hsame.symm h⟩

end

/-! ## The parts (R367) -/

/-- Seam dies' scores, flags and the event rings replaced. -/
def State.putSeam (s : State) (sc : Vector Word 24) (ov : BitVec 24) (evr : Vector EventRing 4) : State :=
  { s with hlt := { s.hlt with scoreSeam := sc, overSeam := ov }, evr := evr }

/-- Links' scores, flags and the event rings replaced. -/
def State.putLink (s : State) (sc : Vector Word 24) (ov : BitVec 24) (evr : Vector EventRing 4) : State :=
  { s with hlt := { s.hlt with scoreLink := sc, overLink := ov }, evr := evr }

/-- Ports' scores, flags and the event rings replaced. -/
def State.putPort (s : State) (sc : Vector Word 2) (ov : BitVec 2) (evr : Vector EventRing 4) : State :=
  { s with hlt := { s.hlt with scorePort := sc, overPort := ov }, evr := evr }

/-- What a second adds to a part's score, weighted. -/
def Hlt.seamSum (h : Hlt) (d : DieId) : Nat := h.wCe.toNat * vget h.deltas.ce d + h.wUncorr.toNat * vget h.deltas.ue d
def Hlt.linkSum (h : Hlt) (l : LinkId) : Nat :=
  h.wRetry.toNat * vget h.deltas.retry l + h.wRetrain.toNat * vget h.deltas.retrain l + h.wFecu.toNat * vget h.deltas.fecu l +
    h.wLanedrop.toNat * vget h.deltas.drop l
def Hlt.portSum (h : Hlt) (p0 p1 : Nat) (p : Fin 2) : Nat := h.wPcie.toNat * (if p = 0 then p0 else p1)

theorem scoreStep_healthSeam : ScoreStep u.putSeam (fun s d => s.healthSeam d)
    (fun d old => healthNext u.hlt.shift old (u.hlt.seamSum d)) (fun _ score was => overNext was score.toNat (healthThr u.hlt.thrSeam)) :=
  fun _ _ _ _ => State.healthEvent_frame

theorem scoreStep_healthLink : ScoreStep u.putLink (fun s l => s.healthLink l)
    (fun l old => healthNext u.hlt.shift old (u.hlt.linkSum l)) (fun _ score was => overNext was score.toNat (healthThr u.hlt.thrLink)) :=
  fun _ _ _ _ => State.healthEvent_frame

theorem scoreStep_healthPort : ScoreStep u.putPort (fun s p => s.healthPort p (if p = 0 then p0 else p1))
    (fun p old => healthNext u.hlt.shift old (u.hlt.portSum p0 p1 p)) (fun _ score was => overNext was score.toNat (healthThr u.hlt.thrPort)) :=
  fun _ _ _ _ => State.healthEvent_frame

/-! ## The second (R367) -/

/-- The increases that count stand for those of the second. -/
def Hlt.counting (h : Hlt) : Hlt := { h with deltas := h.counted, muteSeam := false, muteLink := false }

/-- The second has come: its increases that count, to be weighed. -/
def State.secondCome (s : State) : State := { s with hlt := s.hlt.counting }

theorem State.healthUpdate_eq : s.healthUpdate p0 p1 =
    let v := (s.pass ((s.islandTime + 1) * 1000000000 - s.now)).secondCome
    let dies := (List.finRange 24).foldl (fun s d => s.healthSeam d) v
    let links := (List.finRange 24).foldl (fun s l => s.healthLink l) dies
    let ports := (List.finRange 2).foldl (fun s p => s.healthPort p (if p = 0 then p0 else p1)) links
    { ports with hlt := { ports.hlt with deltas := deltasReset } } := rfl

theorem healthNext_toNat {shift : BitVec 4} {old : Word} {sum : Nat} :
    (healthNext shift old sum).toNat = min 0xFFFFFFFF (old.toNat - old.toNat / 2 ^ max 1 shift.toNat + sum) := by
  rw [healthNext, satNat]
  split
  · rw [BitVec.toNat_ofNat, Nat.mod_eq_of_lt (by assumption)]
    omega
  · rw [BitVec.toNat_allOnes]
    omega

/-- All parts have moved: their scores and flags, event ring 0, and nothing else. -/
theorem State.scores_moved : ∃ seam overSeam link overLink port overPort evr,
    s.healthUpdate p0 p1 = { s.pass ((s.islandTime + 1) * 1000000000 - s.now) with
      hlt := { s.hlt with
        scoreSeam := seam, overSeam := overSeam, scoreLink := link, overLink := overLink, scorePort := port, overPort := overPort
        deltas := deltasReset, muteSeam := false, muteLink := false }
      evr := evr } ∧
    (∀ d, vget seam d = healthNext s.hlt.shift (vget s.hlt.scoreSeam d) (s.hlt.counting.seamSum d) ∧
      overSeam.getLsbD d.val = overNext (s.hlt.overSeam.getLsbD d.val) (vget seam d).toNat (healthThr s.hlt.thrSeam)) ∧
    (∀ l, vget link l = healthNext s.hlt.shift (vget s.hlt.scoreLink l) (s.hlt.counting.linkSum l) ∧
      overLink.getLsbD l.val = overNext (s.hlt.overLink.getLsbD l.val) (vget link l).toNat (healthThr s.hlt.thrLink)) ∧
    (∀ p, vget port p = healthNext s.hlt.shift (vget s.hlt.scorePort p) (s.hlt.portSum p0 p1 p) ∧
      overPort.getLsbD p.val = overNext (s.hlt.overPort.getLsbD p.val) (vget port p).toNat (healthThr s.hlt.thrPort)) ∧
    (∀ q : Fin 4, q ≠ 0 → vget evr q = vget s.evr q) ∧
    (overSeam = s.hlt.overSeam → overLink = s.hlt.overLink → overPort = s.hlt.overPort → evr = s.evr) := by
  rw [State.healthUpdate_eq]
  have hpass := s.pass_frame ((s.islandTime + 1) * 1000000000 - s.now)
  generalize s.pass ((s.islandTime + 1) * 1000000000 - s.now) = w at hpass
  have hkept : w.hlt = s.hlt ∧ w.evr = s.evr := by rw [hpass]; exact ⟨rfl, rfl⟩
  obtain ⟨hhlt, hevr⟩ := hkept
  rw [← hhlt, ← hevr]
  clear hpass hhlt hevr
  obtain ⟨seam, overSeam, evr₁, hseam, hdies, hring₁, hsame₁⟩ := (scoreStep_healthSeam (u := w.secondCome)).foldl (List.nodup_finRange 24)
    (sc := w.hlt.scoreSeam) (ov := w.hlt.overSeam) (evr := w.evr)
  obtain ⟨link, overLink, evr₂, hlink, hlinks, hring₂, hsame₂⟩ := (scoreStep_healthLink (u := w.secondCome.putSeam seam overSeam evr₁)).foldl
    (List.nodup_finRange 24) (sc := w.hlt.scoreLink) (ov := w.hlt.overLink) (evr := evr₁)
  obtain ⟨port, overPort, evr₃, hport, hports, hring₃, hsame₃⟩ := (scoreStep_healthPort (p0 := p0) (p1 := p1)
    (u := (w.secondCome.putSeam seam overSeam evr₁).putLink link overLink evr₂)).foldl
    (List.nodup_finRange 2) (sc := w.hlt.scorePort) (ov := w.hlt.overPort) (evr := evr₂)
  refine ⟨seam, overSeam, link, overLink, port, overPort, evr₃, ?_, fun d => ?_, fun l => ?_, fun p => ?_,
    fun q hq => (hring₃ q hq).trans ((hring₂ q hq).trans (hring₁ q hq)), fun h₁ h₂ h₃ => ?_⟩
  · have hdies' : (List.finRange 24).foldl (fun s d => s.healthSeam d) w.secondCome = w.secondCome.putSeam seam overSeam evr₁ := hseam
    have hlinks' : (List.finRange 24).foldl (fun s l => s.healthLink l) (w.secondCome.putSeam seam overSeam evr₁) =
        (w.secondCome.putSeam seam overSeam evr₁).putLink link overLink evr₂ := hlink
    have hports' : (List.finRange 2).foldl (fun s p => s.healthPort p (if p = 0 then p0 else p1))
        ((w.secondCome.putSeam seam overSeam evr₁).putLink link overLink evr₂) =
        ((w.secondCome.putSeam seam overSeam evr₁).putLink link overLink evr₂).putPort port overPort evr₃ := hport
    dsimp only
    rw [hdies', hlinks', hports']
    dsimp only [State.putPort, State.putLink, State.putSeam, State.secondCome, Hlt.counting]
  · obtain ⟨hscore, hover⟩ := (hdies d).1 (List.mem_finRange d)
    exact ⟨hscore, hover.trans (by rw [hscore]; rfl)⟩
  · obtain ⟨hscore, hover⟩ := (hlinks l).1 (List.mem_finRange l)
    exact ⟨hscore, hover.trans (by rw [hscore]; rfl)⟩
  · obtain ⟨hscore, hover⟩ := (hports p).1 (List.mem_finRange p)
    exact ⟨hscore, hover.trans (by rw [hscore]; rfl)⟩
  · exact (hsame₃ fun p _ => by rw [h₃]).trans ((hsame₂ fun l _ => by rw [h₂]).trans (hsame₁ fun d _ => by rw [h₁]))

end

/-- Settles O53: the parts move one after the other, each by its own step. -/
theorem healthScoresMove : Obligations.HealthScoresMove := by
  unfold Obligations.HealthScoresMove
  refine ⟨fun s p0 p1 => ?second, fun s part score thr was new => ⟨State.healthEvent_of_same, State.healthEvent_of_changed⟩, fun h => ?counted⟩
  case second =>
    intro grown raised d ofDie ofLink ofPort
    obtain ⟨seam, overSeam, link, overLink, port, overPort, evr, hmoved, hdies, hlinks, hports, hring, hquiet⟩ :=
      s.scores_moved (p0 := p0) (p1 := p1)
    rw [exec_healthUpdate, hmoved]
    refine ⟨_, rfl, rfl, rfl, fun d => ?_, fun l => ?_, fun p => ?_, hring, hquiet⟩
    · obtain ⟨hscore, hover⟩ := hdies d
      have hgrown : (vget seam d).toNat = ofDie d := by rw [hscore, healthNext_toNat]; rfl
      exact ⟨hgrown, hover.trans (by rw [hgrown]; rfl)⟩
    · obtain ⟨hscore, hover⟩ := hlinks l
      have hgrown : (vget link l).toNat = ofLink l := by rw [hscore, healthNext_toNat]; rfl
      exact ⟨hgrown, hover.trans (by rw [hgrown]; rfl)⟩
    · obtain ⟨hscore, hover⟩ := hports p
      have hgrown : (vget port p).toNat = ofPort p := by rw [hscore, healthNext_toNat]; rfl
      exact ⟨hgrown, hover.trans (by rw [hgrown]; rfl)⟩
  case counted =>
    unfold Hlt.counted
    cases h.muteSeam <;> cases h.muteLink
    case false.false => exact ⟨fun _ => ⟨rfl, rfl⟩, fun _ => ⟨rfl, rfl, rfl, rfl⟩⟩
    case false.true => exact ⟨fun _ => ⟨rfl, rfl⟩, fun _ => ⟨vget_replicate .., vget_replicate .., vget_replicate .., vget_replicate ..⟩⟩
    case true.false => exact ⟨fun _ => ⟨vget_replicate .., vget_replicate ..⟩, fun _ => ⟨rfl, rfl, rfl, rfl⟩⟩
    case true.true =>
      exact ⟨fun _ => ⟨vget_replicate .., vget_replicate ..⟩,
        fun _ => ⟨vget_replicate .., vget_replicate .., vget_replicate .., vget_replicate ..⟩⟩

end Sys2Proof.Machine


/-! Identity, certificates and firmware (14_identity_service.md R378, R381, R388, R399). -/

namespace Sys2Proof.Machine

section
variable {s : State} {code : Nat} {k : State → State} {flag package data : List Byte} {verified fault : Bool} {svn : BitVec 16} {arg : Nat}

/-! ## A request served in its turn (R388) -/

theorem State.islandBusy_iff : s.islandBusy = true ↔ s.cal.writing ≠ none ∨ s.cal.state = 1 := by
  rw [State.islandBusy, Bool.or_eq_true, Option.isSome_iff_ne_none, beq_iff_eq]

theorem State.mbxIsland_of_waiting (h : s.islandBusy = true ∨ s.mbx.busy = false ∨ s.mbx.running.toNat ≠ code) :
    s.mbxIsland code k = s := by
  rcases h with h | h
  · exact if_pos h
  · unfold State.mbxIsland State.island
    dsimp only
    rw [State.mbxRunAlways_of_other h]
    split <;> rfl

section
variable (hfree : s.islandBusy = false) (hbusy : s.mbx.busy = true) (hcode : s.mbx.running.toNat = code)
include hfree hbusy hcode

theorem State.mbxIsland_of_fenced (hfenced : s.mbx.fenced = true) : s.mbxIsland code k = s.mbxEnd stFenced [] :=
  (if_neg (Bool.eq_false_iff.1 hfree)).trans (State.mbxRunAlways_of_fenced hbusy hcode hfenced)

theorem State.mbxIsland_of_open (hopen : s.mbx.fenced = false) : s.mbxIsland code k = k s :=
  (if_neg (Bool.eq_false_iff.1 hfree)).trans (State.mbxRunAlways_of_open hbusy hcode hopen)

end

theorem exec_certRead : exec .certRead s = .next s.certRead := rfl
theorem exec_identityRead : exec .identityRead s = .next s.identityRead := rfl
theorem exec_fwStage : exec (.fwStage flag package verified svn fault) s = .next (s.fwStage flag package verified svn fault) := rfl
theorem exec_fwActivate : exec .fwActivate s = .next s.fwActivate := rfl
theorem exec_calExport : exec (.calExport flag fault) s = .next (s.calExport flag fault) := rfl
theorem exec_calWrite : exec (.calWrite flag data fault) s = .next (s.calWrite flag data fault) := rfl

/-- Every request of the island over the mailbox is one served in its turn. -/
theorem exec_mbxIsland {i : Instr} {c : Byte}
    (h : (i, c) ∈ [(.certRead, (0xD0 : Byte)), (.identityRead, 0xD1), (.fwStage flag data verified svn fault, 0xD4), (.fwActivate, 0xD5),
      (.calExport flag fault, 0xD8), (.calWrite flag data fault, 0xD9)]) :
    ∃ k, ∀ s, exec i s = .next (State.mbxIsland s c.toNat k) := by
  simp only [List.mem_cons, Prod.mk.injEq, List.not_mem_nil, or_false] at h
  rcases h with ⟨rfl, rfl⟩ | ⟨rfl, rfl⟩ | ⟨rfl, rfl⟩ | ⟨rfl, rfl⟩ | ⟨rfl, rfl⟩ | ⟨rfl, rfl⟩ <;> exact ⟨_, fun _ => rfl⟩

/-! ## Certificates (R378, R379) -/

theorem State.certSlot_iff {slot : Nat} : s.certSlot slot = true ↔ slot = 0 ∨ (slot = 1 ∧ s.sec.attestReady = true) := by
  rw [State.certSlot, Bool.or_eq_true, Bool.and_eq_true, beq_iff_eq, beq_iff_eq]

theorem State.chain_zero : s.chain 0 = s.cert 0 ++ s.cert 1 ++ s.cert 2 := by
  rw [State.chain, if_pos (State.certSlot_iff.2 (Or.inl rfl))]
  change s.cert 0 ++ (s.cert 1 ++ (s.cert 2 ++ [])) = _
  rw [List.append_nil, List.append_assoc]

theorem State.chain_one (h : s.sec.attestReady = true) : s.chain 1 = s.cert 0 ++ s.cert 1 ++ s.cert 2 ++ s.cert 3 := by
  rw [State.chain, if_pos (State.certSlot_iff.2 (Or.inr ⟨rfl, h⟩))]
  change s.cert 0 ++ (s.cert 1 ++ (s.cert 2 ++ (s.cert 3 ++ []))) = _
  rw [List.append_nil, List.append_assoc, List.append_assoc]

theorem State.chain_of_empty {slot : Nat} (h : s.certSlot slot = false) : s.chain slot = [] := if_neg (Bool.eq_false_iff.1 h)

theorem State.cert_device : s.cert 2 = (s.certGap 2 0 ++ notAfter) ++ ((s.certGap 2 1 ++ serialDigits) ++ ((s.certGap 2 2 ++ dieIdentities) ++ [])) ++
    s.certGap 2 3 := rfl

theorem State.cert_attestation : s.cert 3 = (s.certGap 3 0 ++ (List.range 7).flatMap fun n => s.measurement (n + 1)) ++
    ((s.certGap 3 1 ++ leBytes 4 s.sec.attestGen.toNat) ++ []) ++ s.certGap 3 2 := rfl

theorem State.device_names {p : List Byte} (h : p ∈ [notAfter, serialDigits, dieIdentities]) : ∃ a b, s.cert 2 = a ++ p ++ b := by
  simp only [List.mem_cons, List.not_mem_nil, or_false] at h
  rcases h with rfl | rfl | rfl
  · exact ⟨s.certGap 2 0, s.certGap 2 1 ++ serialDigits ++ (s.certGap 2 2 ++ dieIdentities) ++ s.certGap 2 3, by
      rw [State.cert_device, List.append_nil]
      simp only [List.append_assoc]⟩
  · exact ⟨s.certGap 2 0 ++ notAfter ++ s.certGap 2 1, s.certGap 2 2 ++ dieIdentities ++ s.certGap 2 3, by
      rw [State.cert_device, List.append_nil]
      simp only [List.append_assoc]⟩
  · exact ⟨s.certGap 2 0 ++ notAfter ++ (s.certGap 2 1 ++ serialDigits) ++ s.certGap 2 2, s.certGap 2 3, by
      rw [State.cert_device, List.append_nil]
      simp only [List.append_assoc]⟩

/-- CERT_READ, in its turn. -/
def State.certAnswer (s : State) : State :=
  if bits (s.mbxArg 0) 15 1 != 0 then s.mbxFail stBad
  else s.mbxOk (s.certBytes (bits (s.mbxArg 0) 0 0) (512 * bits (s.mbxArg 0) 31 16) 512)

theorem State.certRead_eq : s.certRead = s.mbxIsland 0xD0 State.certAnswer := rfl

theorem State.certAnswer_of_clear (h : s.mbxArg 0 / 2 % 32768 = 0) : s.certAnswer =
    s.mbxEnd stOk (((s.chain (s.mbxArg 0 % 2)).drop (512 * (s.mbxArg 0 / 65536 % 65536))).take 512) := by
  have hclear : ¬(bits (s.mbxArg 0) 15 1 != 0) = true := by
    rw [bne_iff_ne, not_not]
    exact h
  have hslot : bits (s.mbxArg 0) 0 0 = s.mbxArg 0 % 2 := congrArg (· % 2) (Nat.div_one _)
  rw [State.certAnswer, if_neg hclear, hslot]
  rfl

/-! ## The slot a request names (R330; 12_host_attachment.md R316) -/

theorem bits_ctx {arg : Nat} : bits arg 7 0 = arg % 256 := congrArg (· % 256) (Nat.div_one _)

section
variable {x : Context} {w : WinSlot} (hx : s.ctx? (ctxOf (arg % 256)) = some x)
include hx

theorem State.islandWaits_eq (hres : arg / 256 % 256 = 0) : s.islandWaits arg =
    ((x.slot? (arg / 65536 % 65536)).any (fun w : WinSlot => !w.p2p) && !s.mayRequest x.fn) := by
  have hbits : bits arg 15 8 = 0 := hres
  rw [State.islandWaits, hbits, bits_ctx, hx]
  rfl

theorem State.islandSlot_eq (hres : arg / 256 % 256 = 0) : s.islandSlot arg flag = (x.slot? (arg / 65536 % 65536)).bind fun w =>
    if w.p2p then none else (s.acquire (ctxOf (arg % 256)) (arg / 65536 % 65536) flag).map fun s =>
      (s, ctxOf (arg % 256), arg / 65536 % 65536, w) := by
  have hbits : bits arg 15 8 = 0 := hres
  have hslot : bits arg 31 16 = arg / 65536 % 65536 := rfl
  unfold State.islandSlot
  dsimp only
  rw [hbits, hslot, bits_ctx, hx]
  rfl

end

theorem State.islandSlot_of_unfit (h : arg / 256 % 256 ≠ 0 ∨ s.ctx? (ctxOf (arg % 256)) = none) :
    s.islandSlot arg flag = none ∧ s.islandWaits arg = false := by
  by_cases hres : arg / 256 % 256 = 0
  · have hnone := h.resolve_left fun hnot => hnot hres
    have hbits : bits arg 15 8 = 0 := hres
    unfold State.islandSlot State.islandWaits
    dsimp only
    rw [hbits, bits_ctx, hnone]
    exact ⟨rfl, rfl⟩
  · have hbits : (bits arg 15 8 == 0) = false := beq_eq_false_iff_ne.2 hres
    unfold State.islandSlot State.islandWaits
    rw [bne, hbits]
    exact ⟨rfl, rfl⟩

/-- A slot that is had for a request changes the contexts alone. -/
theorem State.islandSlot_frame {t : State} {c : CtxId} {n : Nat} {w : WinSlot} (h : s.islandSlot arg flag = some (t, c, n, w)) :
    t = { s with ctxs := t.ctxs } := by
  unfold State.islandSlot at h
  dsimp only at h
  split at h
  · cases h
  · obtain ⟨w', -, h⟩ := Option.bind_eq_some_iff.1 h
    split at h
    · cases h
    · obtain ⟨a, ha, h⟩ := Option.map_eq_some_iff.1 h
      cases h
      exact State.acquire_frame ha

/-! ## Firmware (R381) -/

/-- FW_STAGE, in its turn. -/
def State.fwStaging (s : State) (flag package : List Byte) (verified : Bool) (svn : BitVec 16) (fault : Bool) : State :=
  if s.islandWaits (s.mbxArg 0) then s
  else match s.islandSlot (s.mbxArg 0) flag with
  | none => s.mbxStatus stBad
  | some (t, c, _, w) =>
    if 2 ^ 26 < s.mbxArg 1 || w.size < s.mbxArg 1 then t.mbxStatus stBad
    else if fault then t.mbxStatus stFenced
    else
      let r := (t.tallyHost c (s.mbxArg 1)).stage (slice package 0 (s.mbxArg 1)) verified svn
      (r.1.raise 0xE2 (b2n (!r.1.sec.bank)) (leBytes 4 r.2.toNat ++ leBytes 4 svn.toNat)).mbxStatus r.2

theorem State.fwStage_eq : s.fwStage flag package verified svn fault =
    s.mbxIsland 0xD4 fun s => s.fwStaging flag package verified svn fault := rfl

theorem State.fwStaging_of_waiting (h : s.islandWaits (s.mbxArg 0) = true) : s.fwStaging flag package verified svn fault = s := if_pos h

theorem State.fwStaging_of_unfit (h : s.islandWaits (s.mbxArg 0) = false) (hslot : s.islandSlot (s.mbxArg 0) flag = none) :
    s.fwStaging flag package verified svn fault = s.mbxStatus stBad := by
  rw [State.fwStaging, h, hslot]
  rfl

section
variable {t : State} {c : CtxId} {n : Nat} {w : WinSlot} (hnow : s.islandWaits (s.mbxArg 0) = false)
  (hslot : s.islandSlot (s.mbxArg 0) flag = some (t, c, n, w))
include hnow hslot

theorem State.fwStaging_of_slot : s.fwStaging flag package verified svn fault =
    if 2 ^ 26 < s.mbxArg 1 || w.size < s.mbxArg 1 then t.mbxStatus stBad
    else if fault then t.mbxStatus stFenced
    else
      let r := (t.tallyHost c (s.mbxArg 1)).stage (slice package 0 (s.mbxArg 1)) verified svn
      (r.1.raise 0xE2 (b2n (!r.1.sec.bank)) (leBytes 4 r.2.toNat ++ leBytes 4 svn.toNat)).mbxStatus r.2 := by
  rw [State.fwStaging, hnow, hslot]
  rfl

theorem State.fwStaging_of_long (hlen : 2 ^ 26 < s.mbxArg 1 ∨ 2 ^ w.log2 < s.mbxArg 1) :
    s.fwStaging flag package verified svn fault = t.mbxStatus stBad := by
  rw [State.fwStaging_of_slot hnow hslot]
  exact if_pos (by rw [Bool.or_eq_true, decide_eq_true_eq, decide_eq_true_eq]; exact hlen)

section
variable (hlen : s.mbxArg 1 ≤ 2 ^ 26) (hsize : s.mbxArg 1 ≤ 2 ^ w.log2)
include hlen hsize

theorem State.fwStaging_of_fits : s.fwStaging flag package verified svn fault =
    if fault then t.mbxStatus stFenced
    else
      let r := (t.tallyHost c (s.mbxArg 1)).stage (slice package 0 (s.mbxArg 1)) verified svn
      (r.1.raise 0xE2 (b2n (!r.1.sec.bank)) (leBytes 4 r.2.toNat ++ leBytes 4 svn.toNat)).mbxStatus r.2 := by
  rw [State.fwStaging_of_slot hnow hslot]
  refine if_neg ?_
  rw [Bool.or_eq_true, decide_eq_true_eq, decide_eq_true_eq, WinSlot.size]
  omega

end

end

theorem b2n_not {b : Bool} : b2n (!b) = if b then 0 else 1 := by cases b <;> rfl

theorem State.stage_of_good (hverified : verified = true) (hsvn : s.sec.svnMin ≤ svn) : s.stage package verified svn =
    ({ s with sec := { s.sec with
      banks := vset s.sec.banks (if s.sec.bank then 0 else 1) { good := true, svn := svn, data := some package }, staged := true } }, stOk) :=
  if_pos (by rw [hverified, decide_eq_true hsvn]; rfl)

theorem State.stage_of_bad (h : verified = false ∨ svn < s.sec.svnMin) : s.stage package verified svn = (s, stBad) := by
  refine if_neg ?_
  rw [Bool.and_eq_true, decide_eq_true_eq]
  rintro ⟨hverified, hsvn⟩
  exact h.elim (fun hnot => absurd (hverified.symm.trans hnot) (by decide)) fun hlow => BitVec.not_le.2 hlow hsvn

/-- FW_ACTIVATE, in its turn. -/
def State.fwActivating (s : State) : State :=
  if bits (s.mbxArg 0) 31 1 != 0 || !s.sec.staged || !s.bankOk (!s.sec.bank) then s.mbxStatus stBad
  else State.mbxStatus { s with sec := { s.sec with
    nextBank := !s.sec.bank, svnMin := if bit (s.mbxArg 0) 0 then (s.bankOf (!s.sec.bank)).svn else s.sec.svnMin } } stOk

theorem State.fwActivate_eq : s.fwActivate = s.mbxIsland 0xD5 State.fwActivating := rfl

theorem bits_reserved_iff {w : Nat} : bits w 31 1 ≠ 0 ↔ 2 ≤ w % 2 ^ 32 := by
  rw [bits]
  omega

theorem State.fwActivating_of_bad (h : 2 ≤ s.mbxArg 0 % 2 ^ 32 ∨ s.sec.staged = false ∨ s.bankOk (!s.sec.bank) = false) :
    s.fwActivating = s.mbxStatus stBad := by
  refine if_pos ?_
  rw [Bool.or_eq_true, Bool.or_eq_true, bne_iff_ne, bits_reserved_iff, Bool.not_eq_true', Bool.not_eq_true', or_assoc]
  exact h

theorem State.fwActivating_of_good (harg : s.mbxArg 0 % 2 ^ 32 < 2) (hstaged : s.sec.staged = true) (hok : s.bankOk (!s.sec.bank) = true) :
    s.fwActivating = State.mbxStatus { s with sec := { s.sec with
      nextBank := !s.sec.bank, svnMin := if s.mbxArg 0 % 2 = 1 then (s.bankOf (!s.sec.bank)).svn else s.sec.svnMin } } stOk := by
  have hnot : ¬(bits (s.mbxArg 0) 31 1 != 0 || !s.sec.staged || !s.bankOk (!s.sec.bank)) = true := by
    rw [Bool.or_eq_true, Bool.or_eq_true, bne_iff_ne, bits_reserved_iff, hstaged, hok]
    simp only [Bool.not_true, Bool.false_eq_true, or_false, not_le]
    exact harg
  have hraise : bit (s.mbxArg 0) 0 = decide (s.mbxArg 0 % 2 = 1) := by rw [bit, Nat.pow_zero, Nat.div_one]
  rw [State.fwActivating, if_neg hnot, hraise]
  simp only [decide_eq_true_eq]

end

/-- Settles O54: every request by its turn, a certificate by its parts, a slot by what holds it. -/
theorem identityCertificatesAndFirmware : Obligations.IdentityCertificatesAndFirmware := by
  unfold Obligations.IdentityCertificatesAndFirmware
  refine ⟨fun s i code flag bs ok pf svn hi => ?turn, fun s => State.islandBusy_iff, fun s hfree hbusy hcode hopen => ?certs,
    fun s => ⟨State.chain_zero, fun h => ?empty, State.chain_one, fun p => State.device_names, ?measurements, ?gen⟩,
    fun s hfree hbusy hcode hopen => exec_identityRead.trans (congrArg _ (State.mbxIsland_of_open hfree hbusy hcode hopen)),
    fun s flag package verified svn pf hfree hbusy hcode hopen => ?stage, fun s arg flag => ?slot,
    fun s hfree hbusy hcode hopen => ?activate⟩
  case turn =>
    obtain ⟨k, hexec⟩ := exec_mbxIsland hi
    rw [hexec]
    exact ⟨fun h => congrArg _ (State.mbxIsland_of_waiting h),
      fun hfree hbusy hcode hfenced => congrArg _ (State.mbxIsland_of_fenced hfree hbusy hcode hfenced)⟩
  case certs =>
    intro w
    rw [exec_certRead, State.certRead_eq, State.mbxIsland_of_open hfree hbusy hcode hopen]
    exact ⟨fun hres => congrArg _ (if_pos (bne_iff_ne.2 hres)), fun hres => congrArg _ (State.certAnswer_of_clear hres)⟩
  case empty => exact State.chain_of_empty (Bool.eq_false_iff.2 fun hslot => by simp [State.certSlot_iff, h] at hslot)
  case measurements =>
    exact ⟨s.certGap 3 0, s.certGap 3 1 ++ leBytes 4 s.sec.attestGen.toNat ++ s.certGap 3 2, by
      rw [State.cert_attestation, List.append_nil]
      simp only [List.append_assoc]⟩
  case gen =>
    exact ⟨s.certGap 3 0 ++ ((List.range 7).flatMap fun n => s.measurement (n + 1)) ++ s.certGap 3 1, s.certGap 3 2, by
      rw [State.cert_attestation, List.append_nil]
      simp only [List.append_assoc]⟩
  case stage =>
    rw [exec_fwStage, State.fwStage_eq, State.mbxIsland_of_open hfree hbusy hcode hopen]
    refine ⟨fun h => congrArg _ (State.fwStaging_of_waiting h), fun h hslot => congrArg _ (State.fwStaging_of_unfit h hslot), fun h hslot => ?_⟩
    obtain ⟨⟨t, c, n, w⟩, hslot⟩ := Option.isSome_iff_exists.1 hslot
    refine ⟨t, c, n, w, hslot, ?_⟩
    intro len u
    have hsec : u.sec = s.sec := by
      rw [State.tallyHost_sec, State.islandSlot_frame hslot]
    refine ⟨fun hlen => congrArg _ (State.fwStaging_of_long h hslot hlen), fun hlen hsize hpf => ?_, fun hlen hsize hpf hverified hsvn => ?_,
      fun hlen hsize hpf hbad => ?_⟩
    · rw [State.fwStaging_of_fits h hslot hlen hsize, hpf]
      rfl
    · rw [State.fwStaging_of_fits h hslot hlen hsize, hpf, State.stage_of_good (s := u) hverified (hsec ▸ hsvn), hsec, if_neg (by decide)]
      dsimp only
      rw [b2n_not]
    · rw [State.fwStaging_of_fits h hslot hlen hsize, hpf, State.stage_of_bad (s := u) (hsec ▸ hbad), if_neg (by decide)]
      dsimp only
      rw [b2n_not, hsec]
  case slot =>
    intro c n
    refine ⟨State.islandSlot_of_unfit, fun x hx hslot => ?_, fun x w hx hw hres => ⟨fun hp2p => ?_, fun hp2p => ?_, fun hheld hp2p => ?_,
      fun hheld howner => ?_, fun hheld hp2p howner => ?_⟩⟩
    · by_cases hres : arg / 256 % 256 = 0
      · rw [State.islandSlot_eq hx hres, State.islandWaits_eq hx hres, hslot]
        exact ⟨rfl, rfl⟩
      · exact State.islandSlot_of_unfit (Or.inl hres)
    · rw [State.islandSlot_eq hx hres, State.islandWaits_eq hx hres, hw, Option.bind_some, if_pos hp2p, Option.any_some, hp2p]
      exact ⟨rfl, rfl⟩
    · rw [State.islandWaits_eq hx hres, hw, Option.any_some, hp2p]
      rfl
    · rw [State.islandSlot_eq hx hres, hw, Option.bind_some, hp2p, State.acquire_of_held hx hw (Option.isSome_iff_ne_none.2 hheld)]
      rfl
    · rw [State.islandSlot_eq hx hres, hw, Option.bind_some, State.acquire_of_hostOwned hx hw hheld howner]
      exact ite_self none
    · rw [State.islandSlot_eq hx hres, hw, Option.bind_some, hp2p, State.acquire_of_handedOver hx hw hheld howner]
      rfl
  case activate =>
    rw [exec_fwActivate, State.fwActivate_eq, State.mbxIsland_of_open hfree hbusy hcode hopen]
    exact ⟨fun h => congrArg _ (State.fwActivating_of_bad h), fun harg hstaged hok => congrArg _ (State.fwActivating_of_good harg hstaged hok)⟩

end Sys2Proof.Machine


/-! The calibration store is read and written (14_identity_service.md R384, R386 to R388, R392, R399). -/

namespace Sys2Proof.Machine

/-! ## The stored form of an accepted image (R387) -/

section
variable {l r : List Byte} {off len : Nat} {img : List Byte} {n : Nat} {writes : Word}

theorem slice_congr (h : ∀ i < len, l.getD (off + i) 0 = r.getD (off + i) 0) : slice l off len = slice r off len := by
  refine List.ext_getElem (by rw [slice_length, slice_length]) fun i hl hr => ?_
  have hi : i < len := by rwa [slice_length] at hl
  have hl' := slice_getD l off len i hi
  have hr' := slice_getD r off len i hi
  rw [List.getD_eq_getElem _ _ hl] at hl'
  rw [List.getD_eq_getElem _ _ hr] at hr'
  rw [hl', hr', h i hi]

theorem fieldAt_congr (h : ∀ i < len, l.getD (off + i) 0 = r.getD (off + i) 0) : fieldAt l off len = fieldAt r off len := by
  rw [fieldAt, slice_congr h, fieldAt]

theorem leNat_lt : leNat l < 256 ^ l.length := by
  induction l with
  | nil => exact Nat.one_pos
  | cons b l ih =>
    rw [leNat, List.length_cons, Nat.pow_succ]
    have hb := b.isLt
    omega

theorem fieldAt_lt : fieldAt l off len < 256 ^ len := by
  have h := leNat_lt (l := slice l off len)
  rwa [slice_length] at h

theorem getD_withDigest (h : n < 0x3FD0) : (withDigest l).getD n 0 = l.getD n 0 := by
  rw [withDigest, List.getD_append _ _ _ _ (by rw [slice_length]; exact h), slice_getD _ _ _ _ h, Nat.zero_add]

/-- The body of an accepted image as it is stored, before its digest. -/
def calBody (img : List Byte) (writes : Word) : List Byte :=
  slice img 0 16 ++ leBytes 4 writes.toNat ++ leBytes 4 (fieldAt img 20 4 ||| 1) ++ slice img 24 (calSize - 24)

theorem calStored_eq : calStored img writes = withDigest (calBody img writes) := rfl

theorem calBody_head (h : n < 16) : (calBody img writes).getD n 0 = img.getD n 0 := by
  rw [calBody, List.append_assoc, List.append_assoc, List.getD_append _ _ _ _ (by rw [slice_length]; exact h), slice_getD _ _ _ _ h,
    Nat.zero_add]

theorem calBody_tail (h : 24 ≤ n) (hn : n < calSize) : (calBody img writes).getD n 0 = img.getD n 0 := by
  have hbefore : (slice img 0 16 ++ leBytes 4 writes.toNat ++ leBytes 4 (fieldAt img 20 4 ||| 1)).length = 24 := by
    rw [List.length_append, List.length_append, slice_length, leBytes_length, leBytes_length]
  rw [calBody, List.getD_append_right _ _ _ _ (by rw [hbefore]; exact h), hbefore, slice_getD _ _ _ _ (by omega), Nat.add_sub_cancel' h]

theorem calStored_kept (h : n < 0x10 ∨ 0x18 ≤ n) (hn : n < 0x3FD0) : (calStored img writes).getD n 0 = img.getD n 0 := by
  rw [calStored_eq, getD_withDigest hn]
  exact h.elim calBody_head fun h => calBody_tail h (by unfold calSize; omega)

theorem calStored_writes : fieldAt (calStored img writes) 0x10 4 = writes.toNat := by
  have hfield := fieldAt_append (slice img 0 16) (leBytes 4 (fieldAt img 20 4 ||| 1) ++ slice img 24 (calSize - 24)) 4 writes.toNat writes.isLt
  rw [slice_length] at hfield
  rw [calStored_eq, withDigest_field _ _ _ (by decide), calBody, List.append_assoc, hfield]

theorem calStored_origin : fieldAt (calStored img writes) 0x14 4 % 2 = 1 := by
  have hfits : fieldAt img 20 4 ||| 1 < 256 ^ 4 := Nat.or_lt_two_pow (n := 32) fieldAt_lt (by decide)
  have hfield := fieldAt_append (slice img 0 16 ++ leBytes 4 writes.toNat) (slice img 24 (calSize - 24)) 4 (fieldAt img 20 4 ||| 1) hfits
  rw [List.length_append, slice_length, leBytes_length] at hfield
  rw [calStored_eq, withDigest_field _ _ _ (by decide), calBody, hfield]
  simp [Nat.or_mod_two_eq_one]

theorem calImageOk_iff : calImageOk l = true ↔ l.length = 16384 ∧ fieldAt l 0 4 = 0x43414C31 ∧ fieldAt l 4 4 = 1 ∧
    fieldAt l 8 8 = Config.serial.toNat ∧ slice l 0x3FD0 48 = sha384 (slice l 0 0x3FD0) := by
  simp only [calImageOk, Bool.and_eq_true, beq_iff_eq, and_assoc]
  rfl

theorem calStored_ok (h : calImageOk img = true) : calImageOk (calStored img writes) = true := by
  obtain ⟨-, hmagic, hformat, hserial, -⟩ := calImageOk_iff.1 h
  obtain ⟨hsize, hdigest⟩ := withDigest_ok (calBody img writes)
  have hkept : ∀ off len, off + len ≤ 16 → fieldAt (calStored img writes) off len = fieldAt img off len := fun off len hle =>
    fieldAt_congr fun i hi => calStored_kept (Or.inl (by omega)) (by omega)
  exact calImageOk_iff.2 ⟨hsize, (hkept 0 4 (by decide)).trans hmagic, (hkept 4 4 (by decide)).trans hformat,
    (hkept 8 8 (by decide)).trans hserial, hdigest⟩

end

section
variable {s : State} {code : Nat} {value chunk : BitVec 16} {data flag : List Byte} {fault : Bool} {k : State → State} {f : State → State × Byte}

/-! ## A request over SVC (R388, R392) -/

theorem State.svcRun_of_off (h : s.pwr.auxOn = false ∨ s.islandBusy = true) : s.svcRun k = s := by
  unfold State.svcRun State.island
  rcases h with h | h
  · rw [h]
    rfl
  · rw [h, if_pos rfl]
    exact ite_self s

theorem State.svcRun_of_free (hon : s.pwr.auxOn = true) (hfree : s.islandBusy = false) : s.svcRun k = k s := by
  rw [State.svcRun, if_pos hon]
  exact if_neg (Bool.eq_false_iff.1 hfree)

theorem State.svcKeyed_of_key : s.svcKeyed code 0x6480 f = s.svcOut code f := if_pos (by decide)

theorem State.svcKeyed_of_other (h : value ≠ 0x6480) :
    s.svcKeyed code value f = s.svcRun fun s => { s.svcLast code stBad with svc := { (s.svcLast code stBad).svc with reply := .stall } } :=
  if_neg (mt beq_iff_eq.1 h)

theorem State.svcKeyed_of_off (h : s.pwr.auxOn = false ∨ s.islandBusy = true) : s.svcKeyed code value f = s := by
  by_cases hkey : value = 0x6480
  · rw [hkey, State.svcKeyed_of_key, State.svcOut, State.svcRun_of_off h]
  · rw [State.svcKeyed_of_other hkey, State.svcRun_of_off h]

theorem exec_calChunk : exec (.calChunk chunk data) s = .next (s.svcOut 0x30 fun s => s.putChunk chunk data) := rfl
theorem exec_calCommit : exec (.calCommit value) s = .next (s.calCommit value) := rfl
theorem exec_calImageWritten : exec .calImageWritten s = .next s.calWritten := rfl

/-! ## CAL_CHUNK and CAL_COMMIT -/

theorem State.putChunk_of_good {n : Fin 4} (h : chunk.toNat = n.val) (hlen : data.length = 4096) : s.putChunk chunk data =
    ({ s with svc := { s.svc with chunks := vset s.svc.chunks n (some data) } }, stOk) := by
  have hn : Fin.ofNat 4 chunk.toNat = n := by
    rw [h]
    exact Fin.ofNat_val_eq_self n
  rw [State.putChunk, if_pos (by rw [h, hlen, decide_eq_true n.isLt]; rfl), hn]

theorem State.putChunk_of_bad (h : 4 ≤ chunk.toNat ∨ data.length ≠ 4096) : s.putChunk chunk data = (s, stBad) := by
  refine if_neg ?_
  rw [Bool.and_eq_true, decide_eq_true_eq, beq_iff_eq]
  omega

theorem State.chunkImage_of_four {a b c d : List Byte} (h : s.svc.chunks = #v[some a, some b, some c, some d]) :
    s.chunkImage = some (a ++ b ++ c ++ d) := by
  rw [State.chunkImage, h]
  rfl

/-- Chunks joined in their order, once all have come. -/
def joinChunk (a : Option (List Byte)) (c : Option (List Byte)) : Option (List Byte) := a.bind fun l => c.map fun d => l ++ d

theorem joinChunk_none {c : Option (List Byte)} : joinChunk none c = none := rfl

theorem foldl_joinChunk_none {cs : List (Option (List Byte))} : cs.foldl joinChunk none = none := List.foldl_fixed' (fun _ => joinChunk_none) cs

theorem foldl_joinChunk_of_missing {cs : List (Option (List Byte))} {a : Option (List Byte)} (h : none ∈ cs) : cs.foldl joinChunk a = none := by
  induction cs generalizing a with
  | nil => cases h
  | cons c cs ih =>
    rw [List.foldl_cons]
    rcases List.mem_cons.1 h with rfl | h
    · have hnone : joinChunk a none = none := by cases a <;> rfl
      rw [hnone, foldl_joinChunk_none]
    · exact ih h

theorem State.chunkImage_of_missing (h : ∃ n : Fin 4, vget s.svc.chunks n = none) : s.chunkImage = none := by
  obtain ⟨n, hn⟩ := h
  refine foldl_joinChunk_of_missing (List.mem_iff_getElem.2 ⟨n.val, by simp, ?_⟩)
  rw [Vector.getElem_toList]
  exact hn

theorem State.calCommit_of_good {img : List Byte} (hon : s.pwr.auxOn = true) (hfree : s.islandBusy = false) (himg : s.chunkImage = some img)
    (hok : calImageOk img = true) : s.calCommit 0x6480 = s.calAccept img true := by
  have hgo : ((0x6480 : BitVec 16) == svcKey && s.pwr.auxOn && !s.islandBusy && s.chunkImage.any calImageOk) = true := by
    rw [hon, hfree, himg, Option.any_some, hok]
    decide
  rw [State.calCommit, if_pos hgo, himg]
  rfl

theorem State.calCommit_of_refused (h : value ≠ 0x6480 ∨ s.pwr.auxOn = false ∨ s.islandBusy = true ∨
    ∀ img, s.chunkImage = some img → calImageOk img = false) : s.calCommit value = s.svcKeyed 0x31 value fun s => (s, stBad) := by
  refine if_neg ?_
  simp only [Bool.and_eq_true, beq_iff_eq, Bool.not_eq_true']
  rintro ⟨⟨⟨hkey, hon⟩, hfree⟩, hany⟩
  rcases h with h | h | h | h
  · exact h hkey
  · rw [h] at hon; cases hon
  · rw [h] at hfree; cases hfree
  · obtain ⟨img, himg, hok⟩ := (Option.any_eq_true _ _).1 hany
    exact absurd (hok.symm.trans (h img himg)) (by decide)

/-! ## CAL_EXPORT and CAL_WRITE (R386, R387) -/

/-- CAL_EXPORT, in its turn. -/
def State.calExporting (s : State) (flag : List Byte) (fault : Bool) : State :=
  if s.islandWaits (s.mbxArg 0) then s
  else match s.islandSlot (s.mbxArg 0) flag with
  | none => s.mbxStatus stBad
  | some (t, c, n, w) =>
    if fault then (t.hostUndefined w.addr.toNat calSize).mbxStatus stFenced
    else (((t.hostWrite w.addr.toNat t.calImage).tallyHost c calSize).handback c n calSize 0).mbxStatus stOk

theorem State.calExport_eq : s.calExport flag fault = s.mbxIsland 0xD8 fun s => s.calExporting flag fault := rfl

/-- CAL_WRITE, in its turn. -/
def State.calWriting (s : State) (flag data : List Byte) (fault : Bool) : State :=
  if s.islandWaits (s.mbxArg 0) then s
  else match s.islandSlot (s.mbxArg 0) flag with
  | none => s.mbxStatus stBad
  | some (t, c, _, _) =>
    if fault then t.mbxStatus stFenced
    else if calImageOk (slice data 0 calSize) then (t.tallyHost c calSize).calAccept (slice data 0 calSize) false
    else (t.tallyHost c calSize).mbxStatus stBad

theorem State.calWrite_eq : s.calWrite flag data fault = s.mbxIsland 0xD9 fun s => s.calWriting flag data fault := rfl

theorem State.calImage_of_slot {arg : Nat} {t : State} {c : CtxId} {n : Nat} {w : WinSlot} (h : s.islandSlot arg flag = some (t, c, n, w)) :
    t.calImage = s.calImage := by
  rw [State.islandSlot_frame h]
  rfl

theorem State.cal_of_slot {arg len : Nat} {t : State} {c : CtxId} {n : Nat} {w : WinSlot} (h : s.islandSlot arg flag = some (t, c, n, w)) :
    (t.tallyHost c len).cal = s.cal := by
  rw [State.tallyHost_cal, State.islandSlot_frame h]

/-! ## The completed image (R387) -/

/-- The image is stored and its thermal offsets act. -/
def State.calKept (s : State) (img : List Byte) : State :=
  State.correct { s with cal := { s.cal with
    writing := none, state := 0, origin := true, writes := s.cal.writes + 1, stored := some (calStored img (s.cal.writes + 1)), torn := false
    offsets := .image (some (calStored img (s.cal.writes + 1))), pendingWrite := true } }

/-- Its path learns the outcome. -/
def State.calTold (s : State) (svc : Bool) : State :=
  if svc then { s with svc := { s.svc with lastStatus := stOk, lastRequest := 0x31 } }
  else if s.mbxIs 0xD9 then s.mbxStatus stOk
  else s

theorem State.calWritten_of_none (h : s.cal.writing = none) : s.calWritten = s := by
  rw [State.calWritten, h]

theorem State.calWritten_of_some {img : List Byte} {svc : Bool} (h : s.cal.writing = some (img, svc)) : s.calWritten =
    ((s.calKept img).tripIfHot.raise 0xE1 0 (leBytes 4 (b2n svc) ++ leBytes 4 (s.cal.writes + 1).toNat)).calTold svc := by
  have htold : ∀ u : State, (if svc then { u with svc := { u.svc with lastStatus := stOk, lastRequest := 0x31 } }
      else if u.mbxIs 0xD9 then u.mbxStatus stOk else u) = u.calTold svc := fun _ => rfl
  rw [State.calWritten, h]
  exact htold _

theorem State.calKept_frame {img : List Byte} : ∃ temps cal,
    s.calKept img = { s with pwr := { s.pwr with temps := temps }, cal := cal } ∧ cal.state = 0 ∧ cal.writing = none := by
  unfold State.calKept State.correct
  exact ⟨_, _, rfl, rfl, rfl⟩

theorem State.calTold_keeps {svc : Bool} :
    (s.calTold svc).pwr = s.pwr ∧ (s.calTold svc).rst = s.rst ∧ (s.calTold svc).cal = s.cal := by
  unfold State.calTold
  split
  · exact ⟨rfl, rfl, rfl⟩
  · split
    · exact ⟨State.mbxEnd_pwr .., State.mbxEnd_rst .., State.mbxEnd_cal ..⟩
    · exact ⟨rfl, rfl, rfl⟩

end

/-- Settles O55: a slot by what holds it, a chunk and a commit by the key and the image, the completed image by its digest. -/
theorem calibrationStoreReadAndWritten : Obligations.CalibrationStoreReadAndWritten := by
  unfold Obligations.CalibrationStoreReadAndWritten
  refine ⟨fun s flag data pf hfree hbusy hopen => ⟨fun hcode => ?exporting, fun hcode => ?writing⟩, fun b => calImageOk_iff,
    fun s chunk value data hon hfree => ?port, fun s a b c d => State.chunkImage_of_four, fun s => State.chunkImage_of_missing,
    fun s chunk value data h => ?off, fun s h => exec_calImageWritten.trans (congrArg _ (State.calWritten_of_none h)),
    fun s img svc h => ?written⟩
  case exporting =>
    rw [exec_calExport, State.calExport_eq, State.mbxIsland_of_open hfree hbusy hcode hopen]
    refine ⟨fun h => congrArg _ (if_pos h), fun h hslot => ?_, fun h hslot => ?_⟩
    · rw [State.calExporting, h, hslot]
      rfl
    · obtain ⟨⟨t, c, n, w⟩, hslot⟩ := Option.isSome_iff_exists.1 hslot
      refine ⟨t, c, n, w, hslot, fun hpf => ?_, fun hpf => ?_⟩
      · rw [State.calExporting, h, hslot, hpf]
        rfl
      · rw [State.calExporting, h, hslot, hpf, ← State.calImage_of_slot hslot]
        rfl
  case writing =>
    rw [exec_calWrite, State.calWrite_eq, State.mbxIsland_of_open hfree hbusy hcode hopen]
    refine ⟨fun h => congrArg _ (if_pos h), fun h hslot => ?_, fun h hslot => ?_⟩
    · rw [State.calWriting, h, hslot]
      rfl
    · obtain ⟨⟨t, c, n, w⟩, hslot⟩ := Option.isSome_iff_exists.1 hslot
      refine ⟨t, c, n, w, hslot, fun hpf => ?_, fun hpf hok => ?_, fun hpf hbad => ?_⟩
      · rw [State.calWriting, h, hslot, hpf]
        rfl
      · rw [State.calWriting, h, hslot, hpf, ← State.cal_of_slot hslot (len := 16384)]
        exact congrArg _ (if_pos hok)
      · rw [State.calWriting, h, hslot, hpf]
        exact congrArg _ (if_neg (Bool.eq_false_iff.1 hbad))
  case port =>
    intro kept
    rw [exec_calChunk, exec_calCommit, exec_calCommit]
    refine ⟨fun n hn hlen => ?_, fun hbad => ?_, fun hkey => ?_, fun img himg hok => ?_, fun hbad => ?_⟩
    · rw [State.svcOut, State.svcRun_of_free hon hfree, State.putChunk_of_good hn hlen]
      rfl
    · rw [State.svcOut, State.svcRun_of_free hon hfree, State.putChunk_of_bad hbad]
      rfl
    · rw [State.calCommit_of_refused (Or.inl hkey), State.svcKeyed_of_other hkey, State.svcRun_of_free hon hfree]
      rfl
    · rw [State.calCommit_of_good hon hfree himg hok]
      rfl
    · rw [State.calCommit_of_refused (Or.inr (Or.inr (Or.inr hbad))), State.svcKeyed_of_key, State.svcOut, State.svcRun_of_free hon hfree]
      rfl
  case off =>
    rw [exec_calChunk, exec_calCommit, State.calCommit_of_refused (Or.inr (h.imp_right Or.inl))]
    exact ⟨congrArg _ (State.svcRun_of_off h), congrArg _ (State.svcKeyed_of_off h)⟩
  case written =>
    intro b t u
    have ht : s.calKept img = t := rfl
    obtain ⟨temps, cal, hframe, hstate, hwriting⟩ := s.calKept_frame (img := img)
    rw [ht] at hframe
    clear_value t
    have hhold : t.pwr.hold = s.pwr.hold := by rw [hframe]
    rw [exec_calImageWritten, State.calWritten_of_some h, ht]
    refine ⟨fun hok => ⟨calStored_ok hok, calStored_writes, calStored_origin, fun n hn hlow => calStored_kept hn hlow⟩, fun hcool => ?_,
      fun hhot hfree => ?_⟩
    · have hquiet : t.tripIfHot = t := by
        rcases hcool with hcool | hheld
        · exact State.tripIfHot_of_cool hcool
        · exact State.tripIfHot_of_held (hhold ▸ hheld)
      have hmbx : u.mbx = s.mbx := by show t.mbx = s.mbx; rw [hframe]
      have hsvc : u.svc = s.svc := by show t.svc = s.svc; rw [hframe]
      rw [hquiet]
      refine ⟨fun hpath => ?_, fun hpath hbusy hcode => ?_, fun hpath hother => ?_⟩
      · subst hpath
        rw [← hsvc]
        rfl
      · have his : u.mbxIs 0xD9 = true := State.mbxIs_eq_true.2 (by rw [hmbx]; exact ⟨hbusy, hcode⟩)
        exact congrArg _ ((if_neg (Bool.eq_false_iff.1 hpath)).trans (if_pos his))
      · have hnot : u.mbxIs 0xD9 = false := State.mbxIs_eq_false.2 (by rw [hmbx]; exact hother)
        exact congrArg _ ((if_neg (Bool.eq_false_iff.1 hpath)).trans (if_neg (Bool.eq_false_iff.1 hnot)))
    · rw [State.tripIfHot_of_hot hhot]
      obtain ⟨hpwr, hrst, hcal⟩ := State.calTold_keeps (svc := svc)
        (s := t.trip.raise 0xE1 0 (leBytes 4 (b2n svc) ++ leBytes 4 (s.cal.writes + 1).toNat))
      obtain ⟨host, free, htrip⟩ := State.trip_of_free (hhold.trans hfree)
      refine ⟨_, rfl, ?_, ?_, ?_⟩
      · rw [hpwr, State.raise_pwr, State.trip_hold (hhold.trans hfree)]
      · rw [hrst, State.raise_rst, htrip]
        rfl
      · rw [hcal, State.raise_cal, htrip, hframe]
        change ({ cal with state := 0, writing := none } : Cal) = cal
        rw [← hstate, ← hwriting]

end Sys2Proof.Machine


/-! SPDM requests are answered over DOE and MGMT (14_identity_service.md R382, R383, R388). -/

namespace Sys2Proof.Machine

section
variable {s : State} {i : Instr} {mgmt : Bool} {slot offset len n : Nat} {indices : List Nat} {r : SpdmReply} {f : State → SpdmReply}

/-! ## Who is answered -/

/-- The reply is given. -/
def State.spdmAnswered (s : State) (f : State → SpdmReply) : State :=
  { s with sec := { s.sec with spdmCount := s.sec.spdmCount + 1, reply := some (f s) }, freeCtr := s.freeCtr + 1 }

theorem State.spdm_mgmt : s.spdm true f = s.svcRun fun s => s.spdmAnswered f := rfl

theorem State.spdm_doe : s.spdm false f = if s.pwr.auxOn && !s.sec.islandOnly then s.spdmAnswered f else s := rfl

theorem State.spdm_of_heard (hon : s.pwr.auxOn = true) (h : if mgmt then s.islandBusy = false else s.sec.islandOnly = false) :
    s.spdm mgmt f = s.spdmAnswered f := by
  cases mgmt with
  | true => rw [State.spdm_mgmt, State.svcRun_of_free hon h]
  | false => rw [State.spdm_doe, hon, show s.sec.islandOnly = false from h, Bool.not_false, Bool.and_self, if_pos rfl]

theorem State.spdm_of_unheard (h : s.pwr.auxOn = false ∨ if mgmt then s.islandBusy = true else s.sec.islandOnly = true) :
    s.spdm mgmt f = s := by
  cases mgmt with
  | true => rw [State.spdm_mgmt, State.svcRun_of_off h]
  | false =>
    have hclosed : (s.pwr.auxOn && !s.sec.islandOnly) = false := by
      rw [Bool.and_eq_false_iff, Bool.not_eq_false']
      exact h
    rw [State.spdm_doe, hclosed, if_neg Bool.false_ne_true]

/-! ## What is answered -/

/-- The instruction is an SPDM request that `s` answers with `r`. -/
def State.AnswersSpdm (s : State) (mgmt : Bool) (i : Instr) (r : SpdmReply) : Prop := ∃ f, exec i s = .next (s.spdm mgmt f) ∧ f s = r

theorem State.AnswersSpdm.heard (h : s.AnswersSpdm mgmt i r) (hon : s.pwr.auxOn = true)
    (hfree : if mgmt then s.islandBusy = false else s.sec.islandOnly = false) : exec i s =
      .next { s with sec := { s.sec with spdmCount := s.sec.spdmCount + 1, reply := some r }, freeCtr := s.freeCtr + 1 } := by
  obtain ⟨f, hexec, rfl⟩ := h
  rw [hexec, State.spdm_of_heard hon hfree, State.spdmAnswered]

theorem State.AnswersSpdm.unheard (h : s.AnswersSpdm mgmt i r)
    (hoff : s.pwr.auxOn = false ∨ if mgmt then s.islandBusy = true else s.sec.islandOnly = true) : exec i s = .next s := by
  obtain ⟨f, hexec, -⟩ := h
  rw [hexec, State.spdm_of_unheard hoff]

theorem State.digests_eq : s.digests =
    (0, sha384 (s.chain 0)) :: (if s.sec.attestReady then [(1, sha384 (s.chain 1))] else []) := by
  have hzero : s.certSlot 0 = true := State.certSlot_iff.2 (Or.inl rfl)
  have hone : s.certSlot 1 = s.sec.attestReady := rfl
  cases hready : s.sec.attestReady <;> simp [State.digests, hzero, hone, hready]

theorem State.answersSpdm_open (h : (i, r) ∈ [(.getVersion mgmt, .version 1 3), (.getCapabilities mgmt, .capabilities true true true false false),
      (.negotiateAlgorithms mgmt, .algorithms .ecdsaP384 .sha384 .sha384), (.spdmUnsupported mgmt, .error .unsupportedRequest),
      (.getDigests mgmt, .digests ((0, sha384 (s.chain 0)) :: (if s.sec.attestReady then [(1, sha384 (s.chain 1))] else [])))]) :
    s.AnswersSpdm mgmt i r := by
  simp only [List.mem_cons, List.not_mem_nil, or_false, Prod.mk.injEq] at h
  rcases h with ⟨rfl, rfl⟩ | ⟨rfl, rfl⟩ | ⟨rfl, rfl⟩ | ⟨rfl, rfl⟩ | ⟨rfl, rfl⟩
  · exact ⟨_, rfl, rfl⟩
  · exact ⟨_, rfl, rfl⟩
  · exact ⟨_, rfl, rfl⟩
  · exact ⟨_, rfl, rfl⟩
  · exact ⟨_, rfl, congrArg SpdmReply.digests State.digests_eq⟩

theorem State.answersSpdm_getCertificate : s.AnswersSpdm mgmt (.getCertificate mgmt slot offset len) (s.getCertificate slot offset len) :=
  ⟨_, rfl, rfl⟩

theorem State.answersSpdm_challenge : s.AnswersSpdm mgmt (.challenge mgmt slot) (s.challengeReply slot) := ⟨_, rfl, rfl⟩

theorem State.answersSpdm_getMeasurements : s.AnswersSpdm mgmt (.getMeasurements mgmt indices) (s.measure indices) := ⟨_, rfl, rfl⟩

theorem State.measure_of_good (hready : s.sec.attestReady = true) (hall : ∀ n ∈ indices, 1 ≤ n ∧ n ≤ 8) : s.measure indices =
    .measurements (indices.map fun n => (n, s.measurement n)) (s.attestSignature ((indices.map fun n => (n, s.measurement n)).flatMap (·.2))) := by
  refine if_pos ?_
  rw [hready, Bool.true_and, List.all_eq_true]
  intro n hn
  rw [Bool.and_eq_true, decide_eq_true_eq, decide_eq_true_eq]
  exact hall n hn

theorem State.measure_of_bad (h : s.sec.attestReady = false ∨ ∃ n ∈ indices, n < 1 ∨ 8 < n) : s.measure indices = .error .unstated := by
  refine if_neg ?_
  rw [Bool.and_eq_true, List.all_eq_true]
  rintro ⟨hready, hall⟩
  rcases h with h | ⟨n, hn, hout⟩
  · exact absurd (hready.symm.trans h) (by decide)
  · have hin := hall n hn
    rw [Bool.and_eq_true, decide_eq_true_eq, decide_eq_true_eq] at hin
    omega

/-! ## The measurements -/

theorem givenMeasurement_length {of : Option (Bool × Option (List Byte))} : (givenMeasurement n of).length = 48 := by
  rw [givenMeasurement, List.length_map, List.length_range]

theorem State.loadedDigest_length : s.loadedDigest.length = 48 := by
  rw [State.loadedDigest]
  split
  · exact sha384_length _
  · exact sha384_length _
  · exact givenMeasurement_length

theorem State.measurement_seven : s.measurement 7 = s.loadedDigest := rfl

theorem State.measurement_of_package (hrom : n ≠ 1) (himage : n ≠ 7) (hboot : n ≠ 8) :
    s.measurement n = givenMeasurement n (some (s.sec.bank, (s.bankOf s.sec.bank).data)) := by
  rw [State.measurement, if_neg hboot, if_neg himage, if_neg hrom]

theorem State.measurement_length (h : n ≠ 8) : (s.measurement n).length = 48 := by
  by_cases himage : n = 7
  · rw [himage, State.measurement_seven, State.loadedDigest_length]
  · by_cases hrom : n = 1
    · subst hrom
      exact givenMeasurement_length
    · rw [State.measurement_of_package hrom himage h, givenMeasurement_length]

theorem State.bootState_eq : s.bootState = leBytes 4 ((if s.sec.bank then 1 else 0) + (if s.sec.fwFallback then 2 else 0) +
    (if s.cal.calBad then 4 else 0) + (if s.rst.retired then 8 else 0)) := by
  have hscaled : ∀ (k : Nat) (b : Bool), k * b2n b = if b then k else 0 := fun k b => by cases b <;> simp [b2n]
  rw [State.bootState, hscaled, hscaled, hscaled, b2n]

end

/-- Settles O56: who is heard does not depend on the request, and what is answered not on the way it came. -/
theorem attestationOverSpdm : Obligations.AttestationOverSpdm := by
  unfold Obligations.AttestationOverSpdm
  refine ⟨?answers, ?measurements, ?lengths⟩
  case answers =>
    intro s i mgmt slot offset len indices r held ms dig hreply
    have hans : s.AnswersSpdm mgmt i r := by
      rcases hreply with h | ⟨hheld, h⟩ | ⟨hheld, h⟩ | ⟨hready, hall, h⟩ | ⟨hbad, h⟩
      · exact State.answersSpdm_open h
      · have hslot : s.certSlot slot = true := State.certSlot_iff.2 hheld
        simp only [List.mem_cons, List.not_mem_nil, or_false, Prod.mk.injEq] at h
        rcases h with ⟨rfl, rfl⟩ | ⟨rfl, rfl⟩
        · have hcert := State.answersSpdm_getCertificate (s := s) (mgmt := mgmt) (slot := slot) (offset := offset) (len := len)
          rwa [State.getCertificate, if_pos hslot] at hcert
        · have hchal := State.answersSpdm_challenge (s := s) (mgmt := mgmt) (slot := slot)
          rwa [State.challengeReply, if_pos hslot] at hchal
      · have hslot : ¬ s.certSlot slot = true := mt State.certSlot_iff.1 hheld
        simp only [List.mem_cons, List.not_mem_nil, or_false, Prod.mk.injEq] at h
        rcases h with ⟨rfl, rfl⟩ | ⟨rfl, rfl⟩
        · have hcert := State.answersSpdm_getCertificate (s := s) (mgmt := mgmt) (slot := slot) (offset := offset) (len := len)
          rwa [State.getCertificate, if_neg hslot] at hcert
        · have hchal := State.answersSpdm_challenge (s := s) (mgmt := mgmt) (slot := slot)
          rwa [State.challengeReply, if_neg hslot] at hchal
      · obtain ⟨rfl, rfl⟩ := Prod.mk.injEq .. ▸ h
        exact State.measure_of_good hready hall ▸ State.answersSpdm_getMeasurements
      · obtain ⟨rfl, rfl⟩ := Prod.mk.injEq .. ▸ h
        exact State.measure_of_bad hbad ▸ State.answersSpdm_getMeasurements
    exact ⟨hans.heard, hans.unheard⟩
  case measurements =>
    refine fun s => ⟨State.bootState_eq, fun b hb => ?_, fun hfactory => ?_, rfl, fun n hrom himage hboot => ?_,
      fun n => State.measurement_length⟩
    · rw [State.measurement_seven, State.loadedDigest, hb]
    · rw [State.measurement_seven, State.loadedDigest, hfactory]
    · exact State.measurement_of_package hrom himage hboot
  case lengths =>
    refine fun s bs => ⟨?_, ?_, sha384_length bs⟩
    · rw [State.signature, List.length_map, List.length_range]
    · rw [State.attestSignature, List.length_map, List.length_range]

end Sys2Proof.Machine


/-! The vendor requests over SVC (14_identity_service.md R388, R392, R394; 13_reset_health.md R365; 15_power_bringup.md R402). -/

namespace Sys2Proof.Machine

/-! ## Packets (R392) -/

section
variable {b : List Byte} {n off len : Nat}

theorem slice_of_inside (h : off + len ≤ b.length) : slice b off len = (b.drop off).take len := by
  have hlen : ((b.drop off).take len).length = len := by rw [List.length_take, List.length_drop]; omega
  simp [slice, hlen]

theorem slice_drop {k : Nat} : slice (b.drop k) off len = slice b (k + off) len := by
  rw [slice, List.drop_drop, slice]

theorem packetsOf_succ : packetsOf b (n + 1) = slice b 0 512 :: packetsOf (b.drop 512) n := by
  rw [packetsOf, List.range_succ_eq_map, List.map_cons, List.map_map, packetsOf]
  refine congrArg _ (List.map_congr_left fun i _ => ?_)
  rw [slice_drop, Function.comp_apply, Nat.mul_succ, Nat.add_comm 512]

theorem packetsOf_length : (packetsOf b n).length = n := by rw [packetsOf, List.length_map, List.length_range]

theorem packetsOf_flatten (h : b.length = 512 * n) : (packetsOf b n).flatten = b := by
  induction n generalizing b with
  | zero => exact (List.length_eq_zero_iff.1 h).symm
  | succ n ih =>
    rw [packetsOf_succ, List.flatten_cons, ih (by rw [List.length_drop]; omega), slice_of_inside (by omega), List.drop_zero, List.take_append_drop]

theorem length_of_mem_packetsOf {p : List Byte} (h : p ∈ packetsOf b n) : p.length = 512 := by
  obtain ⟨i, -, rfl⟩ := List.mem_map.1 h
  exact slice_length ..

end

section
variable {s : State} {code slot offset len : Nat} {value : BitVec 16} {r : State → PortReply} {f : State → State × Byte}

/-! ## Readings -/

theorem exec_getLast : exec .getLast s = .next (s.svcIn fun s => .data s.lastBytes) := rfl
theorem exec_getIdentity : exec .getIdentity s = .next (s.svcIn fun s => .data s.identity) := rfl
theorem exec_getHealth : exec .getHealth s = .next (s.svcIn fun s => .data s.healthBytes) := rfl
theorem exec_getEsc : exec .getEsc s = .next (s.svcIn fun s => .data s.escBytes) := rfl
theorem exec_getCert : exec (.getCert slot offset len) s = .next (s.svcIn fun s => replyOf (s.certReply slot offset len)) := rfl

theorem State.svcIn_of_free (hon : s.pwr.auxOn = true) (hfree : s.islandBusy = false) :
    s.svcIn r = { s with svc := { s.svc with reply := r s } } := State.svcRun_of_free hon hfree

theorem State.svcIn_of_off (h : s.pwr.auxOn = false ∨ s.islandBusy = true) : s.svcIn r = s := State.svcRun_of_off h

theorem State.lastBytes_eq : s.lastBytes = [s.svc.lastStatus, s.svc.lastRequest, 0, 0] := by
  have hst := s.svc.lastStatus.isLt
  have hreq := s.svc.lastRequest.isLt
  have hbyte : ∀ (x : Nat) (b : Byte), x % 256 = b.toNat → BitVec.ofNat 8 x = b := fun x b h =>
    BitVec.eq_of_toNat_eq (by rwa [BitVec.toNat_ofNat])
  rw [State.lastBytes, leBytes, leBytes, leBytes, leBytes, leBytes, hbyte _ s.svc.lastStatus (by omega), hbyte _ s.svc.lastRequest (by omega),
    hbyte _ 0 (show _ % 256 = 0 by omega), hbyte _ 0 (show _ % 256 = 0 by omega)]

theorem State.certReply_of_held (h : slot = 0 ∨ (slot = 1 ∧ s.sec.attestReady = true)) :
    s.certReply slot offset len = some (((s.chain slot).drop (512 * offset)).take (min 4096 len)) := if_pos (State.certSlot_iff.2 h)

theorem State.certReply_of_other (h : 2 ≤ slot ∨ (slot = 1 ∧ s.sec.attestReady = false)) : s.certReply slot offset len = none := by
  refine if_neg (mt State.certSlot_iff.1 ?_)
  rintro (hslot | ⟨hslot, hready⟩)
  · omega
  · rcases h with h | ⟨-, h⟩
    · omega
    · exact absurd (hready.symm.trans h) (by decide)

theorem State.identity_length : s.identity.length = 64 := by
  simp only [State.identity, List.length_append, leBytes_length, List.length_replicate]

theorem flatMap_leBytes_length {α : Type} (g : α → Nat) (l : List α) : (l.flatMap fun a => leBytes 4 (g a)).length = 4 * l.length := by
  rw [List.length_flatMap, List.map_congr_left fun a _ => leBytes_length 4 (g a), List.map_const', List.sum_replicate, smul_eq_mul, Nat.mul_comm]

theorem State.healthBytes_length : s.healthBytes.length = 212 := by
  simp only [State.healthBytes, List.length_append, leBytes_length, flatMap_leBytes_length, Vector.length_toList]

theorem State.escBytes_length : s.escBytes.length = 72 := by
  simp only [State.escBytes, List.length_append, leBytes_length, flatMap_leBytes_length, List.length_range]

/-! ## Requests with an outcome -/

theorem exec_streamOut : exec (.streamOut value) s = .next (s.svcOut 0x10 fun s => s.startStream value) := rfl
theorem exec_locate : exec (.locate value) s = .next (s.svcOut 0x20 fun s => s.setLocate value) := rfl
theorem exec_svcSystemReset : exec (.svcSystemReset value) s = .next (s.svcKeyed 0x21 value fun s => (s.systemStart 0x0A 0 false, stOk)) := rfl
theorem exec_svcPowerOn : exec (.svcPowerOn value) s = .next (s.svcKeyed 0x22 value fun s =>
    ({ s.powerRequest 0x0A with svc := { (s.powerRequest 0x0A).svc with askedPower := true } }, stOk)) := rfl
theorem exec_clearRetirement : exec (.clearRetirement value) s = .next (s.svcKeyed 0x23 value fun s => s.clearRetirement) := rfl
theorem exec_svcEscClear : exec (.svcEscClear value) s = .next (s.svcKeyed 0x24 value fun s => (s.emptyStamps, stOk)) := rfl

theorem State.svcOut_of_free (hon : s.pwr.auxOn = true) (hfree : s.islandBusy = false) : s.svcOut code f = (f s).1.svcLast code (f s).2 :=
  State.svcRun_of_free hon hfree

theorem State.svcOut_of_off (h : s.pwr.auxOn = false ∨ s.islandBusy = true) : s.svcOut code f = s := State.svcRun_of_off h

theorem State.svcKeyed_of_wrong (hon : s.pwr.auxOn = true) (hfree : s.islandBusy = false) (h : value ≠ 0x6480) :
    s.svcKeyed code value f =
      { s with svc := { s.svc with lastStatus := stBad, lastRequest := BitVec.ofNat 8 code, reply := .stall } } := by
  rw [State.svcKeyed_of_other h, State.svcRun_of_free hon hfree]
  rfl

theorem State.startStream_of_other (h : 2 ≤ value.toNat) : s.startStream value = (s, stBad) := by
  unfold State.startStream
  split
  · omega
  · omega
  · rfl

theorem State.setLocate_of_other (h : 2 ≤ value.toNat) : s.setLocate value = (s, stBad) := if_neg (by omega)

/-! ## Power and retirement -/

theorem State.powerRequest_of_free {cause : Nat} (h : s.pwr.hold = .none) : s.powerRequest cause = s.systemStart cause 0 false := by
  rw [State.powerRequest, h]

theorem State.powerRequest_of_rail {cause : Nat} (h : s.pwr.hold = .rail) :
    s.powerRequest cause = { s with pwr := { s.pwr with onAsked := some (BitVec.ofNat 8 cause) } } := by
  rw [State.powerRequest, h]

theorem State.powerRequest_of_trip {cause : Nat} (h : s.pwr.hold = .trip) : s.powerRequest cause = s := by
  rw [State.powerRequest, h]

theorem State.clearRetirement_of_unretired (h : s.rst.retired = false) : s.clearRetirement = (s, stBad) := by
  rw [State.clearRetirement, h, Bool.not_false, if_pos rfl]

theorem State.clearRetirement_of_absent (h : s.rst.retired = true) (hout : s.svc.presence = false) : s.clearRetirement = (s, stFenced) := by
  rw [State.clearRetirement, h, Bool.not_true, if_neg Bool.false_ne_true, hout, Bool.not_false, if_pos rfl]

/-- The record emptied, GEN stepped, retirement cleared. -/
def State.unretired (s : State) : State :=
  { s with rst := { s.rst with stamps := [], retired := false }, lnk := { s.lnk with gen := s.lnk.gen + 1 } }

theorem State.clearRetirement_of_present (h : s.rst.retired = true) (hin : s.svc.presence = true) :
    s.clearRetirement = (s.unretired.systemStart 0x0A 0 false, stOk) := by
  rw [State.clearRetirement, h, Bool.not_true, if_neg Bool.false_ne_true, hin, Bool.not_true, if_neg Bool.false_ne_true]
  rfl

theorem State.caused_stamps {cause detail : Nat} (h : s.rst.escMask.getLsbD cause = false) :
    (s.caused cause detail false).rst.stamps = s.rst.stamps := by
  rw [State.caused, State.escalate_of_uncounted rfl (State.causeCounted_eq_false (Or.inr (Or.inr h)))]

theorem State.systemClear_anew_stamps : s.systemClear.anew.rst.stamps = s.rst.stamps := rfl

/-- A reset whose cause the mask does not name leaves the escalation record as it is. -/
theorem State.systemStart_stamps {cause detail : Nat} (h : s.rst.escMask.getLsbD cause = false) :
    (s.systemStart cause detail false).rst.stamps = s.rst.stamps := by
  by_cases hpower : s.pwr.mainOn = true ∧ s.pwr.hold = .none
  · obtain ⟨host, free, lnk, evr, hstart, -⟩ :=
      State.systemStart_of_powered (cause := cause) (detail := detail) (counted := false) hpower.1 hpower.2
    have hkept := State.caused_stamps (detail := detail) h
    rw [hstart]
    generalize s.caused cause detail false = u at hkept
    exact (State.systemClear_anew_stamps (s := u)).trans hkept
  · rw [State.systemStart_of_unpowered (by rwa [not_and_or, Bool.not_eq_true] at hpower), State.caused_stamps h]

/-- What a system reset with a cause leaves whether the module has power or not. -/
theorem State.systemStart_record {cause detail : Nat} {counted : Bool} :
    (s.systemStart cause detail counted).rst.cause = BitVec.ofNat 8 cause ∧ (s.systemStart cause detail counted).rst.retired = s.rst.retired := by
  by_cases hpower : s.pwr.mainOn = true ∧ s.pwr.hold = .none
  · obtain ⟨stamps, after, host, free, lnk, evr, hstart, -⟩ :=
      State.systemStart_frame (cause := cause) (detail := detail) (counted := counted) hpower.1 hpower.2
    rw [hstart]
    exact ⟨rfl, rfl⟩
  · obtain ⟨stamps, after, hcaused⟩ := s.caused_frame (cause := cause) (detail := detail) (counted := counted)
    rw [State.systemStart_of_unpowered (by rwa [not_and_or, Bool.not_eq_true] at hpower), hcaused]
    exact ⟨rfl, rfl⟩

theorem State.systemStart_reset {cause detail : Nat} {counted : Bool} (hon : s.pwr.mainOn = true) (hfree : s.pwr.hold = .none) :
    (s.systemStart cause detail counted).rst.inReset = some true ∧ (s.systemStart cause detail counted).hub.ready = false ∧
      (s.systemStart cause detail counted).lnk.gen = s.lnk.gen + 1 ∧ ∀ c, (s.systemStart cause detail counted).ctx? c = none := by
  obtain ⟨stamps, after, host, free, lnk, evr, hstart, hgen, -⟩ :=
    State.systemStart_frame (cause := cause) (detail := detail) (counted := counted) hon hfree
  rw [hstart]
  exact ⟨rfl, rfl, hgen, fun c => State.ctx?_of_none rfl⟩

theorem State.systemStart_spared {cause detail : Nat} {counted : Bool} (h : s.pwr.mainOn = false ∨ s.pwr.hold ≠ .none) :
    (s.systemStart cause detail counted).ctxs = s.ctxs ∧ (s.systemStart cause detail counted).lnk = s.lnk ∧
      (s.systemStart cause detail counted).hub = s.hub := by
  obtain ⟨stamps, after, hcaused⟩ := s.caused_frame (cause := cause) (detail := detail) (counted := counted)
  rw [State.systemStart_of_unpowered h, hcaused]
  exact ⟨rfl, rfl, rfl⟩

end

/-- Settles O57: each request by its turn, its key and its act; what a reset leaves is said of the reset. -/
theorem servicePortRequests : Obligations.ServicePortRequests := by
  unfold Obligations.ServicePortRequests
  refine ⟨?off, fun s hon hfree => ?readings, fun s => ⟨State.identity_length, State.healthBytes_length, State.escBytes_length⟩, ?acts,
    fun b n hlen => ⟨packetsOf_length, packetsOf_flatten hlen, fun p hp => length_of_mem_packetsOf hp⟩⟩
  case off =>
    intro s i n m k v hi hoff
    simp only [List.mem_cons, List.not_mem_nil, or_false] at hi
    rcases hi with rfl | rfl | rfl | rfl | rfl | rfl | rfl | rfl | rfl | rfl | rfl
    · rw [exec_getLast, State.svcIn_of_off hoff]
    · rw [exec_getIdentity, State.svcIn_of_off hoff]
    · rw [exec_getCert, State.svcIn_of_off hoff]
    · rw [exec_getHealth, State.svcIn_of_off hoff]
    · rw [exec_getEsc, State.svcIn_of_off hoff]
    · rw [exec_streamOut, State.svcOut_of_off hoff]
    · rw [exec_locate, State.svcOut_of_off hoff]
    · rw [exec_svcSystemReset, State.svcKeyed_of_off hoff]
    · rw [exec_svcPowerOn, State.svcKeyed_of_off hoff]
    · rw [exec_clearRetirement, State.svcKeyed_of_off hoff]
    · rw [exec_svcEscClear, State.svcKeyed_of_off hoff]
  case readings =>
    refine ⟨?_, ?_, ?_, ?_, fun slot offset len h => ?_, fun slot offset len h => ?_⟩
    · rw [exec_getLast, State.svcIn_of_free hon hfree, State.lastBytes_eq]
    · rw [exec_getIdentity, State.svcIn_of_free hon hfree]
    · rw [exec_getHealth, State.svcIn_of_free hon hfree]
    · rw [exec_getEsc, State.svcIn_of_free hon hfree]
    · rw [exec_getCert, State.svcIn_of_free hon hfree, State.certReply_of_held h, replyOf]
    · rw [exec_getCert, State.svcIn_of_free hon hfree, State.certReply_of_other h, replyOf]
  case acts =>
    intro s hon hfree kept
    have hout : ∀ (code : Nat) (f : State → State × Byte), s.svcOut code f = (f s).1.svcLast code (f s).2 := fun _ _ =>
      State.svcOut_of_free hon hfree
    simp only [exec_streamOut, exec_locate, exec_svcSystemReset, exec_svcPowerOn, exec_clearRetirement, exec_svcEscClear, State.svcKeyed_of_key, hout]
    refine ⟨rfl, rfl, fun v hv => ⟨?_, ?_⟩, rfl, rfl, ?wrong, rfl, ⟨_, rfl, ?reset⟩, ⟨_, rfl, ?power⟩, fun h => ?_, fun h habsent => ?_,
      fun h hpresent => ⟨_, rfl, ?retirement⟩⟩
    · rw [State.startStream_of_other hv]; rfl
    · rw [State.setLocate_of_other hv]; rfl
    case wrong =>
      intro i code v hi hv
      simp only [List.mem_cons, Prod.mk.injEq, List.not_mem_nil, or_false] at hi
      have hwrong : ∀ (code : Nat) (f : State → State × Byte), s.svcKeyed code v f = _ := fun _ _ => State.svcKeyed_of_wrong hon hfree hv
      rcases hi with ⟨rfl, rfl⟩ | ⟨rfl, rfl⟩ | ⟨rfl, rfl⟩ | ⟨rfl, rfl⟩
      · rw [exec_svcSystemReset, hwrong]; rfl
      · rw [exec_svcPowerOn, hwrong]; rfl
      · rw [exec_clearRetirement, hwrong]; rfl
      · rw [exec_svcEscClear, hwrong]; rfl
    case reset =>
      obtain ⟨hcause, hretired⟩ := State.systemStart_record (s := s) (cause := 0x0A) (detail := 0) (counted := false)
      exact ⟨hcause, rfl, rfl, hretired, fun hmain hhold => State.systemStart_reset hmain hhold, fun h => State.systemStart_spared h⟩
    case power =>
      refine ⟨rfl, rfl, rfl, fun hhold => ?_, fun hhold => ?_, fun hhold => ?_⟩
      · obtain ⟨hcause, -⟩ := State.systemStart_record (s := s) (cause := 0x0A) (detail := 0) (counted := false)
        rw [State.powerRequest_of_free hhold]
        refine ⟨hcause, fun hmain => ?_⟩
        obtain ⟨hreset, hready, hgen, -⟩ := State.systemStart_reset (cause := 0x0A) (detail := 0) (counted := false) hmain hhold
        exact ⟨hreset, hready, hgen⟩
      · rw [State.powerRequest_of_rail hhold]; rfl
      · rw [State.powerRequest_of_trip hhold]; rfl
    · rw [State.clearRetirement_of_unretired h]; rfl
    · rw [State.clearRetirement_of_absent h habsent]; rfl
    case retirement =>
      obtain ⟨hcause, hretired⟩ := State.systemStart_record (s := s.unretired) (cause := 0x0A) (detail := 0) (counted := false)
      rw [State.clearRetirement_of_present h hpresent]
      refine ⟨hretired, hcause, rfl, rfl, fun hmask => State.systemStart_stamps (s := s.unretired) hmask, fun hmain hhold => ?_, fun hoff => ?_⟩
      · obtain ⟨hreset, hready, hgen, -⟩ :=
          State.systemStart_reset (s := s.unretired) (cause := 0x0A) (detail := 0) (counted := false) hmain hhold
        exact ⟨hreset, hgen.trans (add_assoc ..), hready⟩
      · obtain ⟨hctxs, hlnk, -⟩ := State.systemStart_spared (s := s.unretired) (cause := 0x0A) (detail := 0) (counted := false) hoff
        exact ⟨congrArg Lnk.gen hlnk, hctxs⟩

end Sys2Proof.Machine


/-! The attention button, the USB port and the management connector (14_identity_service.md R388 to R395, R400; 15_power_bringup.md R402, R413). -/

namespace Sys2Proof.Machine

section
variable {s : State} {on : Bool}

/-! ## The button and the drain (R389, R390) -/

theorem exec_attnShortPress : exec .attnShortPress s = .next s.shortPress := rfl
theorem exec_presenceWindowExpiry : exec .presenceWindowExpiry s = .next { s with svc := { s.svc with presence := false } } := rfl
theorem exec_drained : exec .drained s = .next s.drainedWrite := rfl
theorem exec_cancelRequest : exec .cancelRequest s = .next s.cancelRequest := rfl

/-- A short press is counted and opens the presence window. -/
def State.pressed (s : State) : State := { s with svc := { s.svc with shortPresses := satInc s.svc.shortPresses, presence := true } }

theorem State.shortPress_eq : s.shortPress =
    if s.rst.retired then s.pressed
    else if s.svc.request || s.svc.drained then
      State.raise { s.pressed with svc := { s.pressed.svc with request := false, drained := false } } 0xE0 0 (leBytes 4 0)
    else State.raise { s.pressed with svc := { s.pressed.svc with request := true } } 0xE0 0 (leBytes 4 1) := rfl

theorem filter_toList_length_eq_zero_iff {α : Type} {n : Nat} {v : Vector α n} {p : α → Bool} :
    (v.toList.filter p).length = 0 ↔ ∀ i : Fin n, p (vget v i) = false := by
  rw [List.length_eq_zero_iff, List.filter_eq_nil_iff]
  constructor
  · exact fun h i => Bool.eq_false_iff.2 (h _ (List.mem_iff_getElem.2 ⟨i.val, by simp, Vector.getElem_toList _⟩))
  · intro h a ha
    obtain ⟨i, hi, rfl⟩ := List.mem_iff_getElem.1 ha
    rw [Vector.getElem_toList]
    exact Bool.eq_false_iff.1 (h ⟨i, by simpa using hi⟩)

theorem State.ctxCount_eq_zero_iff : s.ctxCount = 0 ↔ ∀ c, s.ctx? c = none := by
  rw [State.ctxCount, List.length_eq_zero_iff, List.eq_nil_iff_forall_not_mem]
  refine ⟨fun h c => Option.eq_none_iff_forall_ne_some.2 fun x hx => h (c, x) (State.mem_contexts.2 hx), fun h e he => ?_⟩
  rw [State.mem_contexts, h] at he
  cases he

theorem State.groupsIn_eq_zero_iff {st : BitVec 2} : s.groupsIn st = 0 ↔ ∀ g, (s.group g).state ≠ st := by
  rw [State.groupsIn, filter_toList_length_eq_zero_iff]
  exact forall_congr' fun g => beq_eq_false_iff_ne

theorem State.snapsLive_eq_zero_iff : s.snapsLive = 0 ↔ ∀ n, (s.snap n).state ≠ 1 ∧ (s.snap n).state ≠ 2 := by
  rw [State.snapsLive, filter_toList_length_eq_zero_iff]
  refine forall_congr' fun n => ?_
  rw [← not_or, ← SnapSlot.live_iff, Bool.not_eq_true]
  rfl

theorem State.drainedWrite_of_empty (hctx : ∀ c, s.ctx? c = none) (hgroup : ∀ g, (s.group g).state ≠ 1)
    (hsnap : ∀ n, (s.snap n).state ≠ 1 ∧ (s.snap n).state ≠ 2) :
    s.drainedWrite = { s with svc := { s.svc with drained := true, drainRefused := false } } := by
  rw [State.drainedWrite, State.ctxCount_eq_zero_iff.2 hctx, State.groupsIn_eq_zero_iff.2 hgroup, State.snapsLive_eq_zero_iff.2 hsnap]
  rfl

theorem State.drainedWrite_of_used
    (h : (∃ c x, s.ctx? c = some x) ∨ (∃ g, (s.group g).state = 1) ∨ (∃ n, (s.snap n).state = 1 ∨ (s.snap n).state = 2)) :
    s.drainedWrite = { s with svc := { s.svc with drainRefused := true } } := by
  refine if_neg ?_
  rw [Bool.and_eq_true, Bool.and_eq_true, decide_eq_true_eq, decide_eq_true_eq, decide_eq_true_eq, State.ctxCount_eq_zero_iff,
    State.groupsIn_eq_zero_iff, State.snapsLive_eq_zero_iff]
  rintro ⟨⟨hctx, hgroup⟩, hsnap⟩
  rcases h with ⟨c, x, hx⟩ | ⟨g, hg⟩ | ⟨n, hn⟩
  · rw [hctx c] at hx
    cases hx
  · exact hgroup g hg
  · exact hn.elim (hsnap n).1 (hsnap n).2

/-! ## The USB port (R392, R393, R400) -/

theorem exec_usbAttach : exec (.usbAttach on) s = .next (s.usbAttach on) := rfl

theorem exec_usbConfigured : exec .usbConfigured s =
    .next (State.raise { s with svc := { s.svc with attached := true, usbConfigured := true } } 0xE3 0 (leBytes 4 1)) := rfl

theorem State.endStream_eq : s.endStream = { s with
    svc := { s.svc with stream := none, bulk := [] }, cal := { s.cal with state := if s.cal.state = 1 then 0 else s.cal.state } } := by
  rw [State.endStream]
  simp only [beq_iff_eq]

theorem exec_usbBusReset : exec .usbBusReset s = .next { s.endStream with
    svc := { s.endStream.svc with chunks := Vector.replicate 4 none, usbConfigured := false } } := rfl

theorem State.usbAttach_off : s.usbAttach false =
    if s.svc.attached then
      State.raise { s.endStream with svc := { s.endStream.svc with attached := false, usbConfigured := false } } 0xE3 0 (leBytes 4 0)
    else { s.endStream with svc := { s.endStream.svc with attached := false, usbConfigured := false } } := rfl

end

section
variable {s : State} {code value index : BitVec 16} {va vb id : Nat} {f : State → State}

/-! ## MGMT (R395) -/

theorem exec_mgmtVendorRequest :
    exec (.mgmtVendorRequest code value index va vb) s = .next (s.svcRun fun s => s.mgmtRequest code value index va vb) := rfl
theorem exec_mgmtPowerOn : exec (.mgmtPowerOn va vb) s = .next (s.svcRun fun s => s.mgmtPower va vb) := rfl
theorem exec_mctpControl : exec .mctpControl s = .next (s.svcRun fun s => { s with svc := { s.svc with mgmtReply := .control } }) := rfl
theorem exec_pldmSensorRead :
    exec (.pldmSensorRead id) s = .next (s.svcRun fun s => { s with svc := { s.svc with mgmtReply := .sensor (s.sensor id) } }) := rfl

theorem State.mgmtKeyed_of_key : s.mgmtKeyed 0x6480 f = (f s).mgmtAnswer stOk [] := if_pos (by decide)

theorem State.mgmtKeyed_of_other (h : value ≠ 0x6480) : s.mgmtKeyed value f = s.mgmtAnswer stBad [] := if_neg (mt beq_iff_eq.1 h)

/-! The codes of Table 14.7. -/

theorem State.mgmtRequest_getLast : s.mgmtRequest 0x01 value index va vb = s.mgmtAnswer stOk s.lastBytes := rfl
theorem State.mgmtRequest_getIdentity : s.mgmtRequest 0x02 value index va vb = s.mgmtAnswer stOk s.identity := rfl
theorem State.mgmtRequest_getCert :
    s.mgmtRequest 0x03 value index va vb = s.mgmtIn (s.certReply value.toNat index.toNat 4096) := rfl
theorem State.mgmtRequest_getHealth : s.mgmtRequest 0x04 value index va vb = s.mgmtAnswer stOk s.healthBytes := rfl
theorem State.mgmtRequest_getEsc : s.mgmtRequest 0x05 value index va vb = s.mgmtAnswer stOk s.escBytes := rfl
theorem State.mgmtRequest_locate :
    s.mgmtRequest 0x20 value index va vb = (s.setLocate value).1.mgmtAnswer (s.setLocate value).2 [] := rfl
theorem State.mgmtRequest_systemReset :
    s.mgmtRequest 0x21 value index va vb = s.mgmtKeyed value fun s => s.systemStart 0x0C 0 false := rfl
theorem State.mgmtRequest_powerOn : s.mgmtRequest 0x22 value index va vb = s.mgmtKeyed value fun s => s.mgmtPower va vb := rfl
theorem State.mgmtRequest_escClear : s.mgmtRequest 0x24 value index va vb = s.mgmtKeyed value fun s => s.emptyStamps := rfl

theorem State.mgmtRequest_of_unknown (h : code ∉ [(0x01 : BitVec 16), 0x02, 0x03, 0x04, 0x05, 0x20, 0x21, 0x22, 0x24]) :
    s.mgmtRequest code value index va vb = s.mgmtAnswer stBad [] := by
  have hcode : ∀ k : BitVec 16, k ∈ [(0x01 : BitVec 16), 0x02, 0x03, 0x04, 0x05, 0x20, 0x21, 0x22, 0x24] → code.toNat ≠ k.toNat :=
    fun k hk he => h (BitVec.eq_of_toNat_eq he ▸ hk)
  have hother : ∀ n ∈ [0x01, 0x02, 0x03, 0x04, 0x05, 0x20, 0x21, 0x22, 0x24], code.toNat ≠ n := by
    simpa using hcode
  unfold State.mgmtRequest
  split
  case h_10 => rfl
  all_goals rename_i heq; exact absurd heq (hother _ (by decide))

theorem State.setLocate_of_good (h : value.toNat < 2) :
    s.setLocate value = ({ s with svc := { s.svc with locate := decide (value.toNat = 1) } }, stOk) := by
  have hone : (value == 1) = decide (value.toNat = 1) := by
    rw [Bool.eq_iff_iff, beq_iff_eq, decide_eq_true_eq]
    exact ⟨fun h => h ▸ rfl, fun h => BitVec.eq_of_toNat_eq h⟩
  rw [State.setLocate, if_pos h, hone]

/-! ## The power-on request over MGMT (R402) -/

/-- A power-on request that both clips let through: the switch is closed and the hold over. -/
def State.switched (s : State) (va vb : Nat) : State :=
  { s.clips va vb with pwr := { (s.clips va vb).pwr with mainOn := true, hold := .none, onAsked := none } }

/-- After a system reset with the feeds on clips change nothing but what they read. -/
theorem State.mgmtPower_of_on (hhold : s.pwr.hold = .none) (hon : s.pwr.mainOn = true) :
    s.mgmtPower va vb = s.systemStart 0x0C 0 false ∨ s.mgmtPower va vb = (s.systemStart 0x0C 0 false).clips va vb := by
  rw [State.mgmtPower, State.powerRequest_of_free hhold]
  by_cases hin : (5000 ≤ va ∧ va ≤ 5800) ∧ (5000 ≤ vb ∧ vb ≤ 5800)
  · obtain ⟨stamps, after, host, free, lnk, evr, hstart, -⟩ :=
      State.systemStart_frame (cause := 0x0C) (detail := 0) (counted := false) hon hhold
    have hpower : (s.systemStart 0x0C 0 false).pwr.hold = .none ∧ (s.systemStart 0x0C 0 false).pwr.mainOn = true := by
      rw [hstart]
      exact ⟨hhold, hon⟩
    exact Or.inr (State.mainInRange_of_started hin.1 hin.2 hpower.1 (Or.inr hpower.2))
  · exact Or.inl (State.mainInRange_of_out (by omega))

theorem State.mgmtPower_of_rail (hhold : s.pwr.hold = .rail) :
    s.mgmtPower va vb = State.mainInRange { s with pwr := { s.pwr with onAsked := some 0x0C } } va vb := by
  rw [State.mgmtPower, State.powerRequest_of_rail hhold]
  rfl

theorem State.mgmtPower_ends (hhold : s.pwr.hold = .rail) (ha : 5000 ≤ va ∧ va ≤ 5800) (hb : 5000 ≤ vb ∧ vb ≤ 5800) :
    s.mgmtPower va vb = (s.switched va vb).systemStart 0x0C 0 false := by
  rw [State.mgmtPower_of_rail hhold]
  exact State.mainInRange_of_asked (s := { s with pwr := { s.pwr with onAsked := some 0x0C } }) ha hb hhold rfl

theorem State.mgmtPower_of_trip (hhold : s.pwr.hold = .trip) : s.mgmtPower va vb = s ∨ s.mgmtPower va vb = s.clips va vb := by
  rw [State.mgmtPower, State.powerRequest_of_trip hhold]
  by_cases hin : (5000 ≤ va ∧ va ≤ 5800) ∧ (5000 ≤ vb ∧ vb ≤ 5800)
  · exact Or.inr (State.mainInRange_of_held hin.1 hin.2 (Or.inl hhold))
  · exact Or.inl (State.mainInRange_of_out (by omega))

/-! ## Sensors (R413) -/

theorem State.sensor_die {i : Fin 64} : s.sensor (i.val + 1) = some (vget s.pwr.temps i) := by
  have hi : Fin.ofNat 64 (i.val + 1 - 1) = i := Fin.ofNat_val_eq_self i
  have hdie : (decide (1 ≤ i.val + 1) && decide (i.val + 1 ≤ 64)) = true := by
    rw [Bool.and_eq_true, decide_eq_true_eq, decide_eq_true_eq]
    omega
  unfold State.sensor
  rw [if_pos hdie, hi]

theorem State.sensor_of_unknown (h : id = 0 ∨ 74 < id) : s.sensor id = none := by
  have hdie : ¬ (decide (1 ≤ id) && decide (id ≤ 64)) = true := by
    rw [Bool.and_eq_true, decide_eq_true_eq, decide_eq_true_eq]
    omega
  unfold State.sensor
  rw [if_neg hdie]
  split
  case h_11 => rfl
  all_goals omega

end

/-- Settles O58: the button and the port by what they set, MGMT by its code, its key and the clips. -/
theorem buttonUsbPortAndManagement : Obligations.ButtonUsbPortAndManagement := by
  unfold Obligations.ButtonUsbPortAndManagement
  refine ⟨?press, fun s => exec_presenceWindowExpiry, fun s => ?drain, fun s => ?cancel, fun s => ?busReset,
    fun s => ⟨rfl, ?detach, exec_usbConfigured⟩,
    fun s code value index va vb id hoff => ?off, fun s value index va vb hon hfree => ?vendor, fun s va vb hon hfree => ?power,
    fun s hon hfree => ?control, fun s id v hon hfree h => ?sensor⟩
  case press =>
    intro s t
    rw [exec_attnShortPress, State.shortPress_eq]
    refine ⟨fun h => ?_, fun h hrequest hdrained => ?_, fun h hset => ?_⟩
    · rw [h, if_pos rfl]; rfl
    · rw [h, hrequest, hdrained]; rfl
    · rw [h, if_neg Bool.false_ne_true, if_pos (by rwa [Bool.or_eq_true])]; rfl
  case drain =>
    rw [exec_drained]
    exact ⟨fun hctx hgroup hsnap => congrArg _ (State.drainedWrite_of_empty hctx hgroup hsnap),
      fun h => congrArg _ (State.drainedWrite_of_used h)⟩
  case cancel =>
    rw [exec_cancelRequest]
    exact ⟨fun h => congrArg _ (if_pos h), fun h => congrArg _ (if_neg (Bool.eq_false_iff.1 h))⟩
  case busReset => rw [exec_usbBusReset, State.endStream_eq]
  case detach =>
    rw [exec_usbAttach, State.usbAttach_off, State.endStream_eq]
    exact ⟨fun h => congrArg _ (if_neg (Bool.eq_false_iff.1 h)), fun h => congrArg _ (if_pos h)⟩
  case off =>
    rw [exec_mgmtVendorRequest, exec_mgmtPowerOn, exec_mctpControl, exec_pldmSensorRead, State.svcRun_of_off hoff, State.svcRun_of_off hoff,
      State.svcRun_of_off hoff, State.svcRun_of_off hoff]
    exact ⟨rfl, rfl, rfl, rfl⟩
  case vendor =>
    intro answers
    have hrun : ∀ code value, exec (.mgmtVendorRequest code value index va vb) s = .next (s.mgmtRequest code value index va vb) := by
      intro code value
      rw [exec_mgmtVendorRequest, State.svcRun_of_free hon hfree]
    simp only [hrun]
    refine ⟨fun code d h => ?reads, fun h => ?_, fun h => ?_, fun h => ?_, fun h => ?_, fun h code hcode => ?wrong,
      ⟨_, rfl, ?reset⟩, ?_, ?_, fun code h => ?_⟩
    case reads =>
      simp only [List.mem_cons, Prod.mk.injEq, List.not_mem_nil, or_false] at h
      rcases h with ⟨rfl, rfl⟩ | ⟨rfl, rfl⟩ | ⟨rfl, rfl⟩ | ⟨rfl, rfl⟩
      · rw [State.mgmtRequest_getLast, State.lastBytes_eq]; rfl
      · rw [State.mgmtRequest_getIdentity]; rfl
      · rw [State.mgmtRequest_getHealth]; rfl
      · rw [State.mgmtRequest_getEsc]; rfl
    · rw [State.mgmtRequest_getCert, State.certReply_of_held h]; rfl
    · rw [State.mgmtRequest_getCert, State.certReply_of_other h]; rfl
    · rw [State.mgmtRequest_locate, State.setLocate_of_good h]; rfl
    · rw [State.mgmtRequest_locate, State.setLocate_of_other h]; rfl
    case wrong =>
      simp only [List.mem_cons, List.not_mem_nil, or_false] at hcode
      rcases hcode with rfl | rfl | rfl
      · rw [State.mgmtRequest_systemReset, State.mgmtKeyed_of_other h]; rfl
      · rw [State.mgmtRequest_powerOn, State.mgmtKeyed_of_other h]; rfl
      · rw [State.mgmtRequest_escClear, State.mgmtKeyed_of_other h]; rfl
    case reset =>
      rw [State.mgmtRequest_systemReset, State.mgmtKeyed_of_key]
      obtain ⟨hcause, -⟩ := State.systemStart_record (s := s) (cause := 0x0C) (detail := 0) (counted := false)
      refine ⟨hcause, rfl, fun hmain hhold => ?_⟩
      obtain ⟨hreset, hready, hgen, -⟩ := State.systemStart_reset (cause := 0x0C) (detail := 0) (counted := false) hmain hhold
      exact ⟨hreset, hready, hgen⟩
    · refine ⟨_, exec_mgmtPowerOn, ?_⟩
      rw [State.mgmtRequest_powerOn, State.mgmtKeyed_of_key, State.svcRun_of_free hon hfree]
      rfl
    · rw [State.mgmtRequest_escClear, State.mgmtKeyed_of_key]; rfl
    · rw [State.mgmtRequest_of_unknown h]; rfl
  case power =>
    rw [exec_mgmtPowerOn, State.svcRun_of_free hon hfree]
    refine ⟨_, rfl, fun hhold hmain => ?on, fun hhold ha ha' hb hb' => ?ends, fun hhold hout => ?waits, fun hhold => ?trip⟩
    case on =>
      obtain ⟨hcause, -⟩ := State.systemStart_record (s := s) (cause := 0x0C) (detail := 0) (counted := false)
      obtain ⟨hreset, hready, hgen, -⟩ := State.systemStart_reset (cause := 0x0C) (detail := 0) (counted := false) hmain hhold
      rcases State.mgmtPower_of_on (va := va) (vb := vb) hhold hmain with h | h
      · rw [h]
        exact ⟨hcause, hreset, hready, hgen⟩
      · rw [h]
        exact ⟨hcause, hreset, hready, hgen⟩
    case ends =>
      obtain ⟨stamps, after, host, free, lnk, evr, hstart, hgen, -⟩ := State.systemStart_frame (counted := false) (cause := 0x0C) (detail := 0)
        (s := s.switched va vb) rfl rfl
      rw [State.mgmtPower_ends hhold ⟨ha, ha'⟩ ⟨hb, hb'⟩, hstart]
      exact ⟨rfl, rfl, rfl, rfl, rfl, hgen⟩
    case waits => rw [State.mgmtPower_of_rail hhold, State.mainInRange_of_out hout]
    case trip =>
      rcases State.mgmtPower_of_trip (va := va) (vb := vb) hhold with h | h
      · rw [h]
        exact ⟨hhold, rfl, rfl, rfl⟩
      · rw [h]
        exact ⟨hhold, rfl, rfl, rfl⟩
  case control => rw [exec_mctpControl, State.svcRun_of_free hon hfree]
  case sensor =>
    have hsensor : s.sensor id = v := by
      rcases h with ⟨i, rfl, rfl⟩ | h | ⟨h, rfl⟩
      · exact State.sensor_die
      · simp only [List.mem_cons, Prod.mk.injEq, List.not_mem_nil, or_false] at h
        rcases h with ⟨rfl, rfl⟩ | ⟨rfl, rfl⟩ | ⟨rfl, rfl⟩ | ⟨rfl, rfl⟩ | ⟨rfl, rfl⟩ |
          ⟨rfl, rfl⟩ | ⟨rfl, rfl⟩ | ⟨rfl, rfl⟩ | ⟨rfl, rfl⟩ | ⟨rfl, rfl⟩ <;> rfl
      · exact State.sensor_of_unknown h
    rw [exec_pldmSensorRead, State.svcRun_of_free hon hfree, hsensor]

end Sys2Proof.Machine


/-! Fences, the drain of a fenced domain and block resets (13_reset_health.md R357 to R360, R371). -/

namespace Sys2Proof.Machine

section
variable {s : State} {l m : LinkId} {on : Bool} {d : FenceDomain} {works : List TimedWork} {target : BitVec 5}

theorem exec_hostFence : exec .hostFence s = .next s.hostFence := rfl
theorem exec_rstLfence : exec (.rstLfence l on) s = .next (s.linkFence l on) := rfl
theorem exec_drainExpiry : exec (.drainExpiry d works) s = .next (s.drainExpiry d works) := rfl
theorem exec_blockReset : exec (.blockReset target on) s = .next (s.blockReset target on) := rfl
theorem exec_blockResetDone : exec .blockResetDone s = .next s.blockResetDone := rfl

/-! ## Link fences (R358) -/

/-- The bits of a link's fence are clear. -/
def State.unfenced (s : State) (l : LinkId) : State :=
  { s with rst := { s.rst with lfence := setBit s.rst.lfence l.val false, lfencePend := setBit s.rst.lfencePend l.val false } }

theorem State.linkFence_of_same (h : s.rst.lfence.getLsbD l.val = on) : s.linkFence l on = s := if_pos (beq_iff_eq.2 h)

theorem State.linkFence_asked (h : s.rst.lfence.getLsbD l.val = false) : s.linkFence l true = { s with rst := { s.rst with
    lfence := setBit s.rst.lfence l.val true, lfencePend := setBit s.rst.lfencePend l.val true } } := by
  rw [State.linkFence, h]
  rfl

theorem State.linkFence_lifted (h : s.rst.lfence.getLsbD l.val = true) : s.linkFence l false =
    if s.linkOut l then
      if (s.link l).light && s.rst.blkBusy != some (true, l.val) then ((s.unfenced l).raise 0x23 l.val (leBytes 4 1)).train l false
      else (s.unfenced l).raise 0x23 l.val (leBytes 4 1)
    else s.unfenced l := by
  rw [State.linkFence, h]
  rfl

theorem State.linkOut_eq (h : s.rst.lfence.getLsbD l.val = true) : s.linkOut l = !s.rst.lfencePend.getLsbD l.val := by
  rw [State.linkOut, h, Bool.true_and]

/-! ## The drain (R357) -/

theorem State.drainExpiry_of_left (hfenced : s.domainFenced d = true) (hleft : s.drainLeft d works = true) :
    s.drainExpiry d works = (s.drainAnswer d works).raise 0x20 7 (leBytes 4 (domainIndex d)) :=
  if_pos (by rw [hfenced, hleft]; rfl)

theorem State.drainExpiry_of_quiet (h : s.domainFenced d = false ∨ s.drainLeft d works = false) : s.drainExpiry d works = s := by
  refine if_neg ?_
  rw [Bool.not_eq_true, Bool.and_eq_false_iff]
  exact h

theorem State.drainLeft_of_works (h : works ≠ []) : s.drainLeft d works = true := by
  unfold State.drainLeft
  rw [List.isEmpty_eq_false_iff.2 h]
  rfl

theorem State.drainLeft_link : s.drainLeft (.link l) works = true ↔ works ≠ [] ∨ (s.link l).queued ≠ 0 := by
  rw [State.drainLeft, Bool.or_eq_true, Bool.not_eq_true', ← Bool.not_eq_true, List.isEmpty_iff, bne_iff_ne]

theorem State.link_dropQueued : (s.dropQueued l).link l = { s.link l with control := [], queues := Vector.replicate 4 [] } :=
  State.link_modLink_same s l fun k => { k with control := [], queues := Vector.replicate 4 [] }

/-! ## The pages of a quad (R359) -/

/-- The entry names a page that stands in the quad. -/
def inQuad (q : Nat) (p : DWord) : Bool :=
  (pteState p == psResident || pteState p == psFrozen || pteState p == psTransit) && pteFrame p / dieStride / 4 == q

/-- Such an entry becomes POISONED. -/
def poisonPte (q : Nat) (p : DWord) : DWord := if inQuad q p then pteMove p psPoisoned (locSeam (pteFrame p)) else p

theorem inQuad_iff {q : Nat} {p : DWord} : inQuad q p = true ↔
    (pteState p = psResident ∨ pteState p = psFrozen ∨ pteState p = psTransit) ∧ pteFrame p / dieStride / 4 = q := by
  rw [inQuad, Bool.and_eq_true, Bool.or_eq_true, Bool.or_eq_true, beq_iff_eq, beq_iff_eq, beq_iff_eq, beq_iff_eq, or_assoc]

theorem poisonPte_of_other {q : Nat} {p : DWord} (h : pteFrame p / dieStride / 4 ≠ q) : poisonPte q p = p :=
  if_neg fun hin => h (inQuad_iff.1 hin).2

theorem poisonPte_zero {q : Nat} : poisonPte q 0 = 0 := if_neg (by rw [inQuad]; simp [pteState, bits, psResident, psFrozen, psTransit])

theorem pteState_poisonPte {q : Nat} {p : DWord} (hq : q < 6) (h : inQuad q p = true) : pteState (poisonPte q p) = psPoisoned := by
  have hframe : pteFrame p < 24 * dieStride := by
    have hplace := (inQuad_iff.1 h).2
    rw [dieStride] at hplace ⊢
    omega
  rw [poisonPte, if_pos h, pteState_pteMove (by decide) hframe]

theorem Assoc.get?_map {α : Type} {f : α → α} {pt : Assoc α} {v : Nat} :
    Assoc.get? (pt.map fun e => (e.1, f e.2)) v = (pt.get? v).map f := by
  induction pt with
  | nil => rfl
  | cons e r ih =>
    rw [List.map_cons, Assoc.get?, Assoc.get?]
    split
    · rfl
    · exact ih

theorem Assoc.getD_of_ne_none {pt : Assoc DWord} {v : Nat} (h : pt.get? v ≠ none) : pt.get? v = some (pt.getD v 0) := by
  obtain ⟨p, hp⟩ := Option.ne_none_iff_exists'.1 h
  rw [Assoc.getD_of_get? hp, hp]

theorem Context.cmd?_mapPtes {x : Context} {f : DWord → DWord} {seq : Word} : (x.mapPtes f).cmd? seq =
    (x.cmd? seq).map fun k => { k with versions := k.versions.map fun e => (e.1, f e.2) } := by
  rw [Context.cmd?, Context.mapPtes, List.find?_map, Context.cmd?]
  rfl

theorem State.poisonQuad_eq {q : Nat} : s.poisonQuad q =
    let t := ((s.zeroQuad q).mapCtxs fun x => x.mapPtes (poisonPte q)).mapHeld (poisonPte q)
    { t with
      hst := { t.hst with pageIns := t.hst.pageIns.filter fun p => p.frame / dieStride / 4 != q }, fld := t.fld.forgetQuad q } := rfl

theorem State.poisonQuad_frame {q : Nat} : ∃ ctxs mem snp, s.poisonQuad q = { s with
    ctxs := ctxs, mem := mem, snp := snp, hst := { s.hst with pageIns := s.hst.pageIns.filter fun p => p.frame / dieStride / 4 != q }
    fld := s.fld.forgetQuad q } := ⟨_, _, _, rfl⟩

theorem State.ctx?_poisonQuad {q : Nat} {c : CtxId} : (s.poisonQuad q).ctx? c = (s.ctx? c).map fun x => x.mapPtes (poisonPte q) :=
  State.ctx?_mapCtxs (s.zeroQuad q) c _

theorem State.cmd?_poisonQuad {q : Nat} {c : CtxId} {seq : Word} : (s.poisonQuad q).cmd? c seq =
    (s.cmd? c seq).map fun k => { k with versions := k.versions.map fun e => (e.1, poisonPte q e.2) } := by
  rw [State.cmd?, State.ctx?_poisonQuad, State.cmd?]
  cases s.ctx? c with
  | none => rfl
  | some x => exact Context.cmd?_mapPtes

/-! ## The requests to a quad (R360) -/

/-- The collectives of a group that touch the quad are lost. -/
def State.losing (s : State) (q : Nat) (g : Group) : Group :=
  { g with
    cols := g.cols.map fun k => if k.start.isSome && k.ending.isNone && s.touchesQuad g k q then { k with lost := true } else k }

def State.collectivesLost (s : State) (q : Nat) : State := { s with col := { s.col with groups := s.col.groups.map (s.losing q) } }

theorem State.dropRequests_of_held {q : Nat} {c : CtxId} {k : Cmd} (h : s.holderIn q = some (c, k)) :
    s.dropRequests q = (s.collectivesLost q).modCmd c k.seq fun k => { k with stalled := lostRequest :: k.stalled } := by
  rw [State.dropRequests, h]
  rfl

theorem State.dropRequests_of_free {q : Nat} (h : s.holderIn q = none) : s.dropRequests q = s.collectivesLost q := by
  rw [State.dropRequests, h]
  rfl

theorem State.dropRequests_frame {q : Nat} : ∃ ctxs, s.dropRequests q = { s.collectivesLost q with ctxs := ctxs } := by
  cases h : s.holderIn q with
  | none => exact ⟨_, State.dropRequests_of_free h⟩
  | some e => exact ⟨_, State.dropRequests_of_held h⟩

theorem State.pt_dropRequests {q : Nat} {c : CtxId} {x : Context} (hx : s.ctx? c = some x) :
    ∃ y, (s.dropRequests q).ctx? c = some y ∧ y.pt = x.pt := by
  cases h : s.holderIn q with
  | none => exact ⟨x, by rw [State.dropRequests_of_free h]; exact hx, rfl⟩
  | some e =>
    rw [State.dropRequests_of_held h]
    by_cases hc : c = e.1
    · subst hc
      exact ⟨_, State.ctx?_modCmd (s := s.collectivesLost q) hx, rfl⟩
    · exact ⟨x, (State.ctx?_modCtx_other (s.collectivesLost q) _ _ _ hc).trans hx, rfl⟩

theorem State.mem_collectivesLost {q : Nat} {g : GroupId} {k : Collective} (hk : k ∈ (s.group g).cols) (hstart : k.start.isSome = true)
    (hgoing : k.ending = none) (htouch : s.touchesQuad (s.group g) k q = true) :
    { k with lost := true } ∈ ((s.collectivesLost q).group g).cols := by
  have hgroup : (s.collectivesLost q).group g = s.losing q (s.group g) := vget_map _ s.col.groups g
  rw [hgroup]
  refine List.mem_map.2 ⟨k, hk, if_pos ?_⟩
  rw [hstart, hgoing]
  exact htouch

theorem State.pt_resetQuad {q : Nat} {c : CtxId} {x : Context} (hx : s.ctx? c = some x) :
    ∃ y, (s.resetQuad q).ctx? c = some y ∧ y.pt = x.pt.map fun e => (e.1, poisonPte q e.2) := by
  obtain ⟨y, hy, hpt⟩ := State.pt_dropRequests (q := q) hx
  refine ⟨y.mapPtes (poisonPte q), ?_, by rw [← hpt]; rfl⟩
  rw [State.resetQuad, State.ctx?_poisonQuad, hy]
  rfl

/-- The operation that runs on the quad waits for a page that does not come. -/
theorem State.cmd?_resetQuad_holder {q : Nat} {c : CtxId} {k : Cmd} (hheld : s.holderIn q = some (c, k)) (hk : s.cmd? c k.seq = some k) :
    ∃ j, (s.resetQuad q).cmd? c k.seq = some j ∧ j.stalled ≠ [] := by
  have hstalled : (s.dropRequests q).cmd? c k.seq = some { k with stalled := lostRequest :: k.stalled } := by
    rw [State.dropRequests_of_held hheld]
    exact State.cmd?_modCmd (s := s.collectivesLost q) (fun _ => rfl) hk
  rw [State.resetQuad, State.cmd?_poisonQuad, hstalled]
  exact ⟨_, rfl, List.cons_ne_nil _ _⟩

/-! ## Block resets (R359) -/

/-- TARGET and KIND of RST_BLK_RESET are written. -/
def State.blockAsked (s : State) (target : BitVec 5) (on : Bool) : State := { s with rst := { s.rst with blkTarget := target, blkKind := on } }

/-- The same, and the block reset runs. -/
def State.blockStarted (s : State) (target : BitVec 5) (on : Bool) : State :=
  { s with rst := { s.rst with blkTarget := target, blkKind := on, blkBusy := some (on, target.toNat) } }

theorem State.blockReset_of_refused (h : s.rst.blkBusy ≠ none ∨ (if on then 24 else 6) ≤ target.toNat) :
    s.blockReset target on = s.blockAsked target on := by
  refine if_pos ?_
  rw [Bool.or_eq_true, Option.isSome_iff_ne_none, decide_eq_true_eq]
  exact h

theorem State.blockReset_of_accepted (hidle : s.rst.blkBusy = none) (h : target.toNat < if on then 24 else 6) :
    s.blockReset target on = if on then (s.blockStarted target on).resetLink (linkOf target.toNat)
      else (s.blockStarted target on).resetQuad target.toNat := by
  refine if_neg ?_
  rw [Bool.or_eq_true, Option.isSome_iff_ne_none, decide_eq_true_eq, not_or, not_not]
  exact ⟨hidle, Nat.not_le_of_lt h⟩

theorem State.resetLink_eq : s.resetLink l =
    ((s.modLink l fun k => { k with control := [], queues := Vector.replicate 4 [] }).failLink l false).modLink l
      fun k => { k with light := (s.link l).light } := rfl

theorem State.resetLink_frame : ∃ lnk tkp evr, s.resetLink l = { s with lnk := lnk, tkp := tkp, evr := evr } := by
  rw [State.resetLink_eq, State.failLink_frame]
  exact ⟨_, _, _, rfl⟩

theorem State.link_resetLink_same : ((s.resetLink l).link l).state = lsDown ∧ ((s.resetLink l).link l).light = (s.link l).light := by
  rw [State.resetLink_eq, State.link_modLink_same]
  exact ⟨(congrArg Link.state State.link_failLink_same :), rfl⟩

theorem State.state_resetLink_other (h : m ≠ l) : ((s.resetLink l).link m).state = (s.link m).state := by
  rw [State.resetLink_eq, State.link_modLink_other _ _ _ _ h, State.state_failLink_other h, State.link_modLink_other _ _ _ _ h]

theorem State.blockResetDone_of_link (h : s.rst.blkBusy = some (true, l.val)) : s.blockResetDone =
    if (s.link l).light && !s.rst.lfence.getLsbD l.val && (s.link l).state == lsDown then
      State.train { s with rst := { s.rst with blkBusy := none } } l false
    else { s with rst := { s.rst with blkBusy := none } } := by
  rw [State.blockResetDone, h]
  dsimp only
  rw [linkOf_val]
  rfl

end

/-- Settles O48: a fence by the change of its bit, a drain by what is left in the domain, a block reset by its target. -/
theorem fencesAndBlockResets : Obligations.FencesAndBlockResets := by
  unfold Obligations.FencesAndBlockResets
  simp only [exec_hostFence, exec_rstLfence, exec_drainExpiry, exec_blockReset, exec_blockResetDone]
  refine ⟨fun s => ⟨fun h => congrArg _ (if_pos h), fun h => congrArg _ (if_neg (Bool.eq_false_iff.1 h))⟩, fun s l => ?linkFences,
    fun s works => ?drains, fun s l => ?dropped, fun s target k h => congrArg _ (State.blockReset_of_refused h),
    fun s target hidle hrange => ⟨_, rfl, ?quad⟩, fun s target hidle hrange => ⟨_, rfl, ?link⟩, fun s => ?done⟩
  case linkFences =>
    refine ⟨fun h => congrArg _ (State.linkFence_asked h), fun h => congrArg _ (State.linkFence_of_same h),
      fun h => congrArg _ (State.linkFence_of_same h), fun h hpend => ?_, fun h hpend => ?_⟩
    · rw [State.linkFence_lifted h, State.linkOut_eq h, hpend]; rfl
    · have hout : s.linkOut l = true := by rw [State.linkOut_eq h, hpend]; rfl
      rw [State.linkFence_lifted h, if_pos hout]
      refine ⟨fun hlight hreset => congrArg _ (if_pos ?_), fun hdark => congrArg _ (if_neg ?_)⟩
      · rw [hlight, Bool.true_and, bne_iff_ne]
        exact hreset
      · rw [Bool.and_eq_true, bne_iff_ne]
        rintro ⟨hlight, hreset⟩
        exact hdark.elim (fun hdark => absurd (hlight.symm.trans hdark) (by decide)) hreset
  case drains =>
    refine ⟨fun q hfenced hleft => congrArg _ (State.drainExpiry_of_left hfenced (State.drainLeft_of_works hleft)),
      fun hfenced hleft => congrArg _ (State.drainExpiry_of_left hfenced (State.drainLeft_of_works hleft)),
      fun l hfenced hleft => congrArg _ (State.drainExpiry_of_left hfenced (State.drainLeft_link.2 hleft)),
      fun q h => congrArg _ (State.drainExpiry_of_quiet (h.imp_right (congrArg (s.drainLeft (.quad q))))),
      fun h => congrArg _ (State.drainExpiry_of_quiet (h.imp_right (congrArg (s.drainLeft .host)))),
      fun l h => congrArg _ (State.drainExpiry_of_quiet (h.imp_right ?_))⟩
    rintro ⟨hworks, hqueued⟩
    rw [← Bool.not_eq_true, State.drainLeft_link]
    exact fun h => h.elim (absurd hworks) (absurd hqueued)
  case dropped =>
    rw [State.link_dropQueued]
    exact ⟨rfl, fun q => vget_replicate [] q, rfl, rfl, fun m hm => State.link_modLink_other s l m _ hm⟩
  case quad =>
    rw [State.blockReset_of_accepted hidle hrange, if_neg Bool.false_ne_true]
    obtain ⟨ctxs, hdrop⟩ := (s.blockStarted target false).dropRequests_frame (q := target.toNat)
    obtain ⟨ctxs', mem, snp, hpoison⟩ := ((s.blockStarted target false).dropRequests target.toNat).poisonQuad_frame (q := target.toNat)
    have hframe : (s.blockStarted target false).resetQuad target.toNat = _ := hpoison.trans (by rw [hdrop])
    refine ⟨by rw [hframe]; rfl, fun c x v hx hstate hplace => ?_, fun c x v hx hpage hplace => ?_, ?_, by rw [hframe]; rfl, by rw [hframe]; rfl,
      by rw [hframe]; rfl, fun g k hk hstart hgoing htouch => ?_, fun c k hheld x hx hk => ?_⟩
    · obtain ⟨y, hy, hpt⟩ := State.pt_resetQuad (s := s.blockStarted target false) (q := target.toNat) hx
      refine ⟨y, hy, ?_⟩
      rw [hpt, Assoc.getD_map poisonPte_zero]
      exact pteState_poisonPte hrange (inQuad_iff.2 ⟨hstate, hplace⟩)
    · obtain ⟨y, hy, hpt⟩ := State.pt_resetQuad (s := s.blockStarted target false) (q := target.toNat) hx
      refine ⟨y, hy, ?_⟩
      rw [hpt, Assoc.get?_map, Assoc.getD_of_ne_none hpage, Option.map_some, poisonPte_of_other hplace]
    · rw [hframe]
      exact fun p hp => ⟨(List.mem_filter.1 hp).1, bne_iff_ne.1 (List.mem_filter.1 hp).2⟩
    · rw [hframe]
      exact State.mem_collectivesLost (s := s.blockStarted target false) hk hstart hgoing htouch
    · exact State.cmd?_resetQuad_holder (s := s.blockStarted target false) hheld (State.cmd?_eq_some_iff.2 ⟨x, hx, hk⟩)
  case link =>
    rw [State.blockReset_of_accepted hidle hrange, if_pos rfl]
    obtain ⟨lnk, tkp, evr, hframe⟩ := (s.blockStarted target true).resetLink_frame (l := linkOf target.toNat)
    obtain ⟨hdown, hlight⟩ := (s.blockStarted target true).link_resetLink_same (l := linkOf target.toNat)
    exact ⟨by rw [hframe]; rfl, hdown, hlight, fun m hm => State.state_resetLink_other hm,
      by rw [hframe]; rfl, by rw [hframe]; rfl, by rw [hframe]; rfl⟩
  case done =>
    refine ⟨fun h => ?_, fun q h => ?_, fun l h => ?_⟩
    · rw [State.blockResetDone, h]
    · rw [State.blockResetDone, h]
    · rw [State.blockResetDone_of_link h]
      refine ⟨fun hlight hopen hdown => congrArg _ (if_pos ?_), fun hstays => congrArg _ (if_neg ?_)⟩
      · rw [hlight, hopen, hdown]; rfl
      · rw [Bool.and_eq_true, Bool.and_eq_true, Bool.not_eq_true', beq_iff_eq]
        rintro ⟨⟨hlight, hopen⟩, hdown⟩
        rcases hstays with h | h | h
        · exact absurd (hlight.symm.trans h) (by decide)
        · exact absurd (hopen.symm.trans h) (by decide)
        · exact h hdown

end Sys2Proof.Machine
